-- ==== Sys2Proof/Word.lean ====
section
/-! DEFINITION. Word and byte types, little-endian bit-field access on any width, and the sparse table every indexed
piece of state is held in. Rules: conventions of 00_scope.md (multi-byte fields are little-endian; [msb:lsb] ranges). -/

namespace Sys2Proof

/-- A general register or control word of a Garnil thread (Table 2.1). -/
abbrev Word := BitVec 64
/-- A unit register (R445: every register is 32 bits wide). -/
abbrev W32 := BitVec 32
/-- The smallest addressable unit. -/
abbrev Byte := BitVec 8
/-- A 64-byte queue item; byte `i` is bits [8i+7:8i], so multi-byte fields read little-endian. A DRAM line has the same shape. -/
abbrev Item := BitVec 512
/-- A 96-bit stamp as an item carries it: seconds in [63:0], fraction in [95:64] (R265). -/
abbrev Stamp := BitVec 96

/-- `n` bits of `v` from bit `lo`. -/
def fld {w : Nat} (v : BitVec w) (lo n : Nat) : BitVec n := BitVec.ofNat n (v.toNat >>> lo)

/-- `v` with its `n` bits from bit `lo` replaced by `x`. -/
def setFld {w n : Nat} (v : BitVec w) (lo : Nat) (x : BitVec n) : BitVec w :=
  let m : BitVec w := (BitVec.setWidth w (BitVec.allOnes n)) <<< lo
  (v &&& ~~~m) ||| ((BitVec.setWidth w x) <<< lo)

/-- Bytes `i` to `i + n - 1` of a little-endian value, as one number. -/
def bytesAt {w : Nat} (v : BitVec w) (i n : Nat) : BitVec (8 * n) := fld v (8 * i) (8 * n)

/-- `v` with bytes `i` to `i + n - 1` replaced. -/
def setBytes {w : Nat} (v : BitVec w) (i n : Nat) (x : BitVec (8 * n)) : BitVec w := setFld v (8 * i) x

/-- Bit `k` of `v`. -/
def bit {w : Nat} (v : BitVec w) (k : Nat) : Bool := v.getLsbD k

/-- One bit as a `BitVec 1`-like number of width `n`. -/
def ofBool (n : Nat) (b : Bool) : BitVec n := BitVec.ofNat n (if b then 1 else 0)

/-- The little-endian number a byte list spells. -/
def natOfBytes : List Byte → Nat
  | [] => 0
  | b :: bs => b.toNat + 256 * natOfBytes bs

/-- The `n` low bytes of a number, lowest first. -/
def bytesOfNat : Nat → Nat → List Byte
  | 0, _ => []
  | n + 1, v => BitVec.ofNat 8 v :: bytesOfNat n (v / 256)

/-- The bytes of a bit vector of `8 * n` or more bits, lowest first. -/
def bytesOf {w : Nat} (n : Nat) (v : BitVec w) : List Byte := bytesOfNat n v.toNat

/-- `n` bytes of a list from position `i`, zero past its end. -/
def takeBytes (bs : List Byte) (i n : Nat) : Nat := natOfBytes ((bs.drop i).take n)

/-- A sparse table: keys strictly rising, no entry equal to the default an unlisted key reads as. -/
abbrev Tab (α : Type) := List (Nat × α)

/-- The value at key `k`; `d` where the table lists none. -/
def Tab.get {α : Type} (d : α) : Tab α → Nat → α
  | [], _ => d
  | (j, v) :: t, k => if j = k then v else Tab.get d t k

/-- Insert or replace the entry at `k`, keeping the keys rising. -/
def Tab.insert {α : Type} (v : α) : Tab α → Nat → Tab α
  | [], k => [(k, v)]
  | (j, w) :: t, k =>
    if j = k then (k, v) :: t else if k < j then (k, v) :: (j, w) :: t else (j, w) :: Tab.insert v t k

/-- Drop every entry at `k`. -/
def Tab.erase {α : Type} : Tab α → Nat → Tab α
  | [], _ => []
  | (j, w) :: t, k => if j = k then Tab.erase t k else (j, w) :: Tab.erase t k

/-- Write `v` at `k`: an entry equal to the default is removed, so equal tables are equal data. -/
def Tab.set {α : Type} [DecidableEq α] (d : α) (t : Tab α) (k : Nat) (v : α) : Tab α :=
  if v = d then Tab.erase t k else Tab.insert v t k

/-- A table with `f` applied to every entry, for an `f` that keeps the default. -/
def Tab.mapVal {α : Type} [DecidableEq α] (d : α) (f : α → α) (t : Tab α) : Tab α :=
  (t.map (fun p => (p.1, f p.2))).filter (fun p => decide (p.2 ≠ d))

/-- The canonical form: keys strictly rising from `lo`, no entry equal to the default. -/
def Tab.wfFrom {α : Type} [DecidableEq α] (d : α) : Nat → Tab α → Bool
  | _, [] => true
  | lo, (k, v) :: t => decide (lo ≤ k) && decide (v ≠ d) && Tab.wfFrom d (k + 1) t

/-- The canonical form of a table. -/
def Tab.wf {α : Type} [DecidableEq α] (d : α) (t : Tab α) : Bool := Tab.wfFrom d 0 t

end Sys2Proof
end

