-- ==== Sys2Proof/Syntax.lean ====
section
/-! DEFINITION. The commands of the block: one constructor of `Instr` per row of spec/opcode_table.json, with the operands
the row's rule gives it. A Garnil row carries the issuing thread and its predicate field (R31, R32); an event row carries
what the outside world decides (the bits received, the level of a pin), and nothing the block's own state decides. -/

namespace Sys2Proof

/-- An initiator of register and fabric accesses (Tables 4.8 and 18.2). `hw u` is fabric initiator `u` without an agent. -/
inductive Init where
  | thread (t : Fin 128)
  | sup
  | host
  | spi
  | i2c
  | twin
  | tree
  | hw (u : Fin 14)
deriving DecidableEq, Repr

/-- What executes a Garnil instruction: an engine thread, numbered as its agent (R63), or the supervisor. -/
inductive Who where
  | thread (t : Fin 128)
  | sup
deriving DecidableEq, Repr

/-- The fields every Garnil instruction shares: who issues it, `psel` and `pneg` (Table 2.3). -/
structure Ix where
  who  : Who
  psel : Fin 8
  pneg : Bool
deriving DecidableEq, Repr

/-- How a compare combines its condition into pd (R36, rd[21:20] = 00, 01, 10). -/
inductive Comb where
  | set | and | or
deriving DecidableEq, Repr

/-- The conditions CMPI can name (Table 2.4). -/
inductive CmpiCond where
  | eq | ne | lt | ltu
deriving DecidableEq, Repr

/-- The address space of a sized access (Table 2.7, minor[1:0]). -/
inductive Space where
  | scratch | record | fabric
deriving DecidableEq, Repr

/-- The access sizes of Table 2.7: 1, 2, 4 or 8 bytes. -/
inductive Size where
  | b1 | b2 | b4 | b8
deriving DecidableEq, Repr

/-- The types of LDSX (Table 2.7, imm[11:9]). -/
inductive LType where
  | u8 | u16 | u32 | d64 | s8 | s16 | s32
deriving DecidableEq, Repr

/-- The types of STSX: those of LDSX that are not loads only. -/
inductive SType where
  | u8 | u16 | u32 | d64
deriving DecidableEq, Repr

/-- The register kinds of LADD's minors 0x00 to 0x03 (Table 2.16). -/
inductive LKind where
  | mass | volume | energy | aux
deriving DecidableEq, Repr

abbrev GReg := Fin 32
abbrev AReg := Fin 4
abbrev PReg := Fin 8

/-- What a raw read of a DRAM line finds before correction: the bit errors the line holds (R362, R363). -/
inductive LineCond where
  | clean | oneBit | many
deriving DecidableEq, Repr

/-- A received PLC frame as the receiver front end hands it over: the 48-bit FCH, the payload decoded into a PSDU (empty
where the payload could not be decoded or the frame has none), the phase it was received on, the mean SNR over the used
tones in 0.25 dB, the per-tone SNR in dB of the plan's tones, and the sub-edge part of the stamp point in 1/32 edge (R215, R220,
R223, R268). -/
structure PlcRx where
  fch    : BitVec 48
  psdu   : List Byte
  phase  : Fin 3
  snr    : Byte
  tones  : List (Fin 64)
  sub    : Fin 32
deriving DecidableEq, Repr

/-- A power-line port and what its carrier sense finds at the instant a frame is to start (R229). -/
structure PlcSense where
  port : Fin 2
  busy : Bool
deriving DecidableEq, Repr

/-- A received radio frame at its end: its PHR, whether it was sent with FEC, the PSDU (FCS included), received power in 0.5 dB units,
sub-edge part of the stamp point in 1/32 edge, and the octets of its preamble (R242, R244, R249). -/
structure RfRx where
  phr      : BitVec 16
  fec      : Bool
  psdu     : List Byte
  power    : Byte
  sub      : Fin 32
  preamble : Nat
deriving DecidableEq, Repr

/-- One received wired character: its octet, the silence before it in bit times, and its line errors (R259 to R261). -/
structure WirChar where
  octet  : Byte
  gap    : Nat
  parErr : Bool
  frmErr : Bool
deriving DecidableEq, Repr

/-- What a die-bridge transfer carries: the samples of one custody point, edges of one pulse input, converter samples of one power-line
port (R13, R130). -/
inductive BridgeLoad where
  | point (point : Fin 32)
  | edges (inp : Fin 64)
  | converter (n : Fin 2)
deriving DecidableEq, Repr

/-- What the line delivered since the last frame ended: its characters in order, whether it was then held at space for two character
times or more, the first start bit in edges before now, and the silence since the last character in bit times (R260, R261, Table 1.4). -/
structure WirRx where
  chars : List WirChar
  space : Bool
  ago   : Nat
  idle  : Nat
deriving DecidableEq, Repr

/-- A wired port and how many bit times its line has been idle (R263). -/
structure WirSense where
  port : Fin 6
  idle : Nat
deriving DecidableEq, Repr

/-- A received Ethernet frame: the octets from the destination address to the last before the FCS, whether the FCS holds,
and the sub-edge part of the stamp point (R268, R282). -/
structure EthRx where
  octets : List Byte
  fcsOk  : Bool
  sub    : Fin 32
deriving DecidableEq, Repr

/-- The two items of a received heartbeat frame, the port it came in on, and the sub-edge part of its stamp point (R268, R286). -/
structure HbRx where
  port    : Fin 4
  hbtime  : Item
  hbstate : Item
  sub     : Fin 32
deriving DecidableEq, Repr

/-- A Spindle FRAME message: item bytes 0-23 and 32-35, the payload bytes 40-63, priority, PSDU and digest (R303, R305). -/
structure FrameMsg where
  item   : Item
  prio   : Fin 8
  psdu   : List Byte
  digest : W32
deriving DecidableEq, Repr

/-- A Spindle HB message (Table 13.1): control-plane state, CUR, NEXT, TWN_CUSTOWN, last accepted checkpoint, journal position. -/
structure HbMsg where
  cpstate : BitVec 2
  cur     : W32
  next    : W32
  custown : W32
  ckNum   : W32
  jpos    : Word
deriving DecidableEq, Repr

/-- A Spindle BLOCK message: a custody block record with its slot sequence, or a pulse item (R306). -/
inductive BlockMsg where
  | block (point : Fin 32) (bseq : W32) (record : List Byte) (item : Item)
  | pulse (input : Fin 64) (item : Item)
deriving DecidableEq, Repr

/-- A Spindle CFG message: the twin's ARM with NEXT and B, its READY with digest, or its abort (Table 13.1, R296, R298). -/
inductive CfgMsg where
  | arm (next : W32) (b : Word)
  | ready (next : W32) (b : Word) (digest : BitVec 384)
  | abort (next : W32)
deriving DecidableEq, Repr

/-- A journal entry as JOURNAL carries it: the 128 bytes of Table 13.6. -/
abbrev JEntry := BitVec 1024

/-- Accumulators of a node in an interval (R181). -/
structure Acc where
  inn   : Int := 0
  out   : Int := 0
  var   : Nat := 0
  qany  : BitVec 16 := 0#16
  posts : W32 := 0#32
  setsum : Word := 0#64
  finals : Nat := 0
  revpt : W32 := 0#32
deriving DecidableEq, Repr

/-- A part of the state a STREAM message carries (R327). -/
inductive StreamMsg where
  /-- a line of DRAM -/
  | line (addr : Nat) (data : List Byte)
  /-- what the model holds beside DRAM of BAL's work region and of the working profile lines: accumulators and S (with the CRC of its
  node record) by interval x 65,536 + node, the state table, the FINAL quantity postings, the bits of the open lines -/
  | work (accs : Tab Acc) (cus : Tab (Option (Word × W32))) (states : List (Nat × Nat × Word × Word)) (finals : List (Nat × Nat))
      (pw : Tab W32)
deriving DecidableEq, Repr

/-- The outcome of an outside I2C slave or competing controller for one attempt of a controller transaction: the bit index
at which arbitration was lost, a NACK, or completion with the bytes read (R412, R414). -/
inductive I2cBus where
  | lost (bit : BitVec 12)
  | nack
  | done (rdata : List Byte)
deriving DecidableEq, Repr

/-- The JTAG instructions R438 names. -/
inductive Jtag where
  | bypass | idcode | sample | extest | clamp | other
deriving DecidableEq, Repr

/-- The tamper inputs of R391. -/
inductive Tamper where
  | cover | seal | magnet
deriving DecidableEq, Repr

/-- A participant's answer to PREPARE (R296 step 4): its 48-byte shadow digest with READY, or the status it refuses with. -/
inductive PartAns where
  | ready (digest : BitVec 384)
  | refuse (code : Byte)
deriving DecidableEq, Repr

/-- The commands. -/
inductive Instr where
  -- Integer (R35, Table 2.5)
  | add (x : Ix) (rd ra rb : GReg)
  | sub (x : Ix) (rd ra rb : GReg)
  | and (x : Ix) (rd ra rb : GReg)
  | or (x : Ix) (rd ra rb : GReg)
  | xor (x : Ix) (rd ra rb : GReg)
  | andn (x : Ix) (rd ra rb : GReg)
  | sll (x : Ix) (rd ra rb : GReg)
  | srl (x : Ix) (rd ra rb : GReg)
  | sra (x : Ix) (rd ra rb : GReg)
  | ror (x : Ix) (rd ra rb : GReg)
  | mul (x : Ix) (rd ra rb : GReg)
  | mulh (x : Ix) (rd ra rb : GReg)
  | mulhu (x : Ix) (rd ra rb : GReg)
  | div (x : Ix) (rd ra rb : GReg)
  | divu (x : Ix) (rd ra rb : GReg)
  | rem (x : Ix) (rd ra rb : GReg)
  | remu (x : Ix) (rd ra rb : GReg)
  | min (x : Ix) (rd ra rb : GReg)
  | max (x : Ix) (rd ra rb : GReg)
  | minu (x : Ix) (rd ra rb : GReg)
  | maxu (x : Ix) (rd ra rb : GReg)
  | clz (x : Ix) (rd ra : GReg)
  | ctz (x : Ix) (rd ra : GReg)
  | popc (x : Ix) (rd ra : GReg)
  | bswap (x : Ix) (rd ra : GReg)
  | sxb (x : Ix) (rd ra : GReg)
  | sxh (x : Ix) (rd ra : GReg)
  | sxw (x : Ix) (rd ra : GReg)
  | zxw (x : Ix) (rd ra : GReg)
  | bfx (x : Ix) (rd ra rb : GReg)
  -- Immediates (R31, Table 2.4)
  | addi (x : Ix) (rd ra : GReg) (imm : BitVec 12)
  | andi (x : Ix) (rd ra : GReg) (imm : BitVec 12)
  | ori (x : Ix) (rd ra : GReg) (imm : BitVec 12)
  | xori (x : Ix) (rd ra : GReg) (imm : BitVec 12)
  | slli (x : Ix) (rd ra : GReg) (sh : BitVec 6)
  | srli (x : Ix) (rd ra : GReg) (sh : BitVec 6)
  | srai (x : Ix) (rd ra : GReg) (sh : BitVec 6)
  | rori (x : Ix) (rd ra : GReg) (sh : BitVec 6)
  -- Compares (R36)
  | cmpi (x : Ix) (c : CmpiCond) (pd : PReg) (ra : GReg) (imm : BitVec 12)
  | cmpEq (x : Ix) (k : Comb) (pd : PReg) (ra rb : GReg)
  | cmpNe (x : Ix) (k : Comb) (pd : PReg) (ra rb : GReg)
  | cmpLt (x : Ix) (k : Comb) (pd : PReg) (ra rb : GReg)
  | cmpGe (x : Ix) (k : Comb) (pd : PReg) (ra rb : GReg)
  | cmpLtu (x : Ix) (k : Comb) (pd : PReg) (ra rb : GReg)
  | cmpGeu (x : Ix) (k : Comb) (pd : PReg) (ra rb : GReg)
  | cmpTst (x : Ix) (k : Comb) (pd : PReg) (ra rb : GReg)
  | lui (x : Ix) (rd : GReg) (imm : BitVec 17)
  | ldl (x : Ix) (rd : GReg) (imm : BitVec 17)
  | mfc (x : Ix) (rd : GReg) (cw : Fin 64)
  | mtc (x : Ix) (ra : GReg) (cw : Fin 64)
  | pmov (x : Ix) (pd pa : PReg)
  | pand (x : Ix) (pd pa pb : PReg)
  | por (x : Ix) (pd pa pb : PReg)
  | pxor (x : Ix) (pd pa pb : PReg)
  | pnot (x : Ix) (pd pa : PReg)
  | pget (x : Ix) (rd : GReg)
  | pput (x : Ix) (ra : GReg)
  -- Control flow (R34)
  | br (x : Ix) (imm : BitVec 17)
  | call (x : Ix) (rd : GReg) (imm : BitVec 17)
  | jr (x : Ix) (ra : GReg)
  | jalr (x : Ix) (rd ra : GReg)
  -- Loads, stores, copies (Table 2.7)
  | lds (x : Ix) (rd ra : GReg) (imm : BitVec 12)
  | sts (x : Ix) (rd ra : GReg) (imm : BitVec 12)
  | ldr (x : Ix) (rd ra : GReg) (imm : BitVec 12)
  | str (x : Ix) (rd ra : GReg) (imm : BitVec 12)
  | ldf (x : Ix) (rd ra : GReg) (imm : BitVec 12)
  | stf (x : Ix) (rd ra : GReg) (imm : BitVec 12)
  | ldx (x : Ix) (sp : Space) (sz : Size) (sext : Bool) (rd ra rb : GReg)
  | stx (x : Ix) (sp : Space) (sz : Size) (rd ra rb : GReg)
  | ldsx (x : Ix) (ty : LType) (rd ra : GReg) (imm : BitVec 9)
  | stsx (x : Ix) (ty : SType) (rd ra : GReg) (imm : BitVec 9)
  | bcpyFs (x : Ix) (rd ra rb : GReg)
  | bcpySf (x : Ix) (rd ra rb : GReg)
  | bcpyRs (x : Ix) (rd ra rb : GReg)
  | bcpySr (x : Ix) (rd ra rb : GReg)
  | bcpySs (x : Ix) (rd ra rb : GReg)
  -- Accumulators (Table 2.8)
  | aclr (x : Ix) (ad : AReg)
  | amov (x : Ix) (ad : AReg) (ra : GReg)
  | aadd (x : Ix) (ad : AReg) (ra : GReg)
  | asub (x : Ix) (ad : AReg) (ra : GReg)
  | amac (x : Ix) (ad : AReg) (ra rb : GReg)
  | amacu (x : Ix) (ad : AReg) (ra rb : GReg)
  | aadda (x : Ix) (ad as : AReg)
  | asuba (x : Ix) (ad as : AReg)
  | aglo (x : Ix) (rd : GReg) (as : AReg)
  | aghi (x : Ix) (rd : GReg) (as : AReg)
  | aslo (x : Ix) (ad : AReg) (ra : GReg)
  | ashi (x : Ix) (ad : AReg) (ra : GReg)
  | ald (x : Ix) (ad : AReg) (ra : GReg)
  | ast (x : Ix) (ad : AReg) (ra : GReg)
  | asra (x : Ix) (ad : AReg) (k : Fin 32)
  | ftoa (x : Ix) (ad : AReg) (ra : GReg) (k : Fin 32)
  | atof (x : Ix) (rd : GReg) (as : AReg) (k : Fin 32)
  -- Binary64 (Table 2.9)
  | fadd (x : Ix) (rd ra rb : GReg)
  | fsub (x : Ix) (rd ra rb : GReg)
  | fmul (x : Ix) (rd ra rb : GReg)
  | fdiv (x : Ix) (rd ra rb : GReg)
  | fsqrt (x : Ix) (rd ra : GReg)
  | fma (x : Ix) (rd ra rb : GReg)
  | fmin (x : Ix) (rd ra rb : GReg)
  | fmax (x : Ix) (rd ra rb : GReg)
  | fabs (x : Ix) (rd ra : GReg)
  | fneg (x : Ix) (rd ra : GReg)
  | fcvtif (x : Ix) (rd ra : GReg)
  | fcvtfi (x : Ix) (rd ra : GReg)
  | fceq (x : Ix) (k : Comb) (pd : PReg) (ra rb : GReg)
  | fclt (x : Ix) (k : Comb) (pd : PReg) (ra rb : GReg)
  | fcle (x : Ix) (k : Comb) (pd : PReg) (ra rb : GReg)
  | fcun (x : Ix) (k : Comb) (pd : PReg) (ra rb : GReg)
  -- Queues and tasks (Table 2.10)
  | qtake (x : Ix) (rd ra rb : GReg)
  | qput (x : Ix) (rd ra rb : GReg)
  | qpeek (x : Ix) (rd ra rb : GReg)
  | tcommit (x : Ix)
  | tabort (x : Ix) (ra : GReg)
  | yield (x : Ix)
  | waitt (x : Ix) (rd ra : GReg)
  | waitq (x : Ix) (rd ra rb : GReg)
  | waitl (x : Ix) (rd ra rb : GReg)
  | waitEnd (who : Who)
  -- Time and ordering (Table 2.12)
  | tstamp (x : Ix) (rd : GReg) (dom : Fin 32)
  | tscmp (x : Ix) (rd ra rb : GReg)
  | tssub (x : Ix) (rd ra rb : GReg)
  | idchk (x : Ix) (rd ra rb : GReg)
  | iddone (x : Ix) (rd ra rb : GReg)
  | lkacq (x : Ix) (rd ra : GReg)
  | lkrel (x : Ix) (ra : GReg)
  -- Crypto and CRC (Table 2.14)
  | ccmopen (x : Ix) (rd ra : GReg)
  | ccmseal (x : Ix) (rd ra : GReg)
  | gcmopen (x : Ix) (rd ra : GReg)
  | hash (x : Ix) (rd ra : GReg)
  | crc16i (x : Ix) (rd ra rb : GReg)
  | crc16m (x : Ix) (rd ra rb : GReg)
  | crc16b (x : Ix) (rd ra rb : GReg)
  | crc32e (x : Ix) (rd ra rb : GReg)
  | crc32c (x : Ix) (rd ra rb : GReg)
  -- Metrology (Table 2.15)
  | if97VPt (x : Ix) (rd ra rb : GReg)
  | if97HPt (x : Ix) (rd ra rb : GReg)
  | if97SPt (x : Ix) (rd ra rb : GReg)
  | if97CpPt (x : Ix) (rd ra rb : GReg)
  | if97KappaPt (x : Ix) (rd ra rb : GReg)
  | if97WPt (x : Ix) (rd ra rb : GReg)
  | if97TsatP (x : Ix) (rd ra : GReg)
  | if97PsatT (x : Ix) (rd ra : GReg)
  | if97VgP (x : Ix) (rd ra : GReg)
  | if97HgP (x : Ix) (rd ra : GReg)
  | if97VfP (x : Ix) (rd ra : GReg)
  | if97HfP (x : Ix) (rd ra : GReg)
  | isocd (x : Ix) (rd ra rb : GReg)
  | tbli (x : Ix) (rd ra rb : GReg)
  | sqacc (x : Ix) (ad : AReg) (ra rb : GReg)
  -- Ledger, balance, events (Table 2.16)
  | ladd (x : Ix) (k : LKind) (ad : AReg) (ra rb : GReg)
  | lread (x : Ix) (ad : AReg) (ra rb : GReg)
  | balpost (x : Ix) (rd ra rb : GReg)
  | evpost (x : Ix) (rd ra : GReg) (imm : BitVec 12)
  -- Supervisor class (Table 2.17)
  | fencea (x : Ix) (ra : GReg)
  | unfence (x : Ix) (ra : GReg)
  | revoke (x : Ix) (rd ra rb : GReg)
  | seqopen (x : Ix) (rd ra : GReg)
  | seqclose (x : Ix) (rd ra rb : GReg)
  | agreset (x : Ix) (ra : GReg)
  | iret (x : Ix)
  | wfi (x : Ix)
  | evposts (x : Ix) (ra rb : GReg)
  | unassignedEncoding (who : Who) (w : W32)
  | supInterrupt
  -- Engines and queues (03)
  | dispatch (t : Fin 128)
  | taskWatchdogExpiry (t : Fin 128)
  | qmStarveExpiry (q : BitVec 16)
  | ingressFifoArrival (fifo : Fin 18) (prio : Fin 8) (body : Item) (sub : Fin 32)
  | fifoDrain (fifo : Fin 18)
  | descriptorRead (i : Init)
  | descriptorCreate (i : Init)
  | descriptorWrite (i : Init)
  | descriptorDelete (i : Init)
  | createZeroFillDone
  | qmRplGo (i : Init) (v : W32)
  | queueReplayDone
  | geFltPop (i : Init) (v : W32)
  -- Ordering (04)
  | mergeWindowExpiry (ctx : Fin 1024)
  | ordMcfgWrite (i : Init) (v : W32)
  | ordMqWrite (i : Init) (v : W32)
  | ccSweep
  | ordCcRepair (i : Init) (v : W32)
  | quarantineExpiry
  | lockHoldWarning (l : Fin 4096)
  | ordSeqOpen (i : Init) (v : W32)
  | ordSeqClose (i : Init) (v : W32)
  | seqWrite (i : Init) (off : BitVec 24) (v : W32)
  | sequenceTimeout (n : BitVec 16)
  -- Custody inputs (05)
  | dieBridgeTransfer (load : BridgeLoad) (crcOk : Bool)
  | decimatedSample (ch : Fin 96) (x : Int) (theta : BitVec 16) (openLead : Bool)
  | blockClose (point : Fin 32)
  | afeChcfgWrite (i : Init) (v : W32)
  | calibrationVerdict (point : Fin 32)
  | rtdLowPointExpiry (ch : Fin 96)
  | pulseEdge (inp : Fin 64) (rising : Bool)
  | pulseSecondItem (inp : Fin 64)
  -- Flow unit loads (06)
  | flwSldcmd (i : Init) (v : W32)
  | flwSapwoodLoadDone
  -- Balance engine (07)
  | balTopcmd (i : Init) (v : W32)
  | balTopologyLoadDone
  | balIntervalClose
  | balDeferredClose
  | balRevisionBoundary
  | balIntervalFinal
  | balCusrst (i : Init) (v : W32)
  | balOutputRetry
  -- Ledger unit (08)
  | ldgSnapcmd (i : Init) (v : W32)
  | snapshotDone
  | profileRecordForm
  | profileRetentionDiscard
  | legalShowAssert
  | legalShowPage
  | legalShowEnd
  -- Power-line ports (09)
  | plcFrameReceive (n : Fin 2) (f : PlcRx)
  | plcAckSend (n : Fin 2)
  | plcTxTake (c : PlcSense)
  | plcAckTimeout (c : PlcSense)
  | plcTxEnd (n : Fin 2)
  | toneMapRefresh (c : PlcSense) (entry : Fin 2048)
  | zeroCrossing (n : Fin 2) (phase : Fin 3) (rising : Bool)
  | zeroCrossingLoss (n : Fin 2)
  | superframeStart (n : Fin 2)
  | beaconArm (n : Fin 2)
  | beaconCover (n : Fin 2) (energy : Bool)
  | neutralMissing (n : Fin 2) (v1 v2 v3 : BitVec 16)
  | neutralClear (n : Fin 2) (v1 v2 v3 : BitVec 16)
  | plcNeighbourWrite (n : Fin 2) (i : Init) (v : W32)
  -- Radio ports (10)
  | rfFrameReceive (n : Fin 2) (f : RfRx)
  | rfAckSend (n : Fin 2)
  | rfTxTake (n : Fin 2)
  | rfCcaDone (n : Fin 2) (powerDbfs : Int)
  | rfBackoffExpiry (n : Fin 2)
  | rfTrainCopy (n : Fin 2)
  | rfAckTimeout (n : Fin 2)
  | rfTxEnd (n : Fin 2)
  | rfFespi (n : Fin 2) (i : Init) (v : W32)
  | rfFespiDone (n : Fin 2) (rdata : BitVec 16)
  | rfIqStall (n : Fin 2)
  -- Wired ports (10)
  | wirFrameEnd (n : Fin 6) (f : WirRx)
  | wirTxStart (c : WirSense)
  | wirTxDone (n : Fin 6)
  -- Timebase (11)
  | tbIncrWrite (i : Init) (domB : Bool) (v : W32)
  | tbStepApply (domB : Bool)
  | tbSelWrite (i : Init) (v : W32)
  | tbAutoSwitch
  | tbQualWrite (i : Init) (domB : Bool) (v : W32)
  | qualityDecay (domB : Bool)
  | refclkLoss
  | refclkReturn
  | tbSnap (i : Init) (v : W32)
  -- Ethernet and tree (12)
  | ethFrameReceive (n : Fin 4) (f : EthRx)
  | treeFrameSend (n : Fin 4)
  | packwaitExpiry (n : Fin 4)
  | ethRawTx (n : Fin 4)
  | ethRawTxDone (n : Fin 4)
  | ethLinkDown (n : Fin 4)
  | ethLinkUp (n : Fin 4)
  | heartbeatSend
  | heartbeatReceive (h : HbRx)
  | managerLoss
  | childLoss (idx : Fin 16)
  | configGraceExpiry (idx : Fin 16) (twinB : Bool)
  | treRoleWrite (i : Init) (v : W32)
  | treXdataWrite (i : Init) (k : Fin 5) (v : W32)
  -- Configuration epochs (12)
  | arm (i : Init) (whenSel : BitVec 2)
  | cancel (i : Init)
  | cfgPrepare
  | participantReady (p : Fin 7) (a : PartAns)
  | cfgSwrdy (i : Init) (v : W32)
  | epochSwitch
  -- Spindle and twin (13)
  | spindleHbSend
  | spindleHbReceive (m : HbMsg)
  | twinLoss
  | spindleLinkTrained
  | spindleLaneDown (lane1 : Bool)
  | spnFrameReceive (m : FrameMsg)
  | pairwinExpiry
  | blockMessageReceive (m : BlockMsg)
  | beaconMessageReceive (n : Fin 2) (sfn : W32) (psdu : List Byte)
  | begunReceive (n : Fin 2) (sfn : W32)
  | cfgMessageReceive (m : CfgMsg)
  | replayRequest (point : W32) (pseq : BitVec 48)
  | leaseExpiry
  | twnHlease (i : Init) (v : W32)
  | handover (i : Init)
  | ckpt (i : Init)
  | checkpointCapture
  | checkpointReceive (hdr : BitVec 1024) (body : List Byte)
  | ckackReceive (num : W32)
  | journalReceive (es : List JEntry)
  | journalAck (pos : Word)
  | promotion
  | streamReceive (m : StreamMsg)
  | streamEndMarker
  | streamTimeout
  -- Vault (14)
  | secMrext (i : Init) (v : W32)
  | secAtcmd (i : Init) (v : W32)
  | attestationDone
  -- Updates (15)
  | huskVerify (i : Init) (recon : Bool)
  | huskVerifyDone
  | discard (i : Init) (kind : Byte) (clusters : BitVec 4)
  | revert (i : Init) (kind : Byte) (clusters : BitVec 4) (recon : Bool)
  | handoverDrainEnd (bad : BitVec 4)
  | drainwarnExpiry
  -- NAND store (16)
  | nandRead
  | nandReadDone (bad : List Nat) (rebuilt : List Nat)
  | nandWrite
  | trim
  | flush
  | stripeClose (grp : Fin 16)
  | dieFailure (die : Fin 64)
  | rebuildDone
  | mapCheckpoint
  | nftMapLoaded
  | nftFormat (i : Init) (v : W32)
  -- DRAM (16)
  | dramLineRead (i : Init) (line : BitVec 28) (c : LineCond)
  | dramLineWrite (i : Init) (line : BitVec 28) (v : Item)
  | dramPartialWrite (i : Init) (line : BitVec 28) (first : Fin 64) (data : List Byte) (c : LineCond)
  | scrubLine (line : BitVec 28) (c : LineCond) (written : Bool)
  | memScrubWrite (i : Init) (v : W32)
  -- Power and backup domain (17)
  | run (i : Init)
  | economy (i : Init)
  | listen (i : Init)
  | retention (i : Init)
  | offWithBackup (i : Init)
  | pwrTransitionDone
  | mainSupplyLost (below : BitVec 3)
  | coldReset
  | warmReset
  | pcieReset
  | vbatLow (mv : BitVec 16)
  | backupDomainStop
  | evrRtcset (i : Init) (v : W32)
  | rtcSetApply
  | operatingSecond (mainThroughout : Bool)
  | tamperInputChange (inp : Tamper) (low : Bool)
  | evrAlertWrite (i : Init) (v : W32)
  | tokenRefill (code : BitVec 16)
  | evrRldataWrite (i : Init) (v : W32)
  | evrFreeze (i : Init)
  | evrRelease (i : Init)
  | freezeTimeout
  | evrCpycmd (i : Init) (v : W32)
  | areaCopyDone
  -- Host, fabric, mailboxes, counters (18)
  | itemPortPcieWrite (prio : Fin 8) (body : Item)
  | itemPortWordWrite (viaI2c : Bool) (off : BitVec 9) (v : W32)
  | itemPortTimeout
  | outboundTimeout (i : Init) (addr : BitVec 34)
  | hstErrpop (i : Init) (v : W32)
  | spiRead (addr : BitVec 40) (words : Fin 65)
  | spiWrite (addr : BitVec 40) (data : List W32)
  | spiStatus
  | i2cTargetWrite (off : BitVec 24) (data : List W32)
  | i2cTargetRead (off : BitVec 24) (words : Nat)
  | i2cSclTimeout
  | go (i : Init) (v : W32) (bus : I2cBus)
  | i2cBackoffExpiry (bus : I2cBus)
  | i2cTransactionDone
  | mbxSend (i : Init) (n : Fin 32)
  | mbxTake (n : Fin 32)
  | mbxDeliver (n : Fin 32)
  | mbxPop (i : Init) (n : Fin 32) (v : W32)
  | fabricGrant (tgt : Fin 6) (reqs nextReqs : BitVec 14) (agents : List (Fin 512))
  | fabFreezeWrite (i : Init) (v : W32)
  | pmcCntlRead (i : Init) (n : Fin 192)
  | pmcCapture
  | pmcBwWindow (bytes : List W32)
  | pinFuncWrite (i : Init) (p : Fin 192) (v : W32)
  | pinSwitchDone (p : Fin 192)
  | registerWrite (i : Init) (addr : BitVec 24) (bytes : Fin 65) (v : Word)
  | tsplitConditionChange
  | pcieLinkDown
  | pcieLinkUp
  | functionLevelReset
  | pciePowerStateChange (d3hot : Bool)
  | backupSupplyReturn
  | plcBackoffExpiry (n : Fin 2) (busy : Bool)
  | ethPauseRepeat (n : Fin 4)
  | otpProgrammingDone
  | flwLoadDone
  | calendarLoadDone
  | jtagInstruction (j : Jtag)
deriving DecidableEq, Repr

end Sys2Proof
end

