-- ==== Sys2Proof/Decode.lean ====
section
/-! DEFINITION. The instruction a 32-bit Garnil word spells, by the forms of Table 2.3 and the encodings of Tables 2.4 to 2.17. A
word no table assigns spells none: it raises the illegal fault (R33). The rows of spec/opcode_table.json that are no Garnil
instruction are spelled by no word. -/

namespace Sys2Proof

/-! ## Fields of a word (Table 2.3) -/

def wMajor (w : W32) : Nat := (fld w 26 6).toNat
def wPsel (w : W32) : Fin 8 := (fld w 23 3).toFin
def wPneg (w : W32) : Bool := bit w 22
def wRd (w : W32) : GReg := (fld w 17 5).toFin
def wRa (w : W32) : GReg := (fld w 12 5).toFin
def wRb (w : W32) : GReg := (fld w 7 5).toFin
def wMinor (w : W32) : Nat := (fld w 0 7).toNat
def wImm (w : W32) : BitVec 12 := fld w 0 12
def wImm17 (w : W32) : BitVec 17 := fld w 0 17

/-- The predicate field that names pd, rd[19:17]. -/
def wPd (w : W32) : PReg := (fld w 17 3).toFin
/-- The predicates p[ra[14:12]] and p[rb[9:7]] of PRED (Table 2.6). -/
def wPa (w : W32) : PReg := (fld w 12 3).toFin
def wPb (w : W32) : PReg := (fld w 7 3).toFin
/-- The accumulators rd[18:17] and ra[13:12] name (R41). -/
def wAd (w : W32) : AReg := (fld w 17 2).toFin
def wAs (w : W32) : AReg := (fld w 12 2).toFin

/-- Where a register field that names a predicate has its two other bits zero (R36). -/
def predField (r : GReg) : Bool := decide (r.val < 8)
/-- Where a register field that names an accumulator has its three other bits zero (R41). -/
def accField (r : GReg) : Bool := decide (r.val < 4)

/-- The instruction `i` where the fields a table marks as zero are so. -/
def onlyIf (ok : Bool) (i : Instr) : Option Instr := if ok then some i else none

/-- The combination rd[21:20] selects; 11 is unassigned (R36). -/
def combOf (w : W32) : Option Comb :=
  match (fld w 20 2).toNat with
  | 0 => some .set
  | 1 => some .and
  | 2 => some .or
  | _ => none

/-- The condition rd[21:20] of CMPI names (Table 2.4). -/
def cmpiCondOf (w : W32) : CmpiCond :=
  match (fld w 20 2).toNat with
  | 0 => .eq
  | 1 => .ne
  | 2 => .lt
  | _ => .ltu

/-- The space minor[1:0] of LDX and STX names; 3 is unassigned (Table 2.7). -/
def spaceOf (w : W32) : Option Space :=
  match (fld w 0 2).toNat with
  | 0 => some .scratch
  | 1 => some .record
  | 2 => some .fabric
  | _ => none

/-- The size minor[3:2] of LDX and STX names (Table 2.7). -/
def sizeOf (w : W32) : Size :=
  match (fld w 2 2).toNat with
  | 0 => .b1
  | 1 => .b2
  | 2 => .b4
  | _ => .b8

/-- The type imm[11:9] of LDSX names; 111 is unassigned (Table 2.7). -/
def ltypeOf (w : W32) : Option LType :=
  match (fld w 9 3).toNat with
  | 0 => some .u8
  | 1 => some .u16
  | 2 => some .u32
  | 3 => some .d64
  | 4 => some .s8
  | 5 => some .s16
  | 6 => some .s32
  | _ => none

/-- The type imm[11:9] of STSX names; those for loads only are unassigned (Table 2.7). -/
def stypeOf (w : W32) : Option SType :=
  match (fld w 9 3).toNat with
  | 0 => some .u8
  | 1 => some .u16
  | 2 => some .u32
  | 3 => some .d64
  | _ => none

/-! ## The minors of each class -/

/-- INT (Table 2.5). -/
def wordInt (x : Ix) (w : W32) : Option Instr :=
  let rd := wRd w
  let ra := wRa w
  let rb := wRb w
  match wMinor w with
  | 0x00 => some (.add x rd ra rb)
  | 0x01 => some (.sub x rd ra rb)
  | 0x02 => some (.and x rd ra rb)
  | 0x03 => some (.or x rd ra rb)
  | 0x04 => some (.xor x rd ra rb)
  | 0x05 => some (.andn x rd ra rb)
  | 0x08 => some (.sll x rd ra rb)
  | 0x09 => some (.srl x rd ra rb)
  | 0x0A => some (.sra x rd ra rb)
  | 0x0B => some (.ror x rd ra rb)
  | 0x10 => some (.mul x rd ra rb)
  | 0x11 => some (.mulh x rd ra rb)
  | 0x12 => some (.mulhu x rd ra rb)
  | 0x14 => some (.div x rd ra rb)
  | 0x15 => some (.divu x rd ra rb)
  | 0x16 => some (.rem x rd ra rb)
  | 0x17 => some (.remu x rd ra rb)
  | 0x18 => some (.min x rd ra rb)
  | 0x19 => some (.max x rd ra rb)
  | 0x1A => some (.minu x rd ra rb)
  | 0x1B => some (.maxu x rd ra rb)
  | 0x20 => some (.clz x rd ra)
  | 0x21 => some (.ctz x rd ra)
  | 0x22 => some (.popc x rd ra)
  | 0x23 => some (.bswap x rd ra)
  | 0x24 => some (.sxb x rd ra)
  | 0x25 => some (.sxh x rd ra)
  | 0x26 => some (.sxw x rd ra)
  | 0x27 => some (.zxw x rd ra)
  | 0x28 => some (.bfx x rd ra rb)
  | _ => none

/-- SHI: imm[11:10] selects the shift, imm[9:6] is zero (Table 2.4). -/
def wordShi (x : Ix) (w : W32) : Option Instr :=
  let sh : BitVec 6 := fld w 0 6
  onlyIf (decide (fld w 6 4 = 0#4)) <|
    match (fld w 10 2).toNat with
    | 0 => .slli x (wRd w) (wRa w) sh
    | 1 => .srli x (wRd w) (wRa w) sh
    | 2 => .srai x (wRd w) (wRa w) sh
    | _ => .rori x (wRd w) (wRa w) sh

/-- CMP (Table 2.6). -/
def wordCmp (x : Ix) (w : W32) : Option Instr :=
  match combOf w, wMinor w with
  | some k, 0x00 => some (.cmpEq x k (wPd w) (wRa w) (wRb w))
  | some k, 0x01 => some (.cmpNe x k (wPd w) (wRa w) (wRb w))
  | some k, 0x02 => some (.cmpLt x k (wPd w) (wRa w) (wRb w))
  | some k, 0x03 => some (.cmpGe x k (wPd w) (wRa w) (wRb w))
  | some k, 0x04 => some (.cmpLtu x k (wPd w) (wRa w) (wRb w))
  | some k, 0x05 => some (.cmpGeu x k (wPd w) (wRa w) (wRb w))
  | some k, 0x06 => some (.cmpTst x k (wPd w) (wRa w) (wRb w))
  | _, _ => none

/-- MFC and MTC: imm[11] selects, imm[10:6] is zero (Table 2.4). -/
def wordCw (x : Ix) (w : W32) : Option Instr :=
  let cw : Fin 64 := (fld w 0 6).toFin
  onlyIf (decide (fld w 6 5 = 0#5)) (if bit w 11 then .mtc x (wRa w) cw else .mfc x (wRd w) cw)

/-- PRED (Table 2.6): a field that names a predicate has its other bits zero. PGET's rd and PPUT's ra name g registers, so they
hold any of them (DEDUCED, log entry 1). -/
def wordPred (x : Ix) (w : W32) : Option Instr :=
  let d := predField (wRd w)
  let a := predField (wRa w)
  let b := predField (wRb w)
  match wMinor w with
  | 0x00 => onlyIf (d && a && b) (.pmov x (wPd w) (wPa w))
  | 0x01 => onlyIf (d && a && b) (.pand x (wPd w) (wPa w) (wPb w))
  | 0x02 => onlyIf (d && a && b) (.por x (wPd w) (wPa w) (wPb w))
  | 0x03 => onlyIf (d && a && b) (.pxor x (wPd w) (wPa w) (wPb w))
  | 0x04 => onlyIf (d && a && b) (.pnot x (wPd w) (wPa w))
  | 0x05 => onlyIf (a && b) (.pget x (wRd w))
  | 0x06 => onlyIf (d && b) (.pput x (wRa w))
  | _ => none

/-- LDX and STX (Table 2.7): LDX has minor[6:5] zero, STX minor[6:4]. -/
def wordLdx (x : Ix) (w : W32) : Option Instr :=
  (spaceOf w).bind fun sp => onlyIf (decide (fld w 5 2 = 0#2)) (.ldx x sp (sizeOf w) (bit w 4) (wRd w) (wRa w) (wRb w))

def wordStx (x : Ix) (w : W32) : Option Instr :=
  (spaceOf w).bind fun sp => onlyIf (decide (fld w 4 3 = 0#3)) (.stx x sp (sizeOf w) (wRd w) (wRa w) (wRb w))

/-- BCPY (Table 2.7). -/
def wordBcpy (x : Ix) (w : W32) : Option Instr :=
  match wMinor w with
  | 0x00 => some (.bcpyFs x (wRd w) (wRa w) (wRb w))
  | 0x01 => some (.bcpySf x (wRd w) (wRa w) (wRb w))
  | 0x02 => some (.bcpyRs x (wRd w) (wRa w) (wRb w))
  | 0x03 => some (.bcpySr x (wRd w) (wRa w) (wRb w))
  | 0x04 => some (.bcpySs x (wRd w) (wRa w) (wRb w))
  | _ => none

/-- ACC (Table 2.8, R41). -/
def wordAcc (x : Ix) (w : W32) : Option Instr :=
  let ad := wAd w
  let as := wAs w
  let ra := wRa w
  let k : Fin 32 := wRb w
  let d := accField (wRd w)
  let s := accField ra
  match wMinor w with
  | 0x00 => onlyIf d (.aclr x ad)
  | 0x01 => onlyIf d (.amov x ad ra)
  | 0x02 => onlyIf d (.aadd x ad ra)
  | 0x03 => onlyIf d (.asub x ad ra)
  | 0x04 => onlyIf d (.amac x ad ra (wRb w))
  | 0x05 => onlyIf d (.amacu x ad ra (wRb w))
  | 0x06 => onlyIf (d && s) (.aadda x ad as)
  | 0x07 => onlyIf (d && s) (.asuba x ad as)
  | 0x08 => onlyIf s (.aglo x (wRd w) as)
  | 0x09 => onlyIf s (.aghi x (wRd w) as)
  | 0x0A => onlyIf d (.aslo x ad ra)
  | 0x0B => onlyIf d (.ashi x ad ra)
  | 0x0C => onlyIf d (.ald x ad ra)
  | 0x0D => onlyIf d (.ast x ad ra)
  | 0x0E => onlyIf d (.asra x ad k)
  | 0x10 => onlyIf d (.ftoa x ad ra k)
  | 0x11 => onlyIf s (.atof x (wRd w) as k)
  | _ => none

/-- FP (Table 2.9); its compares combine as CMP does (R36). -/
def wordFp (x : Ix) (w : W32) : Option Instr :=
  let rd := wRd w
  let ra := wRa w
  let rb := wRb w
  match wMinor w with
  | 0x00 => some (.fadd x rd ra rb)
  | 0x01 => some (.fsub x rd ra rb)
  | 0x02 => some (.fmul x rd ra rb)
  | 0x03 => some (.fdiv x rd ra rb)
  | 0x04 => some (.fsqrt x rd ra)
  | 0x05 => some (.fma x rd ra rb)
  | 0x06 => some (.fmin x rd ra rb)
  | 0x07 => some (.fmax x rd ra rb)
  | 0x08 => some (.fabs x rd ra)
  | 0x09 => some (.fneg x rd ra)
  | 0x0A => some (.fcvtif x rd ra)
  | 0x0B => some (.fcvtfi x rd ra)
  | 0x10 => (combOf w).map fun k => .fceq x k (wPd w) ra rb
  | 0x11 => (combOf w).map fun k => .fclt x k (wPd w) ra rb
  | 0x12 => (combOf w).map fun k => .fcle x k (wPd w) ra rb
  | 0x13 => (combOf w).map fun k => .fcun x k (wPd w) ra rb
  | _ => none

/-- QUE and TSK (Table 2.10). -/
def wordQue (x : Ix) (w : W32) : Option Instr :=
  match wMinor w with
  | 0x00 => some (.qtake x (wRd w) (wRa w) (wRb w))
  | 0x01 => some (.qput x (wRd w) (wRa w) (wRb w))
  | 0x02 => some (.qpeek x (wRd w) (wRa w) (wRb w))
  | _ => none

def wordTsk (x : Ix) (w : W32) : Option Instr :=
  match wMinor w with
  | 0x00 => some (.tcommit x)
  | 0x01 => some (.tabort x (wRa w))
  | 0x02 => some (.yield x)
  | 0x03 => some (.waitt x (wRd w) (wRa w))
  | 0x04 => some (.waitq x (wRd w) (wRa w) (wRb w))
  | 0x05 => some (.waitl x (wRd w) (wRa w) (wRb w))
  | _ => none

/-- TIM and ORD (Table 2.12). -/
def wordTim (x : Ix) (w : W32) : Option Instr :=
  match wMinor w with
  | 0x00 => some (.tstamp x (wRd w) (wRa w))
  | 0x01 => some (.tscmp x (wRd w) (wRa w) (wRb w))
  | 0x02 => some (.tssub x (wRd w) (wRa w) (wRb w))
  | _ => none

def wordOrd (x : Ix) (w : W32) : Option Instr :=
  match wMinor w with
  | 0x00 => some (.idchk x (wRd w) (wRa w) (wRb w))
  | 0x01 => some (.iddone x (wRd w) (wRa w) (wRb w))
  | 0x02 => some (.lkacq x (wRd w) (wRa w))
  | 0x03 => some (.lkrel x (wRa w))
  | _ => none

/-- SEC and CRC (Table 2.14). -/
def wordSec (x : Ix) (w : W32) : Option Instr :=
  match wMinor w with
  | 0x00 => some (.ccmopen x (wRd w) (wRa w))
  | 0x01 => some (.ccmseal x (wRd w) (wRa w))
  | 0x02 => some (.gcmopen x (wRd w) (wRa w))
  | 0x03 => some (.hash x (wRd w) (wRa w))
  | _ => none

def wordCrc (x : Ix) (w : W32) : Option Instr :=
  match wMinor w with
  | 0x00 => some (.crc16i x (wRd w) (wRa w) (wRb w))
  | 0x01 => some (.crc16m x (wRd w) (wRa w) (wRb w))
  | 0x02 => some (.crc16b x (wRd w) (wRa w) (wRb w))
  | 0x03 => some (.crc32e x (wRd w) (wRa w) (wRb w))
  | 0x04 => some (.crc32c x (wRd w) (wRa w) (wRb w))
  | _ => none

/-- MET (Table 2.15). -/
def wordMet (x : Ix) (w : W32) : Option Instr :=
  let rd := wRd w
  let ra := wRa w
  let rb := wRb w
  match wMinor w with
  | 0x00 => some (.if97VPt x rd ra rb)
  | 0x01 => some (.if97HPt x rd ra rb)
  | 0x02 => some (.if97SPt x rd ra rb)
  | 0x03 => some (.if97CpPt x rd ra rb)
  | 0x04 => some (.if97KappaPt x rd ra rb)
  | 0x05 => some (.if97WPt x rd ra rb)
  | 0x08 => some (.if97TsatP x rd ra)
  | 0x09 => some (.if97PsatT x rd ra)
  | 0x0A => some (.if97VgP x rd ra)
  | 0x0B => some (.if97HgP x rd ra)
  | 0x0C => some (.if97VfP x rd ra)
  | 0x0D => some (.if97HfP x rd ra)
  | 0x10 => some (.isocd x rd ra rb)
  | 0x11 => some (.tbli x rd ra rb)
  | 0x12 => onlyIf (accField rd) (.sqacc x (wAd w) ra rb)
  | _ => none

/-- LDG and BAL (Table 2.16). -/
def wordLdg (x : Ix) (w : W32) : Option Instr :=
  let d := accField (wRd w)
  let ladd (k : LKind) : Option Instr := onlyIf d (.ladd x k (wAd w) (wRa w) (wRb w))
  match wMinor w with
  | 0x00 => ladd .mass
  | 0x01 => ladd .volume
  | 0x02 => ladd .energy
  | 0x03 => ladd .aux
  | 0x04 => onlyIf d (.lread x (wAd w) (wRa w) (wRb w))
  | _ => none

/-- SUP (Table 2.17); on an engine these raise the privilege fault (R62). -/
def wordSup (x : Ix) (w : W32) : Option Instr :=
  match wMinor w with
  | 0x00 => some (.fencea x (wRa w))
  | 0x01 => some (.unfence x (wRa w))
  | 0x02 => some (.revoke x (wRd w) (wRa w) (wRb w))
  | 0x03 => some (.seqopen x (wRd w) (wRa w))
  | 0x04 => some (.seqclose x (wRd w) (wRa w) (wRb w))
  | 0x05 => some (.agreset x (wRa w))
  | 0x06 => some (.iret x)
  | 0x07 => some (.wfi x)
  | 0x08 => some (.evposts x (wRa w) (wRb w))
  | _ => none

/-! ## The word (Table 2.4) -/

/-- The instruction word `w` spells when `who` executes it; none for a word Tables 2.4 to 2.17 leave unassigned (R31, R33). -/
def decodeWord (who : Who) (w : W32) : Option Instr :=
  let x : Ix := { who := who, psel := wPsel w, pneg := wPneg w }
  let rd := wRd w
  let ra := wRa w
  let imm := wImm w
  match wMajor w with
  | 0x00 => wordInt x w
  | 0x01 => some (.addi x rd ra imm)
  | 0x02 => some (.andi x rd ra imm)
  | 0x03 => some (.ori x rd ra imm)
  | 0x04 => some (.xori x rd ra imm)
  | 0x05 => wordShi x w
  | 0x06 => some (.cmpi x (cmpiCondOf w) (wPd w) ra imm)
  | 0x07 => wordCmp x w
  | 0x08 => some (.lui x rd (wImm17 w))
  | 0x09 => some (.ldl x rd (wImm17 w))
  | 0x0A => wordCw x w
  | 0x0B => wordPred x w
  | 0x10 => onlyIf (decide (rd.val = 0)) (.br x (wImm17 w))
  | 0x11 => some (.call x rd (wImm17 w))
  | 0x12 =>
    match wMinor w with
    | 0x00 => some (.jr x ra)
    | 0x01 => some (.jalr x rd ra)
    | _ => none
  | 0x14 => some (.lds x rd ra imm)
  | 0x15 => some (.sts x rd ra imm)
  | 0x16 => some (.ldr x rd ra imm)
  | 0x17 => some (.str x rd ra imm)
  | 0x18 => some (.ldf x rd ra imm)
  | 0x19 => some (.stf x rd ra imm)
  | 0x1A => wordLdx x w
  | 0x1B => wordStx x w
  | 0x1C => wordAcc x w
  | 0x1D => wordBcpy x w
  | 0x1E => (ltypeOf w).map fun ty => .ldsx x ty rd ra (fld w 0 9)
  | 0x1F => (stypeOf w).map fun ty => .stsx x ty rd ra (fld w 0 9)
  | 0x20 => wordFp x w
  | 0x28 => wordQue x w
  | 0x29 => wordTsk x w
  | 0x2A => wordTim x w
  | 0x2B => wordOrd x w
  | 0x2C => wordSec x w
  | 0x2D => wordCrc x w
  | 0x30 => wordMet x w
  | 0x31 => wordLdg x w
  | 0x32 => if wMinor w = 0 then some (.balpost x rd ra (wRb w)) else none
  | 0x33 => some (.evpost x rd ra imm)
  | 0x38 => wordSup x w
  | _ => none

/-- The command a word of the program store is when `who` executes it: what it spells, or the unassigned encoding of R33. -/
def decodeGarnil (who : Who) (w : W32) : Instr := (decodeWord who w).getD (.unassignedEncoding who w)

/-- The command an opcode-table word of `nbits` bits spells. The table gives its rows no bits; a word of 32 bits is read by the
instruction tables of 02_garnil_isa.md, executed by agent 0x000. -/
def decodeTableWord (nbits w : Nat) : Option Instr :=
  if nbits = 32 then some (decodeGarnil (.thread 0) (BitVec.ofNat 32 w)) else none

end Sys2Proof
end

