-- ==== Sys2Proof/Config.lean ====
section
/-! DEFINITION. Free values: constants without a body, so that no proof can rest on a value the spec does not give. Each is
named in a row of notes/assumptions. -/

namespace Sys2Proof.Config

/-- A fresh value of `w` bits at draw number `n` of the machine's plain counter `State.freeCtr`. -/
opaque free : (w n : Nat) → BitVec w
/-- R103: the bucket index is a hash of the whole request ID keyed by a drawn value; the hash itself is not given. -/
opaque ccHash : (key reqid : Word) → Nat
/-- R103: the stream table has buckets of eight ways; which bucket a stream falls in is not given. -/
opaque streamHash : (key : Word) → (origin stream : BitVec 16) → Nat
/-- R43: sign and payload of the quiet NaN an operation on these operands gives; IEEE 754 leaves them open. -/
opaque nanBits : (a b c : Word) → Word
/-- R43: whether a result that is tiny before rounding and not after it counts as underflow; IEEE 754 leaves the choice open. -/
opaque tinyBefore : Bool
/-- R43: whether 0 x infinity plus a quiet NaN is invalid; IEEE 754 leaves the choice open. -/
opaque fmaInvalid : Bool
/-- R56: the numeric result of MET minor `op` (0x00-0x05, 0x08-0x0D) on binary64 operands; the equations are IAPWS-IF97's. -/
opaque if97 : (op : Nat) → (a b : Word) → Word
/-- R57: the discharge coefficient of an orifice or a nozzle by its ISO 5167 equation, for a bank (256 bytes) at a Reynolds number: powers
whose rounding to binary64 the spec does not give. -/
opaque isocd : (bank : BitVec 2048) → (re : Word) → Word
/-- R57: whether ISOCD on a bank without an ISO 5167 device (METHOD 0 or 16) reports OK; the spec does not say. -/
opaque isocdInLimits : (bank : BitVec 2048) → (re : Word) → Bool
/-- R182: DS or COND in ledger units where the binary64 term is no finite number or needs more than 64 bits; the spec states none. -/
opaque balUnits : Word → BitVec 64
/-- R182: THR where KFACT x u is no finite number or needs more than 64 bits; the spec states none. -/
opaque balThr : Word → BitVec 64
/-- R345: an ECDSA P-384 signature value (r then s); the per-signature secret number is not given. -/
opaque ecdsaSig : (scalar : BitVec 384) → (hash : BitVec 384) → (draw : Nat) → BitVec 768

/-- R332: the CMAC tag of a slot's key, policy and number under the slot tag key; the message's layout is not given. -/
opaque slotTag : (tagKey key : BitVec 256) → (policy : W32) → (slot : Nat) → BitVec 128

/-- R234, R249, R262, R285, R305: how many buffers the receive pool of a port has (key: unit x 16 + port). -/
opaque poolSize : (port : Nat) → Nat
/-- Whether a mains cycle counts as regular beside the mean over the last 16, both in 0.1 us: the spec does not say (R224, log entry 30). -/
opaque zcRegular : (cycle mean : Nat) → Bool

/-- R312: how many replay records the ring at TWN_RPLBASE holds. -/
opaque rplSize : Nat

/-- R125, R377: whether a NAND command (by its number in the order of taking) has operations on a channel; how pages fall on
channels is not given. -/
opaque nandOn : (cmd channel : Nat) → Bool

/-- R379: NFT_HEALTH.LIFE where NFT_PERATED or a die's SPARE0 is 0. -/
opaque lifeOpen : Nat

/-- R342, R343: how many bytes of a boot copy's image stage 1 takes; the image's layout is not given. -/
opaque stage1Len : (image : List Byte) → Nat

/-- R343: whether the signature of stage 1 (`fw` false) or of the supervisor firmware (`fw` true) of a boot copy's image verifies
against the public key whose hash is in slot 0; where the image holds its signatures is not given. -/
opaque bootSigned : (fw : Bool) → (hash : BitVec 256) → (image : List Byte) → Bool

end Sys2Proof.Config
end

