-- ==== Sys2Proof/Machine/Crc.lean ====
section
/-! DEFINITION. The cyclic redundancy checks of Table 2.14 (R55), advanced bit by bit, and the two whole-structure forms the
device's own structures carry (register all ones before, complemented after; log entry 20). -/

namespace Sys2Proof.Machine
open Sys2Proof

/-- Eight shifts of a reflected CRC register. -/
def crcReflBits {w : Nat} (poly : BitVec w) : Nat → BitVec w → BitVec w
  | 0, r => r
  | n + 1, r => crcReflBits poly n (if r.getLsbD 0 then (r >>> 1) ^^^ poly else r >>> 1)

/-- A reflected CRC register after the given bytes; `poly` is bit-reversed. -/
def crcRefl {w : Nat} (poly : BitVec w) : BitVec w → List Byte → BitVec w
  | r, [] => r
  | r, b :: bs => crcRefl poly (crcReflBits poly 8 (r ^^^ BitVec.setWidth w b)) bs

/-- Eight shifts of a 16-bit CRC register that is not reflected. -/
def crcFwdBits (poly : BitVec 16) : Nat → BitVec 16 → BitVec 16
  | 0, r => r
  | n + 1, r => crcFwdBits poly n (if r.getLsbD 15 then (r <<< 1) ^^^ poly else r <<< 1)

/-- A 16-bit CRC register, not reflected, after the given bytes. -/
def crcFwd (poly : BitVec 16) : BitVec 16 → List Byte → BitVec 16
  | r, [] => r
  | r, b :: bs => crcFwd poly (crcFwdBits poly 8 (r ^^^ (BitVec.setWidth 16 b <<< 8))) bs

/-- CRC16I: poly 0x1021, reflected. -/
def crc16i (r : BitVec 16) (bs : List Byte) : BitVec 16 := crcRefl 0x8408#16 r bs
/-- CRC16M: poly 0x3D65, not reflected. -/
def crc16m (r : BitVec 16) (bs : List Byte) : BitVec 16 := crcFwd 0x3D65#16 r bs
/-- CRC16B: poly 0x8005, reflected. -/
def crc16b (r : BitVec 16) (bs : List Byte) : BitVec 16 := crcRefl 0xA001#16 r bs
/-- CRC32E: poly 0x04C1_1DB7, reflected. -/
def crc32e (r : W32) (bs : List Byte) : W32 := crcRefl 0xEDB88320#32 r bs
/-- CRC32C: poly 0x1EDC_6F41, reflected. -/
def crc32c (r : W32) (bs : List Byte) : W32 := crcRefl 0x82F63B78#32 r bs

/-- "CRC-32C over ..." of a structure of the device. -/
def crcC (bs : List Byte) : W32 := ~~~(crc32c 0xFFFFFFFF#32 bs)
/-- "CRC-32E over ..." of a structure of the device. -/
def crcE (bs : List Byte) : W32 := ~~~(crc32e 0xFFFFFFFF#32 bs)

/-- The CRC-8 of a frame control header with the polynomial and initial value given (R215), most significant bit first. -/
def crc8Bits (poly : Byte) : Nat → Byte → Byte
  | 0, r => r
  | n + 1, r => crc8Bits poly n (if r.getLsbD 7 then (r <<< 1) ^^^ poly else r <<< 1)

/-- A CRC-8 register after the given bytes, most significant bit first. -/
def crc8 (poly : Byte) : Byte → List Byte → Byte
  | r, [] => r
  | r, b :: bs => crc8 poly (crc8Bits poly 8 (r ^^^ b)) bs

end Sys2Proof.Machine
end

