-- ==== Sys2Proof/Machine/State.lean ====
section
/-! DEFINITION. The state of the block as plain data: every register, memory, queue, counter, mode and pin the spec gives the
LNS8192, the queue of waiting commands, and State.reset. Each field's docstring gives width; file and rule; reset value.
Software-visible configuration registers stand in `State.regs`, keyed by their offset in the 16 MiB register space of R445
(Table 20.4), where an unlisted key reads as its reset value (Machine/Regs.lean holds the table). -/

namespace Sys2Proof.Machine
open Sys2Proof

/-- Why the machine stops with a fault. No command of this block ends so: every error the spec describes is a response,
a status or a Garnil fault, and is a next state. -/
inductive Fault where
  /-- Raised by no meaning; kept so that the type is inhabited. Safe. -/
  | none
deriving DecidableEq, Repr

/-- Why a command is turned away. -/
inductive Refusal where
  /-- Raised by exec's arm of a command whose meaning is not written yet. Safe: nothing is claimed of it. -/
  | notModelled (mnemonic : String)
deriving DecidableEq, Repr

/-- The status codes of Table 0.6 (R11, R449). -/
inductive Status where
  | ok | duplicate | stale | orphaned | absent | poweredDown | integrity | disputed | epochAbort | calRejected
  | arbLost | denied | replay | timeInvalid | queueReset | fenced | retry | slotBad | formatReset | outOfRange
deriving DecidableEq, Repr

/-- The variants of Table 0.1. -/
inductive Variant where
  | m | w | r
deriving DecidableEq, Repr

/-- The fault classes of Table 2.18. -/
inductive FaultClass where
  | illegal | privilege | absentUnit | integrity | fenced | watchdog | arithmetic
deriving DecidableEq, Repr

/-- What TB writes into an item at its stamping (R274): bytes 0-11, the signed offset of bytes 12-15, the flags bits. -/
structure TimeRec where
  st  : Stamp := 0#96
  off : Int := 0
  fl  : BitVec 16 := 0#16
deriving DecidableEq, Repr

/-- A staged register write of R39. -/
structure RegW where
  off : Nat
  two : Bool
  val : Word
deriving DecidableEq, Repr

/-- A staged completion of IDDONE (R51). -/
structure Comp where
  id  : Word
  st  : Byte
  res : BitVec 128
deriving DecidableEq, Repr

/-- A staged LADD (R59): the local point, kind, rate, amount and the stamp and flags it is booked under; the UTC interval of
the stamp where the list names one; whether the list lacks a generation the stamp lies under (R201). -/
structure LAdd where
  local_ : Nat
  kind   : Nat
  rate   : Nat
  deflt  : Bool
  split  : Bool
  amount : Int
  stamp  : Stamp
  interval : Option Nat
  lateAct : Bool
deriving DecidableEq, Repr

/-- A staged posting (R180): point word and the 32 bytes of Table 7.3. -/
structure Posting where
  point : W32
  body  : BitVec 256
deriving DecidableEq, Repr

/-- A staged put: target queue, its reset generation when the slot was reserved, and the item (R44, R86). -/
structure Put where
  q    : Nat
  gen  : Nat
  item : Item
deriving DecidableEq, Repr

/-- A staged take: queue, reset generation, slot pointer and the item (R44). -/
structure Take where
  q    : Nat
  gen  : Nat
  ptr  : Nat
  item : Item
deriving DecidableEq, Repr

/-- What IDCHK answered for an ID: status, USTAT's code and result block (R51). -/
structure IdAns where
  id  : Word
  st  : Word
  ust : Nat
  res : BitVec 128
deriving DecidableEq, Repr

/-- A replay record (R312). -/
structure ReplayRec where
  item   : Item
  /-- the queue the item was dispatched from -/
  q      : Nat
  lines  : List (Nat × Item)
  /-- what IDCHK answered -/
  ids    : List IdAns
  /-- pair sequence and digest of each class-4 output -/
  outs   : List (BitVec 48 × Word)
  epoch  : W32
  /-- the Heartwood image that ran the task -/
  image  : BitVec 16
deriving DecidableEq, Repr

/-- The stage of one task (R18, R48). -/
structure Stage where
  /-- staged DRAM bytes by address, with presence (R38) -/
  bytes  : Tab (Option Byte) := []
  /-- first-read version of each line read (R113, R114), in order of first read -/
  reads  : List (Nat × Nat) := []
  /-- image of each of these lines as the task read it (R312) -/
  imgs   : List (Nat × Item) := []
  /-- what IDCHK answered the task, for its replay record (R312) -/
  idAns  : List IdAns := []
  regw   : List RegW := []
  outw   : List (Nat × Nat × Word) := []
  puts   : List Put := []
  takes  : List Take := []
  events : List (BitVec 16 × W32 × Byte) := []
  ids    : List Word := []
  comps  : List Comp := []
  rels   : List Nat := []
  acqs   : List Nat := []
  ladds  : List LAdd := []
  posts  : List Posting := []
deriving DecidableEq, Repr

/-- What a thread is doing. -/
inductive TState where
  | free
  | running
  | waitTime (rd : GReg) (deadline : Nat)
  | waitQueue (rd : GReg) (q : Nat) (deadline : Nat)
  | waitLock (rd : GReg) (l : Nat) (deadline : Nat)
  | waitIrq
  | waitClose (rd : GReg)
  | waitAck
deriving DecidableEq, Repr

/-- One thread (Table 2.1) with its task. The supervisor is thread 128 and never has an item. -/
structure Thread where
  /-- 32 x 64 bits; 02 R28 Table 2.1; reset 0 (DESIGN CHOICE 4; R29 sets them at dispatch). General registers; g0 reads zero -/
  g : Tab Word := []
  /-- 4 x 128 bits; 02 R28 Table 2.1; reset 0 (DESIGN CHOICE 4). Accumulators -/
  a : Tab (BitVec 128) := []
  /-- 8 x 1 bit; 02 R28 Table 2.1; reset p0 true, others false (DESIGN CHOICE 4). Predicates -/
  p : BitVec 8 := 1#8
  /-- 18 bits (24 held: one step past the store's end shows, and the supervisor's 1 MiB memory fits); 02 R28 Table 2.1;
  reset 0 (DESIGN CHOICE 4). Program counter -/
  pc : BitVec 24 := 0#24
  /-- 16 KiB; 02 R28, R29; reset 0 (DESIGN CHOICE 4). Scratch -/
  scratch : Tab Byte := []
  /-- 64 bits; 02 R30 cw6; reset 0. FPCTL -/
  fpctl : Word := 0#64
  /-- 64 bits; 02 R30 cw7; reset 0. FPSR -/
  fpsr : Word := 0#64
  /-- 64 bits; 02 R30 cw8; reset 0. USTAT -/
  ustat : Word := 0#64
  /-- 64 bits; 02 R30 cw9; reset 0. LSTAT -/
  lstat : Word := 0#64
  /-- 64 bits; 02 R30 cw17; reset 0. RECBASE -/
  recbase : Word := 0#64
  /-- 32 bits; 02 R30 cw3; reset 0 (DESIGN CHOICE 4). IEPOCH of the item -/
  iepoch : W32 := 0#32
  /-- 64 bits; 02 R30 cw18, 12 R280; reset 0 (DESIGN CHOICE 4). PAIRID as of dispatch -/
  pairid : Word := 0#64
  /-- enum; 03 R75, 02 R46; reset free. What the thread is doing -/
  st : TState := .free
  /-- 16 bits; 02 R29; reset 0. Queue of the item in flight -/
  q : Nat := 0
  /-- queue reset generation at dispatch; 03 R86; reset 0 -/
  qgen : Nat := 0
  /-- 21 bits; 03 R77; reset 0. Slot pointer of the item -/
  ptr : Nat := 0
  /-- 16 bits; 03 R78; reset 0. Redispatch count of the item -/
  count : Nat := 0
  /-- 512 bits; 02 R29; reset 0. The dispatched item -/
  item : Item := 0#512
  /-- elapsed count at dispatch; 03 R89; reset 0. Watchdog start -/
  wdStart : Nat := 0
  /-- us; 03 R89; reset 0. Watchdog limit of the task -/
  wdLimit : Nat := 0
  /-- commit sequence at dispatch; 04 R114; reset 0 -/
  dispSeq : Nat := 0
  /-- the replay the thread runs: pair sequence asked for and record; 13 R313; reset none -/
  rpl : Option (BitVec 48 × ReplayRec) := none
  /-- instructions issued in the task; 18 R422; reset 0 -/
  issued : Nat := 0
  /-- the TCOMMIT of this thread waits for JOURNAL_ACK of this position; 13 R323; reset none -/
  jwait : Option Nat := none
  /-- journal entries that commit has put in the ring; 13 R323; reset 0 -/
  jcnt : Nat := 0
  /-- an AGRESET arrived during that wait and takes effect after the commit; 02 R49; reset no -/
  resetDue : Bool := false
  /-- the stage; 01 R18, 02 R48; reset empty -/
  stage : Stage := {}
deriving DecidableEq, Repr

/-- A queue item returned to the head of its queue (R21, R47); `fault`: a fault or watchdog expiry returned it (R69). -/
structure Ret where
  ptr   : Nat
  count : Nat
  item  : Item
  fault : Bool
deriving DecidableEq, Repr

/-- A queue descriptor (Table 3.1) and the QM's bookkeeping beside it. -/
structure Desc where
  base : BitVec 24 := 0#24
  mode : BitVec 3 := 0#3
  log2n : Nat := 0
  rsv : Nat := 0
  head : Nat := 0
  infl : Nat := 0
  tail : Nat := 0
  headn : Nat := 0x1FFFFF
  tailn : Nat := 0x1FFFFF
  rdlim : Nat := 3
  disp : Nat := 0
  entry : BitVec 16 := 0#16
  prio : Nat := 0
  owner : Nat := 0
  cls : Nat := 0
  putc : BitVec 4 := 0#4
  puts : Bool := false
  merge : Bool := false
  rpl : Bool := false
  en : Bool := false
  sideq : Nat := 0
  state : Nat := 0
  supown : Bool := false
  /-- returned items, head first (R47, R75) -/
  rets : List Ret := []
  /-- redispatch counts of items a YIELD republished, by slot pointer (R78) -/
  counts : Tab Nat := []
  /-- consumed slots HEAD has not passed yet (R77) -/
  done : List Nat := []
  /-- slots released by the merge window or settled, in order of release, not yet dispatched (R75, R96) -/
  rel : List Nat := []
  /-- slots published but not yet settled (R303) -/
  unsettled : List Nat := []
  /-- queue resets so far (R86) -/
  gen : Nat := 0
  /-- elapsed count since when the queue has waited for a dispatch (R76) -/
  waitFrom : Option Nat := none
  /-- one dispatch at priority 7 is due (R76) -/
  starved : Bool := false
  /-- a CREATE zero-fill is running on this queue (R73) -/
  filling : Bool := false
  /-- event 0x0B01 recorded since an enabled context last bound the queue (R100) -/
  noCtxEv : Bool := false
  /-- committed depth the last reset emptied: what a replay is measured against (R87) -/
  lost : Nat := 0
deriving DecidableEq, Repr

/-- One fall-through FIFO (R80 to R83). -/
structure Fifo where
  items : List (Nat × Item) := []
  hold  : Bool := false
  /-- when the hold in force began, and where the last holds began and ended: elapsed counts -/
  heldAt : Nat := 0
  holds : List (Nat × Nat) := []
  ovf   : Bool := false
  drops : Nat := 0
deriving DecidableEq, Repr

/-- A replay under R87. -/
structure Replay where
  q : Nat
  addr : Nat
  cnt : Nat
deriving DecidableEq, Repr

/-- Queue manager (03). -/
structure Qm where
  /-- 65,536 x 32 bytes; 03 R71 Table 3.1; reset no ring (LOG2N 0), RDLIM 3, HEADN and TAILN 0x1F_FFFF, others 0 (DESIGN CHOICE 5). Descriptors -/
  descs : Tab Desc := []
  /-- 18 FIFOs x 32 x 64 bytes; 03 R80-R83; reset empty, HOLD 0, OVF 0, DROPS 0 -/
  fifos : Tab Fifo := []
  /-- 32 bits per source; 04 R95; reset 0 (DESIGN CHOICE 5). Next per-source sequence by local source -/
  seq : Tab W32 := []
  /-- queue last served per cluster and priority; 03 R75; reset none served -/
  rr : Tab Nat := []
  /-- QM_DSTAT: BUSY queue; 03 R73; reset not busy -/
  busyQ : Option Nat := none
  /-- 8 bits; 03 R74 QM_DSTAT [7:0]; reset OK -/
  dstat : Status := .ok
  /-- 16 bits; 03 R85 QM_RST_Q; reset 0 -/
  rstQ : Nat := 0
  /-- 1 bit; 03 R85 QM_RST_STAT.PEND; reset 0 -/
  pend : Bool := false
  /-- replay running; 03 R87; reset none -/
  replay : Option Replay := none
deriving DecidableEq, Repr

/-- A fault report (R92, Table 3.7). -/
structure FltRep where
  status : Status
  cls    : FaultClass
  agent  : Nat
  pc     : BitVec 18
  word   : W32
  qcur   : W32
deriving DecidableEq, Repr

/-- Engines (03). -/
structure Ge where
  /-- 128 threads and the supervisor (key 128); 02 R28 Table 2.1; reset: the engine threads free, the supervisor running -/
  threads : Tab Thread := [(128, { st := .running })]
  /-- 4 x 256 KiB; 02 Table 2.1, 03 R68; reset 0 (DESIGN CHOICE 4). Program stores by cluster x 0x4_0000 + byte -/
  store : Tab Byte := []
  /-- reserve threads by agent; 03 R69; reset threads 2 and 3 of engines 6 and 7 of each cluster (DESIGN CHOICE 6) -/
  reserve : List Nat := [26, 27, 30, 31, 58, 59, 62, 63, 90, 91, 94, 95, 122, 123, 126, 127]
  /-- 4 bits; 03 R70 GE_STAT [3:0]; reset 0. RSVLOST -/
  rsvlost : BitVec 4 := 0#4
  /-- 16 reports; 03 R92; reset empty -/
  flt : List FltRep := []
  /-- 1 bit; 03 R92 GE_FLT_INFO.OVF; reset 0 -/
  fltOvf : Bool := false
deriving DecidableEq, Repr

/-- Supervisor (02 R62-R64). -/
structure Sup where
  /-- 64 bits; 02 cw32; reset 0 (DESIGN CHOICE 7). SSTATUS: [1] interrupts enabled, [0] in handler -/
  sstatus : Word := 0#64
  /-- 64 bits; 02 cw33; reset 0 (DESIGN CHOICE 7). SEPC -/
  sepc : Word := 0#64
  /-- 64 bits; 02 cw34; reset 0 (DESIGN CHOICE 7). SCAUSE -/
  scause : Word := 0#64
  /-- 64 bits; 02 cw35; reset 0 (DESIGN CHOICE 7). SVEC -/
  svec : Word := 0#64
  /-- 64 bits; 02 cw36; reset 0 (DESIGN CHOICE 7). SIEN -/
  sien : Word := 0#64
  /-- 64 bits; 02 cw37; reset 0 (DESIGN CHOICE 7). SIPEND -/
  sipend : Word := 0#64
  /-- 64 bits; 02 cw38; reset 0 (DESIGN CHOICE 7). SSCRATCH -/
  sscratch : Word := 0#64
  /-- 1 MiB; 01 Table 1.1, 18 Table 18.1; reset 0 (DESIGN CHOICE 7). Supervisor memory -/
  mem : Tab Byte := []
deriving DecidableEq, Repr

/-- A held entry of a merge context (R96). -/
structure Held where
  ptr : Nat
  key : Nat
  pub : Nat
  due : Nat
deriving DecidableEq, Repr

/-- A merge context (R96 to R102). -/
structure Merge where
  mq    : Nat := 0
  mcfg  : W32 := 5000#32
  held  : List Held := []
  last  : Option Nat := none
  early : Nat := 0
deriving DecidableEq, Repr

/-- A lock (R115 to R119). -/
structure Lock where
  owner  : Option (Nat × W32) := none
  mark   : Bool := false
  since  : Nat := 0
  warnMs : Nat := 0
  warned : Bool := false
  prot   : Bool := false
  count  : Nat := 0
  base   : Nat := 0
deriving DecidableEq, Repr

/-- A locked sequence (R120 to R123). -/
structure Seqn where
  owner   : Option Init := none
  epoch   : W32 := 0#32
  opened  : Nat := 0
  tmo     : Nat := 0
  writes  : List (Nat × W32) := []
  spoiled : Bool := false
  /-- the initiators whose open expired and who have not been told yet (R123) -/
  expired : List Init := []
deriving DecidableEq, Repr

/-- A pending mark of IDCHK (R51). -/
structure Pend where
  id    : Word
  agent : Nat
  epoch : W32
deriving DecidableEq, Repr

/-- Ordering unit (04). -/
structure Ord where
  /-- 32 bits per agent; 04 R116; reset 0 (DESIGN CHOICE 8). Agent epochs -/
  epochs : Tab W32 := []
  /-- 1 bit per agent; 04 R124; reset 0. Fences -/
  fences : Tab Bool := []
  /-- 1,024 contexts; 04 R96-R102 Table 4.1; reset ORD_MQ 0, ORD_MCFG WINDOW 5,000, nothing held -/
  merges : Tab Merge := []
  /-- 1 bit; 04 R102 ORD_MSTAT.POOLFULL; reset 0 -/
  poolfull : Bool := false
  /-- 64 bits; 04 R103; reset 0 (DESIGN CHOICE 8). Hash key drawn at cold reset -/
  key : Word := 0#64
  /-- 04 R451: an IDCHK has run since cold reset; reset no -/
  idchkSeen : Bool := false
  /-- pending request IDs; 04 R51; reset none -/
  pend : List Pend := []
  /-- 256 entries; 04 R110; reset empty. Quarantined buckets with the elapsed count of the repair -/
  quar : List (Nat × Nat) := []
  /-- 15 bits; 04 Table 4.5 EARLY; reset 0 -/
  early : Nat := 0
  /-- 1 bit; 04 Table 4.5 EOVF; reset 0 -/
  eovf : Bool := false
  /-- 1 bit; 04 Table 4.5 SFULL; reset 0 -/
  sfull : Bool := false
  /-- commits so far; 04 R114; reset 0 -/
  cseq : Nat := 0
  /-- 04 R114: commit number that last wrote each line; reset 0 -/
  lineVer : Tab Nat := []
  /-- 4,096 locks; 04 R115; reset free, mark clear, unprotected -/
  locks : Tab Lock := []
  /-- 3 sequences by number; 04 R120; reset closed -/
  seqs : Tab Seqn := []
  /-- per agent: last sequence named and status of the last open or close (Table 4.11); reset 0 -/
  seqStat : Tab (Nat × Status) := []
deriving DecidableEq, Repr

/-- A pending step of a domain (R269), and the elapsed count of its close: it waits for a boundary after that. -/
structure Step where
  abs : Bool
  s   : Int
  f   : Nat
  at_ : Nat
deriving DecidableEq, Repr

/-- One time domain (R266, R271): its counters; whether the last edge was its second boundary; the increment in force since the last
edge (R267); its class and when that was written; the pending step; the elapsed count of the last applied step (Table 11.5). -/
structure Domain where
  sec    : Word := 0#64
  frac   : Word := 0#64
  carry  : Bool := false
  incr   : Nat := 147573952590
  cls    : Nat := 0
  clsAt  : Nat := 0
  step   : Option Step := none
  stepAt : Option Nat := none
deriving DecidableEq, Repr

/-- Timebase (11). -/
structure Tb where
  /-- 64 + 64 bits, class 4 bits; 11 R266, R271; reset seconds 0, fraction 0 (DESIGN CHOICE 9), class 0. Domain TB-A -/
  a : Domain := {}
  /-- 64 + 64 bits, class 4 bits; 11 R266, R271; reset seconds 0, fraction 0 (DESIGN CHOICE 9), class 0. Domain TB-B -/
  b : Domain := {}
  /-- 64 bits; 11 R266; reset 0. Elapsed count of REFCLK edges -/
  elapsed : Nat := 0
  /-- 11 R272: the SEL a write has chosen, taken at the next REFCLK edge; reset none -/
  selNext : Option Bool := none
  /-- 1 bit; 11 Table 11.6 CLKLOST; reset 0 -/
  clkLost : Bool := false
  /-- 1 bit; 11 Table 11.6 SPLIT; reset 0 -/
  split : Bool := false
  /-- 1 bit; 11 Table 11.6 AUTOSW; reset 0 -/
  autosw : Bool := false
  /-- 64 bits; 11 R272 TB_SWDIFFL/H; reset 0 -/
  swdiff : Word := 0#64
  /-- 96 bits each; 11 TB_SNAPA0-2, TB_SNAPB0-2; reset 0 (DESIGN CHOICE 9) -/
  snapA : Stamp := 0#96
  snapB : Stamp := 0#96
  /-- 64 bits; 11 TB_SNAPE0-1; reset 0 (DESIGN CHOICE 9) -/
  snapE : Word := 0#64
deriving DecidableEq, Repr

/-- A rate-limit bucket (R395). -/
structure Bucket where
  code   : Nat
  tokens : Nat
  supp   : Nat
deriving DecidableEq, Repr

/-- Event recorder and backup domain (17). -/
structure Evr where
  /-- 1,024 x 256 bits; 17 R394 Table 17.9; reset 0. Founding area -/
  founding : Tab (BitVec 256) := []
  /-- 4,096 x 256 bits; 17 R394; reset 0. Circular area -/
  circular : Tab (BitVec 256) := []
  /-- 1,024 x 256 bits; 17 R394; reset 0. Legal area -/
  legal : Tab (BitVec 256) := []
  /-- 32 bits; 17 R394 EVR_TOTAL; reset 0 -/
  total : Nat := 0
  /-- 32 bits; 17 R394 EVR_LEGCNT; reset 0 -/
  legcnt : Nat := 0
  /-- 1 bit; 17 R394 LEGFULL; reset 0 -/
  legfull : Bool := false
  /-- 32 bits; 17 R390 EVR_OPSEC; reset 0 (DESIGN CHOICE 10) -/
  opsec : W32 := 0#32
  /-- 32 bits; 17 R390 EVR_PWRCYC; reset 0 (DESIGN CHOICE 10) -/
  pwrcyc : W32 := 0#32
  /-- 3 x 32 bits; 17 R391 EVR_TCNT0-2 (cover, magnet, seal); reset 0 (DESIGN CHOICE 10) -/
  tcnt0 : W32 := 0#32
  tcnt1 : W32 := 0#32
  tcnt2 : W32 := 0#32
  /-- 5 bits; 17 R392 EVR_ALERT.PEND; reset 0 -/
  pend : BitVec 5 := 0#5
  /-- 3 bits; 17 R391 EVR_BKSTAT COVER, MAGNET, SEAL: accepted levels (true low); reset 0 -/
  coverLow : Bool := false
  magnetLow : Bool := false
  sealLow : Bool := false
  /-- 1 bit; 17 R388 VBATLOW; reset 0 -/
  vbatlow : Bool := false
  /-- 17 R388: the backup domain runs; reset yes -/
  running : Bool := true
  /-- 20 R446: it has stopped since the last main boot; reset no -/
  stopped : Bool := false
  /-- 17 R388: VBAT in mV as last reported; reset 3,000 (DESIGN CHOICE 10) -/
  vbat : Nat := 3000
  /-- 64 bits; 17 R389 RTC seconds; reset 0 (DESIGN CHOICE 10) -/
  rtcSec : Word := 0#64
  /-- 15 bits; 17 R389 RTC subsecond; reset 0 (DESIGN CHOICE 10) -/
  rtcSub : BitVec 15 := 0#15
  /-- 1 bit; 17 R389 RTCV; reset 0 -/
  rtcv : Bool := false
  /-- 17 R389: an RTC set waits for the next second boundary; reset no -/
  rtcPend : Bool := false
  /-- 17 R389: elapsed count of that set, which waits for a boundary after it; reset 0 -/
  rtcAt : Nat := 0
  /-- 17 R389: RTCV was lost and event 0x0708 is due at the next main boot; reset no -/
  rtcLost : Bool := false
  /-- 512 buckets; 17 R395; reset none tracked -/
  buckets : List Bucket := []
  /-- 64 x 32 bits; 17 R395 EVR_RLDATA rows; reset 0 -/
  rl : Tab W32 := []
  /-- 17 R396: freeze owner (agent, epoch) and the elapsed count of the freeze; reset none -/
  frozen : Option (Nat × W32 × Nat) := none
  /-- 64 records; 17 R396: held records before HELD is set; reset empty -/
  hold : List (BitVec 256) := []
  /-- 16 bits; 17 Table 17.10 HOLDOVF; reset 0 -/
  holdovf : Nat := 0
  /-- 17 R396: records dropped in the freeze in force; reset 0 -/
  dropped : Nat := 0
  /-- 17 R453: running copy (area, address, initiator); reset none -/
  copy : Option (Nat × Nat × Init) := none
  /-- 17 R453 EVR_CPYSTAT STATUS and AREA; reset 0 -/
  cpyStat : Status := .ok
  cpyArea : Nat := 0
  /-- 64 bits; 14 R335, 17 Table 17.9: Chuck's nonce counter in MRAM; reset 0 (DESIGN CHOICE 10) -/
  nonce : Word := 0#64
deriving DecidableEq, Repr

/-- A calendar generation in a list: its image bytes 0-2,263 (R197, R200). -/
structure CalGen where
  image : List Byte
deriving DecidableEq, Repr

/-- A stored profile record's context (R204). -/
structure ProfRec where
  local_   : Nat
  interval : Nat
  rec_     : BitVec 256
  /-- what the interval's bookings set (as `Ldg.pwBits`) and byte 34 of its working line: what a rewrite of the record goes by (R205) -/
  bits     : W32 := 0#32
  pb       : Nat := 0
deriving DecidableEq, Repr

/-- Ledger unit (08). -/
structure Ldg where
  /-- up to 4 images of 2,268 bytes; 08 R200; reset empty. Calendar list of the epoch in force -/
  calCur : List CalGen := []
  /-- 08 R200; reset empty. Calendar list of the preceding epoch -/
  calPrev : List CalGen := []
  /-- 08 R200; reset none loaded. Shadow calendar list -/
  calShadow : Option (List CalGen) := none
  /-- 32 bits; 08 R199 LDG_CALSTAT fields (BUSY, STATUS, INDEX); reset 0 -/
  calBusy : Bool := false
  calStatus : Status := .ok
  calIndex : Nat := 0
  /-- 57 x 32 bits; 08 R207 rights rows; rows 0-6 the legal rows, reset the rights of Table 8.7; others 0 -/
  rights : Tab W32 := []
  /-- 3 x 32 bits; 08 R209 LDG_TDEV0-2; reset 0 -/
  tdev0 : W32 := 0#32
  tdev1 : W32 := 0#32
  tdev2 : W32 := 0#32
  /-- 384 bits; 08 R210 LDG_CHKV; reset 0 (DESIGN CHOICE 11). Check value -/
  chkv : BitVec 384 := 0#384
  /-- 08 R210: a Heartwood image is running; reset no -/
  hwRun : Bool := false
  /-- 08 R211: showing: elapsed count of the start, page index, elapsed count of the page; reset none -/
  show_ : Option (Nat × Nat × Nat) := none
  /-- 1 bit; 08 Table 8.10 SHOWEND; reset 0 -/
  showend : Bool := false
  /-- 1 bit; 08 Table 8.10 LATEACT; reset 0 -/
  lateact : Bool := false
  /-- 1 bit; 08 Table 8.10 PROFOVF; reset 0 -/
  profovf : Bool := false
  /-- 1 bit; 08 Table 8.10 RESTORE; reset 1 -/
  restore : Bool := true
  /-- 08 R195: ledger-block lines written under RESTORE; reset 0 -/
  restCnt : Nat := 0
  /-- 08 R195: running snapshot (address, first, count); reset none -/
  snap : Option (Nat × Nat × Nat) := none
  /-- 16 bits; 08 Table 8.10 LATECNT; reset 0 -/
  latecnt : Nat := 0
  /-- 08 R204: stored profile records of the NAND profile area; reset empty -/
  profiles : List ProfRec := []
  /-- 08 R203 to R205: per open working line (key local x 2^32 + interval): bookings' bits rate-mix, default, split, late, data per channel; reset 0 -/
  pwBits : Tab W32 := []
  /-- 08 R204: the next interval whose records are to be formed; reset none -/
  formNext : Option Nat := none
  /-- 08 R206: an interval in which LDG_PCFG was written, and the greatest PKEEP in force in it: what holds until it ends; reset none -/
  pkOld : Option (Nat × Nat) := none
deriving DecidableEq, Repr

/-- A topology generation: node records (64 bytes each) and edges (8 bytes each), the epoch it took effect in, and the
interval from whose start it holds (R175). -/
structure Topo where
  nodes : List (BitVec 512)
  edges : List (BitVec 64)
  epoch : W32
  from_ : Nat
deriving DecidableEq, Repr

/-- Balance engine (07). -/
structure Bal where
  /-- up to 4 generations; 07 R175; reset none -/
  gens : List Topo := []
  /-- 07 R175; reset none. Shadow topology -/
  shadow : Option Topo := none
  /-- 07 R175 BAL_TOPSTAT BUSY (address), STATUS; reset 0 -/
  topBusy : Option Nat := none
  topStatus : Status := .ok
  topKind : Nat := 0
  /-- 07 R181: accumulators by interval x 65,536 + node (work region); reset 0 -/
  accs : Tab Acc := []
  /-- 07 R180, R181: (point, interval) of FINAL quantity postings; reset none -/
  finals : List (Nat × Nat) := []
  /-- 07 R181: state table: (point, interval, A, B); reset empty -/
  states : List (Nat × Nat × Word × Word) := []
  /-- 07 R186: dirty (node, interval); reset none -/
  dirty : List (Nat × Nat) := []
  /-- 07 R185: next interval to close; reset none known -/
  nextClose : Option Nat := none
  /-- 07 R186: the first interval this device closed; one before it is closed where its record stands in the region; reset none -/
  firstClose : Option Nat := none
  /-- 07 R186, R190: what a stalled revision boundary has still to do: nodes, each with the interval it goes on at; reset nothing -/
  work : List (Nat × Nat) := []
  /-- 07 R185, R190: the node at which a stalled evaluation of that interval goes on; reset none -/
  nextNode : Option Nat := none
  /-- 07 R185 DEFER; reset 0 -/
  defer : Bool := false
  /-- 07 R187: every interval below this is final; reset 0 -/
  finalBelow : Nat := 0
  /-- 07 R183: CUSUM S, binary64, with the CRC of the node record it was evaluated under, by interval x 65,536 + node; reset none -/
  cus : Tab (Option (Word × W32)) := []
  /-- 07 R183: (node, interval) restarts requested; reset none -/
  cusrst : List (Nat × Nat) := []
  /-- 07 R190: held items and sequence wraps; reset none -/
  held : List Item := []
  wraps : Nat := 0
  /-- 07 Table 7.6 REVSAT, STALL, KINDMIS, STALE; reset 0 -/
  revsat : Bool := false
  kindmis : Nat := 0
  stale : Nat := 0
  /-- 07 R186: UTC second of the last revision boundary run; reset none -/
  lastRev : Option Nat := none
  /-- BAL_WORKBASE has been written since reset, so the work region stands; MODEL's own field (log entry 21); reset no (DESIGN CHOICE 21) -/
  given : Bool := false
deriving DecidableEq, Repr

/-- Which of the three physical generations of banks and tables is current, preceding and shadow (R155). -/
structure FGen where
  cur    : Nat := 0
  prev   : Nat := 1
  shadow : Nat := 2
deriving DecidableEq, Repr

/-- Flow unit (06). -/
structure Flw where
  /-- 3 generations x 32 x 256 bytes; 06 R154; reset no bank loaded (METHOD 0). Banks by generation x 32 + point -/
  banks : Tab (BitVec 2048) := []
  /-- 3 x 128 handles, and 128 Sapwood handles; 06 R156; reset none loaded. Loaded flags by generation x 256 + handle -/
  loaded : Tab Bool := []
  /-- 06 R155: the three generations of the banks and Heartwood tables, which rotate as one; reset 0, 1, 2 (DESIGN CHOICE 26) -/
  gens : FGen := {}
  /-- 06 Table 6.4 FLW_LDSTAT: BUSY with the load's outcome to come, KIND, STATUS, INDEX; reset 0 -/
  ldBusy : Option (Nat × Nat × Nat) := none
  ldKind : Nat := 0
  ldStatus : Status := .ok
  ldIndex : Nat := 0
  /-- 06 Table 6.4 FLW_SLDSTAT; reset 0 -/
  sldBusy : Option (Nat × Nat) := none
  sldStatus : Status := .ok
  sldIndex : Nat := 0
  sldKind : Nat := 0
deriving DecidableEq, Repr

/-- One analogue channel (05). -/
structure Chan where
  /-- AFE_CHCFG in force, and as written for the next block boundary (R128) -/
  cfg    : W32 := 2500#32
  cfgNew : Option W32 := none
  /-- 136 bytes: 17 pairs of Z then G; CZ, CS (R129, R136) -/
  table  : List Byte := []
  cz     : BitVec 32 := 0#32
  cs     : BitVec 32 := 0x40000000#32
  /-- coefficients for the next block boundary: a blob's 144 bytes (R136), a calibration's kind, CZ and CS (R148) -/
  blobNew : Option (List Byte) := none
  calNew : Option (Nat × BitVec 32 × BitVec 32) := none
  /-- DP gain (log2), samples below UP in a row, settle samples to come (R132, R134) -/
  gain   : Nat := 0
  dwell  : Nat := 0
  settle : Nat := 0
  /-- of the block: sum of y, sum of x, valid samples, clipped samples (R137, R138) -/
  sum    : Int := 0
  raw    : Int := 0
  valid  : Nat := 0
  clipped : Nat := 0
  /-- RTD excitation: samples open or clear in a row, the condition, and whether it held in the block (R137) -/
  openRun : Nat := 0
  clearRun : Nat := 0
  rtdopen : Bool := false
  rtdopenBlk : Bool := false
  /-- current limits as last judged and the overrange condition (R137) -/
  curlo  : Bool := false
  curhi  : Bool := false
  ovr    : Bool := false
  /-- calibration window on x_t: sums and counts of its whole blocks, and of the block in progress, sum of squares, an invalid
  or clipped sample seen (R146) -/
  calSecs : List (Int × Nat) := []
  calSum : Int := 0
  calCnt : Nat := 0
  calSq  : Nat := 0
  calBad : Bool := false
  /-- held RTD low point: sum and count of its mean, CALREF_lo, elapsed count (R146) -/
  low    : Option (Int × Nat × Int × Nat) := none
deriving DecidableEq, Repr

/-- A running calibration (R146 to R149). -/
structure Calib where
  kind   : Nat
  chan   : Nat
  ref    : Int
  /-- AFE_CAL_LIM0 and AFE_CAL_LIM1 as captured at the window's start -/
  lim0   : W32
  lim1   : W32
  /-- whole blocks of the window seen so far -/
  blocks : Nat
  started : Bool
deriving DecidableEq, Repr

/-- A custody point's block in progress and its counters (R131, R138). -/
structure Point where
  bseq  : W32 := 0#32
  cgen  : W32 := 0#32
  /-- sample instants of the block, stamp of the first, DP words newest first -/
  n     : Nat := 0
  first : TimeRec := {}
  dp    : List (BitVec 32) := []
  /-- invalid instants, settle samples, gain changes of the block -/
  inval : Nat := 0
  settle : Nat := 0
  changes : Nat := 0
  tempExt : Bool := false
  /-- 05 R131: the domain and second of the block period in progress; a negative step has ended it; centre in us of the last sample
  instant -/
  per   : Option (Bool × Nat) := none
  /-- 17 R385: no block begins before the next boundary: the field die runs again since within this second -/
  skip  : Bool := false
  cut   : Bool := false
  ctr   : Option Nat := none
  gap   : Bool := false
  calBlk : Bool := false
  /-- sum and count of the die temperatures of the block's samples -/
  theta : Int := 0
  thetaN : Nat := 0
  /-- the channels whose sample of the instant in progress has arrived (bits); all three: the next sample opens an instant -/
  got   : BitVec 3 := 7#3
  lost  : W32 := 0#32
  /-- eight slots: busy bits (R139) and mirror slots (R306) -/
  busy  : BitVec 8 := 0#8
  mbusy : BitVec 8 := 0#8
  /-- items of the blocks held in the slots while the point is not owned, with their stamps, oldest first (R306, R308) -/
  kept  : List (TimeRec × Item) := []
  cal   : Option Calib := none
deriving DecidableEq, Repr

/-- A captured edge of a pulse input: elapsed count, rising, what TB writes for it. -/
structure PEdge where
  at_ : Nat
  up  : Bool
  /-- the second of the stamping domain it fell in -/
  sec : Nat
  st  : TimeRec
deriving DecidableEq, Repr

/-- A pulse input (R141 to R144). -/
structure Pulse where
  cfg   : W32 := 125#32
  /-- the level after the last accepted edge -/
  level : Bool := false
  /-- the last edge, while its pulse may still prove narrower than GLITCH -/
  pendE : Option PEdge := none
  /-- elapsed counts of the last accepted rising and falling edges -/
  prevR : Option Nat := none
  prevF : Option Nat := none
  count : W32 := 0#32
  /-- of the second: counted edges, elapsed counts of the first and last, stamp of the last, net count, glitches, FAST -/
  edges : Nat := 0
  first : Nat := 0
  last  : Nat := 0
  stamp : TimeRec := {}
  net   : Int := 0
  glitch : Nat := 0
  fast  : Bool := false
  /-- that second of the stamping domain (R143) -/
  sec   : Option Nat := none
  /-- edges marked invalid because their die-bridge transfer was dropped (R13) -/
  badE  : Nat := 0
  /-- items of the last 8 seconds kept while the input is not owned, with their stamps (R306, R308) -/
  kept  : List (TimeRec × Item) := []
deriving DecidableEq, Repr

/-- Custody front end (05). -/
structure Afe where
  /-- 96 channels; 05 R128 Table 5.2 AFE_CHCFG and R129-R137; reset CHCFG SHUNT 2,500, tables empty (Z 0, G 1.0) and CS 1.0 (DESIGN CHOICE 12) -/
  chans : Tab Chan := []
  /-- 32 custody points; 05 R131, R138, R139; reset 0 -/
  points : Tab Point := []
  /-- 64 pulse inputs; 05 R141 Table 5.6 AFE_PICFG; reset GLITCH 125, POINT input / 2, others 0 -/
  pulses : Tab Pulse := []
  /-- 16 bits signed, 1/16 C; 05 R135; reset 0 (DESIGN CHOICE 12). Die temperature as last read -/
  theta : Int := 0
  /-- 05 Table 5.8 AFE_CALSTAT: STATUS, REASON, CHANNEL of the last calibration; reset 0 -/
  calStatus : Status := .ok
  calReason : Nat := 0
  calChan : Nat := 0
deriving DecidableEq, Repr

/-- A PLC neighbour entry (R231, R232). -/
structure PlcNb where
  valid : Bool := false
  saddr : BitVec 16 := 0#16
  seq   : Byte := 0#8
  seqAt : Option Nat := none
  snr   : Byte := 0#8
  snrs  : List Byte := []
  toneHist : List (List (Fin 64)) := []
  cls   : Nat := 7
  hist  : List Nat := []
  rxTm  : Nat := 0
  rxMap : List (BitVec 3) := []
  curTm : Nat := 0
  curMap : List (BitVec 3) := []
  prevTm : Nat := 0
  prevMap : List (BitVec 3) := []
  tmAt  : Option Nat := none
  /-- the SNR over the issued map's used tones when it was issued: a sum in dB and how many it adds up -/
  tmSnr : Nat × Nat := (0, 0)
  ask   : Bool := false
  frames : W32 := 0#32
deriving DecidableEq, Repr

/-- A frame a port is sending or waiting to send. -/
structure TxJob where
  reqid : Word
  /-- the frame's octets; a radio frame's without its FCS -/
  psdu  : List Byte
  dst   : BitVec 16 := 0#16
  seq   : Byte := 0#8
  ackreq : Bool := false
  tries : Nat := 0
  /-- backoff exponent and busy assessments of the attempt -/
  be    : Nat := 0
  busyN : Nat := 0
  /-- elapsed count to which a contention deferral holds the frame (R229) -/
  hold  : Nat := 0
  /-- payload symbols of the frame in progress (R216, R222) -/
  syms  : Nat := 0
  robust : Bool := false
  cfp   : Bool := false
  wake  : Nat := 0
  /-- preamble octets of an ordinary frame or copy, as of the take (R251) -/
  pream : Nat := 0
  /-- train copies still to come after the one in progress -/
  copies : Nat := 0
  sending : Bool := false
  /-- elapsed counts: the start of the frame in progress, the end of the last one (acknowledgement wait) -/
  at_   : Nat := 0
  ended : Option Nat := none
  /-- the completion's status, while its queue has no room -/
  status : Option Status := none
deriving DecidableEq, Repr

/-- A power-line port (09). -/
structure Plc where
  /-- 1 bit; 09 R224 Table 9.11 ZCV; reset 0 -/
  zcv : Bool := false
  /-- 16 bits; 09 R224 PLCn_ZC mains period in us; reset 0 (DESIGN CHOICE 13) -/
  period : BitVec 16 := 0#16
  /-- 16 bits signed, 0.1 us; 09 R237 ZCADJ; reset 0 (DESIGN CHOICE 13) -/
  zcadj : Int := 0
  /-- 09 R224: times of the last 17 rising crossings in 0.1 us, newest first; reset none -/
  zcs : List Nat := []
  /-- 09 R224: ZCV was lost to missed crossings and has not returned; reset no -/
  zcLost : Bool := false
  /-- 1 bit; 09 Table 9.11 COVERING; reset 0 -/
  covering : Bool := false
  /-- 1 bit; 09 R226 NEUTRAL; reset 0 -/
  neutral : Bool := false
  /-- 09 R226: since when each phase voltage is below 80 % and above 110 % of VNOM, and since when all are within; reset none -/
  lows : List (Option Nat) := []
  highs : List (Option Nat) := []
  within : Option Nat := none
  /-- 09 R229: elapsed count of the end of the frame the port sends; reset 0 -/
  airEnd : Nat := 0
  /-- 09 R229: elapsed count to which a deferral holds tone-map frames, and their backoff exponent's rise; reset 0 -/
  mapHold : Nat := 0
  mapBe : Nat := 0
  /-- 01 R13: converter samples marked invalid because their die-bridge transfer was dropped; MODEL's count of the marks; reset 0 -/
  badSamp : Nat := 0
  /-- 4 bits; 09 Table 9.11 LATEBCN, NOBUF, BADCFP, BADTM; reset 0 -/
  latebcn : Bool := false
  nobuf : Bool := false
  badcfp : Bool := false
  badtm : Bool := false
  /-- 16 bits; 09 Table 9.11 DUPDROP; reset 0 -/
  dupdrop : Nat := 0
  /-- 09 R230: frames whose FCS failed; reset 0 -/
  badfcs : Nat := 0
  /-- 2,048 entries; 09 R231, R232 Table 9.12; reset not valid -/
  nbs : Tab PlcNb := []
  /-- 09 R234: receive buffers in use (index); reset none -/
  bufs : List Nat := []
  /-- 09 R234: acknowledgements owed: destination, SEQ, elapsed count of the frame's end; reset none -/
  acks : List (BitVec 16 × Byte × Nat) := []
  /-- 09 R235: the frame taken from PLCn_TXQ; reset none -/
  tx : Option TxJob := none
  /-- 8 bits per destination; 09 R230: next MAC SEQ; reset 0 (DESIGN CHOICE 13) -/
  txseq : Tab Byte := []
  /-- 09 R227: current superframe number and elapsed count of its start; reset none -/
  sf : Option (W32 × Nat) := none
  /-- 09 R228: armed beacon (SFN, PSDU), last shipped/received image, whether a new address was written; reset none -/
  armed : Option (W32 × List Byte) := none
  image : List Byte := []
  newAddr : Bool := false
  /-- 09 R228: the beacon whose slots the running superframe has; reset none -/
  bcn : List Byte := []
  shipped : Option (W32 × List Byte) := none
  /-- 09 R238: superframes covered in a row without a shipment; 0x1003 recorded; reset 0 -/
  covered : Nat := 0
  coverEnd : Bool := false
  /-- 09 R237: time in 0.1 us of a Headstock beacon heard before the port's own superframe start; reset none -/
  bcnAt : Option Nat := none
  /-- 09 R237, R238: SFN of the last BEGUN received, of the last beacon begun; reset none -/
  begun : Option W32 := none
  sent : Option W32 := none
deriving DecidableEq, Repr

/-- A radio neighbour entry (R254). -/
structure RfNb where
  valid : Bool := false
  saddr : BitVec 16 := 0#16
  seq   : Byte := 0#8
  seqAt : Option Nat := none
deriving DecidableEq, Repr

/-- A radio port (10). -/
structure Rf where
  /-- 3 bits; 10 Table 10.7 NOBUF, BADPHR, IQERR (TXROLE follows TWN_STAT.CP, R250); reset 0 -/
  nobuf : Bool := false
  badphr : Bool := false
  iqerr : Bool := false
  /-- 16 bits; 10 Table 10.7 DUPDROP; reset 0 -/
  dupdrop : Nat := 0
  /-- 2,048 entries; 10 R254; reset not valid -/
  nbs : Tab RfNb := []
  /-- 10 R249: receive buffers in use; reset none -/
  bufs : List Nat := []
  /-- 10 R248: acknowledgements owed: destination, SEQ, elapsed count of the frame's end; reset none -/
  acks : List (BitVec 16 × Byte × Nat) := []
  /-- 10 R251: the frame taken from RFn_TXQ, whether an assessment runs, back-off end; reset none -/
  tx : Option TxJob := none
  cca : Bool := false
  backoff : Option Nat := none
  /-- RFn_MACCFG and RFn_LPL as of the item taken (R256); reset the registers' reset values -/
  txMac : W32 := 0x3355003C#32
  txLpl : W32 := 0x0FA020A0#32
  /-- 10 R242: elapsed count of the end of the port's last transmission; reset 0 -/
  airEnd : Nat := 0
  /-- 10 R244: elapsed count of the last stall of the IQ receive stream; reset none -/
  stallAt : Option Nat := none
  /-- 10 Table 10.4: elapsed count at which EN was last cleared; reset none -/
  offAt : Option Nat := none
  /-- 8 bits per destination; 10 R245: next MAC SEQ; reset 0 (DESIGN CHOICE 13) -/
  txseq : Tab Byte := []
  /-- 10 R243 RFn_FESPI: transfer running, read data; reset 0 -/
  fespi : Bool := false
  ferd : BitVec 16 := 0#16
deriving DecidableEq, Repr

/-- A wired port (10). -/
structure Wir where
  /-- 10 R263: the receiver ignores the line until this elapsed count; reset none -/
  blind : Nat := 0
  /-- 2 bits; 10 Table 10.10 NOBUF, COLL; reset 0 -/
  nobuf : Bool := false
  coll : Bool := false
  /-- 16 bits; 10 Table 10.10 BADFRAME; reset 0 -/
  badframe : Nat := 0
  /-- 10 R262: receive buffers in use; reset none -/
  bufs : List Nat := []
  /-- 10 R263: frame taken and waiting or being sent; reset none -/
  tx : Option TxJob := none
  /-- 10 R264: the last 16 values WIRn_TIM held before a write, newest first, with the elapsed count of that write; reset none -/
  tims : List (Nat × W32) := []
  /-- 8 bits; 10 R264: TURN as the frame being sent found it; reset 0 -/
  turn : Nat := 0
deriving DecidableEq, Repr

/-- A tree frame being packed: its queue, the elapsed count of its first item, PACK and PACKWAIT as of its start (R283, R299). -/
structure Pack where
  q    : Nat
  at_  : Nat
  max  : Nat
  wait : Nat
deriving DecidableEq, Repr

/-- An Ethernet port (12). -/
structure Eth where
  /-- 1 bit; 12 R281, 20 ETHn_STAT [31]; reset 0. Link up -/
  link : Bool := false
  /-- 12 R285: receive buffers in use; reset none -/
  bufs : List Nat := []
  /-- 12 R283: the frame being packed; reset none -/
  pack : Option Pack := none
  /-- 12 R284: the last four frames sent; reset none -/
  last4 : List (List Item) := []
  /-- 12 R284: queue to serve next (false Q0xE000); reset Q0xE000 -/
  turn : Bool := false
  /-- 12 R283, R278: raw item being sent: request ID, whether its stamp is wanted, egress stamp, offset, the other domain's
  stamp; its completion's status while the queue has no room; reset none -/
  raw : Option (Word × Bool × Stamp × Int × Stamp) := none
  rawDone : Option (Word × Status × Option (Stamp × Int × Stamp)) := none
  /-- 03 R81: elapsed count of the last PAUSE; reset none -/
  pauseAt : Option Nat := none
deriving DecidableEq, Repr

/-- A message waiting to be matched by SPN pairing (R304). -/
structure PairFrame where
  msg : FrameMsg
  at_ : Nat
deriving DecidableEq, Repr

/-- An own field item published and not settled, or settled recently (R304, R305). -/
structure OwnItem where
  q    : Nat
  ptr  : Nat
  item : Item
  dig  : W32
  len  : Nat
  at_  : Nat
  settled : Bool
  matched : Bool
deriving DecidableEq, Repr

/-- Spindle (13). -/
structure Spn where
  /-- 3 bits; 13 Table 13.2 LINK, LANE1, LANE0; reset 0 -/
  link : Bool := false
  lane1 : Bool := false
  lane0 : Bool := false
  /-- 1 bit; 13 Table 13.2 LATEPAIR; reset 0 -/
  latepair : Bool := false
  /-- 16 bits; 13 Table 13.2 ADOPTED; reset 0 -/
  adopted : Nat := 0
  /-- 13 R305: receive buffers in use; reset none -/
  bufs : List Nat := []
  /-- 13 R304: own items and frames waiting for a match; reset none -/
  own : List OwnItem := []
  frames : List PairFrame := []
  /-- 13 R302: elapsed count of the last HB received; reset none -/
  hbAt : Option Nat := none
  /-- 13 R301: elapsed count of the last HB sent; reset none -/
  hbSent : Option Nat := none
  /-- 04 R125: Spindle transmit lease withdrawn from the agent; reset none -/
  revoked : List Nat := []
deriving DecidableEq, Repr

/-- A checkpoint (R321, R322). -/
structure Ckpt where
  num   : W32
  jpos  : Word
  epoch : W32
  body  : List Byte
deriving DecidableEq, Repr

/-- Twin control (13). -/
structure Twn where
  /-- 1 bit; 13 Table 13.10 TWINUP; reset 0 -/
  twinup : Bool := false
  /-- 13 R302: the twin is declared lost; reset yes (no HB has arrived) -/
  lost : Bool := true
  /-- 2 bits; 13 Table 13.10 CP; reset 11 none -/
  cp : BitVec 2 := 3#2
  /-- 13 R319: lease valid until this elapsed count; reset none -/
  lease : Option Nat := none
  /-- 13 R320: grants held by witness (agent or zone pair) with their ends; reset none -/
  wits : List (Nat × Nat) := []
  /-- 3 bits; 13 Table 13.10 JOINING, SELFFLT, CUSTMIS; reset 0 -/
  joining : Bool := false
  selfflt : Bool := false
  custmis : Bool := false
  /-- 13 R306: TWN_CUSTOWN in force; reset 0 -/
  custown : W32 := 0#32
  /-- 32 bits; 13 R306: the twin's TWN_CUSTOWN as its last HB gave it; reset 0 -/
  twinCust : W32 := 0#32
  /-- 13 R322: last complete checkpoint, CKVALID, CKNUM; reset none -/
  ck : Option Ckpt := none
  /-- 13 R321: last captured number; last acknowledged number and JPOS; elapsed count of the last capture; reset 0 -/
  capNum : W32 := 0#32
  caps : List (W32 × Word) := []
  ackJpos : Word := 0#64
  ckAt : Nat := 0
  /-- 13 bits; 13 R329: the TWN_CTL.CKPER in force since the last capture; reset 100 -/
  ckPer : Nat := 100
  /-- 13 R323: journal ring of this twin (entries from the last acknowledged JPOS), next POS; reset empty, 0 -/
  journal : List JEntry := []
  jpos : Word := 0#64
  /-- 13 R323: position acknowledged by the twin; reset 0 -/
  jack : Word := 0#64
  /-- 13 R320: a planned handover is under way, its checkpoint number; reset none -/
  hand : Option W32 := none
  /-- 13 R308, R327: the twin's custody points are owned here until the epoch switch after its rejoin; reset no -/
  takeover : Bool := false
  /-- 13 R327: this device has rejoined and its points are still the twin's until the next epoch switch; reset no -/
  ceded : Bool := false
  /-- 13 R312: replay records; reset none -/
  replays : List ReplayRec := []
  /-- 13 R313: pair sequences whose replay waits for a thread of cluster 0; reset none -/
  rplWait : List (BitVec 48) := []
  /-- 13 R327: elapsed count when streaming began; reset none -/
  streamAt : Option Nat := none
  /-- TWN_MIRBASE has been written since reset, so the mirror region stands; MODEL's own field (log entry 21); reset no (DESIGN CHOICE 21) -/
  mirGiven : Bool := false
deriving DecidableEq, Repr

/-- A peer device as the tree unit knows it (R286 to R290). -/
structure Peer where
  seen   : Option Nat := none
  hbtime : Item := 0#512
  arr    : Stamp := 0#96
  cpstate : Nat := 3
  theta  : Int := 0
  reasons : BitVec 4 := 0#4
  clear0 : Nat := 0
  clear1 : Nat := 0
  clear2 : Nat := 0
  clear3 : Nat := 0
  above  : Nat := 0
  cfgBad : Option Nat := none
  hwact  : BitVec 16 := 0#16
  hwstg  : BitVec 16 := 0#16
  swact  : BitVec 16 := 0#16
  swstg  : BitVec 16 := 0#16
  role   : BitVec 2 := 0#2
  headAt : Option Nat := none
  lost   : Bool := false
deriving DecidableEq, Repr

/-- A grantor's record of one child pair's lease (R318). -/
structure Grant where
  holder : Option Bool := none
  serial : BitVec 6 := 0#6
  lastAt : Option Nat := none
deriving DecidableEq, Repr

/-- Tree unit (12). -/
structure Tre where
  /-- 1 bit; 12 Table 12.12 QUAR; reset 0 -/
  quar : Bool := false
  /-- 1 bit; 12 Table 12.12 MGRLOST; reset 0 -/
  mgrlost : Bool := false
  /-- 4 bits; 12 Table 12.12 REASONS; reset 0 -/
  reasons : BitVec 4 := 0#4
  /-- 16 bits; 12 Table 12.12 FOREIGN; reset 0 -/
  foreign_ : Nat := 0
  /-- 12 R286: peers: children by 2 x index + twin, the manager's twins at 32 and 33; reset none seen -/
  peers : Tab Peer := []
  /-- 13 R318: per child index the holder kept; reset none -/
  grants : Tab Grant := []
  /-- 12 R289: active and shadow expectation entries (word k of child c at 5c + k); reset 0 -/
  xAct : Tab W32 := []
  xSh : Tab W32 := []
  xTouched : Bool := false
  /-- 12 R295: TRE_GRPn and TRE_CHILD in force; reset 0 -/
  grpAct : Tab W32 := []
  childAct : W32 := 0#32
  /-- 12 R286: elapsed count of the last heartbeat sent; reset none -/
  hbAt : Option Nat := none
  /-- 12 R299: TRE_HBCFG.HBPER and HBMISS as of the last heartbeat; reset 20 and 5 -/
  hbPer : Nat := 20
  hbMiss : Nat := 5
deriving DecidableEq, Repr

/-- Configuration epochs (12). -/
structure Cfg where
  /-- 32 bits; 12 R294 CFG_CUR; reset 0 (DESIGN CHOICE 14) -/
  cur : W32 := 0#32
  /-- B of the last switch in units of 2^-32 s; 12 R294; reset 0: no switch yet -/
  lastB : Nat := 0
  /-- 64 bits; 12 R296 CFG_DIGEST0-1; reset 0 (DESIGN CHOICE 14) -/
  cdigest : Word := 0#64
  /-- 12 R296: armed NEXT and B (TAI seconds and 2^-32 fraction); reset none -/
  armed : Option (W32 × Nat) := none
  /-- 1 bit; 12 Table 12.9 PREP; reset 0 -/
  prep : Bool := false
  /-- 7 bits; 12 Table 12.9 READY; reset 0 -/
  ready : BitVec 7 := 0#7
  /-- 12 R296: shadow digests by participant; reset none -/
  digests : Tab (BitVec 384) := []
  /-- 12 R298: refusing participant; reset none -/
  refused : Option Nat := none
  /-- 12 R296: the twin's READY (NEXT, B, digest); reset none -/
  twinReady : Option (W32 × Nat × BitVec 384) := none
  /-- 12 R292: UPD has taken a command of the manager under RECON since the last switch, so quarantine refuses no ARM; reset no -/
  recon : Bool := false
  /-- 12 Table 12.9 STATUS, CULPRIT; reset 0 -/
  status : Status := .ok
  culprit : Nat := 0
deriving DecidableEq, Repr

/-- A key slot (R332). -/
structure Slot where
  key    : BitVec 256 := 0#256
  policy : W32 := 0#32
  tag    : BitVec 128 := 0#128
  commit : Bool := false
  retire : Bool := false
  prog   : Bool := false
  bad    : Bool := false
deriving DecidableEq, Repr

/-- Chuck vault (14). -/
structure Sec where
  /-- 256 bits; 14 R330; reset 0 (DESIGN CHOICE 15). Hardware unique key -/
  huk : BitVec 256 := 0#256
  /-- 64 slots; 14 R332; reset EMPTY (DESIGN CHOICE 15) -/
  slots : Tab Slot := []
  /-- 2 bits; 14 R330 SEC_LIFE.STATE; reset 0 PROVISION (DESIGN CHOICE 15) -/
  life : Nat := 0
  /-- 2 bits; 14 R342 SEC_BOOT.STAGE; reset 0 -/
  stage : Nat := 0
  /-- 1 bit; 14 R343 SEC_BOOT.FAIL; reset 0 -/
  fail : Bool := false
  /-- 8 x 384 bits; 14 R341 MR0-MR7; reset 0 -/
  mrs : Tab (BitVec 384) := []
  /-- 14 R344: latched attestation request (initiator, address, statement bytes); STATUS; reset none, OK -/
  att : Option (Init × Nat × List Byte) := none
  attStatus : Status := .ok
  /-- 14 R339: a key-write close that still programs OTP cells: its initiator and its buffered writes; reset none -/
  otp : Option (Init × List (Nat × W32)) := none
  /-- 14 R336: up to 1,024 key-table generations Chuck keeps decrypted, the newest first: entry index, the generation as sealed, its
  key; reset none -/
  cache : List (Nat × BitVec 512 × BitVec 256) := []
deriving DecidableEq, Repr

/-- An image UPD keeps (R350). -/
structure Img where
  version : BitVec 16
  hash    : BitVec 384
  bytes   : List Byte
deriving DecidableEq, Repr

/-- Updates (15). -/
structure Upd where
  /-- 15 R350: active, staged, kept images: key 0 cluster 0, 1-3 Sapwood, 4 legal parameter block;
  staged also 5 meter firmware, 6 meter tariff (R347); reset none -/
  active : Tab (Option Img) := []
  staged : Tab (Option Img) := []
  kept   : Tab (Option Img) := []
  /-- 15 Table 15.6 BUSY (Husk address, RECON), STATUS, KIND; reset 0 -/
  busy : Option (Nat × Bool) := none
  status : Status := .ok
  kind : Nat := 0
  /-- 1 bit; 15 Table 15.6 GATED; reset 0 -/
  gated : Bool := false
  /-- 1 bit; 15 Table 15.6 LOADFAIL; reset 0 -/
  loadfail : Bool := false
  /-- 4 bits; 15 Table 15.6 PARKED; reset 0 -/
  parked : BitVec 4 := 0#4
  /-- 15 R352: handover: switch epoch, changing clusters, elapsed count of the switch, warned; reset none -/
  hand : Option (W32 × BitVec 4 × Nat × Bool) := none
  /-- 15 R354: SPI NOR, two boot copies of 8 MiB; reset erased 0xFF (DESIGN CHOICE 16) -/
  nor : Tab Byte := []
  /-- 15 R356 UPD_SETLOG; reset 0 (DESIGN CHOICE 16) -/
  setlog : W32 := 0#32
  /-- 16 bits; 15 R354, 12 R286 FWVER: version of the boot copy that runs; reset 0 (DESIGN CHOICE 16) -/
  fwver : BitVec 16 := 0#16
deriving DecidableEq, Repr

/-- DRAM controller (16). -/
structure Mem where
  /-- up to 15 GiB of bytes; 16 R361; reset 0 (zero-filled). DRAM -/
  dram : Tab Byte := []
  /-- per line; 16 R362 POISON bit of the tag; reset clear -/
  poison : Tab Bool := []
  /-- 64 x 29 bits; 16 R452 poison log: slot -> (line, order); reset not VALID -/
  plog : Tab (Option (Nat × Nat)) := []
  /-- poisonings logged so far; 16 R452; reset 0 -/
  pord : Nat := 0
  /-- 1 bit; 16 Table 16.2 PLOVF; reset 0 -/
  plovf : Bool := false
  /-- 1 bit; 16 Table 16.2 SCRUBON; reset 0 -/
  scrubon : Bool := false
  /-- 7 bits; 16 Table 16.2 PWDROP; reset 0 -/
  pwdrop : Nat := 0
  /-- 16 bits; 16 Table 16.2 CORR; reset 0 -/
  corr : Nat := 0
deriving DecidableEq, Repr

/-- A NAND command NFT has taken and not completed (R371): its number in the order of taking, the agent whose QPUT it was, the
content a READ saw, and how many sectors of a WRITE lie in open stripes. -/
structure NCmd where
  id    : Nat
  item  : Item
  agent : Option Nat
  data  : List (List Byte) := []
  open_ : Nat := 0
deriving DecidableEq, Repr

/-- A data page's sector in an open stripe: key (none once trimmed or rewritten away), content, number of its WRITE. -/
structure NPage where
  key  : Option Nat
  data : List Byte
  cmd  : Nat
deriving DecidableEq, Repr

/-- An open stripe (R374): its sectors oldest first, elapsed count of the first, the close time in ms it was opened under. -/
structure Stripe where
  pages : List NPage := []
  at_   : Nat := 0
  close : Nat := 2
deriving DecidableEq, Repr

/-- One die's health (Table 16.4). -/
structure Die where
  pemax : Nat := 0
  pemean : Nat := 0
  spare : Nat := 0
  spare0 : Nat := 0
  grown : Nat := 0
  retries : Nat := 0
  recon : Nat := 0
  bermax : Nat := 0
  state : Nat := 0
deriving DecidableEq, Repr

/-- NAND store (16). -/
structure Nft where
  /-- 16 R375: sectors of the store: key volume x 2^32 + sector -> 4 KiB; reset unmapped (reads zero) -/
  sectors : Tab (List Byte) := []
  /-- 16 R374: the open stripe of each group; reset none -/
  stripes : Tab Stripe := []
  /-- 16 R371: commands taken and not completed, in order of taking; the next number; reset none, 0 -/
  cmds : List NCmd := []
  nextId : Nat := 0
  /-- 16 R371: completion items NFT_CQ had no room for; reset none -/
  dones : List Item := []
  /-- 04 R125: (slot pointer, agent) of the commands in NFT_CMDQ; reset none -/
  putBy : List (Nat × Nat) := []
  /-- 16 R370: geometry in force (NFT_GEOM); reset WIDTH 4 -/
  geom : W32 := 4#32
  /-- 15 x 32 bits; 16 R369 volume sizes NFT_VSIZE; reset 0 -/
  vsize : Tab W32 := []
  /-- 16 Table 16.4 per-die health; reset absent -/
  dies : Tab Die := []
  /-- 4 bits; 16 Table 16.5 READY, DEGRADED, READONLY, LOSS; reset 0 -/
  ready : Bool := false
  degraded : Bool := false
  readonly : Bool := false
  loss : Bool := false
  /-- 16 R379: event 0x1D04 recorded; reset no -/
  lifeEv : Bool := false
  /-- 16 R378: elapsed count of the last map checkpoint, and the NFT_CTL.MAPCKPT in force since; reset 0, 10 -/
  ckAt : Nat := 0
  ckPer : Nat := 10
deriving DecidableEq, Repr

/-- An item being assembled at the item port (R406). -/
structure ItemBuf where
  prio  : Nat
  words : List W32
deriving DecidableEq, Repr

/-- Host port (18). -/
structure Hst where
  /-- 1 bit; 18 R404: PCIe link up; reset 0 -/
  link : Bool := false
  /-- 1 bit; 18 R404: function in D3hot; reset 0 -/
  d3hot : Bool := false
  /-- 16 bits; 18 R406 HST_STAT.ITEMBAD; reset 0 -/
  itembad : Nat := 0
  /-- 18 R406: items open at the SPI target and the I2C port; reset none -/
  itemSpi : Option ItemBuf := none
  itemI2c : Option ItemBuf := none
  /-- 16 entries; 18 R405 error log (address, status, agent); OVF; reset empty -/
  errlog : List (Nat × Status × Nat) := []
  errOvf : Bool := false
  /-- 18 R408: MSI-X vectors raised; reset none -/
  msix : Word := 0#64
  /-- 18 R409: status of the last SPI access; byte shifted out next; reset OK -/
  spiStat : Status := .ok
  /-- 18 R411, R414 HST_I2CSTAT STATUS; BUSY, TRIES, BITIDX; reset 0 (TGT shows a transaction's inside, which is one step here) -/
  i2cStat : Status := .ok
  i2cBusy : Bool := false
  i2cTries : Nat := 0
  i2cBit : BitVec 12 := 0#12
  /-- 18 R412, R414: an attempt is due: the first one, or the one after a back-off; the outcome to report; reset none -/
  i2cDue : Bool := false
  i2cEnd : Option (Status × List Byte) := none
  /-- words the last read command (SPI READ, SPI STATUS, I2C target read, MBX_SEND, PMC_CNTL_READ) returned; the MODEL's record of the
  response; reset none -/
  rdata : List W32 := []
deriving DecidableEq, Repr

/-- A mailbox channel's ring and records not yet handed over (R415 to R418). -/
structure Chn where
  ring : List (BitVec 128 × Item) := []
deriving DecidableEq, Repr

/-- Mailboxes (18). -/
structure Mbx where
  /-- 32 channels x 16 records; 18 R416; reset empty -/
  chans : Tab Chn := []
  /-- 4 x 32 bits per agent; 18 R417 MBX_SREC0-3; reset 0. Key agent x 4 + word -/
  srec : Tab W32 := []
deriving DecidableEq, Repr

/-- Performance counters (18). -/
structure Pmc where
  /-- 192 x 48 bits; 18 R419; reset 0. PMC_CNT -/
  cnt : Tab (BitVec 48) := []
  /-- 192 x 16 bits; 18 R419: upper bits latched by a read of CNTL; reset none -/
  hlatch : Tab (BitVec 16) := []
  /-- 192 bits; 18 R419 PMC_OVF0-5; reset 0 -/
  ovf : Tab Bool := []
  /-- 18 R421: next slot, record sequence, last capture; PMC_STAT.SKIP; reset 0 -/
  ringwr : Nat := 0
  rseq : W32 := 0#32
  capAt : Nat := 0
  skip : Nat := 0
  /-- 16 x 32 bits; 18 R422 PMC_PEAK; reset 0 -/
  peak : Tab W32 := []
  /-- 18 R422: measure chosen at the rise of TRE_CTL.EN: true bandwidth windows (zone, root); reset worker -/
  bw : Bool := false
  bwAt : Nat := 0
deriving DecidableEq, Repr

/-- One fabric target's arbiter (R399 to R401). -/
structure Tgt where
  cur  : Option Nat := none
  oneAhead : Option Nat := none
  rrp  : Nat := 0
  used : Nat := 0
  last4 : List Bool := []
deriving DecidableEq, Repr

/-- Fabric (18). -/
structure Fab where
  /-- 6 targets; 18 R399-R403; reset idle -/
  tgts : Tab Tgt := []
deriving DecidableEq, Repr

/-- Pins (19). -/
structure Pin where
  /-- 192 pins; 19 R432 PIN_FUNCp.BUSY: a switch is in progress; reset 0 -/
  busy : Tab Bool := []
  /-- JTAG: the instruction in force; 19 R438; reset BYPASS (DESIGN CHOICE 17) -/
  jtag : Jtag := .bypass
deriving DecidableEq, Repr

/-- Power (17). -/
structure Pwr where
  /-- 3 bits; 17 Table 17.5 STATE; reset 0 -/
  state : Nat := 0
  /-- 1 bit; 17 Table 17.5 BUSY; reset 0 -/
  busy : Bool := false
  /-- 3 bits; 17 Table 17.5 TARGET; reset 0 -/
  target : Nat := 0
  /-- 8 bits; 17 Table 17.5 STATUS; reset 0 -/
  status : Status := .ok
  /-- 4 bits; 17 Table 17.5 PARKED; reset 0 -/
  parked : BitVec 4 := 0#4
  /-- 1 bit; 17 Table 17.5 OFFRDY; reset 0 -/
  offrdy : Bool := false
  /-- 17 R386, R387: main supplies present and main domains out of reset; reset yes -/
  mainOn : Bool := true
  /-- clusters about to park (step 1 of Table 17.4); reset none -/
  gate : BitVec 4 := 0#4
deriving DecidableEq, Repr

/-- Identity (20 SYS window). -/
structure Sys where
  /-- 20 R447: variant; reset LNS8192-M (DESIGN CHOICE 3) -/
  variant : Variant := .m
  /-- 16 bits; 20 SYS_ID [15:0] revisions; reset 0 (DESIGN CHOICE 3) -/
  rev : BitVec 16 := 0#16
  /-- 128 bits; 20 SYS_SERIAL0-3; reset 0 (DESIGN CHOICE 3) -/
  serial : BitVec 128 := 0#128
  /-- 3 bits; 20 SYS_RSTCAUSE; reset [0] cold -/
  cause : W32 := 1#32
deriving DecidableEq, Repr

/-- What the device sends to the outside: the model's own record of it, oldest first (log entry 18). -/
inductive Out where
  /-- power-line frames with the phases they are driven on (R223) -/
  | plcFrame (n : Nat) (phases : BitVec 3) (fch : BitVec 48) (psdu : List Byte)
  | plcAck (n : Nat) (phases : BitVec 3) (fch : BitVec 48) (dst : BitVec 16)
  | plcToneMap (n : Nat) (phases : BitVec 3) (fch : BitVec 48) (psdu : List Byte)
  | plcBeacon (n : Nat) (phases : BitVec 3) (fch : BitVec 48) (sfn : W32) (psdu : List Byte) (cover : Bool)
  /-- a radio frame with its preamble in octets -/
  | rfFrame (n : Nat) (psdu : List Byte) (preamble : Nat)
  | rfAck (n : Nat) (psdu : List Byte)
  | rfSpi (n : Nat) (v : W32)
  | wirFrame (n : Nat) (octets : List Byte)
  /-- a tree frame: destination, source, ethertype, items (R282) -/
  | ethTree (port : Nat) (dst src : BitVec 48) (etype : BitVec 16) (items : List Item)
  | ethRaw (port : Nat) (octets : List Byte)
  | ethPause (port : Nat) (quanta : BitVec 16)
  | heartbeat (up : Bool) (idx : Nat) (dst src : BitVec 48) (etype : BitVec 16) (hbtime hbstate : Item)
  | spnHb (m : HbMsg)
  | spnFrame (m : FrameMsg)
  | spnBlock (m : BlockMsg)
  | spnBeacon (n : Nat) (sfn : W32) (psdu : List Byte)
  | spnBegun (n : Nat) (sfn : W32)
  | spnCfg (m : CfgMsg)
  | spnJournal (e : JEntry)
  | spnJournalAck (pos : Word)
  | spnCkpt (hdr : BitVec 1024) (body : List Byte)
  | spnCkack (num : W32)
  | spnStream (m : StreamMsg)
  | spnStreamEnd
  | msix (vector : Nat)
  | outbound (addr : Nat) (bytes : Nat) (v : Word)
  | i2cStart (addr : Nat) (data : List Byte)
  | display (groups : List (BitVec 16)) (blank : Bool)
  | reissue (reqid : Word)
  | replayAnswer (pseq : BitVec 48) (first again : Word) (st : Status)
deriving DecidableEq, Repr

/-- The state of the block. -/
structure State where
  /-- the commands that are waiting, first in, first out; MODEL's own field; reset empty -/
  pending : List Instr := []
  /-- draws of free values so far; MODEL's own field (log entry 2); reset 0 (DESIGN CHOICE 2) -/
  freeCtr : Nat := 0
  /-- about 1,100 x 32 bits; 20 R445, R448 Table 20.4: the stored registers by BAR0 offset; reset each register's value in Machine/Regs.lean -/
  regs : Tab W32 := []
  /-- 32 bits per register and initiator; 20 R445: pending latches; reset empty. Key agent x 2^24 + offset -/
  latch : Tab (Option W32) := []
  /-- 8 bits per initiator; 00 R10, 20 R445: status of the last register or fabric access; MODEL's record of the response; reset OK -/
  resp : Tab Status := []
  /-- what the device has sent; MODEL's own field; reset empty -/
  out : List Out := []
  sys : Sys := {}
  pwr : Pwr := {}
  pin : Pin := {}
  tb : Tb := {}
  fab : Fab := {}
  mbx : Mbx := {}
  pmc : Pmc := {}
  evr : Evr := {}
  qm : Qm := {}
  ge : Ge := {}
  sup : Sup := {}
  ord : Ord := {}
  ldg : Ldg := {}
  bal : Bal := {}
  flw : Flw := {}
  afe : Afe := {}
  plc : Tab Plc := []
  rf : Tab Rf := []
  wir : Tab Wir := []
  eth : Tab Eth := []
  spn : Spn := {}
  twn : Twn := {}
  tre : Tre := {}
  cfg : Cfg := {}
  sec : Sec := {}
  upd : Upd := {}
  mem : Mem := {}
  nft : Nft := {}
  hst : Hst := {}
deriving DecidableEq, Repr

/-- The machine right after reset. -/
def State.reset : State := {}

end Sys2Proof.Machine
end

