-- ==== Sys2Proof/Machine/Regs.lean ====
section
/-! DEFINITION. The register map (20_registers.md, Tables 20.1 and 20.4): for every register its place in the 16 MiB register
space, its access type, its reset value and the bits software can set. The fields and reset values are those of the tables
each chapter gives. -/

namespace Sys2Proof.Machine
open Sys2Proof

/-- The access types of Table 0.5 as they govern a whole register; `w1c` marks a register with W1C fields, `wo` one whose
write triggers an action, `h` one that holds an H field (R10). -/
inductive RegAcc where
  | rw | ro | w1c | wo | seq | h
deriving DecidableEq, Repr

/-- A row of Table 20.4: register `i` of `n` occupies `words` words from `off + stride * i` in its window. -/
structure RegRow where
  off    : Nat
  n      : Nat
  stride : Nat
  words  : Nat
  acc    : RegAcc
  reset  : Nat
  mask   : W32
deriving DecidableEq, Repr

/-- One register of one word. -/
def RegRow.one (off : Nat) (acc : RegAcc) (reset : Nat) (mask : W32) : RegRow := ⟨off, 1, 4, 1, acc, reset, mask⟩
/-- `n` registers of one word, `stride` bytes apart. -/
def RegRow.many (off n stride : Nat) (acc : RegAcc) (reset : Nat) (mask : W32) : RegRow := ⟨off, n, stride, 1, acc, reset, mask⟩
/-- One value of two words (R445). -/
def RegRow.two (off : Nat) (acc : RegAcc) (mask : W32) : RegRow := ⟨off, 1, 8, 2, acc, 0, mask⟩

abbrev allBits : W32 := 0xFFFFFFFF#32

/-- SYS (unit 0x00). -/
def rowsSys : List RegRow :=
  [.many 0x00 8 4 .ro 0 0, .one 0x20 .w1c 1 7#32]
/-- PWR (unit 0x01): Tables 17.2, 17.3, 17.5. -/
def rowsPwr : List RegRow :=
  [.one 0 .wo 0 7#32, .one 4 .ro 0 0, .one 8 .rw 0x141 0x377#32]
/-- PIN (unit 0x02): Tables 19.2 to 19.4. The rows go by the pin ranges of Table 19.2. -/
def rowsPin : List RegRow :=
  [-- PIN_FUNC: named functions reset to 01, GPIO-only pins to 00
   .many 0x000 26 8 .rw 1 3#32, .many 0x0D0 6 8 .rw 0 3#32,
   .many 0x100 6 8 .rw 1 3#32, .many 0x130 26 8 .rw 0 3#32,
   .many 0x200 1 8 .rw 1 3#32, .many 0x208 31 8 .rw 0 3#32,
   .many 0x300 24 8 .rw 1 3#32, .many 0x3C0 8 8 .rw 0 3#32,
   .many 0x400 64 8 .rw 1 3#32,
   -- PIN_PARK: DRV 01; outputs driven, inputs high-impedance with their pull
   .many 0x004 2 8 .rw 0x40 0xF3#32, .many 0x014 2 8 .rw 0x52 0xF3#32, .many 0x024 4 8 .rw 0x40 0xF3#32,
   .many 0x044 2 8 .rw 0x41 0xF3#32, .many 0x054 2 8 .rw 0x40 0xF3#32, .many 0x064 1 8 .rw 0x52 0xF3#32,
   .many 0x06C 2 8 .rw 0x40 0xF3#32, .many 0x07C 2 8 .rw 0x52 0xF3#32, .many 0x08C 4 8 .rw 0x40 0xF3#32,
   .many 0x0AC 2 8 .rw 0x41 0xF3#32, .many 0x0BC 2 8 .rw 0x40 0xF3#32, .many 0x0CC 1 8 .rw 0x52 0xF3#32,
   .many 0x0D4 6 8 .rw 0x52 0xF3#32,
   .many 0x104 1 8 .rw 0x62 0xF3#32, .many 0x10C 3 8 .rw 0x52 0xF3#32, .many 0x124 2 8 .rw 0x42 0xF3#32,
   .many 0x134 26 8 .rw 0x52 0xF3#32,
   .many 0x204 1 8 .rw 0x42 0xF3#32, .many 0x20C 31 8 .rw 0x52 0xF3#32,
   .many 0x304 4 32 .rw 0x41 0xF3#32, .many 0x30C 4 32 .rw 0x62 0xF3#32, .many 0x314 4 32 .rw 0x40 0xF3#32,
   .many 0x31C 4 32 .rw 0x41 0xF3#32,
   .many 0x384 2 24 .rw 0x41 0xF3#32, .many 0x38C 2 24 .rw 0x62 0xF3#32, .many 0x394 2 24 .rw 0x41 0xF3#32,
   .many 0x3B4 2 8 .rw 0x41 0xF3#32, .many 0x3C4 8 8 .rw 0x52 0xF3#32,
   .many 0x404 64 8 .rw 0x52 0xF3#32,
   .many 0x800 6 16 .rw 0 allBits, .many 0x804 6 16 .rw 0 allBits, .many 0x808 6 16 .ro 0 0]
/-- TB (unit 0x03): Tables 11.1, 11.3, 11.4, 11.6 and R267. TB_INCR resets to 147,573,952,590. -/
def rowsTb : List RegRow :=
  [.one 0x00 .rw 0x408003E8 0xC0FFFFFF#32, .one 0x04 .w1c 0 0x10000000#32,
   .many 0x08 2 4 .rw 0x3C0 0xFFFFF#32,
   ⟨0x10, 2, 8, 2, .rw, 147573952590, allBits⟩,
   .two 0x20 .seq allBits, .one 0x28 .seq 0 allBits, .two 0x2C .seq allBits, .one 0x34 .seq 0 allBits, .one 0x38 .seq 0 7#32,
   .many 0x40 2 4 .ro 0 0, .one 0x48 .wo 0 1#32, .many 0x50 8 4 .ro 0 0]
/-- FAB (unit 0x04): R401, Table 18.3. -/
def rowsFab : List RegRow :=
  [.many 0 14 4 .rw 1 0xF#32, .one 0x40 .rw 0 0x3F#32, .one 0x44 .ro 0 0]
/-- MBX (unit 0x05): Table 18.6, R417, R418. -/
def rowsMbx : List RegRow :=
  [.many 0x0 32 0x40 .rw 0 0xFE000000#32, .many 0x4 32 0x40 .rw 0 allBits, .many 0x8 32 0x40 .ro 0 0,
   .many 0x10 32 0x40 .ro 0 0, .many 0x14 32 0x40 .ro 0 0, .many 0x18 32 0x40 .ro 0 0, .many 0x1C 32 0x40 .ro 0 0,
   .many 0x20 32 0x40 .wo 0 1#32, .many 0x800 4 4 .rw 0 allBits]
/-- PMC (unit 0x06): R419 to R422, Table 18.7. -/
def rowsPmc : List RegRow :=
  [.many 0x0 192 8 .rw 0 allBits, .many 0x4 192 8 .rw 0 0xFFFF#32,
   .many 0x800 192 4 .rw 0xF0FF 0xFFFFF7FF#32, .many 0xC00 192 4 .rw 0x3FFF 0x3FFF#32,
   .many 0x1000 6 4 .w1c 0 allBits, .many 0x1028 7 8 .rw 0 allBits, .many 0x102C 7 8 .rw 0 allBits,
   .one 0x1060 .rw 0 1#32, .one 0x1064 .rw 0 allBits, .two 0x1068 .rw allBits,
   .one 0x1070 .rw 0 allBits, .one 0x1074 .ro 0 0, .one 0x1078 .w1c 0 allBits, .one 0x107C .rw 0 allBits, .many 0x1080 16 4 .w1c 0 allBits]
/-- EVR (unit 0x07): Tables 17.6, 17.7, 17.10, R395, R396, R453. -/
def rowsEvr : List RegRow :=
  [.one 0x00 .w1c 0 0xFFFF#32, .one 0x04 .ro 0 0, .one 0x08 .rw 0x1F0000 0x1F0000#32, .one 0x0C .wo 0 1#32,
   .many 0x10 5 4 .ro 0 0, .one 0x24 .rw 0 1#32, .one 0x28 .rw 1000 allBits,
   .two 0x2C .rw allBits, .one 0x34 .wo 0 3#32,
   .one 0x38 .rw 0 0x3F#32, .one 0x3C .rw 0 allBits, .one 0x40 .ro 0 0, .one 0x44 .ro 0 0, .one 0x48 .ro 0 0]
/-- QM (unit 0x08): R73, R76, R83, R85, R87, R450. -/
def rowsQm : List RegRow :=
  [.one 0x00 .rw 0 0xFFFF#32, .one 0x04 .wo 0 3#32, .one 0x08 .ro 0 0,
   .many 0x20 5 4 .rw 0 allBits, .one 0x34 .rw 0x03000000 allBits, .many 0x38 2 4 .rw 0 allBits,
   .one 0x40 .rw 1000 0x1FFFF#32, .many 0x50 2 4 .ro 0 0,
   .two 0x58 .rw allBits, .one 0x60 .rw 0 allBits, .one 0x64 .rw 0 0xFFFF#32, .one 0x68 .wo 0 1#32,
   .many 0x100 18 8 .rw 0x1808 0x3F3F#32, .many 0x104 18 8 .w1c 0 0x40000000#32]
/-- GE (unit 0x09): R70, R89, R92. -/
def rowsGe : List RegRow :=
  [.one 0x00 .ro 0 0, .many 0x10 4 4 .rw 2000 0x1FFFF#32,
   .one 0x20 .w1c 0 0x40000000#32, .many 0x24 3 4 .ro 0 0, .one 0x30 .wo 0 1#32]
/-- SUP (unit 0x0A). -/
def rowsSup : List RegRow := [.one 0x00 .ro 0 0]
/-- ORD (unit 0x0B): Tables 4.1, 4.4, 4.5, 4.9, 4.11, 4.13, R119, R121, R451. -/
def rowsOrd : List RegRow :=
  [.one 0x00 .rw 0 0x3FF#32, .one 0x04 .rw 0 0xFFFF#32, .one 0x08 .rw 5000 allBits, .one 0x0C .w1c 0 0x80010000#32,
   .one 0x10 .rw 0x0F018060 0xFF9FFFFE#32, .one 0x14 .w1c 0 0x80000001#32, .one 0x18 .wo 0 allBits,
   .one 0x20 .rw 0 0x7F#32,
   .one 0x30 .rw 0 0xFFF#32, .one 0x34 .rw 0 0x0FFFFFFF#32, .one 0x38 .rw 0 0x803F0000#32, .one 0x3C .rw 100 0x3FFF#32,
   .one 0x40 .wo 0 allBits, .one 0x44 .wo 0 allBits, .one 0x48 .ro 0 0, .one 0x4C .rw 50 0x3FF#32]
/-- LDG (unit 0x0C): Tables 8.5, 8.9, 8.10, R192, R195, R199, R203, R207. -/
def rowsLdg : List RegRow :=
  [.two 0x00 .h allBits, .two 0x08 .h allBits, .two 0x10 .seq allBits, .one 0x18 .seq 0 allBits, .one 0x1C .ro 0 0,
   .one 0x20 .h 0x11882300 0xFFFFFF00#32, .one 0x24 .h 0x0A34 0xFFFF#32, .one 0x28 .w1c 0 0x70000001#32,
   .one 0x30 .rw 0 0x3F#32, .one 0x34 .h 0 allBits, .many 0x40 3 4 .ro 0 0, .two 0x50 .rw allBits,
   .one 0x58 .wo 0 0x3FFF1FFF#32, .many 0x80 12 4 .ro 0 0]
/-- BAL (unit 0x0D): Tables 7.4, 7.6, R175, R183, R189, R190, R196. -/
def rowsBal : List RegRow :=
  [.two 0x00 .rw allBits, .one 0x08 .wo 0 allBits, .one 0x0C .ro 0 0, .one 0x10 .rw 0 allBits, .one 0x14 .wo 0 0xFFFF#32,
   .one 0x18 .rw 0x4812C03C allBits, .one 0x1C .w1c 0 0x80010001#32, .two 0x20 .rw allBits,
   .one 0x28 .rw 0 0xFFFF#32, .one 0x30 .rw 0 allBits]
/-- FLW (unit 0x0E): Tables 6.3, 6.4, R154, R156. -/
def rowsFlw : List RegRow :=
  [.two 0x00 .seq allBits, .one 0x08 .seq 0 0xC00000FF#32, .one 0x0C .ro 0 0,
   .two 0x10 .rw allBits, .one 0x18 .rw 0x80000000 0xFF#32, .one 0x1C .ro 0 0, .two 0x20 .h allBits]
/-- AFE (unit 0x0F): Tables 5.2, 5.3, 5.6, 5.8, R136, R139, R146. -/
def rowsAfe : List RegRow :=
  [.one 0x00 .rw 0 0x7F#32, .one 0x04 .h 2500 0xFFF73FFF#32, .one 0x08 .h 0x5A280040 allBits, .one 0x0C .rw 0 0x3F#32,
   .one 0x10 .h 0 0xFFC003FF#32, .one 0x14 .h 6 7#32, .two 0x18 .h allBits, .one 0x20 .h 0 allBits,
   .two 0x24 .seq allBits, .one 0x2C .seq 0 allBits, .one 0x30 .seq 0 allBits, .one 0x34 .seq 0 0xF000007F#32,
   .one 0x38 .h 0x4E2003E8 allBits, .one 0x3C .h 0x138800C8 allBits, .one 0x40 .ro 0 0, .many 0x80 32 4 .ro 0 0]
/-- PLC0 and PLC1 (units 0x10, 0x11): Tables 9.4, 9.9 to 9.12. -/
def rowsPlc : List RegRow :=
  [.one 0x00 .rw 0x02080000 0xFEFFFFFF#32, .one 0x04 .rw 0x3370003C 0xFFF0FFFF#32,
   .one 0x08 .rw 0x0782300A 0xFFFFF0FF#32, .one 0x0C .w1c 0 0x0F000001#32,
   .one 0x10 .ro 0 0, .one 0x14 .rw 0 allBits, .two 0x18 .rw allBits,
   .two 0x20 .rw allBits, .one 0x28 .wo 0 allBits, .one 0x2C .rw 0 0xFFFF#32, .one 0x30 .rw 0 0xFFFF#32,
   .one 0x40 .rw 0 0x7FF#32, .many 0x44 4 4 .rw 0 allBits]
/-- RF0 and RF1 (units 0x12, 0x13): Tables 10.4 to 10.7. -/
def rowsRf : List RegRow :=
  [.one 0x00 .rw 0x2C000846 0xFCFFFF7F#32, .one 0x04 .rw 0x3355003C allBits, .one 0x08 .rw 0x0FA020A0 0xFFFFFFF0#32,
   .one 0x0C .w1c 0 0x38000001#32, .one 0x10 .rw 0 allBits,
   .two 0x20 .rw allBits, .one 0x28 .wo 0 allBits, .one 0x2C .rw 0 0xFFFF#32, .one 0x30 .rw 0 0xFFFF#32,
   .one 0x40 .rw 0 0x7FF#32, .one 0x44 .rw 0 0x8000FFFF#32, .one 0x48 .ro 0 0]
/-- WIR (unit 0x14): Tables 10.8 to 10.10; FRAMING resets to 00 on ports 0 to 3 and 10 on ports 4 and 5. -/
def rowsWir : List RegRow :=
  [.many 0x00 4 0x40 .rw 0x08196E6B 0xFCFFFFFF#32, .many 0x100 2 0x40 .rw 0x48196E6B 0xFCFFFFFF#32,
   .many 0x04 6 0x40 .rw 0x160B0002 0xFFFF0007#32, .many 0x08 6 0x40 .w1c 0 0x30000001#32,
   ⟨0x10, 6, 0x40, 2, .rw, 0, allBits⟩, .many 0x18 6 0x40 .wo 0 allBits, .many 0x1C 6 0x40 .rw 0 0xFFFF#32,
   .many 0x20 6 0x40 .rw 0 0xFFFF#32]
/-- ETH (unit 0x15): R281, R283, R285. -/
def rowsEth : List RegRow :=
  [.many 0x00 4 0x40 .rw 0 0x80000003#32, .many 0x04 4 0x40 .ro 0 0, ⟨0x10, 4, 0x40, 2, .rw, 0, allBits⟩,
   .many 0x18 4 0x40 .wo 0 allBits, .many 0x1C 4 0x40 .rw 0 0xFFFF#32, .many 0x20 4 0x40 .rw 0 0xFFFF#32]
/-- SPN (unit 0x16): Tables 13.2, 13.3. -/
def rowsSpn : List RegRow :=
  [.one 0x00 .w1c 0 0x10000001#32, .one 0x04 .rw 20 0xFF#32, .two 0x10 .rw allBits, .one 0x18 .wo 0 allBits]
/-- TWN (unit 0x17): Tables 13.9, 13.10. -/
def rowsTwn : List RegRow :=
  [.one 0x00 .rw 0x393E8064 allBits, .one 0x04 .ro 0 0, .one 0x08 .wo 0 3#32, .one 0x0C .rw 0 allBits,
   .two 0x10 .h allBits, .one 0x18 .h 0 allBits, .two 0x20 .rw allBits, .one 0x28 .rw 0 allBits,
   .two 0x30 .wo allBits, .two 0x38 .rw allBits, .one 0x40 .wo 0 0xFF#32]
/-- TRE (unit 0x18): Tables 12.10 to 12.12, R280, R282, R289, R293. -/
def rowsTre : List RegRow :=
  [.one 0x00 .rw 0x0800040A 0x9F0007FF#32, .one 0x04 .rw 0 0x7FF#32, .one 0x08 .rw 0x88B5 0xFFFF#32,
   .two 0x10 .rw allBits, .one 0x18 .rw 0x05142805 allBits, .one 0x1C .rw 10000 allBits, .one 0x20 .rw 0 allBits,
   .one 0x24 .w1c 0 1#32, .one 0x28 .rw 0 0xF#32, .one 0x2C .rw 0 0x8000FFFF#32, .many 0x30 4 4 .rw 0 allBits, .many 0x40 16 4 .rw 0 0x1FFFF#32,
   .one 0x80 .rw 0 0x3F#32, .many 0x84 3 4 .ro 0 0]
/-- CFG (unit 0x19): Tables 12.6, 12.8, 12.9. -/
def rowsCfg : List RegRow :=
  [.one 0x00 .ro 0 0, .one 0x04 .rw 0 allBits, .two 0x08 .rw allBits, .one 0x10 .wo 0 0x33#32,
   .one 0x14 .rw 2000 0xFFFFF#32, .one 0x18 .ro 0 0, .one 0x1C .rw 0 0x7F#32, .one 0x20 .wo 0 allBits, .many 0x24 2 4 .ro 0 0]
/-- SEC (unit 0x1A): Tables 14.2, 14.4, R341, R342, R344. -/
def rowsSec : List RegRow :=
  [.many 0x00 2 4 .ro 0 0, .one 0x08 .rw 0 3#32, .two 0x10 .h allBits,
   .two 0x20 .seq allBits, .one 0x28 .seq 0x001C0000 0xFFFC0000#32, .one 0x2C .seq 0 allBits,
   .one 0x30 .seq 0 0xFFC0FFFF#32, .one 0x40 .rw 0 7#32, .many 0x44 12 4 .ro 0 0, .many 0x80 12 4 .rw 0 allBits,
   .one 0xB0 .wo 0 allBits, .many 0x100 24 4 .ro 0 0, .one 0x180 .wo 0 allBits, .many 0x184 8 4 .rw 0 allBits,
   .two 0x1A4 .rw allBits, .one 0x1AC .ro 0 0]
/-- UPD (unit 0x1B): Tables 15.5 to 15.7. -/
def rowsUpd : List RegRow :=
  [.two 0x00 .rw allBits, .one 0x08 .wo 0 allBits, .one 0x0C .ro 0 0, .one 0x10 .rw 100 0xFFFF#32, .two 0x18 .rw allBits,
   .one 0x20 .ro 0 0]
/-- MEM (unit 0x1C): Tables 16.2, 16.6, R452. -/
def rowsMem : List RegRow :=
  [.one 0x00 .rw 0 0x33#32, .one 0x04 .w1c 0 0x80010001#32, .one 0x08 .rw 0x80000018 0x800000FF#32, .one 0x0C .rw 0 0x3F#32,
   .one 0x10 .ro 0 0]
/-- NFT (unit 0x1D): Tables 16.4, 16.5, 16.7, 16.8. -/
def rowsNft : List RegRow :=
  [.one 0x00 .rw 4 0x80F71C1F#32, .one 0x04 .rw 0x0A02 0x3FFF#32, .one 0x08 .w1c 0 0x10000000#32, .one 0x0C .rw 0 allBits,
   .one 0x10 .rw 0 0xF#32, .one 0x14 .rw 0 allBits, .two 0x18 .rw allBits, .one 0x20 .rw 0 0xFFFF#32, .one 0x24 .rw 0 0xFFFF#32,
   .one 0x30 .rw 0 0x3F#32, .many 0x34 4 4 .ro 0 0]
/-- HST (unit 0x1E): Tables 18.1, 18.4, 18.5, 18.9, R404, R405, R408, R410. -/
def rowsHst : List RegRow :=
  [.one 0x00 .ro 0 0, .two 0x08 .rw allBits, .many 0x10 16 4 .rw 0 0xC00003FF#32, .one 0x60 .wo 0 allBits,
   .many 0x70 3 4 .ro 0 0, .one 0x7C .wo 0 1#32, .one 0x80 .rw 0x13FF004C 0xFFFF007F#32, .one 0x84 .ro 0 0,
   .one 0x88 .rw 0 0x7FFF007F#32, .many 0xC0 16 4 .rw 0 allBits, .one 0x100 .rw 0 allBits, .many 0x140 16 4 .rw 0 allBits,
   .many 0x1000 128 4 .wo 0 allBits]

/-- The rows of unit `u` (Table 20.1). -/
def unitRows (u : Nat) : List RegRow :=
  match u with
  | 0x00 => rowsSys | 0x01 => rowsPwr | 0x02 => rowsPin | 0x03 => rowsTb | 0x04 => rowsFab | 0x05 => rowsMbx | 0x06 => rowsPmc
  | 0x07 => rowsEvr | 0x08 => rowsQm | 0x09 => rowsGe | 0x0A => rowsSup | 0x0B => rowsOrd | 0x0C => rowsLdg | 0x0D => rowsBal
  | 0x0E => rowsFlw | 0x0F => rowsAfe | 0x10 => rowsPlc | 0x11 => rowsPlc | 0x12 => rowsRf | 0x13 => rowsRf | 0x14 => rowsWir
  | 0x15 => rowsEth | 0x16 => rowsSpn | 0x17 => rowsTwn | 0x18 => rowsTre | 0x19 => rowsCfg | 0x1A => rowsSec | 0x1B => rowsUpd
  | 0x1C => rowsMem | 0x1D => rowsNft | 0x1E => rowsHst | _ => []

/-- Whether a row covers offset `o` of its window; `o` is 4-byte aligned. -/
def RegRow.covers (r : RegRow) (o : Nat) : Bool :=
  decide (r.off ≤ o) &&
    (let d := o - r.off
     decide (d / r.stride < r.n) && decide (d % r.stride < 4 * r.words) && decide (d % r.stride % 4 = 0))

/-- The row of the register at BAR0 offset `off`; none where Table 20.4 lists no register there. -/
def regRow (off : Nat) : Option RegRow :=
  (unitRows (off / 0x10000)).find? (·.covers (off % 0x10000))

/-- Which word of its value the register at `off` is: 0 the lowest. -/
def RegRow.word (r : RegRow) (off : Nat) : Nat := (off % 0x10000 - r.off) % r.stride / 4

/-- The reset value of the register at `off`. -/
def regReset (off : Nat) : W32 :=
  match regRow off with | some r => BitVec.ofNat 32 (r.reset >>> (32 * r.word off)) | none => 0#32

/-- The unit windows of reset domain W (Table 20.1). -/
def domainW (u : Nat) : Bool :=
  decide (u ∈ [0x04, 0x05, 0x06, 0x08, 0x09, 0x0A, 0x0B, 0x10, 0x11, 0x12, 0x13, 0x14, 0x15, 0x16, 0x17, 0x18, 0x1B, 0x1D, 0x1E])

/-- The unit window of reset domain B (Table 20.1): EVR. -/
def domainB (u : Nat) : Bool := decide (u = 0x07)

/-- The stored value of the register at BAR0 offset `off`. -/
def State.reg (s : State) (off : Nat) : W32 := Tab.get (regReset off) s.regs off

/-- `n` bits from bit `lo` of the stored register at `off`. -/
def State.regF (s : State) (off lo n : Nat) : Nat := (fld (s.reg off) lo n).toNat

/-- Store a register's value. -/
def State.setReg (s : State) (off : Nat) (v : W32) : State := { s with regs := Tab.set (regReset off) s.regs off v }

/-- A two-word register's value, lowest word first (R445). -/
def State.reg2 (s : State) (off : Nat) : Nat := (s.reg off).toNat + 2 ^ 32 * (s.reg (off + 4)).toNat

end Sys2Proof.Machine
end

