-- ==== Sys2Proof/Machine/Ops.lean ====
section
/-! DEFINITION. The named operations every unit shares: free values, agents and their epochs, time and stamps, the event
recorder, supervisor interrupts, DRAM lines and their rights. -/

namespace Sys2Proof

/-! ## Initiators and agents (R63, Table 4.8) -/

/-- The agent number of the supervisor. -/
abbrev agSup : Nat := 0x080
abbrev agHost : Nat := 0x081
abbrev agSpi : Nat := 0x082
abbrev agI2c : Nat := 0x083
abbrev agTwin : Nat := 0x084
abbrev agTree : Nat := 0x085

/-- The agent that executes a Garnil instruction; also the key of its thread in `ge.threads`. -/
def Who.agent : Who → Nat
  | .thread t => t.val
  | .sup => agSup

/-- The initiator a Garnil instruction accesses the fabric as. -/
def Who.init : Who → Init
  | .thread t => .thread t
  | .sup => .sup

/-- The agent number of an initiator that has one (Table 4.8). -/
def Init.agent : Init → Option Nat
  | .thread t => some t.val
  | .sup => some agSup
  | .host => some agHost
  | .spi => some agSpi
  | .i2c => some agI2c
  | .twin => some agTwin
  | .tree => some agTree
  | .hw _ => none

/-- The key an initiator's own latches are kept under: its agent, or 0x200 plus its fabric initiator number. -/
def Init.key (i : Init) : Nat :=
  match i with
  | .hw u => 0x200 + u.val
  | _ => (i.agent).getD 0

/-- A Heartwood initiator: a thread of cluster 0 (R22). -/
def Init.heartwood : Init → Bool
  | .thread t => decide (t.val < 32)
  | _ => false

end Sys2Proof

namespace Sys2Proof.Machine
open Sys2Proof

/-- The result of a command: every error of this block is a response or a status, so a command answers a next state. -/
abbrev Answer := Host.Outcome State Fault Refusal

/-! ## Statuses (Table 0.6) -/

/-- The code of a status. -/
def Status.code : Status → Nat
  | .ok => 0x00 | .duplicate => 0x01 | .stale => 0x02 | .orphaned => 0x03 | .absent => 0x04 | .poweredDown => 0x05
  | .integrity => 0x06 | .disputed => 0x07 | .epochAbort => 0x08 | .calRejected => 0x09 | .arbLost => 0x0A | .denied => 0x0B
  | .replay => 0x0C | .timeInvalid => 0x0D | .queueReset => 0x0E | .fenced => 0x0F | .retry => 0x10 | .slotBad => 0x11
  | .formatReset => 0x12 | .outOfRange => 0x13

/-- The status as a register value. -/
def Status.word (s : Status) : Word := BitVec.ofNat 64 s.code

/-- Saturating increment. -/
def satInc (lim n : Nat) : Nat := if n < lim then n + 1 else lim

/-- Saturating increment of a 32-bit counter. -/
def satInc32 (v : W32) : W32 := if v = 0xFFFFFFFF#32 then v else v + 1#32

/-- A value clamped to a signed range. -/
def clampInt (lo hi x : Int) : Int := if x < lo then lo else if hi < x then hi else x

/-- Flooring division by a positive number, rounded half to even. -/
def divHalfEven (x : Int) (d : Nat) : Int :=
  let q := x / (d : Int)
  let r := x - q * (d : Int)
  if 2 * r < (d : Int) then q else if 2 * r > (d : Int) then q + 1 else if q % 2 = 0 then q else q + 1

/-- Replace the `i`-th element of a list. -/
def listSet {α : Type} : List α → Nat → α → List α
  | [], _, _ => []
  | _ :: xs, 0, v => v :: xs
  | x :: xs, n + 1, v => x :: listSet xs n v

/-- The first free index below `n` that `used` does not hold. -/
def firstFree (used : List Nat) : Nat → Nat → Option Nat
  | 0, _ => none
  | k + 1, i => if i ∈ used then firstFree used k (i + 1) else some i

/-! ## Free values (log entry 2) -/

/-- A fresh free value of `w` bits. -/
def State.draw (w : Nat) (s : State) : BitVec w × State :=
  (Config.free w s.freeCtr, { s with freeCtr := s.freeCtr + 1 })

/-- The cluster of an engine thread (R63). -/
def clusterOf (agent : Nat) : Nat := agent / 32

/-- The engine, numbered 0 to 31, of an engine thread (R63). -/
def engineOf (agent : Nat) : Nat := agent / 4

def State.epochOf (s : State) (a : Nat) : W32 := Tab.get 0#32 s.ord.epochs a
def State.fencedAg (s : State) (a : Nat) : Bool := Tab.get false s.ord.fences a

/-- Whether an initiator's accesses get FENCED (R124, R402). -/
def State.fencedInit (s : State) (i : Init) : Bool :=
  match i.agent with
  | some a => s.fencedAg a
  | none => false

/-- Record the response an initiator got (R10). -/
def State.respond (s : State) (i : Init) (st : Status) : State :=
  { s with resp := Tab.set .ok s.resp i.key st }

/-! ## Identity -/

/-- SYS_CAPS0 (Table 20.3). -/
def caps0 : Variant → W32
  | .m => 0x7FFFFFFF#32 | .w => 0x7FFFDFFF#32 | .r => 0x7FFCFFFF#32
/-- SYS_CAPS1 (Table 20.3). -/
def caps1 : Variant → W32
  | .m => 0x20FF4001#32 | .w => 0x203F4002#32 | .r => 0x08FF1003#32
/-- SYS_CAPS2 (Table 20.3). -/
def caps2 : Variant → W32
  | .m => 0xFFFFFFFF#32 | .w => 0xFFFFFFFF#32 | .r => 0x000000FF#32

/-- Whether unit window `u` is present (R3, R447). -/
def State.present (s : State) (u : Nat) : Bool := (caps0 s.sys.variant).getLsbD u
/-- Whether custody point `c` is present (R5). -/
def State.custPresent (s : State) (c : Nat) : Bool := (caps2 s.sys.variant).getLsbD c

namespace Reg
/-! BAR0 offsets of the registers the operations below read. -/
abbrev pwrVcfg : Nat := 0x010008
abbrev tbCtl : Nat := 0x030000
abbrev tbQualA : Nat := 0x030008
abbrev tbQualB : Nat := 0x03000C
abbrev tbIncrA : Nat := 0x030010
abbrev tbIncrB : Nat := 0x030018
abbrev evrAlert : Nat := 0x070008
abbrev qmStarve : Nat := 0x080040
abbrev ordCcbase : Nat := 0x0B0020
abbrev ordLkwarn : Nat := 0x0B003C
abbrev ordSeqTmo : Nat := 0x0B004C
abbrev ldgPtbase : Nat := 0x0C0000
abbrev ldgPwbase : Nat := 0x0C0008
abbrev balTiming : Nat := 0x0D0018
abbrev balWorkbase : Nat := 0x0D0020
abbrev flwTblbase : Nat := 0x0E0020
abbrev afeBlkbase : Nat := 0x0F0018
abbrev twnCtl : Nat := 0x170000
abbrev twnMirbase : Nat := 0x170010
abbrev treCtl : Nat := 0x180000
abbrev treRole : Nat := 0x180004
abbrev secKtbase : Nat := 0x1A0010
abbrev memCfg : Nat := 0x1C0000
end Reg

/-- TRE_ROLE.PAIR (R280). -/
def State.pair (s : State) : Nat := s.regF Reg.treRole 0 8
/-- TRE_ROLE.ROLE: 0 worker, 1 zone, 2 root. -/
def State.role (s : State) : Nat := s.regF Reg.treRole 8 2
/-- TRE_ROLE.TWIN: the twin bit. -/
def State.twinBit (s : State) : Nat := s.regF Reg.treRole 10 1
/-- The device number: pair [8:1], twin bit [0] (R8). -/
def State.device (s : State) : Nat := 2 * s.pair + s.twinBit
/-- TWN_CTL.SOLO (R328). -/
def State.solo (s : State) : Bool := bit (s.reg Reg.twnCtl) 30
/-- The source ID of a local source: device number [15:7], local source [6:0] (R8). -/
def State.sourceId (s : State) (src : Nat) : BitVec 16 := BitVec.ofNat 16 (s.device * 128 + src)

/-! ## Performance counters (R419, R420) -/

/-- What the filters of a counter can see of an event (R420). -/
structure PmcTag where
  init : Option Init := none
  addr : Option Nat := none
  cls  : Option Nat := none
deriving DecidableEq, Repr

/-- The fabric initiator number of an initiator (Table 18.2). -/
def fabricInit (i : Init) : Nat :=
  match i with
  | .thread t => t.val / 32
  | .sup => 4
  | .host => 7
  | .spi => 8
  | .i2c => 8
  | .twin => 6
  | .tree => 11
  | .hw u => u.val

/-- The PRIV bit of an initiator (Table 18.7), where one describes it. -/
def privBit (i : Init) : Option Nat :=
  match i with
  | .thread t => some (if t.val < 32 then 13 else 12)
  | .sup => some 14
  | .host => some 15
  | .spi => some 15
  | .i2c => some 15
  | .twin => none
  | .tree => none
  | .hw _ => none

/-- Whether counter `n` with event-select word `w` counts event `ev` under its filters (R420). -/
def State.pmcMatch (s : State) (n : Nat) (w : W32) (ev : Nat) (f : PmcTag) : Bool :=
  decide ((fld w 16 16).toNat = ev) && !(decide (176 ≤ n) && bit (s.reg 0x061060) 0)
    && (match f.init.bind privBit with | some b => bit w b | none => true)
    && (match f.init with | some i => bit (s.reg (0x060C00 + 4 * n)) (fabricInit i) | none => true)
    && (match f.addr with
        | some a => let k := (fld w 8 3).toNat
                    decide (k = 0) || (decide ((s.reg (0x061020 + 8 * k)).toNat ≤ a) && decide (a ≤ (s.reg (0x061024 + 8 * k)).toNat))
        | none => true)
    && (match f.cls with | some c => bit w c | none => true)

/-- Add to one counter; a wrap sets its overflow bit (R419). -/
def Pmc.add (p : Pmc) (n amt : Nat) : Pmc :=
  let v := (Tab.get 0#48 p.cnt n).toNat + amt
  { p with cnt := Tab.set 0#48 p.cnt n (BitVec.ofNat 48 v), ovf := if v < 2 ^ 48 then p.ovf else Tab.set false p.ovf n true }

/-- Count `amt` of event `ev` (Table 18.8). -/
def State.count (ev amt : Nat) (f : PmcTag) (s : State) : State :=
  (s.regs.filter (fun p => decide (0x060800 ≤ p.1) && decide (p.1 < 0x060B00))).foldl
    (fun s p => let n := (p.1 - 0x060800) / 4
                if s.pmcMatch n p.2 ev f then { s with pmc := s.pmc.add n amt } else s) s

/-! ## Supervisor interrupts (20 SUP_SRC, cw36, cw37) -/

/-- Raise interrupt source `k` of the SUP window: 0 GE, 1 QM, 2 MBX, 3 TWN, 4 TRE, 5 CFG, 6 UPD, 7 HST. -/
def State.irq (k : Nat) (s : State) : State :=
  { s with sup := { s.sup with sipend := s.sup.sipend ||| BitVec.ofNat 64 (2 ^ k) } }

/-! ## Time (11_time.md) -/

/-- A domain: true is TB-B. -/
def State.dom (s : State) (b : Bool) : Domain := if b then s.tb.b else s.tb.a
def State.setDom (s : State) (b : Bool) (d : Domain) : State :=
  if b then { s with tb := { s.tb with b := d } } else { s with tb := { s.tb with a := d } }

/-- TB_CTL.SEL: the stamping domain, true TB-B (R272). -/
def State.sel (s : State) : Bool := bit (s.reg Reg.tbCtl) 31
/-- TB_CTL.QMIN. -/
def State.qmin (s : State) : Nat := s.regF Reg.tbCtl 20 4
/-- The class of a domain; 0 while REFCLK is lost (R277). -/
def State.cls (s : State) (b : Bool) : Nat := if s.tb.clkLost then 0 else (s.dom b).cls
/-- TB_INCR_x as written; it acts from the next REFCLK edge on (R267). -/
def State.incr (s : State) (b : Bool) : Nat := s.reg2 (if b then Reg.tbIncrB else Reg.tbIncrA)

/-- A domain's time in units of 2^-32 s, as a stamp carries it (R265). -/
def Domain.t32 (d : Domain) : Nat := d.sec.toNat * 2 ^ 32 + d.frac.toNat / 2 ^ 32
/-- A stamp's time in units of 2^-32 s. -/
def stampT32 (x : Stamp) : Nat := (fld x 0 64).toNat * 2 ^ 32 + (fld x 64 32).toNat
/-- The stamp of a time in units of 2^-32 s. -/
def stampOf (t : Nat) : Stamp := BitVec.ofNat 96 (t / 2 ^ 32 % 2 ^ 64 + (t % 2 ^ 32) * 2 ^ 64)
/-- Order of stamps: seconds before fraction (R50, R94). -/
def stampLt (x y : Stamp) : Bool := decide (stampT32 x < stampT32 y)

/-- The time of a domain with the elapsed part `n/d` of the edge period added, scaled by its increment in force (R268). -/
def State.domT32 (s : State) (b : Bool) (n d : Nat) : Nat :=
  let x := s.dom b
  (x.sec.toNat * 2 ^ 64 + x.frac.toNat + x.incr * n / d) / 2 ^ 32

/-- One domain over one REFCLK edge: the increment joins the fraction, a carry raises the seconds, and the edge is then the second
boundary (R266, R267). -/
def Domain.edge (d : Domain) (incr : Nat) : Domain :=
  let t := d.frac.toNat + incr
  { d with
    frac := BitVec.ofNat 64 t
    sec := if t < 2 ^ 64 then d.sec else d.sec + 1#64
    carry := decide (2 ^ 64 ≤ t)
    incr := incr }

/-- What a step makes of a domain's time, in units of 2^-64 s (R269). -/
def Domain.stepTo (d : Domain) (p : Step) : Int :=
  if p.abs then p.s * 2 ^ 64 + p.f * 2 ^ 32 else d.sec.toNat * 2 ^ 64 + d.frac.toNat + p.s * 2 ^ 64 + p.f * 2 ^ 32

/-- A time a domain may take: seconds of at least 1 and below 2^63 (R265). -/
def timeOk (t : Int) : Bool := decide (2 ^ 64 ≤ t) && decide (t < 2 ^ 127)

/-- A step is due at the edge `now` of the elapsed count: that edge is a second boundary later than the step's close (R269). -/
def Domain.stepDue (d : Domain) (now : Nat) : Option Step :=
  match d.step with
  | some p => if d.carry && decide (p.at_ < now) then some p else none
  | none => none

/-- The domain with a due step applied; a setting R265 refuses is dropped. -/
def Domain.stepped (d : Domain) (now : Nat) : Domain :=
  match d.stepDue now with
  | none => d
  | some p =>
    let t := d.stepTo p
    if timeOk t then
      { d with sec := BitVec.ofInt 64 (t / 2 ^ 64), frac := BitVec.ofInt 64 (t % 2 ^ 64), step := none, stepAt := some now }
    else { d with step := none }

/-- ns of a difference in units of 2^-32 s, truncated toward zero. -/
def nsOf (d : Int) : Int := Int.tdiv (d * 1000000000) (2 ^ 32)

/-- TINV: the stamping domain's class is below QMIN (R276). -/
def State.tinv (s : State) : Bool := decide (s.cls s.sel < s.qmin)

/-- The offset of item bytes 12-15: the other domain minus the stamping domain, in ns, truncated and saturated (R274);
0 while REFCLK is lost (R277). -/
def State.offsetNs (s : State) : Int :=
  if s.tb.clkLost then 0
  else clampInt (-2147483647) 2147483647 (nsOf ((s.dom (!s.sel)).t32 - (s.dom s.sel).t32 : Int))

/-- The TSPLIT test: both classes sufficient and the offset beyond DISAGREE (R275). -/
def State.splitNow (s : State) : Bool :=
  decide (s.qmin ≤ s.cls false) && decide (s.qmin ≤ s.cls true) &&
    decide (s.regF Reg.tbCtl 0 20 * 1000 < s.offsetNs.natAbs)

/-- STEP: a step of the stamping domain applied within the last 1 s of the elapsed count (Table 11.5). -/
def State.stepFlag (s : State) : Bool :=
  match (s.dom s.sel).stepAt with
  | some e => decide (s.tb.elapsed < e + 125000000)
  | none => false

/-- Flags bits [15:0] as TB writes them at stamping (R274, Table 11.5). -/
def State.timeFlags (s : State) : BitVec 16 :=
  ofBool 16 s.tinv ||| (ofBool 16 s.splitNow <<< 1) ||| (ofBool 16 s.sel <<< 2) ||| (ofBool 16 s.stepFlag <<< 3)

/-- The stamp `n/d` of an edge past the last edge: zero while REFCLK is lost (R277). -/
def State.stampSub (s : State) (n d : Nat) : Stamp :=
  if s.tb.clkLost then 0#96 else stampOf (s.domT32 s.sel n d)

/-- The state as the next REFCLK edge finds it: both domains one edge on with the steps due there, and the SEL a write has chosen in
force (R267, R269, R272). -/
def State.atEdge (s : State) : State :=
  let e := s.tb.elapsed + 1
  let t := { s with tb := { s.tb with
    elapsed := e
    a := (s.tb.a.edge (s.incr false)).stepped e
    b := (s.tb.b.edge (s.incr true)).stepped e } }
  match s.tb.selNext with
  | some b => t.setReg Reg.tbCtl (setFld (s.reg Reg.tbCtl) 31 (ofBool 1 b))
  | none => t

/-- What TB writes for a stamp point of now: the values at the REFCLK edge that follows it (R268, R274); stamp and offset zero while
REFCLK is lost (R277). -/
def State.momentNow (s : State) : TimeRec :=
  if s.tb.clkLost then ⟨0#96, 0, s.timeFlags⟩
  else
    let e := s.atEdge
    ⟨stampOf (e.dom e.sel).t32, e.offsetNs, e.timeFlags⟩

/-- What TB writes for a stamp point measured `n/d` of an edge past the last one (R268). -/
def State.momentSub (s : State) (n d : Nat) : TimeRec := ⟨s.stampSub n d, s.offsetNs, s.timeFlags⟩

/-- The stamp of a stamp point of now. -/
def State.stampNow (s : State) : Stamp := s.momentNow.st
/-- TAI seconds [31:0] of the stamping domain (R105). -/
def State.secNow (s : State) : W32 := fld (s.dom s.sel).sec 0 32

/-- Counts of the elapsed count in a microsecond, a millisecond and a second (8 ns per count, R266). -/
abbrev usCounts : Nat := 125
abbrev msCounts : Nat := 125000
abbrev sCounts : Nat := 125000000

/-- Whether `n` counts have passed since `t`: every limit of the device is measured on the timebase (R15). -/
def State.past (s : State) (t n : Nat) : Bool := decide (t + n ≤ s.tb.elapsed)

/-! ## Items (R17, R50, R95, R274, R294) -/

def itemStamp (x : Item) : Stamp := fld x 0 96
def itemSrc (x : Item) : BitVec 16 := fld x 128 16
def itemFlags (x : Item) : BitVec 16 := fld x 144 16
def itemSeq (x : Item) : W32 := fld x 160 32
def itemReq (x : Item) : Word := fld x 192 64
def itemEpoch (x : Item) : W32 := fld x 256 32
def itemPoint (x : Item) : W32 := fld x 288 32

/-- The ordering key: seconds, fraction, source ID, per-source sequence, most significant first (R50, R94). -/
def itemKey (x : Item) : Nat :=
  ((stampT32 (itemStamp x)) * 2 ^ 16 + (itemSrc x).toNat) * 2 ^ 32 + (itemSeq x).toNat

/-- The configuration epoch in force at a stamp (R294). -/
def State.epochAt (s : State) (t : Nat) : W32 := if s.cfg.lastB ≤ t then s.cfg.cur else s.cfg.cur - 1#32

/-- Bytes 0-35 but 24-31 of an arriving item: stamp, offset, source ID, flags, sequence and epoch (R17, R95, R274, R294). -/
def stampItem (body : Item) (st : Stamp) (off : Int) (src : BitVec 16) (fl : BitVec 16) (seq : W32) (ep : W32) : Item :=
  let x := setFld body 0 st
  let x := setFld x 96 (BitVec.ofInt 32 off)
  let x := setFld x 128 src
  let x := setFld x 144 fl
  let x := setFld x 160 seq
  setFld x 256 ep

/-- The next per-source sequence of a local source; it wraps (R95). -/
def State.nextSeq (s : State) (src : Nat) : W32 × State :=
  let v := Tab.get 0#32 s.qm.seq src
  (v, { s with qm := { s.qm with seq := Tab.set 0#32 s.qm.seq src (v + 1#32) } })

/-- Stamp an item of local source `src` with what TB wrote at its stamp point, and give it the next sequence. -/
def State.stampAs (s : State) (src : Nat) (m : TimeRec) (body : Item) : Item × State :=
  let (q, s') := s.nextSeq src
  (stampItem body m.st m.off (s.sourceId src) m.fl q (s.epochAt (stampT32 m.st)), s')

/-! ## The event recorder (17_power_backup.md, R393 to R396) -/

/-- The LEGAL codes (R394). -/
def legalCode (c : Nat) : Bool := decide (c ∈ [0x0703, 0x0704, 0x0C05, 0x1A04, 0x1B06])

/-- Bytes 0-27 of a record with its CRC-32E (Table 17.8). -/
def mkRecord (unit flags code : Nat) (opsec cyc : W32) (st : Stamp) (param : W32) : BitVec 256 :=
  let b : BitVec 256 := setFld (setFld (setFld (setFld (setFld (setFld (setFld (0#256 : BitVec 256) 24 (BitVec.ofNat 8 unit))
    16 (BitVec.ofNat 8 flags)) 0 (BitVec.ofNat 16 code)) 32 opsec) 64 cyc) 96 st) 192 param
  setFld b 224 (crcE (bytesOf 28 b))

/-- The stamp of an event now: the stamping domain's, zero under TINV; on backup supply the RTC's, zero without RTCV
(R276, R393). -/
def State.evStamp (s : State) : Stamp :=
  if s.pwr.mainOn then (let m := s.momentNow; if bit m.fl 0 then 0#96 else m.st)
  else if s.evr.rtcv then setFld (setFld (0#96) 0 s.evr.rtcSec) 64 (BitVec.ofNat 32 (s.evr.rtcSub.toNat * 2 ^ 17))
  else 0#96

/-- FLAGS of a record that is not an EVPOST's: RTC, LEGAL, SUMMARY, BACKUP (R393); HELD is set when a freeze ends. -/
def State.evFlags (s : State) (code : Nat) : Nat :=
  (if !s.pwr.mainOn && s.evr.rtcv then 1 else 0) + (if legalCode code then 2 else 0)
    + (if code = 0x0709 ∨ code = 0x070A then 4 else 0) + (if s.pwr.mainOn then 0 else 16)

/-- Write one finished record to the circular area and, while TOTAL is below 1,024, the founding area (R394). -/
def Evr.place1 (e : Evr) (r : BitVec 256) : Evr :=
  { e with
    circular := Tab.set 0#256 e.circular (e.total % 4096) r
    founding := if e.total < 1024 then Tab.set 0#256 e.founding e.total r else e.founding
    total := (e.total + 1) % 2 ^ 32 }

/-- Write a record; a LEGAL record goes to the legal area too, and filling it records 0x070C once (R394). -/
def State.evPlace (s : State) (r : BitVec 256) : State :=
  let e := s.evr.place1 r
  if legalCode (fld r 0 16).toNat && decide (e.legcnt < 1024) then
    let e := { e with legal := Tab.set 0#256 e.legal e.legcnt r, legcnt := e.legcnt + 1 }
    if e.legcnt = 1024 then
      let e := { e with legfull := true }
      { s with evr := e.place1 (mkRecord 0x07 (s.evFlags 0x070C) 0x070C e.opsec e.pwrcyc s.evStamp 1024#32) }
    else { s with evr := e }
  else { s with evr := e }

/-- A record that has passed the rate limit: written, or held while frozen (R396). -/
def State.evPass (s : State) (r : BitVec 256) : State :=
  match s.evr.frozen with
  | none => s.evPlace r
  | some _ =>
    if s.evr.hold.length < 64 then { s with evr := { s.evr with hold := s.evr.hold ++ [r] } }
    else { s with evr := { s.evr with holdovf := satInc 0xFFFF s.evr.holdovf, dropped := s.evr.dropped + 1 } }

/-- A hardware record of the given code and parameter as it stands now. -/
def State.hwRecord (s : State) (code : Nat) (param : W32) : BitVec 256 :=
  mkRecord (code / 256) (s.evFlags code) code s.evr.opsec s.evr.pwrcyc s.evStamp param

/-- RATE and BURST of a code: its override row, or 8 and 8 (R395). -/
def State.rateOf (s : State) (code : Nat) : Nat × Nat :=
  match s.evr.rl.find? (fun p => decide ((fld p.2 16 16).toNat = code)) with
  | some (_, w) => ((fld w 8 8).toNat, (fld w 0 8).toNat)
  | none => (8, 8)

/-- The summary record of a code's suppressions (R395). -/
def State.evSummary (s : State) (code supp : Nat) : State :=
  s.evPass (s.hwRecord 0x0709 (BitVec.ofNat 32 (code * 65536 + min supp 0xFFFF)))

/-- The fullest bucket, the lowest code among equals (R395). -/
def fullest : List Bucket → Option Bucket
  | [] => none
  | b :: bs =>
    match fullest bs with
    | none => some b
    | some c => if c.tokens > b.tokens then some c else some b

/-- Insert a bucket in rising order of its code. -/
def insBucket (b : Bucket) : List Bucket → List Bucket
  | [] => [b]
  | c :: cs => if b.code < c.code then b :: c :: cs else if b.code = c.code then b :: cs else c :: insBucket b cs

/-- Make room for a new code when 512 buckets are in use: the evicted bucket's summary is written first (R395). -/
def State.evMakeRoom (s : State) : State :=
  if s.evr.buckets.length < 512 then s
  else match fullest s.evr.buckets with
    | none => s
    | some b =>
      let s := if b.supp = 0 then s else s.evSummary b.code b.supp
      { s with evr := { s.evr with buckets := s.evr.buckets.filter (fun c => decide (c.code ≠ b.code)) } }

/-- Give a record of a code to the recorder: it takes a token or is suppressed and counted (R395). -/
def State.evAdmit (s : State) (code : Nat) (r : BitVec 256) : State :=
  if !s.evr.running then s
  else if legalCode code || decide (code = 0x0709) || decide (code = 0x070A) || decide ((s.rateOf code).1 = 0) then s.evPass r
  else
    match s.evr.buckets.find? (fun b => decide (b.code = code)) with
    | some b =>
      if b.tokens = 0 then
        { s with evr := { s.evr with buckets := insBucket { b with supp := b.supp + 1 } s.evr.buckets } }
      else
        State.evPass { s with evr := { s.evr with buckets := insBucket { b with tokens := b.tokens - 1 } s.evr.buckets } } r
    | none =>
      let s := s.evMakeRoom
      State.evPass { s with evr := { s.evr with buckets := insBucket ⟨code, (s.rateOf code).2 - 1, 0⟩ s.evr.buckets } } r

/-- Record a hardware event (R393). -/
def State.event (code : Nat) (param : W32) (s : State) : State := s.evAdmit code (s.hwRecord code param)

/-- Record an event of another unit number with its FLAGS given: EVPOST and EVPOSTS (R61, R62, R393). -/
def State.eventAs (unit flags code : Nat) (param : W32) (s : State) : State :=
  s.evAdmit code (mkRecord unit flags code s.evr.opsec s.evr.pwrcyc s.evStamp param)

/-- HELD set in a held record's FLAGS, and its CRC again; an EVPOST's FLAGS are its program's (R393, R396). -/
def heldRecord (r : BitVec 256) : BitVec 256 :=
  let u := (fld r 24 8).toNat
  if 0x40 ≤ u ∧ u ≤ 0x43 then r
  else
    let b := r ||| (1#256 <<< 19)
    setFld b 224 (crcE (bytesOf 28 b))

/-- End a freeze: the held records in order with HELD set, a summary of the dropped ones, and 0x070B with the reason unless
the owner ended it (R396). -/
def State.freezeEnd (reason : Nat) (s : State) : State :=
  match s.evr.frozen with
  | none => s
  | some _ =>
    let held := s.evr.hold
    let ovf := s.evr.dropped
    let s := { s with evr := { s.evr with frozen := none, hold := [], dropped := 0 } }
    let s := held.foldl (fun s r => s.evPlace (heldRecord r)) s
    let s := if ovf = 0 then s else s.event 0x070A (BitVec.ofNat 32 ovf)
    if reason = 0 then s else s.event 0x070B (BitVec.ofNat 32 reason)

/-! ## DRAM (16_storage.md) -/

/-- The usable capacity: two channels of MEM_CFG's GiB, less the top sixteenth of each (R361). -/
def State.usable (s : State) : Nat := 2 * 2 ^ (s.regF Reg.memCfg 4 2) * 2 ^ 30 / 16 * 15

def State.ramByte (s : State) (a : Nat) : Byte := Tab.get 0#8 s.mem.dram a
/-- `n` bytes of DRAM from `a`, lowest first. -/
def State.ramBytes (s : State) : Nat → Nat → List Byte
  | _, 0 => []
  | a, n + 1 => s.ramByte a :: s.ramBytes (a + 1) n
/-- `n` bytes of DRAM from `a` as a little-endian number. -/
def State.ramNat (s : State) (a n : Nat) : Nat := natOfBytes (s.ramBytes a n)
def ramPutTab : Tab Byte → Nat → List Byte → Tab Byte
  | t, _, [] => t
  | t, a, b :: bs => ramPutTab (Tab.set 0#8 t a b) (a + 1) bs
/-- Store bytes in DRAM. -/
def State.ramPut (s : State) (a : Nat) (bs : List Byte) : State :=
  { s with mem := { s.mem with dram := ramPutTab s.mem.dram a bs } }
/-- The 64 bytes of line `l`. -/
def State.line (s : State) (l : Nat) : Item := BitVec.ofNat 512 (s.ramNat (64 * l) 64)
def State.poisoned (s : State) (l : Nat) : Bool := Tab.get false s.mem.poison l

/-- The slot of the oldest valid entry of the poison log. -/
def oldestSlot (t : Tab (Option (Nat × Nat))) : Option Nat :=
  (t.foldl (fun (best : Option (Nat × Nat)) p =>
    match p.2 with
    | none => best
    | some (_, o) => match best with
      | none => some (p.1, o)
      | some (_, b) => if o < b then some (p.1, o) else best) none).map (·.1)

/-- Enter a line in the poison log (R452). -/
def Mem.logPoison (m : Mem) (l : Nat) : Mem :=
  match firstFree (m.plog.map (·.1)) 64 0 with
  | some k => { m with plog := Tab.set none m.plog k (some (l, m.pord)), pord := m.pord + 1 }
  | none =>
    match oldestSlot m.plog with
    | some k => { m with plog := Tab.set none m.plog k (some (l, m.pord)), pord := m.pord + 1, plovf := true }
    | none => m

/-- A line that cannot be verified: POISON set, the log entry, event 0x1C02 (R363). A line already poisoned records no
further event. -/
def State.poisonLine (l : Nat) (s : State) : State :=
  if s.poisoned l then s
  else
    let m := { s.mem with poison := Tab.set false s.mem.poison l true }
    State.event 0x1C02 (BitVec.ofNat 32 l) { s with mem := m.logPoison l }

/-- Clear POISON and the log entry of a line that a full-line write has stored (R364, R452). -/
def Mem.clean (m : Mem) (l : Nat) : Mem :=
  { m with
    poison := Tab.set false m.poison l false
    plog := m.plog.filter (fun p => match p.2 with | some (x, _) => decide (x ≠ l) | none => false) }

/-- One access to one line: a full-line write lands with a fresh tag; a partial write merges with a line that verifies, and
gets INTEGRITY otherwise (R364). -/
def State.lineWrite (s : State) (l first : Nat) (bs : List Byte) : Status × State :=
  if first = 0 ∧ bs.length = 64 then
    (.ok, State.ramPut { s with mem := s.mem.clean l } (64 * l) bs)
  else if s.poisoned l then (.integrity, s)
  else (.ok, s.ramPut (64 * l + first) bs)

/-- A write of any length, line by line; the response carries INTEGRITY when any line refused (R364). -/
def State.memWrite : Nat → Nat → List Byte → State → Status × State
  | 0, _, _, s => (.ok, s)
  | fuel + 1, a, bs, s =>
    match bs with
    | [] => (.ok, s)
    | _ =>
      let k := 64 - a % 64
      let (st, s) := s.lineWrite (a / 64) (a % 64) (bs.take k)
      let (st', s) := State.memWrite fuel (a + k) (bs.drop k) s
      (if st = .ok then st' else st, s)

/-- A unit's own write of DRAM. -/
def State.ramWrite (s : State) (a : Nat) (bs : List Byte) : Status × State := State.memWrite (bs.length + 1) a bs s

/-- The lines `n` bytes from `a` touch. -/
def linesOf (a n : Nat) : List Nat := if n = 0 then [] else (List.range ((a + n - 1) / 64 - a / 64 + 1)).map (· + a / 64)

/-- A read: INTEGRITY where a line it touches is poisoned (R363). -/
def State.ramRead (s : State) (a n : Nat) : Status × List Byte :=
  if (linesOf a n).any s.poisoned then (.integrity, []) else (.ok, s.ramBytes a n)

/-! ## Who may write which DRAM -/

/-- `a` lies in the region of `n` bytes at `base`. A base register's reset value 0 is an address like any other (log entry 21). -/
def inRegion (a base n : Nat) : Bool := decide (base ≤ a) && decide (a < base + n)

/-- ORD_CCBASE as an address (R451). -/
def State.ccBase (s : State) : Nat := s.regF Reg.ordCcbase 0 7 * 2 ^ 27

/-- The offset in the point records of an address in a ledger block (R192). -/
def State.inLedger (s : State) (a : Nat) : Bool :=
  let b := s.reg2 Reg.ldgPtbase
  inRegion a b (8192 * 0x800) && decide (0x400 ≤ (a - b) % 0x800)

/-- A working line's sum bytes 0-31, which only LDG writes (R203). -/
def State.inSums (s : State) (a : Nat) : Bool :=
  let b := s.reg2 Reg.ldgPwbase
  inRegion a b (8192 * 128 * 64) && decide ((a - b) % 64 < 32)

/-- The size of BAL's work region (R188). -/
def State.workSize (s : State) : Nat := 0x40000000 + (4 * s.regF Reg.balTiming 24 8 + 2) * 0x800000
/-- BAL's work region, once BAL_WORKBASE has been written (R189, log entry 21). -/
def State.inWork (s : State) (a : Nat) : Bool := s.bal.given && inRegion a (s.reg2 Reg.balWorkbase) s.workSize

/-- The mirror region, once TWN_MIRBASE has been written (R306, log entry 21). -/
def State.inMirror (s : State) (a : Nat) : Bool := s.twn.mirGiven && inRegion a (s.reg2 Reg.twnMirbase) (4 * 2 ^ 20)

/-- The address of byte `a` belongs to a region one unit alone writes: the completion cache and stream table (R103), the
block region (R139), the FLW tables (R156), BAL's work region (R189), the mirror region (R306), the key table (R334). -/
def State.unitOnly (s : State) (a : Nat) : Bool :=
  inRegion a s.ccBase (192 * 2 ^ 20) || inRegion a (s.reg2 Reg.afeBlkbase) (4 * 2 ^ 20)
    || inRegion a (s.reg2 Reg.flwTblbase) (48 * 2 ^ 20)
    || s.inWork a || s.inMirror a || inRegion a (s.reg2 Reg.secKtbase) (2 * 2 ^ 20)

/-- Whether a lock protects the byte at `a` and the agent does not hold it (R117). -/
def State.lockDenied (s : State) (agent : Nat) (a : Nat) : Bool :=
  s.ord.locks.any (fun p =>
    p.2.prot && decide (p.2.base ≤ a / 64) && decide (a / 64 ≤ p.2.base + p.2.count) &&
      !(match p.2.owner with | some (o, e) => decide (o = agent ∧ e = s.epochOf o) | none => false))

/-- The rights an initiator has to write `n` bytes of DRAM at `a`: DENIED at or above the usable capacity (R397), in a
region of one unit, in a ledger block unless Heartwood (R192) or, under RESTORE, a full line of the supervisor or NFT (R195). -/
def State.ramWriteRight (s : State) (i : Init) (a n : Nat) : Status :=
  if s.usable < a + n then .denied
  else if (List.range n).any (fun k =>
      s.unitOnly (a + k)
        || (s.inLedger (a + k) && !i.heartwood
            && !(s.ldg.restore && (decide (i = .sup) || decide (i = .hw 12)) && decide (a % 64 = 0) && decide (n % 64 = 0)))
        || s.inSums (a + k)) then .denied
  else .ok

/-- The rights to read: DENIED above the usable capacity (R397); the mirror region is H access (R306). -/
def State.ramReadRight (s : State) (i : Init) (a n : Nat) : Status :=
  if s.usable < a + n then .denied
  else if !i.heartwood && ((List.range n).any (fun k => s.inMirror (a + k))) then .denied
  else .ok

/-! ## The stream table (R103 to R106) -/

/-- A stream entry (Table 4.3) as 128 bits. -/
abbrev StreamEnt := BitVec 128
def stOrigin (e : StreamEnt) : BitVec 16 := fld e 0 16
def stStream (e : StreamEnt) : BitVec 16 := fld e 16 16
def stFloor (e : StreamEnt) : W32 := fld e 32 32
def stLast (e : StreamEnt) : W32 := fld e 64 32
def stValid (e : StreamEnt) : Bool := bit e 96
def stFv (e : StreamEnt) : Bool := bit e 97
def stTent (e : StreamEnt) : Bool := bit e 98
def stLive (e : StreamEnt) : Nat := (fld e 104 24).toNat

/-- Origin [63:48] and stream [47:32] of a request ID (R8, R103). -/
def reqOrigin (id : Word) : BitVec 16 := fld id 48 16
def reqStream (id : Word) : BitVec 16 := fld id 32 16
def reqCount (id : Word) : W32 := fld id 0 32

/-- The DRAM address of way `w` of the bucket a stream falls in. -/
def State.stAddr (s : State) (o st : BitVec 16) (w : Nat) : Nat :=
  s.ccBase + 2 ^ 27 + Config.streamHash s.ord.key o st % 524288 * 128 + 16 * w
def State.stAt (s : State) (a : Nat) : StreamEnt := BitVec.ofNat 128 (s.ramNat a 16)
def State.stPut (s : State) (a : Nat) (e : StreamEnt) : State := s.ramPut a (bytesOf 16 e)

/-- The address of a stream's entry. -/
def State.stFind (s : State) (o st : BitVec 16) : Option Nat :=
  ((List.range 8).map (s.stAddr o st)).find? (fun a =>
    stValid (s.stAt a) && decide (stOrigin (s.stAt a) = o) && decide (stStream (s.stAt a) = st))

/-- A pending mark of the stream is held. -/
def State.stPending (s : State) (o st : BitVec 16) : Bool :=
  s.ord.pend.any (fun p => decide (reqOrigin p.id = o) && decide (reqStream p.id = st))

/-- Drop an agent's pending marks; an entry with TENT set goes when no mark of its stream remains (R51, R106). -/
def State.dropPend (a : Nat) (s : State) : State :=
  let gone := s.ord.pend.filter (fun p => decide (p.agent = a))
  let s := { s with ord := { s.ord with pend := s.ord.pend.filter (fun p => decide (p.agent ≠ a)) } }
  gone.foldl (fun s p =>
    match s.stFind (reqOrigin p.id) (reqStream p.id) with
    | some x => if stTent (s.stAt x) && !s.stPending (reqOrigin p.id) (reqStream p.id) then s.stPut x 0#128 else s
    | none => s) s

/-! ## Agent epochs (R116) and what lapses with them -/

/-- The agent that opened a sequence. -/
def Seqn.ownerAgent (q : Seqn) : Nat := match q.owner with | some i => i.key | none => 0

/-- Expire an open sequence, remembering whom to tell (R121, R123): cause 1 timeout, 2 lapsed epoch. A close that has begun always
completes (R339). -/
def State.seqExpire (n cause : Nat) (s : State) : State :=
  let q := Tab.get {} s.ord.seqs n
  if n = 1 ∧ s.sec.otp.isSome then s
  else match q.owner with
  | none => s
  | some i =>
    let q' : Seqn := { expired := i :: q.expired.filter (fun j => decide (j ≠ i)) }
    let s := { s with ord := { s.ord with seqs := Tab.set {} s.ord.seqs n q' } }
    s.event 0x0B04 (BitVec.ofNat 32 (n + i.key % 512 * 65536 + cause * 268435456))

/-- Raise an agent's epoch: its sequences, freeze and pending marks lapse (R51, R116, R121, R396). -/
def State.raiseEpoch (a : Nat) (s : State) : State :=
  let s := State.dropPend a { s with ord := { s.ord with epochs := Tab.set 0#32 s.ord.epochs a (s.epochOf a + 1#32) } }
  let s := (s.ord.seqs.filter (fun p => decide (p.2.owner.isSome ∧ p.2.ownerAgent = a))).foldl
    (fun s p => s.seqExpire p.1 2) s
  match s.evr.frozen with
  | some (o, _, _) => if o = a then s.freezeEnd 2 else s
  | none => s

end Sys2Proof.Machine
end

