-- ==== Sys2Proof/Machine/Queue.lean ====
section
/-! DEFINITION. The queue manager's operations on descriptors and rings (R71 to R87), the ingress FIFOs (R80 to R83) and the
merge windows of the ordering unit (R96 to R102). -/

namespace Sys2Proof.Machine
open Sys2Proof

def State.desc (s : State) (q : Nat) : Desc := Tab.get {} s.qm.descs q
def State.setDesc (s : State) (q : Nat) (d : Desc) : State := { s with qm := { s.qm with descs := Tab.set {} s.qm.descs q d } }

/-- Slots of the ring. -/
def Desc.size (d : Desc) : Nat := 2 ^ d.log2n
/-- Pointer fields count modulo 2^(LOG2N+1) (R71). -/
def Desc.modulus (d : Desc) : Nat := 2 ^ (d.log2n + 1)
/-- The committed depth (R71). -/
def Desc.depth (d : Desc) : Nat := (d.tail + d.modulus - d.head % d.modulus) % d.modulus
/-- The free count (R71). -/
def Desc.freeSlots (d : Desc) : Nat := d.size - (d.depth + d.rsv)
/-- The ring's DRAM address. -/
def Desc.ring (d : Desc) : Nat := d.base.toNat * 1024
/-- The DRAM address of the slot of a pointer (R71). -/
def Desc.slotAddr (d : Desc) (p : Nat) : Nat := d.ring + 64 * (p % d.size)
/-- The queue has a ring. -/
def Desc.hasRing (d : Desc) : Bool := decide (d.log2n ≠ 0)

/-- The pointer checks of R84. -/
def Desc.sound (d : Desc) : Bool :=
  decide (d.headn = 0x1FFFFF - d.head) && decide (d.tailn = 0x1FFFFF - d.tail) && decide (d.depth ≤ d.size)
    && decide ((d.disp + d.modulus - d.head % d.modulus) % d.modulus ≤ d.depth)
    && decide (d.depth + d.rsv ≤ d.size) && decide (d.infl ≤ 129)

/-! ## Merge contexts (R96 to R102) -/

def State.merge (s : State) (c : Nat) : Merge := Tab.get {} s.ord.merges c
def State.setMerge (s : State) (c : Nat) (m : Merge) : State := { s with ord := { s.ord with merges := Tab.set {} s.ord.merges c m } }
/-- ORD_MCFG.EN. -/
def Merge.en (m : Merge) : Bool := bit m.mcfg 31
/-- ORD_MCFG.WINDOW in us. -/
def Merge.window (m : Merge) : Nat := (fld m.mcfg 0 20).toNat
/-- ORD_MCFG.LIMIT as held items allowed; 0 is no limit of its own. -/
def Merge.limit (m : Merge) : Nat := (fld m.mcfg 20 11).toNat * 256
/-- The enabled context that binds a queue. -/
def State.ctxOf (s : State) (q : Nat) : Option Nat :=
  (s.ord.merges.find? (fun p => p.2.en && decide (p.2.mq = q))).map (·.1)
/-- Items held in the shared pool. -/
def State.poolHeld (s : State) : Nat := s.ord.merges.foldl (fun n p => n + p.2.held.length) 0

/-- Insert a held entry in key order; equal keys stay in order of publication (R95). -/
def insHeld (h : Held) : List Held → List Held
  | [] => [h]
  | x :: xs => if h.key < x.key then h :: x :: xs else x :: insHeld h xs

/-- Set LATE, bit 4 of the flags, in the ring image of a slot (R98). -/
def State.markLate (s : State) (q ptr : Nat) : State :=
  let a := (s.desc q).slotAddr ptr + 18
  s.ramPut a [s.ramByte a ||| 0x10#8]

/-- Release one item of a context: LATE when its key is below the last released key, which it then becomes (R98). -/
def State.releaseOne (c q : Nat) (h : Held) (s : State) : State :=
  let m := s.merge c
  let late := match m.last with | some k => decide (h.key < k) | none => false
  let s := if late then (s.markLate q h.ptr).count 0x0304 1 {} else s
  let s := s.setMerge c { s.merge c with last := some h.key }
  let d := s.desc q
  s.setDesc q { d with rel := d.rel ++ [h.ptr] }

/-- Release a list of held items in order. -/
def State.releaseList (c q : Nat) (hs : List Held) (s : State) : State := hs.foldl (fun s h => s.releaseOne c q h) s

/-- Release the held item of slot `ptr` with every item of its context that orders before it, in key order; equal keys order by
publication (R95, R96). -/
def State.releaseUpTo (c ptr : Nat) (s : State) : State :=
  let m := s.merge c
  let (lower, rest) := m.held.span (fun h => decide (h.ptr ≠ ptr))
  (s.setMerge c { m with held := rest.drop 1 }).releaseList c m.mq (lower ++ rest.take 1)

/-- Release everything a context holds, in key order (R100). -/
def State.releaseAll (c : Nat) (s : State) : State :=
  let m := s.merge c
  (s.setMerge c { m with held := [] }).releaseList c m.mq m.held

/-- The held entry whose window ran out first, before the instant `now` (R97). -/
def firstDue (now : Nat) (hs : List Held) : Option Held :=
  (hs.filter (fun h => decide (h.due < now))).foldl (fun (best : Option Held) h =>
    match best with | none => some h | some b => if h.due < b.due then some h else some b) none

/-- Release what ran out before this instant, in timebase order: the first expiry with every lower held key, then the next (R96,
R97). An expiry of this very instant waits for the publications of the instant. -/
def State.mergeDue : Nat → Nat → State → State
  | 0, _, s => s
  | n + 1, c, s =>
    match firstDue s.tb.elapsed (s.merge c).held with
    | some h => State.mergeDue n c (s.releaseUpTo c h.ptr)
    | none => s

/-- Expiries of a queue's context before this instant (R97). -/
def State.mergeExpire (q : Nat) (s : State) : State :=
  match s.ctxOf q with
  | some c => State.mergeDue (s.merge c).held.length c s
  | none => s

/-- POOLFULL is set where the pool holds its 262,144 items (R96). -/
def State.notePool (s : State) : State := if 262144 ≤ s.poolHeld then { s with ord := { s.ord with poolfull := true } } else s

/-- A context takes the held item `h` (R96, R99): with the pool full or the context at its LIMIT its lowest key leaves at once. -/
def State.mergeHold (c q : Nat) (h : Held) (s : State) : State :=
  let m := s.merge c
  if 262144 ≤ s.poolHeld ∨ (m.limit ≠ 0 ∧ m.limit ≤ m.held.length) then
    let s := s.setMerge c { m with early := satInc 0x7FFF m.early }
    match m.held with
    | [] => s.releaseOne c q h
    | x :: xs =>
      if h.key < x.key then s.releaseOne c q h
      else
        let s := (s.setMerge c { s.merge c with held := xs }).releaseOne c q x
        let s := s.setMerge c { s.merge c with held := insHeld h xs }
        if m.window = 0 then s.releaseUpTo c h.ptr else s
  else
    let s := s.setMerge c { m with held := insHeld h m.held }
    if m.window = 0 then s.releaseUpTo c h.ptr else s

/-- ORD takes the publication of slot `ptr` of a merge queue: expiries before this instant go first (R96, R97, R99, R100). -/
def State.mergePublish (q ptr key : Nat) (s : State) : State :=
  let s := s.mergeExpire q
  match s.ctxOf q with
  | none =>
    let d := s.desc q
    let s := s.setDesc q { d with rel := d.rel ++ [ptr], noCtxEv := true }
    if d.noCtxEv then s else s.event 0x0B01 (BitVec.ofNat 32 q)
  | some c => s.notePool.mergeHold c q ⟨ptr, key, s.tb.elapsed, s.tb.elapsed + (s.merge c).window * usCounts⟩

/-! ## Reset, publication, consumption and return -/

/-- A queue reset (R85, R86, R98, R100). -/
def State.queueReset (q : Nat) (s : State) : State :=
  let d := s.desc q
  let s := s.setDesc q { d with
    head := 0, tail := 0, disp := 0, rsv := 0, infl := 0, headn := 0x1FFFFF, tailn := 0x1FFFFF, state := 1
    rets := [], counts := [], done := [], rel := [], unsettled := [], gen := d.gen + 1, waitFrom := none, starved := false, lost := d.depth }
  let s := match s.ctxOf q with
    | some c => s.setMerge c { s.merge c with held := [], last := none }
    | none => s
  let s := { s with
    qm := { s.qm with rstQ := q, pend := true }
    spn := { s.spn with own := s.spn.own.filter (fun o => decide (o.q ≠ q)) } }
  (s.irq 1).event 0x0803 (BitVec.ofNat 32 (0x0E * 65536 + q))

/-- The check the QM makes on every access: the queue is reset when any check fails (R84). -/
def State.qmAccess (q : Nat) (s : State) : Bool × State :=
  let d := s.desc q
  if d.hasRing && !d.sound then (false, s.queueReset q) else (true, s)

/-- The pair sequence the QM writes into bytes 50-55 of a class-4 item that carries none (R309). -/
def pairSeq (k : Nat) (x : Item) : Item :=
  if fld x 400 48 = (0#48) then
    setFld x 400 (BitVec.ofNat 48 (k % 16 * 2 ^ 44 + (itemSrc x).toNat % 256 * 2 ^ 36 + (itemSeq x).toNat))
  else x

/-- Publish an item to a queue that has a slot for it; `k` is its index among the task's class-4 outputs (R77, R87 step 2,
R96, R309). -/
def State.publish (q k : Nat) (x : Item) (s : State) : State :=
  let d := s.desc q
  let x := if d.cls = 4 then pairSeq k x else x
  let ring := x ||| (1#512 <<< 159)
  let ptr := d.tail
  let s := s.ramPut (d.slotAddr ptr) (bytesOf 64 ring)
  let t := (ptr + 1) % d.modulus
  let s := s.setDesc q { s.desc q with tail := t, tailn := 0x1FFFFF - t, waitFrom := match d.waitFrom with | some w => some w | none => some s.tb.elapsed }
  let s := s.count 0x0201 1 { cls := some d.cls }
  if d.merge then s.mergePublish q ptr (itemKey x) else s

/-- A queue can take a hardware put: it has a ring, is in the normal state and has a free slot (R80, R86). -/
def State.canPut (s : State) (q : Nat) : Bool :=
  let d := s.desc q
  d.hasRing && decide (d.state ≠ 1) && !d.filling && decide (0 < d.freeSlots)

/-- A unit's put: true where the item was published. -/
def State.hwPut (q : Nat) (x : Item) (s : State) : Bool × State :=
  let (ok, s) := s.qmAccess q
  if ok && s.canPut q then (true, s.publish q 0 x) else (false, s)

/-- Advance HEAD over consumed slots contiguous with it (R77). -/
def advanceHead : Nat → Desc → Desc
  | 0, d => d
  | n + 1, d =>
    if d.head ∈ d.done then
      let h := (d.head + 1) % d.modulus
      advanceHead n { d with head := h, headn := 0x1FFFFF - h, done := d.done.filter (fun p => decide (p ≠ d.head)) }
    else d

/-- Consume a slot (R77); pending consumption is dropped when the queue was reset since (R86). -/
def State.consume (q gen ptr : Nat) (s : State) : State :=
  let (ok, s) := s.qmAccess q
  let d := s.desc q
  if ok && decide (d.gen = gen) && d.hasRing then
    let d := advanceHead (d.done.length + 1) { d with done := d.done ++ [ptr] }
    s.setDesc q { d with waitFrom := if d.depth = 0 then none else d.waitFrom }
  else s

/-- Set aside one returned item whose count has reached RDLIM, or halt the queue (R79); the publication makes its pointer check
(R84). True where the item left. -/
def State.setAsideOne (q : Nat) (r : Ret) (s : State) : Bool × State :=
  let par := BitVec.ofNat 32 (r.count % 65536 * 65536 + q)
  let side := (s.desc q).sideq
  let (ok, s) := if side = q then (false, s) else s.qmAccess side
  let d := s.desc q
  if ok && s.canPut side then
    let s := s.setDesc q { d with rets := d.rets.filter (fun x => decide (x.ptr ≠ r.ptr)) }
    let s := (s.publish side 0 r.item).consume q d.gen r.ptr
    (true, (s.event 0x0801 par).count 0x0203 1 { cls := some d.cls })
  else if d.state = 2 then (false, s)
  else (false, (s.setDesc q { d with state := 2 }).event 0x0802 par)

/-- Set aside every returned item whose count has reached RDLIM: none of them is dispatched again (R79). -/
def State.setAsideGo : Nat → Nat → State → State
  | 0, _, s => s
  | n + 1, q, s =>
    match (s.desc q).rets.find? (fun r => decide ((s.desc q).rdlim ≤ r.count)) with
    | none => s
    | some r =>
      match s.setAsideOne q r with
      | (true, s) => State.setAsideGo n q s
      | (false, s) => s

/-- The judgement of a queue's return list (R79). -/
def State.setAside (q : Nat) (s : State) : State := State.setAsideGo (s.desc q).rets.length q s

/-- An item returns to the head of its queue (R47, R79); nothing returns to a queue reset since (R86, R93). -/
def State.returnItem (q gen : Nat) (r : Ret) (s : State) : State :=
  let (ok, s) := s.qmAccess q
  let d := s.desc q
  if ok && decide (d.gen = gen) then (s.setDesc q { d with rets := r :: d.rets }).setAside q else s

/-- One task fewer in flight (R71, R75). -/
def State.inflDown (q gen : Nat) (s : State) : State :=
  let d := s.desc q
  if d.gen = gen then s.setDesc q { d with infl := d.infl - 1 } else s

/-- The next slot of a queue that may be dispatched or taken, without the return list (R75, R303). Slots in the release list
come first also on a queue whose MERGE has been cleared since. -/
def State.nextSlot (s : State) (q : Nat) : Option Nat :=
  let d := s.desc q
  if !d.hasRing then none
  else if d.merge || !d.rel.isEmpty then d.rel.find? (fun p => !decide (p ∈ d.unsettled))
  else if decide (d.disp ≠ d.tail) && !decide (d.disp ∈ d.unsettled) then some d.disp else none

/-- The item a slot's ring image holds. -/
def State.slotItem (s : State) (q ptr : Nat) : Item := BitVec.ofNat 512 (s.ramNat ((s.desc q).slotAddr ptr) 64)

/-- The head item a take would get: a returned item first (R75). -/
def State.headItem (s : State) (q : Nat) : Option Ret :=
  match (s.desc q).rets with
  | r :: _ => some r
  | [] => (s.nextSlot q).map (fun p => ⟨p, Tab.get 0 (s.desc q).counts p, s.slotItem q p, false⟩)

/-- Remove the head item from what can be dispatched; its slot stays until it is consumed. -/
def State.takeHead (q : Nat) (s : State) : State :=
  let d := s.desc q
  match d.rets with
  | _ :: rs => s.setDesc q { d with rets := rs }
  | [] =>
    match s.nextSlot q with
    | none => s
    | some p => s.setDesc q { d with
        disp := (d.disp + 1) % d.modulus
        counts := Tab.set 0 d.counts p 0
        rel := d.rel.filter (fun x => decide (x ≠ p)) }

/-- A hardware consumer takes and consumes the head item of a pull queue, where it has one. -/
def State.hwTake (q : Nat) (s : State) : Option Item × State :=
  let (ok, s) := s.qmAccess q
  if ok && decide ((s.desc q).mode = 2#3) && decide ((s.desc q).state = 0) && (s.desc q).en && !(s.desc q).filling then
    match s.headItem q with
    | none => (none, s)
    | some r => (some r.item, (s.takeHead q).consume q (s.desc q).gen r.ptr)
  else (none, s)

/-! ## Ingress FIFOs (R80 to R83) -/

def State.fifo (s : State) (n : Nat) : Fifo := Tab.get {} s.qm.fifos n
def State.setFifo (s : State) (n : Nat) (f : Fifo) : State := { s with qm := { s.qm with fifos := Tab.set {} s.qm.fifos n f } }
/-- QM_FIFO_WMn.HIGH and LOW. -/
def State.fifoHigh (s : State) (n : Nat) : Nat := s.regF (0x080100 + 8 * n) 8 6
def State.fifoLow (s : State) (n : Nat) : Nat := s.regF (0x080100 + 8 * n) 0 6

/-- The local source a FIFO serves (Table 3.3). -/
def fifoSource (n : Nat) : Nat := if n = 17 then 52 else n

/-- PAUSE on an Ethernet port's wire (R81, Table 3.3). -/
def State.sendPause (n : Nat) (quanta : BitVec 16) (s : State) : State :=
  if 12 ≤ n ∧ n ≤ 15 then
    let e := Tab.get {} s.eth (n - 12)
    { s with out := s.out ++ [.ethPause (n - 12) quanta], eth := Tab.set {} s.eth (n - 12) { e with pauseAt := some s.tb.elapsed } }
  else s

/-- HOLD follows the occupancy: set on reaching HIGH, cleared on falling to LOW (R81). -/
def State.fifoHold (n : Nat) (s : State) : State :=
  let f := s.fifo n
  if !f.hold && decide (s.fifoHigh n ≤ f.items.length) then
    (s.setFifo n { f with hold := true, heldAt := s.tb.elapsed }).sendPause n 0xFFFF#16
  else if f.hold && decide (f.items.length ≤ s.fifoLow n) then
    (s.setFifo n { f with hold := false, holds := ((f.heldAt, s.tb.elapsed) :: f.holds).take 4 }).sendPause n 0#16
  else s

/-- A stamped item reaches a FIFO: it enters, or is dropped at a full one (R82). True where it entered. -/
def State.fifoPush (n prio : Nat) (x : Item) (s : State) : Bool × State :=
  let f := s.fifo n
  if f.items.length < 32 then (true, (s.setFifo n { f with items := f.items ++ [(prio, x)] }).fifoHold n)
  else (false, s.setFifo n { f with ovf := true, drops := satInc 0xFFFF f.drops })

/-- Settle a published field item: it becomes dispatchable (R303, R304). -/
def State.settle (q ptr : Nat) (s : State) : State :=
  let d := s.desc q
  s.setDesc q { d with unsettled := d.unsettled.filter (fun p => decide (p ≠ ptr)) }

/-- Every item settles at publication: the twin is lost, or the device is solo (R304, R328). -/
def State.settleAtOnce (s : State) : Bool := s.twn.lost || s.solo

/-- The frame a field item stands for: item bytes 0-23 and 32-35, priority, PSDU and its CRC-32C (R303). -/
def State.frameOf (s : State) (prio : Nat) (x : Item) : FrameMsg :=
  let psdu := s.ramBytes (fld x 320 64).toNat (fld x 384 16).toNat
  { item := x, prio := Fin.ofNat 8 prio, psdu, digest := crcC psdu }

/-- Publish the head item of a FIFO to Q(s x 8 + p): a field port's item goes to the twin as a FRAME and waits to settle
(R80, R303, R304). -/
def State.fifoPublish (n prio : Nat) (x : Item) (s : State) : State :=
  let q := fifoSource n * 8 + prio
  let ptr := (s.desc q).tail
  let s := s.publish q 0 x
  if n < 10 then
    let m := s.frameOf prio x
    let s := if s.spn.link && !s.solo then { s with out := s.out ++ [.spnFrame m] } else s
    if s.settleAtOnce then s
    else
      let d := s.desc q
      let s := s.setDesc q { d with unsettled := d.unsettled ++ [ptr] }
      { s with spn := { s.spn with own := s.spn.own ++ [⟨q, ptr, x, m.digest, m.psdu.length, s.tb.elapsed, false, false⟩] } }
  else s

/-- The head item of a FIFO drains while its queue is in the normal state and has a free slot (R80). -/
def State.fifoDrain (n : Nat) (s : State) : State :=
  match (s.fifo n).items with
  | [] => s
  | (prio, x) :: rest =>
    let q := fifoSource n * 8 + prio
    let (ok, s) := s.qmAccess q
    if ok && s.canPut q && decide ((s.desc q).state = 0) then
      let s := s.setFifo n { s.fifo n with items := rest }
      (s.fifoPublish n prio x).fifoHold n
    else s

/-- Stamp an item of a FIFO's source and give it to the FIFO, whose ingress queue is bound in hardware (R17, R26, R82). -/
def State.ingress (n prio : Nat) (m : TimeRec) (body : Item) (s : State) : Bool × State :=
  let (x, s) := s.stampAs (fifoSource n) m body
  s.fifoPush n prio x

end Sys2Proof.Machine
end

