-- ==== Sys2Proof/Machine/Task.lean ====
section
/-! DEFINITION. Threads and tasks: registers and scratch (R28), how a task ends (R47), the fault sequence (R90), the
supervisor's fault entry (R64), the reserve (R69, R70), and the frame every Garnil instruction runs in (R32, R65). -/

namespace Sys2Proof.Machine
open Sys2Proof

def State.thread (s : State) (t : Nat) : Thread := Tab.get {} s.ge.threads t
def State.setThread (s : State) (t : Nat) (x : Thread) : State := { s with ge := { s.ge with threads := Tab.set {} s.ge.threads t x } }

/-! ## Registers (R28, Table 2.1) -/

/-- A general register; g0 reads zero. -/
def Thread.getG (x : Thread) (r : GReg) : Word := if r.val = 0 then 0#64 else Tab.get 0#64 x.g r.val
/-- Write a general register; a write to g0 is discarded. -/
def Thread.setG (x : Thread) (r : GReg) (v : Word) : Thread := if r.val = 0 then x else { x with g := Tab.set 0#64 x.g r.val v }
/-- A predicate; p0 reads true. -/
def Thread.getP (x : Thread) (r : PReg) : Bool := if r.val = 0 then true else x.p.getLsbD r.val
/-- Write a predicate; a write to p0 is discarded. -/
def Thread.setP (x : Thread) (r : PReg) (b : Bool) : Thread := if r.val = 0 then x else { x with p := setFld x.p r.val (ofBool 1 b) }
/-- An accumulator as a signed number. -/
def Thread.getA (x : Thread) (r : AReg) : Int := (Tab.get 0#128 x.a r.val).toInt
def Thread.setA (x : Thread) (r : AReg) (v : Int) : Thread := { x with a := Tab.set 0#128 x.a r.val (BitVec.ofInt 128 v) }
/-- Bytes of scratch, lowest first. -/
def Thread.scr (x : Thread) : Nat → Nat → List Byte
  | _, 0 => []
  | a, n + 1 => Tab.get 0#8 x.scratch a :: x.scr (a + 1) n
/-- `n` bytes of scratch as a number. -/
def Thread.scrNat (x : Thread) (a n : Nat) : Nat := natOfBytes (x.scr a n)
/-- Store bytes to scratch, at once (R38). -/
def Thread.putScr (x : Thread) (a : Nat) (bs : List Byte) : Thread := { x with scratch := ramPutTab x.scratch a bs }
/-- `n` bytes at `a` lie inside the thread's 16 KiB (R28). -/
def scrOk (a n : Nat) : Bool := decide (a + n ≤ 0x4000)

/-- The 64-byte item at a scratch address. -/
def Thread.scrItem (x : Thread) (a : Nat) : Item := BitVec.ofNat 512 (x.scrNat a 64)

/-! ## Program stores (R68, R34) -/

/-- The size of the code space of an agent: a cluster's 256 KiB store, or supervisor memory (log entry 22). -/
def codeSize (agent : Nat) : Nat := if agent = agSup then 2 ^ 20 else 2 ^ 18

/-- `n` bytes of code at `a` as a number: the cluster's store, or supervisor memory. -/
def State.codeNat (s : State) (agent a : Nat) : Nat → Nat
  | 0 => 0
  | n + 1 => (if agent = agSup then Tab.get 0#8 s.sup.mem a else Tab.get 0#8 s.ge.store (clusterOf agent * 0x40000 + a)).toNat
      + 256 * s.codeNat agent (a + 1) n

/-! ## Locks (R52, R115) -/

def State.lock (s : State) (l : Nat) : Lock := Tab.get {} s.ord.locks l
def State.setLock (s : State) (l : Nat) (x : Lock) : State := { s with ord := { s.ord with locks := Tab.set {} s.ord.locks l x } }
/-- The lock is held by the agent in its current epoch. -/
def State.holds (s : State) (agent : Nat) (x : Lock) : Bool := decide (x.owner = some (agent, s.epochOf agent))
/-- The locks an agent holds, in number order. -/
def State.locksOf (s : State) (agent : Nat) : List (Nat × Lock) := s.ord.locks.filter (fun p => s.holds agent p.2)
/-- Make a lock FREE; its mark stays (R52). -/
def State.freeLock (l : Nat) (s : State) : State := s.setLock l { s.lock l with owner := none, since := 0, warnMs := 0, warned := false }

/-! ## The end of a task (R47, Table 2.11) -/

/-- Discard a stage's reservations and takes and the agent's pending marks (R47, R51, R90 step 2). -/
def State.dropStage (agent : Nat) (s : State) : State :=
  let st := (s.thread agent).stage
  let s := (if (s.thread agent).rpl.isSome then [] else st.puts).foldl (fun s p =>
    let (_, s) := s.qmAccess p.q
    let d := s.desc p.q
    if d.gen = p.gen then s.setDesc p.q { d with rsv := d.rsv - 1 } else s) s
  let s := st.takes.foldr (fun p s => s.returnItem p.q p.gen ⟨p.ptr, 0, p.item, false⟩) s
  let s := s.dropPend agent
  s.setThread agent { s.thread agent with stage := {}, jwait := none }

/-- Release the locks acquired in this task (every row of Table 2.11 but the fault row). -/
def State.dropLocks (agent : Nat) (s : State) : State :=
  ((s.thread agent).stage.acqs).foldl (fun s l => if s.holds agent (s.lock l) then s.freeLock l else s) s

/-- Class the instructions a task issued when it ends, for the derived counters (R422). -/
def State.classIssued (agent k : Nat) (s : State) : State :=
  if agent < 128 ∧ bit (s.reg 0x061060) 0 ∧ !s.pmc.bw then
    { s with pmc := s.pmc.add (176 + 4 * clusterOf agent + k) (s.thread agent).issued }
  else s

/-- Free an engine thread whose task has ended. -/
def State.freeThread (agent : Nat) (s : State) : State :=
  let x := s.thread agent
  s.setThread agent { x with st := .free, stage := {}, issued := 0, jwait := none, rpl := none }

/-! ### Replays (R313, R315) -/

/-- SELFFLT: this device has been found faulty: event 0x1705, CPSTATE 3 (R315). -/
def State.selfFault (s : State) : State :=
  if s.twn.selfflt then s else State.event 0x1705 0#32 { s with twn := { s.twn with selfflt := true, cp := 3#2 } }

/-- Answer a replay request: the pair sequence, the first digest, the replay's, and the status; INTEGRITY sets SELFFLT (R313, R315). -/
def State.replayAnswer (ps : BitVec 48) (first again : Word) (st : Status) (s : State) : State :=
  let s := { s with out := s.out ++ [.replayAnswer ps first again st] }
  if st = .integrity then s.selfFault else s

/-- The digest a record holds for a pair sequence. -/
def ReplayRec.first (r : ReplayRec) (ps : BitVec 48) : Word := match r.outs.find? (fun o => decide (o.1 = ps)) with | some o => o.2 | none => 0#64

/-- The thread that ran a replay is free again; its stage is discarded, never applied (R313). -/
def State.replayDrop (agent : Nat) (s : State) : State := ((s.dropLocks agent).dropStage agent).freeThread agent

/-- A replay ends: its digest of the output asked for, 0 where it made none, against the first one (R313). -/
def State.replayEnd (agent : Nat) (ps : BitVec 48) (r : ReplayRec) (again : Option Word) (s : State) : State :=
  (s.replayDrop agent).replayAnswer ps (r.first ps) (again.getD 0#64) (if again = some (r.first ps) then .ok else .integrity)

/-- A replay whose program faults, aborts or yields has not reproduced the commit; one that is only interrupted runs again (DEDUCED, log
entry 31). -/
def State.replayCut (agent : Nat) (failed : Bool) (ps : BitVec 48) (r : ReplayRec) (s : State) : State :=
  if failed then s.replayEnd agent ps r none
  else State.replayDrop agent { s with twn := { s.twn with rplWait := s.twn.rplWait ++ [ps] } }

/-- The stage writes every byte of line `l`. -/
def Stage.fullLine (g : Stage) (l : Nat) : Bool := decide ((g.bytes.filter (fun p => decide (p.1 / 64 = l))).length = 64)

/-- Keep the image of a line whose committed bytes the task reads, once (R312). -/
def Stage.noteImage (g : Stage) (l : Nat) (img : Item) : Stage :=
  if g.fullLine l || g.imgs.any (fun p => decide (p.1 = l)) then g else { g with imgs := g.imgs ++ [(l, img)] }

/-- The image a replay's record holds of a line (R313). -/
def Thread.imaged (t : Thread) (l : Nat) : Option Item := t.rpl.bind (fun r => (r.2.lines.find? (fun p => decide (p.1 = l))).map (·.2))

/-- End an engine task without commit: stage discarded, the item back at the head of its queue, its count raised where the
ending says so (R47, R78); a replay has no item and ends as `State.replayCut` says. `keep`: the locks stay with the agent; `fault`: a fault or watchdog expiry returns the item (R69). -/
def State.endTask (agent : Nat) (raise keep fault : Bool) (s : State) : State :=
  let x := s.thread agent
  match x.rpl with
  | some (ps, r) => s.replayCut agent raise ps r
  | none =>
    let s := if keep then s else s.dropLocks agent
    let s := s.dropStage agent
    let s := s.returnItem x.q x.qgen ⟨x.ptr, if raise then x.count + 1 else x.count, x.item, fault⟩
    let s := s.inflDown x.q x.qgen
    let s := (s.classIssued agent 1).count (0x0103 + 4 * clusterOf agent) 1 { init := some (.thread (Fin.ofNat 128 agent)) }
    s.freeThread agent

/-- A thread runs a task: it is neither free nor the supervisor. -/
def Thread.busy (x : Thread) : Bool := decide (x.st ≠ .free)

/-! ## The reserve (R69, R70) -/

/-- An engine (0 to 31) none of whose agents is fenced. -/
def State.engineOk (s : State) (e : Nat) : Bool := !((List.range 4).any (fun k => s.fencedAg (4 * e + k)))

/-- The reserve threads of a cluster. -/
def State.reserveOf (s : State) (c : Nat) : List Nat := s.ge.reserve.filter (fun t => decide (clusterOf t = c))

/-- Fewer than two unfenced engines can hold the reserve: RSVLOST and event 0x0901; the bit clears when the reserve is whole
again (R70). -/
def State.reserveCheck (c : Nat) (s : State) : State :=
  let ok := ((List.range 8).filter (fun e => s.engineOk (8 * c + e))).length
  let was := bit s.ge.rsvlost c
  if ok < 2 then
    if was then s
    else State.event 0x0901 (BitVec.ofNat 32 c) { s with ge := { s.ge with rsvlost := setFld s.ge.rsvlost c (1#1) } }
  else if was ∧ (s.reserveOf c).length = 4 then { s with ge := { s.ge with rsvlost := setFld s.ge.rsvlost c (0#1) } }
  else s

/-! ## Faults (R64, R65, R90) -/

def FaultClass.code : FaultClass → Nat
  | .illegal => 1 | .privilege => 2 | .absentUnit => 3 | .integrity => 4 | .fenced => 5 | .watchdog => 6 | .arithmetic => 7

/-- QCUR: redispatch count [31:16], queue number [15:0] (Table 2.2). -/
def Thread.qcur (x : Thread) : W32 := BitVec.ofNat 32 (x.count % 65536 * 65536 + x.q % 65536)

/-- Write a fault report and raise the GE interrupt; a full FIFO loses it (R92). -/
def State.report (r : FltRep) (s : State) : State :=
  let s := if s.ge.flt.length < 16 then { s with ge := { s.ge with flt := s.ge.flt ++ [r] } }
    else { s with ge := { s.ge with fltOvf := true } }
  s.irq 0

/-- The sequence after a fault or watchdog expiry on an engine thread at instruction `word` (R90, Table 3.6): the engine's four
agents are fenced, their stages discarded, their items returned, and the report written. A commit under way is let finish first
(R49). -/
def State.engineFaultAt (word : W32) (agent : Nat) (cls : FaultClass) (st : Status) (s : State) : State :=
  let x := s.thread agent
  let e := engineOf agent
  let r : FltRep := ⟨st, cls, agent, BitVec.setWidth 18 x.pc, word, x.qcur⟩
  let four := (List.range 4).map (4 * e + ·)
  let s := four.foldl (fun s a => { s with ord := { s.ord with fences := Tab.set false s.ord.fences a true } }) s
  let s := four.foldr (fun a s => if (s.thread a).busy && decide ((s.thread a).st ≠ .waitAck) then s.endTask a (decide (a = agent)) true true else s) s
  let s := { s with ge := { s.ge with reserve := s.ge.reserve.filter (fun t => decide (engineOf t ≠ e)) } }
  (s.report r).reserveCheck (clusterOf agent)

/-- The same; the word reported is the one the program store holds at the pc. -/
def State.engineFault (agent : Nat) (cls : FaultClass) (st : Status) (s : State) : State :=
  s.engineFaultAt (BitVec.ofNat 32 (s.codeNat agent (s.thread agent).pc.toNat 4)) agent cls st

/-- A pc of the supervisor: an address past supervisor memory becomes its end, where the next fetch is illegal (R34). -/
def supPc (a : Nat) : BitVec 24 := BitVec.ofNat 24 (min a (2 ^ 20))

/-- A fault on the supervisor (R64): the stage is discarded and the handler at SVEC + 0x40 x class is entered. Locks stay with it
(the fault row of Table 2.11). -/
def State.supFault (cls : FaultClass) (st : Status) (s : State) : State :=
  let s := s.dropStage agSup
  let x := s.thread agSup
  let s := { s with sup := { s.sup with
    sepc := BitVec.setWidth 64 x.pc
    scause := BitVec.ofNat 64 (st.code * 256 + cls.code)
    sstatus := setFld s.sup.sstatus 0 (1#2) } }
  s.setThread agSup { x with pc := supPc (s.sup.svec.toNat + 0x40 * cls.code), stage := {}, st := .running }

/-- A fault of whoever executes. -/
def State.fault (w : Who) (cls : FaultClass) (st : Status) (s : State) : State :=
  match w with
  | .thread t => s.engineFault t.val cls st
  | .sup => s.supFault cls st

/-! ## The frame of a Garnil instruction -/

/-- What an instruction does once it is known to execute. -/
inductive GRes where
  /-- the instruction completes and the thread goes on at pc + 4 -/
  | go (s : State)
  /-- the instruction completes and the thread goes on at the given address -/
  | jump (pc : Nat) (s : State)
  /-- the task has ended, or the thread waits; the pc is as the state holds it -/
  | stop (s : State)
  /-- the fault class and the status involved -/
  | fault (c : FaultClass) (st : Status)
  /-- a fault after which the given state holds what the instruction still did (R43's sticky flags) -/
  | faultIn (s : State) (c : FaultClass) (st : Status)
  /-- a RETRY response: the task ends as in the conflict row (R40) -/
  | retry

/-- Clusters that run: present and not parked (R5, R385). -/
def State.clusterRuns (s : State) (c : Nat) : Bool :=
  !bit s.pwr.parked c && !bit s.upd.parked c

/-- The thread executes: it runs a task, its cluster runs, and it is not waiting (R46, R67). The supervisor runs but in P3
and P4 (Table 17.1). No code runs where the ROM found no boot copy (R343). -/
def State.runnable (s : State) (w : Who) : Bool :=
  s.pwr.mainOn && !s.sec.fail &&
    (match w with
      | .thread t => decide ((s.thread t.val).st = .running) && s.clusterRuns (clusterOf t.val)
      | .sup => decide ((s.thread agSup).st = .running) && decide (s.pwr.state < 3))

/-- Count an issued instruction (R422, Table 18.8). -/
def State.issue (w : Who) (s : State) : State :=
  match w with
  | .sup => s
  | .thread t =>
    let x := s.thread t.val
    let s := s.setThread t.val { x with issued := x.issued + 1 }
    let f : PmcTag := { init := some (.thread t) }
    (s.count (0x0100 + 4 * clusterOf t.val) 1 f).count (0x0101 + 4 * clusterOf t.val) 1 f

/-- Move the thread to an address. -/
def State.setPc (w : Who) (pc : Nat) (s : State) : State :=
  let x := s.thread w.agent
  s.setThread w.agent { x with pc := BitVec.ofNat 24 pc }

/-- The executing thread. -/
def State.me (s : State) (w : Who) : Thread := s.thread w.agent
/-- Write the executing thread back. -/
def State.putMe (s : State) (w : Who) (x : Thread) : State := s.setThread w.agent x

/-- Finish an instruction. A RETRY error response on the supervisor, which has no item, ends its stage as the conflict row does (stage
discarded, its new locks released) and execution goes on at the next instruction: DESIGN CHOICE (log entry 40); R40 speaks of tasks
with an item. -/
def finish (w : Who) (pc : Nat) (s : State) : GRes → Answer
  | .go s' => .next (s'.setPc w (pc + 4))
  | .jump a s' => .next (s'.setPc w a)
  | .stop s' => .next s'
  | .fault c st => .next (s.fault w c st)
  | .faultIn s' c st => .next (s'.fault w c st)
  | .retry =>
    match w with
    | .thread t => .next (s.endTask t.val false false false)
    | .sup => .next (((s.dropLocks agSup).dropStage agSup).setPc .sup (pc + 4))

/-- Run an instruction in its frame: nothing where the thread does not execute; the illegal fault where the pc has run past
the store (R34, R47); pc + 4 alone where the predicate does not hold (R32). -/
def garnil (x : Ix) (f : State → GRes) (s : State) : Answer :=
  if s.runnable x.who then
    let pc := (s.me x.who).pc.toNat
    let s := s.issue x.who
    if codeSize x.who.agent ≤ pc then .next (s.fault x.who .illegal .ok)
    else if (s.me x.who).getP x.psel = x.pneg then .next (s.setPc x.who (pc + 4))
    else finish x.who pc s (f s)
  else .next s

/-- The same for an instruction of the SUP class: the privilege fault on an engine comes whether or not the predicate holds
(R32, R62). -/
def garnilSup (x : Ix) (f : State → GRes) (s : State) : Answer :=
  match x.who with
  | .sup => garnil x f s
  | .thread _ => if s.runnable x.who then .next ((s.issue x.who).fault x.who .privilege .ok) else .next s

/-- The same for an instruction that raises the privilege fault where `priv` says so, whether or not the predicate holds
(R30, R32, R44, R57, R60). -/
def garnilPriv (x : Ix) (priv : State → Bool) (f : State → GRes) (s : State) : Answer :=
  if s.runnable x.who && decide ((s.me x.who).pc.toNat < codeSize x.who.agent) && priv s then
    .next ((s.issue x.who).fault x.who .privilege .ok)
  else garnil x f s

/-- An access of a fenced agent is answered FENCED, which is its fault (R40, R124, R126). -/
def unlessFenced (w : Who) (f : State → GRes) (s : State) : GRes := if s.fencedAg w.agent then .fault .fenced .fenced else f s

/-- The executing thread is no thread of cluster 0 (R57, R60). -/
def outsideHeartwood (w : Who) : Bool := !w.init.heartwood

/-- Write a general register and go on. -/
def goG (w : Who) (rd : GReg) (v : Word) (s : State) : GRes := .go (s.putMe w ((s.me w).setG rd v))
/-- Write a predicate and go on. -/
def goP (w : Who) (pd : PReg) (b : Bool) (s : State) : GRes := .go (s.putMe w ((s.me w).setP pd b))

end Sys2Proof.Machine
end

