-- ==== Sys2Proof/Machine/Flags.lean ====
section
/-! DEFINITION. Compare conditions and predicate combination (R36, Table 2.6), and the status words an instruction leaves:
USTAT and LSTAT (Table 2.2). -/

namespace Sys2Proof.Machine
open Sys2Proof

/-- How a condition combines into pd (R36): set, and, or. -/
def combine (k : Comb) (old c : Bool) : Bool :=
  match k with
  | .set => c
  | .and => old && c
  | .or => old || c

/-- Write a compare's outcome to pd and go on (R36). -/
def goCmp (w : Who) (k : Comb) (pd : PReg) (c : Bool) (s : State) : GRes :=
  goP w pd (combine k ((s.me w).getP pd) c) s

/-- USTAT with a unit status in [7:0] and an IF97 region in [11:8]; the GEN field stays (Table 2.2). -/
def Thread.ustatUnit (x : Thread) (st : Status) (region : Nat) : Thread :=
  { x with ustat := setFld (setFld x.ustat 0 (BitVec.ofNat 8 st.code)) 8 (BitVec.ofNat 4 region) }

/-- USTAT's status alone, bits [7:0]. -/
def Thread.ustatStatus (x : Thread) (code : Nat) : Thread := { x with ustat := setFld x.ustat 0 (BitVec.ofNat 8 code) }

/-- USTAT's key generation, bits [23:16] (R54). -/
def Thread.ustatGen (x : Thread) (gen : Byte) : Thread := { x with ustat := setFld x.ustat 16 gen }

/-- LSTAT: default tariff [11], rate [10:8], status [7:0] (R59). -/
def Thread.lstatSet (x : Thread) (deflt : Bool) (rate : Nat) (st : Status) : Thread :=
  { x with lstat := BitVec.ofNat 64 ((if deflt then 2048 else 0) + rate % 8 * 256 + st.code) }

end Sys2Proof.Machine
end

