-- ==== Sys2Proof/Machine/Operands.lean ====
section
/-! DEFINITION. Operand forms of Garnil (R31, R34, R37): sign-extended immediates, branch targets, access sizes and types, and the
address forms of scratch, record window and fabric. -/

namespace Sys2Proof.Machine
open Sys2Proof

/-- A sign-extended immediate (R31). -/
def sext {n : Nat} (v : BitVec n) : Word := BitVec.signExtend 64 v

/-- pc + 4 x sext(imm17) (R34, Table 2.4). -/
def branchTarget (pc : Nat) (imm : BitVec 17) : Int := (pc : Int) + 4 * imm.toInt

/-- A jump to `t`: the illegal fault outside the store or off a multiple of 4 (R34). -/
def jumpTo (w : Who) (t : Int) (s : State) : GRes :=
  if 0 ≤ t ∧ t < codeSize w.agent ∧ t % 4 = 0 then .jump t.toNat s else .fault .illegal .ok

/-- The bytes of an access size. -/
def Size.bytesN : Size → Nat
  | .b1 => 1 | .b2 => 2 | .b4 => 4 | .b8 => 8

/-- A loaded value of `n` bytes, zero- or sign-extended to 64 bits. -/
def extendN (n : Nat) (signed : Bool) (v : Nat) : Word :=
  if signed then BitVec.signExtend 64 (BitVec.ofNat (8 * n) v) else BitVec.ofNat 64 v

/-- Bytes and sign of a load type (Table 2.7). -/
def LType.spec : LType → Nat × Bool
  | .u8 => (1, false) | .u16 => (2, false) | .u32 => (4, false) | .d64 => (8, false)
  | .s8 => (1, true) | .s16 => (2, true) | .s32 => (4, true)

/-- Bytes of a store type. -/
def SType.bytesN : SType → Nat
  | .u8 => 1 | .u16 => 2 | .u32 => 4 | .d64 => 8

/-- The low `n` bytes of a register, lowest first (R37). -/
def regBytes (v : Word) (n : Nat) : List Byte := bytesOf n v

end Sys2Proof.Machine
end

