-- ==== Sys2Proof/Machine/Acc.lean ====
section
/-! DEFINITION. Accumulators (R41, R42, Table 2.8) and binary64 (R43, Table 2.9): every operation computes the exact result as
an integer or a ratio of integers and rounds once. -/

namespace Sys2Proof.Machine
open Sys2Proof

/-! ## Binary64 values -/

def fNan (w : Word) : Bool := decide ((fld w 52 11).toNat = 0x7FF) && decide (fld w 0 52 ≠ (0#52))
def fSnan (w : Word) : Bool := fNan w && !bit w 51
def fInf (w : Word) : Bool := decide ((fld w 0 63).toNat = 0x7FF0000000000000)
def fZero (w : Word) : Bool := decide (fld w 0 63 = 0#63)
def fNeg (w : Word) : Bool := bit w 63

/-- A finite value in units of 2^-1074; every finite binary64 value is a whole number of them. -/
def fUnits (w : Word) : Int :=
  let e := (fld w 52 11).toNat
  let f := (fld w 0 52).toNat
  let m : Nat := if e = 0 then f else (2 ^ 52 + f) * 2 ^ (e - 1)
  if fNeg w then -m else m

def fSigned (neg : Bool) (w : Nat) : Word := BitVec.ofNat 64 ((if neg then 2 ^ 63 else 0) + w)
def fInfinity (neg : Bool) : Word := fSigned neg 0x7FF0000000000000

/-- A quiet NaN; its sign and payload are free (R43, R56). -/
def qnan (a b c : Word) : Word := 0x7FF8000000000000#64 ||| (Config.nanBits a b c &&& 0x8007FFFFFFFFFFFF#64)

/-- The sticky flags of FPSR: invalid, divide by zero, overflow, underflow, inexact. -/
abbrev fInvalid : Nat := 16
abbrev fDivZero : Nat := 8

/-- E with 2^E <= n/d < 2^(E+1), for positive n and d. -/
def ratioLog2 (n d : Nat) : Int :=
  let e : Int := (n.log2 : Int) - d.log2
  if d * 2 ^ e.toNat ≤ n * 2 ^ (-e).toNat then e else e - 1

/-- n/d rounded to nearest even in units of 2^u, and whether that was exact. -/
def roundAt (n d : Nat) (u : Int) : Nat × Bool :=
  let num := n * 2 ^ (-u).toNat
  let den := d * 2 ^ u.toNat
  ((divHalfEven num den).toNat, decide (num % den = 0))

/-- The binary64 value nearest to n/d, ties to even, with the flags it sets (R43). -/
def roundRat (neg : Bool) (n d : Nat) : Word × Nat :=
  if n = 0 then (fSigned neg 0, 0)
  else
    let e := ratioLog2 n d
    let u : Int := max (e - 52) (-1074)
    let (m, exact) := roundAt n d u
    let bits := (u + 1074).toNat * 2 ^ 52 + m
    let tiny := decide (e < -1022) && (Config.tinyBefore || !decide ((roundAt n d (e - 52)).1 = 2 ^ 53 ∧ e = -1023))
    if 0x7FF0000000000000 ≤ bits then (fInfinity neg, 4 + 1)
    else (fSigned neg bits, (if exact then 0 else 1) + (if tiny && !exact then 2 else 0))

/-- A signed ratio rounded; `zneg` is the sign of an exact zero. -/
def roundInt (zneg : Bool) (n : Int) (d : Nat) : Word × Nat := if n = 0 then (fSigned zneg 0, 0) else roundRat (decide (n < 0)) n.natAbs d

/-- The NaN result of an operation with a NaN operand: invalid only for a signalling one. -/
def nanOf (a b c : Word) : Word × Nat := (qnan a b c, if fSnan a || fSnan b || fSnan c then fInvalid else 0)
/-- The default result of an invalid operation. -/
def invalidOf (a b c : Word) : Word × Nat := (qnan a b c, fInvalid)

def fAdd (a b : Word) : Word × Nat :=
  if fNan a || fNan b then nanOf a b 0#64
  else if fInf a && fInf b && (fNeg a != fNeg b) then invalidOf a b 0#64
  else if fInf a then (a, 0)
  else if fInf b then (b, 0)
  else roundInt (fNeg a && fNeg b) (fUnits a + fUnits b) (2 ^ 1074)
def fFlip (a : Word) : Word := a ^^^ 0x8000000000000000#64
def fSub (a b : Word) : Word × Nat := if fNan b then nanOf a b 0#64 else fAdd a (fFlip b)
def fMul (a b : Word) : Word × Nat :=
  let neg := fNeg a != fNeg b
  if fNan a || fNan b then nanOf a b 0#64
  else if (fInf a && fZero b) || (fZero a && fInf b) then invalidOf a b 0#64
  else if fInf a || fInf b then (fInfinity neg, 0)
  else roundInt neg (fUnits a * fUnits b) (2 ^ 2148)
def fDiv (a b : Word) : Word × Nat :=
  let neg := fNeg a != fNeg b
  if fNan a || fNan b then nanOf a b 0#64
  else if (fInf a && fInf b) || (fZero a && fZero b) then invalidOf a b 0#64
  else if fInf a then (fInfinity neg, 0)
  else if fInf b then (fSigned neg 0, 0)
  else if fZero b then (fInfinity neg, fDivZero)
  else roundRat neg (fUnits a).natAbs (fUnits b).natAbs

/-- The floor of a square root, bit by bit from bit `k - 1`. -/
def isqrtFrom (n : Nat) : Nat → Nat → Nat
  | 0, r => r
  | k + 1, r => isqrtFrom n k (if (r + 2 ^ k) * (r + 2 ^ k) ≤ n then r + 2 ^ k else r)
/-- The floor of a square root. -/
def isqrt (n : Nat) : Nat := isqrtFrom n (n.log2 / 2 + 1) 0

def fSqrt (a : Word) : Word × Nat :=
  if fNan a then nanOf a 0#64 0#64
  else if fZero a then (a, 0)
  else if fNeg a then invalidOf a 0#64 0#64
  else if fInf a then (a, 0)
  else
    let n := (fUnits a).natAbs * 2 ^ 128
    let r := isqrt n
    roundRat false (2 * r + (if r * r = n then 0 else 1)) (2 ^ 602)

/-- c + a x b, rounded once. -/
def fMa (c a b : Word) : Word × Nat :=
  let neg := fNeg a != fNeg b
  let zi := (fInf a && fZero b) || (fZero a && fInf b)
  if fNan a || fNan b then nanOf a b c
  else if fNan c then (qnan a b c, if fSnan c || (zi && Config.fmaInvalid) then fInvalid else 0)
  else if zi then invalidOf a b c
  else if fInf a || fInf b then
    if fInf c && (fNeg c != neg) then invalidOf a b c else (fInfinity neg, 0)
  else if fInf c then (c, 0)
  else roundInt (neg && fNeg c) (fUnits c * 2 ^ 1074 + fUnits a * fUnits b) (2 ^ 2148)

/-- Order of values that are not NaN, -0 below +0 (R43). -/
def fKey (a : Word) : Int := if fNeg a then -((fld a 0 63).toNat : Int) - 1 else (fld a 0 63).toNat
def fMin (a b : Word) : Word × Nat := if fNan a || fNan b then nanOf a b 0#64 else (if fKey a ≤ fKey b then a else b, 0)
def fMax (a b : Word) : Word × Nat := if fNan a || fNan b then nanOf a b 0#64 else (if fKey a ≤ fKey b then b else a, 0)

/-- FCVTFI (Table 2.9). -/
def fToInt (a : Word) : Word × Nat :=
  if fNan a then (0#64, fInvalid)
  else if fInf a then (if fNeg a then 0x8000000000000000#64 else 0x7FFFFFFFFFFFFFFF#64, fInvalid)
  else
    let v := divHalfEven (fUnits a) (2 ^ 1074)
    if v < -(2 ^ 63) then (0x8000000000000000#64, fInvalid)
    else if 2 ^ 63 ≤ v then (0x7FFFFFFFFFFFFFFF#64, fInvalid)
    else (BitVec.ofInt 64 v, if fUnits a % 2 ^ 1074 = 0 then 0 else 1)

/-- Compares (Table 2.9): FCEQ and FCUN signal only on a signalling NaN, FCLT and FCLE on any (PRESUMED, IEEE 754's
predicates; log entry 23). -/
def fUnord (a b : Word) : Bool := fNan a || fNan b
def fLess (a b : Word) : Bool := !fUnord a b && decide (fKey a < fKey b) && !(fZero a && fZero b)
def fEqual (a b : Word) : Bool := !fUnord a b && (decide (a = b) || (fZero a && fZero b))
def fQuietFlags (a b : Word) : Nat := if fSnan a || fSnan b then fInvalid else 0
def fSignalFlags (a b : Word) : Nat := if fUnord a b then fInvalid else 0

/-- An FP operation sets its sticky flags, then traps where FPCTL asks for it, else goes on (R43). -/
def fpDone (w : Who) (fl : Nat) (s : State) (k : State → GRes) : GRes :=
  let t := s.me w
  let s := s.putMe w { t with fpsr := t.fpsr ||| BitVec.ofNat 64 fl }
  if (decide (fl / 16 % 2 = 1) && bit t.fpctl 0) || (decide (fl / 8 % 2 = 1) && bit t.fpctl 1) then .faultIn s .arithmetic .ok
  else k s

def fp2 (x : Ix) (rd ra rb : GReg) (f : Word → Word → Word × Nat) : State → Answer :=
  garnil x (fun s =>
    let r := f ((s.me x.who).getG ra) ((s.me x.who).getG rb)
    fpDone x.who r.2 s (goG x.who rd r.1))
def fpCmp (x : Ix) (k : Comb) (pd : PReg) (ra rb : GReg) (f : Word → Word → Bool) (g : Word → Word → Nat) : State → Answer :=
  garnil x (fun s =>
    let a := (s.me x.who).getG ra
    let b := (s.me x.who).getG rb
    fpDone x.who (g a b) s (goCmp x.who k pd (f a b)))

def execFadd (x : Ix) (rd ra rb : GReg) (s : State) : Answer := fp2 x rd ra rb fAdd s
def execFsub (x : Ix) (rd ra rb : GReg) (s : State) : Answer := fp2 x rd ra rb fSub s
def execFmul (x : Ix) (rd ra rb : GReg) (s : State) : Answer := fp2 x rd ra rb fMul s
def execFdiv (x : Ix) (rd ra rb : GReg) (s : State) : Answer := fp2 x rd ra rb fDiv s
def execFsqrt (x : Ix) (rd ra : GReg) (s : State) : Answer := fp2 x rd ra ra (fun a _ => fSqrt a) s
def execFma (x : Ix) (rd ra rb : GReg) (s : State) : Answer :=
  fp2 x rd ra rb (fun a b => fMa ((s.me x.who).getG rd) a b) s
def execFmin (x : Ix) (rd ra rb : GReg) (s : State) : Answer := fp2 x rd ra rb fMin s
def execFmax (x : Ix) (rd ra rb : GReg) (s : State) : Answer := fp2 x rd ra rb fMax s
def execFabs (x : Ix) (rd ra : GReg) (s : State) : Answer := fp2 x rd ra ra (fun a _ => (a &&& 0x7FFFFFFFFFFFFFFF#64, 0)) s
def execFneg (x : Ix) (rd ra : GReg) (s : State) : Answer := fp2 x rd ra ra (fun a _ => (fFlip a, 0)) s
def execFcvtif (x : Ix) (rd ra : GReg) (s : State) : Answer := fp2 x rd ra ra (fun a _ => roundInt false a.toInt 1) s
def execFcvtfi (x : Ix) (rd ra : GReg) (s : State) : Answer := fp2 x rd ra ra (fun a _ => fToInt a) s
def execFceq (x : Ix) (k : Comb) (pd : PReg) (ra rb : GReg) (s : State) : Answer := fpCmp x k pd ra rb fEqual fQuietFlags s
def execFclt (x : Ix) (k : Comb) (pd : PReg) (ra rb : GReg) (s : State) : Answer := fpCmp x k pd ra rb fLess fSignalFlags s
def execFcle (x : Ix) (k : Comb) (pd : PReg) (ra rb : GReg) (s : State) : Answer :=
  fpCmp x k pd ra rb (fun a b => fLess a b || fEqual a b) fSignalFlags s
def execFcun (x : Ix) (k : Comb) (pd : PReg) (ra rb : GReg) (s : State) : Answer := fpCmp x k pd ra rb fUnord fQuietFlags s

/-! ## Accumulators (R41) -/

/-- ad := v; a result outside the signed 128-bit range is the arithmetic fault and leaves ad (R41). -/
def goA (w : Who) (ad : AReg) (v : Int) (s : State) : GRes :=
  if -(2 ^ 127) ≤ v ∧ v < 2 ^ 127 then .go (s.putMe w ((s.me w).setA ad v)) else .fault .arithmetic .ok

/-- ad := f ad ga gb. -/
def acc3 (x : Ix) (ad : AReg) (ra rb : GReg) (f : Int → Word → Word → Int) : State → Answer :=
  garnil x (fun s => goA x.who ad (f ((s.me x.who).getA ad) ((s.me x.who).getG ra) ((s.me x.who).getG rb)) s)
/-- ad := f ad as. -/
def accA (x : Ix) (ad as : AReg) (f : Int → Int → Int) : State → Answer :=
  garnil x (fun s => goA x.who ad (f ((s.me x.who).getA ad) ((s.me x.who).getA as)) s)
/-- The 128 bits of an accumulator. -/
def Thread.accBits (t : Thread) (r : AReg) : BitVec 128 := Tab.get 0#128 t.a r.val
def Thread.setAccBits (t : Thread) (r : AReg) (v : BitVec 128) : Thread := { t with a := Tab.set 0#128 t.a r.val v }
/-- A change of the executing thread alone. -/
def goT (w : Who) (f : Thread → Thread) (s : State) : GRes := .go (s.putMe w (f (s.me w)))

def execAclr (x : Ix) (ad : AReg) (s : State) : Answer := accA x ad ad (fun _ _ => 0) s
def execAmov (x : Ix) (ad : AReg) (ra : GReg) (s : State) : Answer := acc3 x ad ra ra (fun _ a _ => a.toInt) s
def execAadd (x : Ix) (ad : AReg) (ra : GReg) (s : State) : Answer := acc3 x ad ra ra (fun d a _ => d + a.toInt) s
def execAsub (x : Ix) (ad : AReg) (ra : GReg) (s : State) : Answer := acc3 x ad ra ra (fun d a _ => d - a.toInt) s
def execAmac (x : Ix) (ad : AReg) (ra rb : GReg) (s : State) : Answer := acc3 x ad ra rb (fun d a b => d + a.toInt * b.toInt) s
def execAmacu (x : Ix) (ad : AReg) (ra rb : GReg) (s : State) : Answer := acc3 x ad ra rb (fun d a b => d + a.toNat * b.toNat) s
def execAadda (x : Ix) (ad as : AReg) (s : State) : Answer := accA x ad as (fun d a => d + a) s
def execAsuba (x : Ix) (ad as : AReg) (s : State) : Answer := accA x ad as (fun d a => d - a) s
def execAglo (x : Ix) (rd : GReg) (as : AReg) (s : State) : Answer :=
  garnil x (fun s => goG x.who rd (fld ((s.me x.who).accBits as) 0 64) s) s
def execAghi (x : Ix) (rd : GReg) (as : AReg) (s : State) : Answer :=
  garnil x (fun s => goG x.who rd (fld ((s.me x.who).accBits as) 64 64) s) s
def execAslo (x : Ix) (ad : AReg) (ra : GReg) (s : State) : Answer :=
  garnil x (goT x.who (fun t => t.setAccBits ad (setFld (t.accBits ad) 0 (t.getG ra)))) s
def execAshi (x : Ix) (ad : AReg) (ra : GReg) (s : State) : Answer :=
  garnil x (goT x.who (fun t => t.setAccBits ad (setFld (t.accBits ad) 64 (t.getG ra)))) s
def execAld (x : Ix) (ad : AReg) (ra : GReg) (s : State) : Answer :=
  garnil x (fun s =>
    let a := ((s.me x.who).getG ra).toNat
    if scrOk a 16 then goT x.who (fun t => t.setAccBits ad (BitVec.ofNat 128 (t.scrNat a 16))) s else .fault .illegal .ok) s
def execAst (x : Ix) (ad : AReg) (ra : GReg) (s : State) : Answer :=
  garnil x (fun s =>
    let a := ((s.me x.who).getG ra).toNat
    if scrOk a 16 then goT x.who (fun t => t.putScr a (bytesOf 16 (t.accBits ad))) s else .fault .illegal .ok) s
def execAsra (x : Ix) (ad : AReg) (k : Fin 32) (s : State) : Answer := accA x ad ad (fun d _ => d / 2 ^ k.val) s
/-- FTOA: ga x 10^k rounded half to even, the product exact before the one rounding (R41, R42). -/
def execFtoa (x : Ix) (ad : AReg) (ra : GReg) (k : Fin 32) (s : State) : Answer :=
  garnil x (fun s =>
    let a := (s.me x.who).getG ra
    if fNan a || fInf a then .fault .arithmetic .ok
    else goA x.who ad (divHalfEven (fUnits a * 10 ^ k.val) (2 ^ 1074)) s) s
/-- ATOF: as / 10^k to the nearest even binary64; FPSR is the FP minors' alone (Table 2.8). -/
def execAtof (x : Ix) (rd : GReg) (as : AReg) (k : Fin 32) (s : State) : Answer :=
  garnil x (fun s => goG x.who rd (roundInt false ((s.me x.who).getA as) (10 ^ k.val)).1 s) s

end Sys2Proof.Machine
end

