-- ==== Sys2Proof/Machine/Time.lean ====
section
/-! DEFINITION. The timebase (11_time.md): the REFCLK edge, steps, quality classes, the stamping domain and REFCLK loss, with
the writes of the TB window. -/

namespace Sys2Proof.Machine
open Sys2Proof

/-- Writing a unit's register: initiator, row, offset of its lowest word, value; the response and the next state. -/
abbrev UnitWrite := Init → RegRow → Nat → Nat → State → Status × State

/-- Store a register whole, keeping only the bits it implements (R10). -/
def State.store (r : RegRow) (o v : Nat) (s : State) : State :=
  if r.words = 2 then (s.setReg o (BitVec.ofNat 32 v)).setReg (o + 4) (BitVec.ofNat 32 (v >>> 32))
  else s.setReg o (BitVec.ofNat 32 v &&& r.mask)

/-- A write that is accepted as it stands. -/
def accept (r : RegRow) (o v : Nat) (s : State) : Status × State := (.ok, s.store r o v)
/-- A write that is refused: nothing changes. -/
def refuse (st : Status) (s : State) : Status × State := (st, s)

/-- Bits [lo+n-1:lo] of a written value. -/
def vf (v lo n : Nat) : Nat := v / 2 ^ lo % 2 ^ n

/-- The last edge was the domain's second boundary (R266). -/
def State.atSecond (s : State) (b : Bool) : Bool := (s.dom b).carry

/-- TB_STAT.SPLIT follows the test, with events 0x0303 and 0x0304 (R275). -/
def State.splitTrack (s : State) : State :=
  if s.tb.split = s.splitNow then s
  else State.event (if s.splitNow then 0x0303 else 0x0304) 0#32 { s with tb := { s.tb with split := s.splitNow } }

/-- A signed amount in [30:0] with a flag in [31], saturating at -2^30 and 2^30 - 1 (R269, R272). -/
def flagAmount (f : Bool) (x : Int) : W32 :=
  let y := clampInt (-(2 ^ 30)) (2 ^ 30 - 1) x
  BitVec.ofInt 32 (y % 2 ^ 31 + (if f then 2 ^ 31 else 0))

/-- The switch of the stamping domain at an edge: TB_SWDIFF takes A - B, and event 0x0301 (R272). -/
def State.switchDomain (b : Bool) (s : State) : State :=
  let d : Int := (s.tb.a.t32 : Int) - s.tb.b.t32
  let s := s.setReg Reg.tbCtl (setFld (s.reg Reg.tbCtl) 31 (ofBool 1 b))
  State.event 0x0301 (flagAmount b (Int.tdiv (d * 1000000) (2 ^ 32))) { s with tb := { s.tb with swdiff := BitVec.ofInt 64 d } }

/-- One REFCLK edge: both domains advance by the increments written by now, held while REFCLK is lost, the elapsed count rises, and a
written change of SEL takes effect (R266, R267, R272, R277). Nothing moves while the main domains are down. -/
def State.tick (s : State) : State :=
  if s.pwr.mainOn then
    let t := { s.tb with elapsed := s.tb.elapsed + 1 }
    if s.tb.clkLost then { s with tb := t }
    else
      let u := { s with tb := { t with a := s.tb.a.edge (s.incr false), b := s.tb.b.edge (s.incr true), selNext := none } }
      match s.tb.selNext with
      | some b => if b = s.sel then u else u.switchDomain b
      | none => u
  else s

/-- A negative step of domain `b` ends the blocks in progress that follow it, at the step (R131). -/
def State.cutBlocks (b : Bool) (s : State) : State :=
  { s with afe := { s.afe with points := s.afe.points.map (fun e =>
      (e.1, { e.2 with cut := e.2.cut || (decide (e.2.n ≠ 0) && decide (e.2.per.map (·.1) = some b)) })) } }

/-- A pending step meets the domain's second boundary, an edge after its close (R269). A setting that would break R265 is dropped and
records nothing. -/
def State.applyStep (b : Bool) (s : State) : State :=
  let d := s.dom b
  match d.stepDue s.tb.elapsed with
  | none => s
  | some p =>
    let now : Int := d.sec.toNat * 2 ^ 64 + d.frac.toNat
    let t := d.stepTo p
    let s := s.setDom b (d.stepped s.tb.elapsed)
    if timeOk t then
      (if t < now then s.cutBlocks b else s).event 0x0302 (flagAmount b (Int.tdiv ((t - now) * 1000) (2 ^ 64)))
    else s

/-- A class falls: event 0x0305 when that leaves it below QMIN (R271). -/
def State.classFall (b : Bool) (new : Nat) (s : State) : State :=
  if new < s.qmin then s.event 0x0305 (BitVec.ofNat 32 ((if b then 2 ^ 31 else 0) + new)) else s

/-- Writes of the TB window (R267, R271 to R273, R277). A written SEL waits for the next REFCLK edge, and SEL reads the domain in use
until then (R272). -/
def writeTb : UnitWrite := fun _ r o v s =>
  if o = Reg.tbIncrA ∨ o = Reg.tbIncrB then
    if 147500165614 ≤ v ∧ v ≤ 147647739566 then accept r o v s else refuse .outOfRange s
  else if o = Reg.tbQualA ∨ o = Reg.tbQualB then
    if vf v 4 16 = 0 then refuse .outOfRange s
    else
      let b := decide (o = Reg.tbQualB)
      let d := s.dom b
      let c := vf v 0 4
      let s := (s.store r o v).setDom b { d with cls := c, clsAt := s.tb.elapsed }
      (.ok, if c < d.cls then s.classFall b c else s)
  else if o = Reg.tbCtl then
    if vf v 20 4 = 0 ∨ vf v 0 20 = 0 ∨ 1000000 < vf v 0 20 then refuse .outOfRange s
    else
      let old := s.sel
      let new := decide (vf v 31 1 = 1)
      let s := s.setReg o (setFld (BitVec.ofNat 32 v &&& r.mask) 31 (ofBool 1 old))
      (.ok, { s with tb := { s.tb with selNext := if new = old then none else some new } })
  else if o = 0x030004 then
    (.ok, if vf v 28 1 = 1 then { s with tb := { s.tb with autosw := false } } else s)
  else if o = 0x030048 then
    (.ok, if vf v 0 1 = 1 then { s with tb := { s.tb with
      snapA := stampOf s.tb.a.t32, snapB := stampOf s.tb.b.t32, snapE := BitVec.ofNat 64 s.tb.elapsed } } else s)
  else accept r o v s

/-- Reads of the TB window's status registers (Table 11.6, R272, R277); a class reads 0 while REFCLK is lost. -/
def readTb (o : Nat) (s : State) : W32 :=
  if o = 0x030004 then
    (ofBool 32 s.tb.clkLost <<< 31) ||| (ofBool 32 s.tb.split <<< 30) ||| (ofBool 32 s.sel <<< 29) ||| (ofBool 32 s.tb.autosw <<< 28)
      ||| (ofBool 32 (s.tb.a.step.isSome || s.tb.b.step.isSome) <<< 27)
      ||| BitVec.ofNat 32 (16 * s.cls true + s.cls false)
  else if o = Reg.tbQualA then setFld (s.reg o) 0 (BitVec.ofNat 4 (s.cls false))
  else if o = Reg.tbQualB then setFld (s.reg o) 0 (BitVec.ofNat 4 (s.cls true))
  else if o = 0x030040 then fld s.tb.swdiff 0 32
  else if o = 0x030044 then fld s.tb.swdiff 32 32
  else if 0x030050 ≤ o ∧ o < 0x03005C then fld s.tb.snapA (8 * (o - 0x030050)) 32
  else if 0x03005C ≤ o ∧ o < 0x030068 then fld s.tb.snapB (8 * (o - 0x03005C)) 32
  else if 0x030068 ≤ o ∧ o < 0x030070 then fld s.tb.snapE (8 * (o - 0x030068)) 32
  else s.reg o

/-- The last value a list of buffered writes gives a register, or the value it holds. -/
def seqVal (ws : List (Nat × W32)) (s : State) (o : Nat) : W32 :=
  match ws.reverse.find? (fun p => decide (p.1 = o)) with
  | some p => p.2
  | none => s.reg o

/-- The step a domain takes from its own registers (R269). -/
def stepOf (ws : List (Nat × W32)) (s : State) (b abs : Bool) : Step :=
  let base := if b then 0x03002C else 0x030020
  ⟨abs, ((seqVal ws s (base + 4) ++ seqVal ws s base : BitVec 64)).toInt, (seqVal ws s (base + 8)).toNat, s.tb.elapsed⟩

/-- The domain at its next second boundary, with its increment as written now: the fraction there is what the last of the edges to it
carries over (R266). -/
def State.nextBoundary (s : State) (b : Bool) : Domain :=
  let d := s.dom b
  let i := s.incr b
  let k := (2 ^ 64 - d.frac.toNat + i - 1) / i
  { d with sec := d.sec + 1#64, frac := BitVec.ofNat 64 (d.frac.toNat + k * i) }

/-- A step would leave the domain, at its next boundary, where R265 refuses it. -/
def State.stepBad (s : State) (b : Bool) (p : Step) : Bool := !timeOk ((s.nextBoundary b).stepTo p)

/-- A close with apply of sequence 0x0003 (R269, R270). TB_STEPCMD counts only as written in this sequence. -/
def seqApplyTb (ws : List (Nat × W32)) (s : State) : Status × State :=
  let cmd : W32 := match ws.reverse.find? (fun p => decide (p.1 = 0x030038)) with | some p => p.2 | none => 0#32
  let a := bit cmd 0
  let b := bit cmd 1
  let pa := stepOf ws s false (bit cmd 2)
  let pb := stepOf ws s true (bit cmd 2)
  if !a && !b then (.denied, s)
  else if s.tb.clkLost then (.retry, s)
  else if (a && s.stepBad false pa) || (b && s.stepBad true pb) then (.outOfRange, s)
  else
    let s := ws.foldl (fun s p => s.setReg p.1 p.2) s
    let s := if a then s.setDom false { s.dom false with step := some pa } else s
    (.ok, if b then s.setDom true { s.dom true with step := some pb } else s)

/-- TB_STEP_APPLY: a pending step applies at the domain's second boundary. -/
def execTbStepApply (domB : Bool) (s : State) : Answer :=
  if s.pwr.mainOn && !s.tb.clkLost && s.atSecond domB then .next (s.applyStep domB) else .next s

/-- TB_AUTO_SWITCH: AUTOSEL set, the stamping domain below QMIN and the other at or above it (R272). -/
def execTbAutoSwitch (s : State) : Answer :=
  if s.pwr.mainOn && !s.tb.clkLost && bit (s.reg Reg.tbCtl) 30 && decide (s.cls s.sel < s.qmin) && decide (s.qmin ≤ s.cls (!s.sel)) then
    .next (State.switchDomain (!s.sel) { s with tb := { s.tb with autosw := true } })
  else .next s

/-- QUALITY_DECAY: a class above 1 falls by 1 every DECAY seconds without a write (R271). -/
def execQualityDecay (domB : Bool) (s : State) : Answer :=
  let d := s.dom domB
  let n := s.regF (if domB then Reg.tbQualB else Reg.tbQualA) 4 16 * sCounts
  if s.pwr.mainOn && !s.tb.clkLost && decide (1 < d.cls) && s.past d.clsAt n then
    .next ((s.setDom domB { d with cls := d.cls - 1, clsAt := d.clsAt + n }).classFall domB (d.cls - 1))
  else .next s

/-- REFCLK_LOSS: the domains hold, both classes go to 0, event 0x0306 (R277). -/
def execRefclkLoss (s : State) : Answer :=
  if s.pwr.mainOn && !s.tb.clkLost then
    .next (State.event 0x0306 0#32 { s with tb := { s.tb with
      clkLost := true, a := { s.tb.a with cls := 0 }, b := { s.tb.b with cls := 0 } } })
  else .next s

/-- REFCLK_RETURN: the domains advance from their held values with class 0, event 0x0307 (R277). -/
def execRefclkReturn (s : State) : Answer :=
  if s.pwr.mainOn && s.tb.clkLost then
    .next (State.event 0x0307 0#32 { s with tb := { s.tb with
      clkLost := false, a := { s.tb.a with cls := 0 }, b := { s.tb.b with cls := 0 } } })
  else .next s

/-- TSPLIT_CONDITION_CHANGE: TB_STAT.SPLIT follows the test continuously (R275). -/
def execTsplitConditionChange (s : State) : Answer :=
  if s.pwr.mainOn then .next s.splitTrack else .next s

end Sys2Proof.Machine
end

