-- ==== Sys2Proof/Machine/Flow.lean ====
section
/-! DEFINITION. The flow unit (06_quantities.md): bank and table loads, generations, and the metrology instructions (R56 to R58,
R153 to R157). -/

namespace Sys2Proof.Machine
open Sys2Proof

/-- A unit's read of DRAM for a load: DENIED above the usable capacity (R397), INTEGRITY on a poisoned line (R363). -/
def State.unitRead (s : State) (a n : Nat) : Status × List Byte := if s.usable < a + n then (.denied, []) else s.ramRead a n

/-! ## Generations (R155) -/

/-- The epoch switch of FLW: the three generations rotate. What the new current one holds for a point or handle that nothing loaded is
what that generation held before (R155; log entry 26). -/
def State.flwSwitch (s : State) : State :=
  let g := s.flw.gens
  { s with flw := { s.flw with gens := { cur := g.shadow, prev := g.cur, shadow := g.prev } } }

/-- The generation that serves epoch `e`: those of the epoch in force and of the one before it. -/
def State.genFor (s : State) (e : W32) : Option Nat :=
  if e = s.cfg.cur then some s.flw.gens.cur else if e = s.cfg.cur - 1#32 then some s.flw.gens.prev else none

/-- The bank of point `c` in generation `g`. -/
def State.bank (s : State) (g c : Nat) : BitVec 2048 := Tab.get 0#2048 s.flw.banks (g * 32 + c)
/-- The DRAM address of table `h` in generation `g`. -/
def State.tblAddr (s : State) (g h : Nat) : Nat := s.reg2 Reg.flwTblbase + g * 0x1000000 + h * 0x10000
/-- A table is loaded: Sapwood handles have one place, in generation 0 (log entry 26). -/
def State.tblLoaded (s : State) (g h : Nat) : Bool := Tab.get false s.flw.loaded (g * 256 + h)

/-! ## Loads (R154, R156) -/

/-- The binary64 at byte `i` of a structure. -/
def f64At (bs : List Byte) (i : Nat) : Word := BitVec.ofNat 64 (takeBytes bs i 8)
def fFinite (w : Word) : Bool := !fNan w && !fInf w

/-- The checks of a bank but its CRC and presence (R154). -/
def bankFormOk (bs : List Byte) : Bool :=
  let b (i : Nat) : Nat := takeBytes bs i 1
  let d := f64At bs 8
  let p := f64At bs 16
  let n := takeBytes bs 180 2
  decide (b 0 = 1) && decide (b 1 ≤ 9 ∨ b 1 = 16) && decide (1 ≤ b 2 ∧ b 2 ≤ 4) && decide (takeBytes bs 182 70 = 0)
    && fFinite d && fFinite p && decide (0 < fUnits d) && decide (0 < fUnits p)
    && decide (fUnits p ≤ 10 * fUnits d) && decide (10 * fUnits d ≤ 8 * fUnits p)
    && decide (1 ≤ n ∧ n ≤ 900) && decide (b 4 ≤ 127) && decide (b 5 ≤ 127) && decide (b 6 ≤ 127)
    && (decide (b 2 < 3) || decide (1 ≤ b 5))

/-- The status of loading a bank image for point `c` (R154). -/
def State.bankCheck (s : State) (c : Nat) (bs : List Byte) : Status :=
  if takeBytes bs 252 4 ≠ (crcC (bs.take 252)).toNat then .integrity
  else if 32 ≤ c ∨ !s.custPresent c then .absent
  else if bankFormOk bs then .ok else .outOfRange

/-- The length of a table image from its header, where the header's form holds (Table 6.5). -/
def tableLen (hd : List Byte) : Option Nat :=
  let b (i : Nat) : Nat := takeBytes hd i 1
  if b 0 = 1 ∧ 2 ≤ b 2 ∧ b 2 ≤ 64 ∧ ((b 1 = 1 ∧ b 3 = 1) ∨ (b 1 = 2 ∧ 2 ≤ b 3 ∧ b 3 ≤ 64)) then
    some (16 + 8 * (b 2 + (if b 1 = 2 then b 3 else 0) + b 2 * b 3) + 4)
  else none

/-- Strictly increasing. -/
def rising : List Int → Bool
  | a :: b :: t => decide (a < b) && rising (b :: t)
  | _ => true

/-- `n` binary64 values from byte `i`. -/
def f64List (bs : List Byte) (i n : Nat) : List Word := (List.range n).map (fun k => f64At bs (i + 8 * k))

/-- The status of a whole table image (R156, Table 6.5). -/
def tableCheck (bs : List Byte) : Status :=
  let b (i : Nat) : Nat := takeBytes bs i 1
  let m := bs.length - 4
  let ny := if b 1 = 2 then b 3 else 0
  let vals := f64List bs 16 ((m - 16) / 8)
  if takeBytes bs m 4 ≠ (crcC (bs.take m)).toNat then .integrity
  else if decide (takeBytes bs 4 12 = 0) && vals.all fFinite && rising ((f64List bs 16 (b 2)).map fUnits)
      && rising ((f64List bs (16 + 8 * b 2) ny).map fUnits) then .ok
  else .outOfRange

/-- Read and check a table image at a DRAM address. -/
def State.tableRead (s : State) (a : Nat) : Status × List Byte :=
  match s.unitRead a 16 with
  | (.ok, hd) =>
    match tableLen hd with
    | none => (.outOfRange, [])
    | some n =>
      match s.unitRead a n with
      | (.ok, bs) => (tableCheck bs, bs)
      | r => r
  | r => r

/-- Put a checked table into the region and mark it loaded. -/
def State.tablePut (g h : Nat) (bs : List Byte) (s : State) : State :=
  let s := (s.ramWrite (s.tblAddr g h) bs).2
  { s with flw := { s.flw with loaded := Tab.set false s.flw.loaded (g * 256 + h) true } }

/-- One FLW_LDCMD at a close: the check, and the shadow with the load in it (R154 to R156). -/
def State.flwLoad (addr : Nat) (cmd : W32) (s : State) : Status × State :=
  let k := (fld cmd 30 2).toNat
  let n := (fld cmd 0 8).toNat
  let g := s.flw.gens.shadow
  let (st, s') : Status × State :=
    if k = 1 then
      match s.unitRead addr 256 with
      | (.ok, bs) =>
        let st := s.bankCheck n bs
        (st, { s with flw := { s.flw with banks := Tab.set 0#2048 s.flw.banks (g * 32 + n) (packBytes' bs) } })
      | (st, _) => (st, s)
    else if k = 2 then
      if 127 < n then (.outOfRange, s)
      else
        let (st, bs) := s.tableRead addr
        (st, s.tablePut g n bs)
    else (.denied, s)
  if st = .ok then
    (.ok, { s' with flw := { s'.flw with ldBusy := some (k, n, 0) } })
  else (st, { s with flw := { s.flw with ldKind := k, ldIndex := n, ldStatus := st } })
where
  /-- A bank image as 2,048 bits. -/
  packBytes' (bs : List Byte) : BitVec 2048 := BitVec.ofNat 2048 (natOfBytes bs)

/-- FLW's writes at a close, in order: every LDCMD takes the address written before it. -/
def State.flwWrites : List (Nat × W32) → State → Status × State
  | [], s => (.ok, s)
  | (o, v) :: ws, s =>
    let s := s.setReg o v
    if o = 0x0E0008 then
      match s.flwLoad (s.reg2 0x0E0000) v with
      | (.ok, s) => State.flwWrites ws s
      | r => r
    else State.flwWrites ws s

/-- FLW's part of a close of sequence 0x0002: RETRY where a load of an earlier close is still BUSY, or shadow loads are shut
(R154, R296); the loads of one close run in order (log entry 26). -/
def State.flwClose (ws : List (Nat × W32)) (s : State) : Status × State :=
  if (s.flw.ldBusy.isSome || s.cfg.prep) && ws.any (fun w => decide (w.1 = 0x0E0008)) then (.retry, s) else s.flwWrites ws

/-- FLW_LOAD_DONE: BUSY clears and the status is reported (R154). -/
def execFlwLoadDone (s : State) : Answer :=
  match s.flw.ldBusy with
  | some (k, n, _) =>
    if s.pwr.mainOn then
      .next { s with flw := { s.flw with ldBusy := none, ldKind := k, ldIndex := n, ldStatus := .ok } }
    else .next s
  | none => .next s

/-- Writes of the FLW window that are not SEQ (R156). -/
def writeFlw : UnitWrite := fun i r o v s =>
  if o = 0x0E0010 ∨ o = 0x0E0018 then
    match i with
    | .thread _ | .sup =>
      if o = 0x0E0010 then accept r o v s
      else if s.flw.sldBusy.isSome then refuse .retry s
      else if vf v 0 8 < 128 then refuse .outOfRange s
      else
        let s := s.setReg o (BitVec.ofNat 32 (2 ^ 31 + vf v 0 8))
        (.ok, { s with flw := { s.flw with sldBusy := some (vf v 0 8, s.reg2 0x0E0010), sldKind := 2, sldIndex := vf v 0 8 } })
    | _ => refuse .denied s
  else if o = Reg.flwTblbase then accept r o (v - v % (64 * 2 ^ 20)) s
  else accept r o v s

/-- A load status word (Table 6.4). -/
def ldStat (busy : Bool) (kind : Nat) (st : Status) (idx : Nat) : W32 :=
  BitVec.ofNat 32 ((if busy then 2 ^ 31 else 0) + kind % 4 * 2 ^ 24 + st.code * 65536 + idx % 256)

/-- Reads of the FLW window. -/
def readFlw (o : Nat) (s : State) : W32 :=
  let f := s.flw
  if o = 0x0E000C then
    match f.ldBusy with
    | some (k, n, _) => ldStat true k f.ldStatus n
    | none => ldStat false f.ldKind f.ldStatus f.ldIndex
  else if o = 0x0E001C then ldStat f.sldBusy.isSome f.sldKind f.sldStatus f.sldIndex
  else s.reg o

/-- FLW_SAPWOOD_LOAD_DONE: the table is copied and checked, and FLW_SLDSTAT reports (R156). -/
def execFlwSapwoodLoadDone (s : State) : Answer :=
  match s.flw.sldBusy with
  | none => .next s
  | some (h, a) =>
    if s.pwr.mainOn then
      let (st, bs) := s.tableRead a
      let s := if st = .ok then s.tablePut 0 h bs else s
      .next { s with flw := { s.flw with sldBusy := none, sldStatus := st, sldKind := 2, sldIndex := h } }
    else .next s

/-! ## IAPWS-IF97 (R56) -/

/-- Comparison of finite binary64 values. -/
def fLe (a b : Word) : Bool := fFinite a && fFinite b && decide (fUnits a ≤ fUnits b)

/-- A decimal `num / 10^14` in units of 2^-200. -/
def q200 (num : Int) : Int := num * 2 ^ 200 / 10 ^ 14
/-- The product of two values in units of 2^-200. -/
def m200 (a b : Int) : Int := a * b / 2 ^ 200

/-- IAPWS-IF97's saturation pressure at `t` K, both in units of 2^-200, in Pa: the solution of its region 4 equation, taken to that
precision (R56; PRESUMED, log entry 26: the coefficients are the standard's). -/
def psat200 (t : Int) : Int :=
  let th := t + q200 (-23855557567849) * 2 ^ 200 / (t - q200 65017534844798000)
  let th2 := m200 th th
  let a := th2 + m200 (q200 116705214527670000) th + q200 (-72421316703206000000)
  let b := m200 (q200 (-1707384694009200)) th2 + m200 (q200 1202082470247000000) th + q200 (-323255503223330000000)
  let c := m200 (q200 1491510861353000) th2 + m200 (q200 (-482326573615910000)) th + q200 40511340542057000000
  let root : Int := isqrt ((b * b - 4 * a * c).toNat)
  let beta := 2 * c * 2 ^ 200 / (root - b)
  let beta2 := m200 beta beta
  m200 beta2 beta2 * 1000000

/-- The pressure of IAPWS-IF97's boundary between regions 2 and 3 at `t` K, in the same units (PRESUMED, log entry 26). -/
def pB23 (t : Int) : Int := (q200 34805185628969000 - m200 (q200 116718598799750) t + m200 (10192970039326 * 2 ^ 200 / 10 ^ 16) (m200 t t)) * 1000000

/-- A finite value of moderate size in units of 2^-200. -/
def f200 (w : Word) : Int := fUnits w / 2 ^ 874

/-- The IF97 region of p, T inside the stated ranges: 1 above the saturation line up to 623.15 K, 2 on or below it and, beyond 623.15 K, on
or below the boundary with region 3; above 863.15 K all is region 2 (R56). -/
def if97Region (p t : Word) : Nat :=
  if fLe t 0x4083793333333333#64 then (if psat200 (f200 t) < f200 p then 1 else 2)
  else if fLe t 0x408AF93333333333#64 then (if f200 p ≤ pB23 (f200 t) then 2 else 3)
  else 2

/-- The region a _PT minor uses, where its inputs are in range: T 273.15 to 1,073.15 K, p above 0 and up to 100 MPa. -/
def if97Pt (p t : Word) : Option Nat :=
  if fLe 0x4071126666666666#64 t && fLe t 0x4090C4999999999A#64 && fLe 0x1#64 p && fLe p 0x4197D78400000000#64 then
    if if97Region p t = 3 then none else some (if97Region p t)
  else none
/-- The region of a saturation minor whose input lies between `lo` and `hi`. -/
def if97Sat (lo hi a : Word) : Option Nat := if fLe lo a && fLe a hi then some 4 else none

/-- Write an IF97 result with USTAT: a quiet NaN and OUT_OF_RANGE where no region applies (R56). -/
def if97Op (x : Ix) (op : Nat) (rd ra rb : GReg) (region : Word → Word → Option Nat) : State → Answer :=
  garnil x (fun s =>
    let t := s.me x.who
    let a := t.getG ra
    let b := t.getG rb
    match region a b with
    | some n => .go (s.putMe x.who ((t.ustatUnit .ok n).setG rd (Config.if97 op a b)))
    | none => .go (s.putMe x.who ((t.ustatUnit .outOfRange 0).setG rd (qnan a b (BitVec.ofNat 64 op)))))

/-- 611.213 Pa. -/
abbrev pTriple : Word := 0x408319B439581062#64
/-- 22.064 MPa. -/
abbrev pCrit : Word := 0x41750AB800000000#64
/-- 16.5292 MPa. -/
abbrev p623 : Word := 0x416F86E600000000#64

def execIf97VPt (x : Ix) (rd ra rb : GReg) (s : State) : Answer := if97Op x 0x00 rd ra rb if97Pt s
def execIf97HPt (x : Ix) (rd ra rb : GReg) (s : State) : Answer := if97Op x 0x01 rd ra rb if97Pt s
def execIf97SPt (x : Ix) (rd ra rb : GReg) (s : State) : Answer := if97Op x 0x02 rd ra rb if97Pt s
def execIf97CpPt (x : Ix) (rd ra rb : GReg) (s : State) : Answer := if97Op x 0x03 rd ra rb if97Pt s
def execIf97KappaPt (x : Ix) (rd ra rb : GReg) (s : State) : Answer := if97Op x 0x04 rd ra rb if97Pt s
def execIf97WPt (x : Ix) (rd ra rb : GReg) (s : State) : Answer := if97Op x 0x05 rd ra rb if97Pt s
def execIf97TsatP (x : Ix) (rd ra : GReg) (s : State) : Answer := if97Op x 0x08 rd ra 0 (fun a _ => if97Sat pTriple pCrit a) s
def execIf97PsatT (x : Ix) (rd ra : GReg) (s : State) : Answer :=
  if97Op x 0x09 rd ra 0 (fun a _ => if97Sat 0x4071126666666666#64 0x408438C49BA5E354#64 a) s
def execIf97VgP (x : Ix) (rd ra : GReg) (s : State) : Answer := if97Op x 0x0A rd ra 0 (fun a _ => if97Sat pTriple p623 a) s
def execIf97HgP (x : Ix) (rd ra : GReg) (s : State) : Answer := if97Op x 0x0B rd ra 0 (fun a _ => if97Sat pTriple p623 a) s
def execIf97VfP (x : Ix) (rd ra : GReg) (s : State) : Answer := if97Op x 0x0C rd ra 0 (fun a _ => if97Sat pTriple p623 a) s
def execIf97HfP (x : Ix) (rd ra : GReg) (s : State) : Answer := if97Op x 0x0D rd ra 0 (fun a _ => if97Sat pTriple p623 a) s

/-! ## ISOCD, TBLI, SQACC (R57, R58, R157) -/

/-- The Reynolds number and the diameter ratio of a bank lie inside the limits ISO 5167-2, -3 and -4 set for its METHOD (R57; PRESUMED, log
entry 26: the limits are the standard's, which the spec names and does not repeat). -/
def isoInLimits (bank : BitVec 2048) (re : Word) : Bool :=
  let d := fUnits (fld bank 64 64)
  let p := fUnits (fld bank 128 64)
  let r := fUnits re
  let beta (lo hi : Int) : Bool := decide (lo * p ≤ 1000 * d) && decide (1000 * d ≤ hi * p)
  let reyn (lo hi : Int) : Bool := decide (lo * 2 ^ 1074 ≤ r) && decide (r ≤ hi * 2 ^ 1074)
  let orifice : Bool := beta 100 750 && decide (5000 * 2 ^ 1074 ≤ r)
  let small (lim : Int) : Bool := decide (1000 * d ≤ lim * p)
  fFinite re && (match (fld bank 8 8).toNat with
    | 1 => orifice && (small 560 || decide (16000 * d * d * 2 ^ 1074 ≤ r * p * p))
    | 2 => orifice && decide (170000 * d * d ≤ r * p)
    | 3 => orifice && (small 560 || decide (16000 * d * d * 2 ^ 1074 ≤ r * p * p))
    | 4 => beta 300 800 && (if 1000 * d < 440 * p then reyn 70000 10000000 else reyn 20000 10000000)
    | 5 => beta 200 800 && reyn 10000 10000000
    | 6 => beta 316 775 && reyn 150000 2000000
    | 7 => beta 300 750 && reyn 200000 2000000
    | 8 => beta 400 750 && reyn 200000 1000000
    | 9 => beta 400 700 && reyn 200000 2000000
    | _ => Config.isocdInLimits bank re)

/-- The discharge coefficient of a bank: 0.984, 0.995 and 0.985 for the three classical Venturi tubes, the standard's equation for the
others (R57, R159; PRESUMED, log entry 26). -/
def isoCoef (bank : BitVec 2048) (re : Word) : Word :=
  match (fld bank 8 8).toNat with
  | 7 => 0x3FEF7CED916872B0#64
  | 8 => 0x3FEFD70A3D70A3D7#64
  | 9 => 0x3FEF851EB851EB85#64
  | _ => Config.isocd bank re

/-- ISOCD: the coefficient of the point's bank of the item's epoch; privileged outside cluster 0, absent-unit for a point the
device lacks (R57, R155), and for a ga beyond the points of any device (log entry 26). -/
def execIsocd (x : Ix) (rd ra rb : GReg) (s : State) : Answer :=
  garnilPriv x (fun _ => outsideHeartwood x.who) (fun s =>
    let t := s.me x.who
    let c := (t.getG ra).toNat
    if 32 ≤ c ∨ !s.custPresent c then .fault .absentUnit .absent
    else
      let bank := match s.genFor t.iepoch with | some g => s.bank g c | none => 0#2048
      let re := t.getG rb
      let st := if isoInLimits bank re then Status.ok else .outOfRange
      .go (s.putMe x.who ((t.ustatStatus st.code).setG rd (isoCoef bank re)))) s

/-- The index of the grid cell a value lies in, for a value inside the grid. -/
def gridCell (v : Int) : List Int → Nat → Option Nat
  | a :: b :: t, k => if a ≤ v ∧ v ≤ b then some k else gridCell v (b :: t) (k + 1)
  | _, _ => none

/-- The interpolated value of a table image at x, y: exact, and rounded once (R57; DESIGN CHOICE, log entry 26). -/
def interpolate (bs : List Byte) (x y : Word) : Option Word :=
  let nx := takeBytes bs 2 1
  let two := decide (takeBytes bs 1 1 = 2)
  let ny := if two then takeBytes bs 3 1 else 0
  let gx := (f64List bs 16 nx).map fUnits
  let gy := (f64List bs (16 + 8 * nx) ny).map fUnits
  let val (ix iy : Nat) : Int := fUnits (f64At bs (16 + 8 * (nx + ny + iy * nx + ix)))
  let line (iy ix : Nat) : Int := val ix iy * (gx.getD (ix + 1) 0 - fUnits x) + val (ix + 1) iy * (fUnits x - gx.getD ix 0)
  if !fFinite x then none
  else match gridCell (fUnits x) gx 0 with
  | none => none
  | some ix =>
    let dx := gx.getD (ix + 1) 0 - gx.getD ix 0
    if !two then some (roundInt false (line 0 ix) (dx.toNat * 2 ^ 1074)).1
    else if !fFinite y then none
    else match gridCell (fUnits y) gy 0 with
      | none => none
      | some iy =>
        let dy := gy.getD (iy + 1) 0 - gy.getD iy 0
        let n := line iy ix * (gy.getD (iy + 1) 0 - fUnits y) + line (iy + 1) ix * (fUnits y - gy.getD iy 0)
        some (roundInt false n (dx.toNat * dy.toNat * 2 ^ 1074)).1

/-- The table a TBLI reads: none where none is loaded for the item's epoch, else its address. -/
def State.tblFor (s : State) (h : Nat) (e : W32) : Option Nat :=
  if 128 ≤ h then (if s.tblLoaded 0 h then some (s.tblAddr 0 h) else none)
  else match s.genFor e with
    | some g => if s.tblLoaded g h then some (s.tblAddr g h) else none
    | none => none

/-- TBLI (R57, R157). -/
def execTbli (x : Ix) (rd ra rb : GReg) (s : State) : Answer :=
  garnilPriv x (fun s => outsideHeartwood x.who && !bit ((s.me x.who).getG rb) 7) (fun s =>
    let t := s.me x.who
    let a := t.getG ra
    let y := t.getG rd
    let out (st : Status) (v : Word) : GRes := .go (s.putMe x.who ((t.ustatStatus st.code).setG rd v))
    let bad : Word := qnan a y (t.getG rb)
    match s.tblFor (fld (t.getG rb) 0 8).toNat t.iepoch with
    | none => out .outOfRange bad
    | some p =>
      let n := (tableLen (s.ramBytes p 16)).getD 20
      match s.ramRead p n with
      | (.ok, bs) =>
        match interpolate bs a y with
        | some v => out .ok v
        | none => out .outOfRange bad
      | _ => out .integrity bad) s

/-- SQACC: the sums of gb samples (R58); a sum outside the accumulator is the arithmetic fault (R41). -/
def execSqacc (x : Ix) (ad : AReg) (ra rb : GReg) (s : State) : Answer :=
  garnil x (fun s =>
    let t := s.me x.who
    let n := (t.getG rb).toNat
    let a := (t.getG ra).toNat
    if ad.val % 2 = 1 ∨ n = 0 ∨ 4096 < n ∨ !scrOk a (4 * n) then .fault .illegal .ok
    else
      let v := (List.range n).map (fun k => (BitVec.ofNat 32 (t.scrNat (a + 4 * k) 4)).toInt)
      let s1 := t.getA ad + v.foldl (· + ·) 0
      let s2 := t.getA (ad + 1) + ((v.foldl (fun m k => m + isqrt (k.toNat * 2 ^ 32)) 0 : Nat) : Int)
      if -(2 ^ 127) ≤ s1 ∧ s1 < 2 ^ 127 ∧ s2 < 2 ^ 127 then
        .go (s.putMe x.who ((t.setA ad s1).setA (ad + 1) s2))
      else .fault .arithmetic .ok) s

end Sys2Proof.Machine
end

