-- ==== Sys2Proof/Machine/Crypt.lean ====
section
/-! DEFINITION. The published algorithms Chuck and UPD name (14, 15): SHA-384, HMAC, HKDF-SHA-384, AES-256 with CCM and GCM, and
the P-384 curve with its signature check. The constants and round functions are the published standards' (PRESUMED, log
entry 24): the spec names the standards and does not repeat them. -/

namespace Sys2Proof.Machine
open Sys2Proof

/-! ## SHA-384 -/

/-- The SHA-512 round constants, eight to a row, the first in the lowest bits. -/
def shaK : List (BitVec 512) :=
  [0xab1c5ed5da6d8118923f82a4af194f9b59f111f1b605d0193956c25bf348b538e9b5dba58189dbbcb5c0fbcfec4d3b2f7137449123ef65cd428a2f98d728ae22#512,
   0xc19bf174cf6926949bdc06a725c7123580deb1fe3b1696b172be5d74f27b896f550c7dc3d5ffb4e2243185be4ee4b28c12835b0145706fbed807aa98a3030242#512,
   0x76f988da831153b55cb0a9dcbd41fbd44a7484aa6ea6e4832de92c6f592b0275240ca1cc77ac9c650fc19dc68b8cd5b5efbe4786384f25e3e49b69c19ef14ad2#512,
   0x142929670a0e6e7006ca6351e003826fd5a79147930aa725c6e00bf33da88fc2bf597fc7beef0ee4b00327c898fb213fa831c66d2db43210983e5152ee66dfab#512,
   0x92722c851482353b81c2c92e47edaee6766a0abb3c77b2a8650a73548baf63de53380d139d95b3df4d2c6dfc5ac42aed2e1b21385c26c92627b70a8546d22ffc#512,
   0x106aa07032bbd1b8f40e35855771202ad69906245565a910d192e819d6ef5218c76c51a30654be30c24b8b70d0f89791a81a664bbc423001a2bfe8a14cf10364#512,
   0x682e6ff3d6b2b8a35b9cca4f7763e3734ed8aa4ae3418acb391c0cb3c5c95a6334b0bcb5e19b48a82748774cdf8eeb991e376c085141ab5319a4c116b8d2d0c8#512,
   0xc67178f2e372532bbef9a3f7b2c67915a4506cebde82bde990befffa23631e288cc702081a6439ec84c87814a1f0ab7278a5636f43172f60748f82ee5defb2fc#512,
   0x1b710b35131c471b113f9804bef90dae0a637dc5a2c898a606f067aa72176fbaf57d4f7fee6ed178eada7dd6cde0eb1ed186b8c721c0c207ca273eceea26619c#512,
   0x6c44198c4a4758175fcb6fab3ad6faec597f299cfc657e2a4cc5d4becb3e42b6431d67c49c100d4c3c9ebe0a15c9bebc32caab7b40c7249328db77f523047d84#512]
/-- The SHA-384 initial value. -/
def shaIv : List Word := [0xcbbb9d5dc1059ed8#64, 0x629a292a367cd507#64, 0x9159015a3070dd17#64, 0x152fecd8f70e5939#64, 0x67332667ffc00b31#64, 0x8eb44a8768581511#64, 0xdb0c2e0d64f98fa7#64, 0x47b5481dbefa4fa4#64]
/-- Round constant `t`. -/
def shaConst (t : Nat) : Word := fld (shaK.getD (t / 8) 0#512) (64 * (t % 8)) 64

def shaRotr (x : Word) (n : Nat) : Word := x.rotateRight n
def shaBig0 (x : Word) : Word := shaRotr x 28 ^^^ shaRotr x 34 ^^^ shaRotr x 39
def shaBig1 (x : Word) : Word := shaRotr x 14 ^^^ shaRotr x 18 ^^^ shaRotr x 41
def shaSmall0 (x : Word) : Word := shaRotr x 1 ^^^ shaRotr x 8 ^^^ (x >>> 7)
def shaSmall1 (x : Word) : Word := shaRotr x 19 ^^^ shaRotr x 61 ^^^ (x >>> 6)

/-- The number a byte list spells, most significant byte first. -/
def natOfBE (bs : List Byte) : Nat := natOfBytes bs.reverse
/-- `n` bytes of a number, most significant first. -/
def bytesOfBE (n v : Nat) : List Byte := (bytesOfNat n v).reverse

/-- The message schedule: `k` more words after those in `w`, newest first. -/
def shaSchedule : Nat → List Word → List Word
  | 0, w => w
  | k + 1, w => shaSchedule k ((shaSmall1 (w.getD 1 0#64) + w.getD 6 0#64 + shaSmall0 (w.getD 14 0#64) + w.getD 15 0#64) :: w)

/-- One round on the eight working variables. -/
def shaRound (v : List Word) (kw : Word) : List Word :=
  match v with
  | [a, b, c, d, e, f, g, h] =>
    let t1 := h + shaBig1 e + ((e &&& f) ^^^ (~~~e &&& g)) + kw
    let t2 := shaBig0 a + ((a &&& b) ^^^ (a &&& c) ^^^ (b &&& c))
    [t1 + t2, a, b, c, d + t1, e, f, g]
  | _ => v

/-- The words of a 128-byte block. -/
def shaWords : Nat → List Byte → List Word
  | 0, _ => []
  | n + 1, bs => BitVec.ofNat 64 (natOfBE (bs.take 8)) :: shaWords n (bs.drop 8)

/-- One block. -/
def shaBlock (h : List Word) (blk : List Byte) : List Word :=
  let w := (shaSchedule 64 (shaWords 16 blk).reverse).reverse
  let v := (w.zip (List.range 80)).foldl (fun v p => shaRound v (shaConst p.2 + p.1)) h
  List.zipWith (· + ·) h v

/-- `n` blocks of a padded message. -/
def shaBlocks : Nat → List Word → List Byte → List Word
  | 0, h, _ => h
  | n + 1, h, bs => shaBlocks n (shaBlock h (bs.take 128)) (bs.drop 128)

/-- The padded message. -/
def shaPad (m : List Byte) : List Byte :=
  m ++ [0x80#8] ++ List.replicate ((128 - (m.length + 17) % 128) % 128) 0#8 ++ bytesOfBE 16 (8 * m.length)

/-- SHA-384 of a byte string, as 48 bytes. -/
def sha384 (m : List Byte) : List Byte :=
  let p := shaPad m
  ((shaBlocks (p.length / 128) shaIv p).take 6).flatMap (fun w => bytesOfBE 8 w.toNat)

/-- A byte string as a little-endian bit vector: byte 0 in the lowest bits. -/
def packBytes (w : Nat) (bs : List Byte) : BitVec w := BitVec.ofNat w (natOfBytes bs)
/-- SHA-384 as 384 bits, byte 0 in the lowest. -/
def sha384v (m : List Byte) : BitVec 384 := packBytes 384 (sha384 m)

/-! ## HMAC and HKDF -/

def xorBytes (a b : List Byte) : List Byte := List.zipWith (· ^^^ ·) a b

def hmac384 (key m : List Byte) : List Byte :=
  let k := (if key.length ≤ 128 then key else sha384 key)
  let k := k ++ List.replicate (128 - k.length) 0#8
  sha384 (xorBytes k (List.replicate 128 0x5C#8) ++ sha384 (xorBytes k (List.replicate 128 0x36#8) ++ m))

/-- The output blocks of HKDF's expansion from block `i`. -/
def hkdfExpand (prk info : List Byte) : Nat → Nat → List Byte → List Byte
  | 0, _, _ => []
  | n + 1, i, t =>
    let t' := hmac384 prk (t ++ info ++ [BitVec.ofNat 8 i])
    t' ++ hkdfExpand prk info n (i + 1) t'

/-- HKDF-SHA-384 with `len` bytes of output; an empty salt is 48 zero bytes. -/
def hkdf384 (ikm salt info : List Byte) (len : Nat) : List Byte :=
  let prk := hmac384 (if salt.isEmpty then List.replicate 48 0#8 else salt) ikm
  (hkdfExpand prk info ((len + 47) / 48) 1 []).take len

/-! ## AES-256 -/

/-- The AES substitution box, 64 entries to a row, the first in the lowest bits. -/
def aesBox : List (BitVec 512) :=
  [0x75b227ebe28012079a059618c323c7041531d871f1e5a534ccf73f362693fdb7c072a49cafa2d4adf04759fa7dc982ca76abd7fe2b670130c56f6bf27b777c63#512,
   0xd2f3ff1021dab6bcf5389d928f40a351a89f3c507f02f94585334d43fbaaefd0cf584c4a39becb6a5bb1fc20ed00d153842fe329b3d63b52a05a6e1b1a2c8309#512,
   0x8ae7a65eaf4566ca94ed58d6d37c8e779e4959162acd3c25c2406490a3a32e0db0b5ede14b8ee4688902a22dc4f816073195d643d7ea7c41744975fec130ccd#512,
   0x16bb54b00f2d99416842e6bf0d89a18cdf2855cee9871e9b948ed9691198f8e19e1dc186b95735610ef6034866b53e708a8bbd4b1f74dde8c6b4a61c2e2578ba#512]
def aesSub (b : Byte) : Byte := fld (aesBox.getD (b.toNat / 64) 0#512) (8 * (b.toNat % 64)) 8
/-- Multiply by x in the AES field. -/
def aesX (b : Byte) : Byte := if b.getLsbD 7 then (b <<< 1) ^^^ 0x1B#8 else b <<< 1

/-- The key schedule: `k` more four-byte words after those in `w`, newest first; `n` words so far, `rc` the round constant. -/
def aesExpand : Nat → Nat → Byte → List (List Byte) → List (List Byte)
  | 0, _, _, w => w
  | k + 1, n, rc, w =>
    let last := w.getD 0 []
    let t := if n % 8 = 0 then xorBytes ((last.drop 1 ++ last.take 1).map aesSub) [rc, 0#8, 0#8, 0#8]
             else if n % 8 = 4 then last.map aesSub else last
    aesExpand k (n + 1) (if n % 8 = 0 then aesX rc else rc) (xorBytes (w.getD 7 []) t :: w)

/-- Consecutive `k`-byte parts. -/
def parts (k : Nat) : Nat → List Byte → List (List Byte)
  | 0, _ => []
  | n + 1, bs => bs.take k :: parts k n (bs.drop k)

/-- The fifteen round keys of a 32-byte key. -/
def aesKeys (key : List Byte) : List (List Byte) :=
  let w := (aesExpand 52 8 1#8 (parts 4 8 key).reverse).reverse
  parts 16 15 w.flatten

/-- ShiftRows on a column-major state. -/
def aesShift (s : List Byte) : List Byte := (List.range 16).map (fun i => s.getD ((i + 4 * (i % 4)) % 16) 0#8)
/-- MixColumns on one column. -/
def aesMixCol (c : List Byte) : List Byte :=
  match c with
  | [a, b, d, e] =>
    let t := a ^^^ b ^^^ d ^^^ e
    [a ^^^ t ^^^ aesX (a ^^^ b), b ^^^ t ^^^ aesX (b ^^^ d), d ^^^ t ^^^ aesX (d ^^^ e), e ^^^ t ^^^ aesX (e ^^^ a)]
  | _ => c
def aesRounds : List (List Byte) → List Byte → List Byte
  | [], s => s
  | [k], s => xorBytes (aesShift (s.map aesSub)) k
  | k :: ks, s => aesRounds ks (xorBytes ((parts 4 4 (aesShift (s.map aesSub))).map aesMixCol).flatten k)

/-- One block under expanded round keys. -/
def aesBlock (ks : List (List Byte)) (b : List Byte) : List Byte :=
  match ks with
  | [] => b
  | k :: rest => aesRounds rest (xorBytes b k)

/-- A byte string filled with zeros to a whole number of 16-byte blocks. -/
def pad16 (bs : List Byte) : List Byte := bs ++ List.replicate ((16 - bs.length % 16) % 16) 0#8

/-- CBC-MAC over whole blocks. -/
def cbcMac (ks : List (List Byte)) (bs : List Byte) : List Byte :=
  (parts 16 (bs.length / 16) bs).foldl (fun t b => aesBlock ks (xorBytes t b)) (List.replicate 16 0#8)

/-- Counter mode over the counter blocks `ctr 1`, `ctr 2`, ... -/
def ctrMode (ks : List (List Byte)) (ctr : Nat → List Byte) (m : List Byte) : List Byte :=
  xorBytes m ((List.range ((m.length + 15) / 16)).flatMap (fun i => aesBlock ks (ctr (i + 1))))

/-! ## CCM -/

/-- Counter block `i` of CCM. -/
def ccmCtr (nonce : List Byte) (i : Nat) : List Byte :=
  [BitVec.ofNat 8 (14 - nonce.length)] ++ nonce ++ bytesOfBE (15 - nonce.length) i
/-- The tag of `tl` bytes, masked. -/
def ccmTag (ks : List (List Byte)) (nonce aad m : List Byte) (tl : Nat) : List Byte :=
  let b0 := [BitVec.ofNat 8 ((if aad.isEmpty then 0 else 64) + (tl - 2) / 2 * 8 + (14 - nonce.length))] ++ nonce
    ++ bytesOfBE (15 - nonce.length) m.length
  let a := if aad.isEmpty then [] else pad16 (bytesOfBE 2 aad.length ++ aad)
  (xorBytes (cbcMac ks (b0 ++ a ++ pad16 m)) (aesBlock ks (ccmCtr nonce 0))).take tl
def ccmSeal (key nonce aad m : List Byte) (tl : Nat) : List Byte :=
  let ks := aesKeys key
  ctrMode ks (ccmCtr nonce) m ++ ccmTag ks nonce aad m tl
/-- The plaintext where the tag verifies. -/
def ccmOpen (key nonce aad ct tag : List Byte) : Option (List Byte) :=
  let ks := aesKeys key
  let m := ctrMode ks (ccmCtr nonce) ct
  if ccmTag ks nonce aad m tag.length = tag then some m else none

/-! ## GCM -/

/-- Multiplication in GCM's field, bit `127 - i` of a block standing for x^i. -/
def gfMulFrom (y : BitVec 128) : Nat → BitVec 128 → BitVec 128 → BitVec 128
  | 0, _, z => z
  | n + 1, v, z =>
    gfMulFrom y n (if v.getLsbD 0 then (v >>> 1) ^^^ (0xE1#128 <<< 120) else v >>> 1) (if y.getLsbD n then z ^^^ v else z)
def gfMul (x y : BitVec 128) : BitVec 128 := gfMulFrom y 128 x 0#128
def ghash (h : BitVec 128) (bs : List Byte) : BitVec 128 :=
  (parts 16 (bs.length / 16) bs).foldl (fun t b => gfMul (t ^^^ BitVec.ofNat 128 (natOfBE b)) h) 0#128
/-- Counter block `i` with a 12-byte nonce; block 1 masks the tag. -/
def gcmCtr (nonce : List Byte) (i : Nat) : List Byte := nonce ++ bytesOfBE 4 (i + 1)
def gcmTag (ks : List (List Byte)) (nonce aad ct : List Byte) (tl : Nat) : List Byte :=
  let h : BitVec 128 := BitVec.ofNat 128 (natOfBE (aesBlock ks (List.replicate 16 0#8)))
  let s := ghash h (pad16 aad ++ pad16 ct ++ bytesOfBE 8 (8 * aad.length) ++ bytesOfBE 8 (8 * ct.length))
  (xorBytes (bytesOfBE 16 s.toNat) (aesBlock ks (gcmCtr nonce 0))).take tl
def gcmSeal (key nonce aad m : List Byte) : List Byte × List Byte :=
  let ks := aesKeys key
  let ct := ctrMode ks (gcmCtr nonce) m
  (ct, gcmTag ks nonce aad ct 16)
def gcmOpen (key nonce aad ct tag : List Byte) : Option (List Byte) :=
  let ks := aesKeys key
  if gcmTag ks nonce aad ct tag.length = tag then some (ctrMode ks (gcmCtr nonce) ct) else none

/-! ## P-384 -/

def p384P : Nat := 0xfffffffffffffffffffffffffffffffffffffffffffffffffffffffffffffffeffffffff0000000000000000ffffffff
def p384N : Nat := 0xffffffffffffffffffffffffffffffffffffffffffffffffc7634d81f4372ddf581a0db248b0a77aecec196accc52973
def p384B : Nat := 0xb3312fa7e23ee7e4988e056be3f82d19181d9c6efe8141120314088f5013875ac656398d8a2ed19d2a85c8edd3ec2aef
/-- The base point. -/
def p384G : Nat × Nat := (0xaa87ca22be8b05378eb1c71ef320ad746e1d3b628ba79b9859f741e082542a385502f25dbf55296c3a545e3872760ab7,
  0x3617de4a96262c6f5d9e98bf9292dc29f8f41dbd289a147ce9da3113b5f0b8c00a60b1ce1d7e819d7a431d7c90ea0e5f)

/-- Euclid's algorithm on `a`, `b` modulo m, `t` and `u` their factors. -/
def invModFrom (m : Nat) : Nat → Nat → Nat → Nat → Nat → Nat
  | 0, _, _, t, _ => t
  | k + 1, a, b, t, u => if b = 0 then t else invModFrom m k b (a % b) u ((t + (m - a / b % m) * u) % m)
/-- The inverse modulo a prime of at most 384 bits; 0 for 0. -/
def invMod (a m : Nat) : Nat := invModFrom m 560 m (a % m) 0 1

/-- A point as x/z², y/z³ modulo p; z = 0 is the point at infinity. -/
structure JPoint where
  x : Nat
  y : Nat
  z : Nat
deriving DecidableEq, Repr

/-- a - b modulo p, for b below p. -/
def subP (a b : Nat) : Nat := (a + (p384P - b)) % p384P
/-- Twice a point. -/
def ecDbl (p : JPoint) : JPoint :=
  let yy := p.y * p.y % p384P
  let zz := p.z * p.z % p384P
  let s := 4 * p.x * yy % p384P
  let m := 3 * (p.x + zz) * subP p.x zz % p384P
  let x := subP (m * m) (2 * s % p384P)
  ⟨x, subP (m * subP s x) (8 * yy * yy % p384P), 2 * p.y * p.z % p384P⟩
/-- A point and a point given as x, y. -/
def ecAdd (p : JPoint) (q : Nat × Nat) : JPoint :=
  let zz := p.z * p.z % p384P
  let h := subP (q.1 * zz) p.x
  let r := subP (q.2 * (zz * p.z % p384P)) p.y
  if p.z = 0 then ⟨q.1, q.2, 1⟩
  else if h = 0 then (if r = 0 then ecDbl p else ⟨1, 1, 0⟩)
  else
    let hh := h * h % p384P
    let hhh := hh * h % p384P
    let v := p.x * hh % p384P
    let x := subP (r * r) ((hhh + 2 * v) % p384P)
    ⟨x, subP (r * subP v x) (p.y * hhh % p384P), p.z * h % p384P⟩
def ecMulFrom (q : Nat × Nat) (k : Nat) : Nat → JPoint → JPoint
  | 0, r => r
  | n + 1, r => ecMulFrom q k n (if k.testBit n then ecAdd (ecDbl r) q else ecDbl r)
/-- A multiple of a point. -/
def ecMul (k : Nat) (q : Nat × Nat) : JPoint := ecMulFrom q k 384 ⟨1, 1, 0⟩
/-- The coordinates of a point; none at infinity. -/
def JPoint.affine (p : JPoint) : Option (Nat × Nat) :=
  let i := invMod p.z p384P
  if p.z = 0 then none else some (p.x * (i * i % p384P) % p384P, p.y * (i * i % p384P * i % p384P) % p384P)
def ecOn (x y : Nat) : Bool := decide (x < p384P ∧ y < p384P ∧ y * y % p384P = (x * x * x + (p384P - 3) * x + p384B) % p384P)

/-- The ECDSA P-384 check of a signature r, s (48 bytes each) over a 48-byte hash with a public key x, y (48 bytes each). -/
def ecdsaOk (pub sig hash : List Byte) : Bool :=
  let x := natOfBE (pub.take 48)
  let y := natOfBE ((pub.drop 48).take 48)
  let r := natOfBE (sig.take 48)
  let s := natOfBE ((sig.drop 48).take 48)
  let w := invMod s p384N
  decide (0 < r ∧ r < p384N ∧ 0 < s ∧ s < p384N) && ecOn x y &&
    (let a := ecMul (natOfBE hash * w % p384N) p384G;
      match (match (ecMul (r * w % p384N) (x, y)).affine with | some b => ecAdd a b | none => a).affine with
      | some (px, _) => decide (px % p384N = r)
      | none => false)

end Sys2Proof.Machine
end

