-- ==== Sys2Proof/Machine/Sec.lean ====
section
/-! DEFINITION. Chuck, the SEC unit (14_vault.md): slots, key table, key-write sequence, measurement registers, attestation and
the crypto instructions (R53, R54). -/

namespace Sys2Proof.Machine
open Sys2Proof

namespace Reg
abbrev cfgCur : Nat := 0x190000
abbrev secKpol : Nat := 0x1A0028
abbrev secKfrom : Nat := 0x1A002C
abbrev secKcmd : Nat := 0x1A0030
abbrev secAtaddr : Nat := 0x1A01A4
end Reg

/-- The bytes of an ASCII string. -/
def ascii (t : String) : List Byte := t.toList.map (fun c => BitVec.ofNat 8 c.toNat)

/-! ## Derived keys -/

def Sec.derive (x : Sec) (info : String) (n : Nat) : List Byte := hkdf384 (bytesOf 32 x.huk) [] (ascii info) n
def Sec.tagKey (x : Sec) : BitVec 256 := packBytes 256 (x.derive "LNS-ST" 32)
def Sec.tableKey (x : Sec) : List Byte := x.derive "LNS-KT" 32
/-- The identity scalar. -/
def Sec.scalar (x : Sec) : Nat := natOfBE (x.derive "LNS-ID" 64) % (p384N - 1) + 1
/-- The identity public key, x then y, 48 bytes each, big-endian. -/
def Sec.idpub (x : Sec) : List Byte :=
  match (ecMul x.scalar p384G).affine with
  | some (a, c) => bytesOfBE 48 a ++ bytesOfBE 48 c
  | none => List.replicate 96 0#8

/-! ## Slots (R332, Table 14.1) -/

inductive SlotState where
  | empty | active | retired | bad
deriving DecidableEq, Repr

def SlotState.code : SlotState → Nat
  | .empty => 0 | .active => 1 | .retired => 2 | .bad => 3

def Sec.slot (x : Sec) (k : Nat) : Slot := Tab.get {} x.slots k
def Sec.setSlot (x : Sec) (k : Nat) (v : Slot) : Sec := { x with slots := Tab.set {} x.slots k v }
def Sec.tagOf (x : Sec) (k : Nat) (v : Slot) : BitVec 128 := Config.slotTag x.tagKey v.key v.policy k
/-- The state of slot `k`. -/
def Sec.slotState (x : Sec) (k : Nat) : SlotState :=
  let v := x.slot k
  if v.bad then .bad
  else if !v.prog then .empty
  else if !v.commit || decide (v.tag ≠ x.tagOf k v) then .bad
  else if v.retire then .retired else .active

/-- A check of slot `k`: one found BAD stays BAD, and event 0x1A01 records it once (R332). -/
def State.slotCheck (k : Nat) (s : State) : State :=
  let v := s.sec.slot k
  if decide (s.sec.slotState k = .bad) && !v.bad then
    State.event 0x1A01 (BitVec.ofNat 32 k) { s with sec := s.sec.setSlot k { v with bad := true } }
  else s

/-- TYPE [31:28], USERS [27:23], OPEN [22], SEAL [21], ROLE [20:18] of a policy word (R333, Table 14.2). -/
def polType (p : W32) : Nat := (fld p 28 4).toNat
def polUsers (p : W32) : BitVec 5 := fld p 23 5
def polOpen (p : W32) : Bool := bit p 22
def polSeal (p : W32) : Bool := bit p 21

/-! ## The key table (R334 to R336) -/

/-- The address of the newer or older generation of an entry. -/
def State.ktAddr (s : State) (idx : Nat) (older : Bool) : Nat := s.reg2 Reg.secKtbase + 128 * idx + (if older then 64 else 0)
def State.ktHalf (s : State) (idx : Nat) (older : Bool) : Item := BitVec.ofNat 512 (s.ramNat (s.ktAddr idx older) 64)
def ktFrom (h : Item) : Nat := (fld h 0 32).toNat
def ktGen (h : Item) : Byte := fld h 32 8
def ktValid (h : Item) : Bool := bit h 40
def ktOpen (h : Item) : Bool := bit h 41
def ktSeal (h : Item) : Bool := bit h 42
def ktUsers (h : Item) : BitVec 5 := fld h 48 5
def ktCtr (h : Item) : Word := fld h 64 64
/-- The nonce of a generation: index, GEN, a zero byte, CTR (R335). -/
def ktNonce (idx : Nat) (gen : Byte) (ctr : Word) : List Byte := bytesOfNat 2 idx ++ [gen, 0#8] ++ bytesOf 8 ctr
/-- The AAD of a generation: bytes 0-15 of the half, then the index (R335). -/
def ktAad (idx : Nat) (h : Item) : List Byte := bytesOfNat 16 h.toNat ++ bytesOfNat 2 idx

/-- The generation an epoch selects: true the older (R336). -/
def State.ktSelect (s : State) (idx e : Nat) : Option Bool :=
  let n := s.ktHalf idx false
  let o := s.ktHalf idx true
  if ktValid n && decide (ktFrom n ≤ e) then some false
  else if ktValid o && decide (ktFrom o ≤ e) then some true
  else none

/-- The cached key of a generation, where Chuck holds it decrypted as it stands in the table (R336). -/
def State.ktCached (s : State) (idx : Nat) (h : Item) : Option (List Byte) :=
  (s.sec.cache.find? (fun c => decide (c.1 = idx) && decide (c.2.1 = h))).map (fun c => bytesOf 32 c.2.2)

/-- A generation just decrypted joins the cache; which of 1,024 it displaces is not given, and no result depends on it (R336; log
entry 25). -/
def State.ktCache (idx : Nat) (h : Item) (key : List Byte) (s : State) : State :=
  if (s.ktCached idx h).isSome then s
  else { s with sec := { s.sec with cache := ((idx, h, BitVec.ofNat 256 (natOfBytes key)) :: s.sec.cache).take 1024 } }

/-- The key of a generation, where its line and its tag verify. -/
def State.ktKey (s : State) (idx : Nat) (older : Bool) : Option (List Byte) :=
  let h := s.ktHalf idx older
  if s.poisoned (s.ktAddr idx older / 64) then none
  else if (s.ktCached idx h).isSome then s.ktCached idx h
  else gcmOpen s.sec.tableKey (ktNonce idx (ktGen h) (ktCtr h)) (ktAad idx h) (bytesOf 32 (fld h 128 256)) (bytesOf 16 (fld h 384 128))

/-! ## Crypto calls -/

/-- The key a handle gives to a caller: the status, the key, and GEN where a generation was selected (R334, R336). -/
structure KeyLook where
  st  : Status
  key : List Byte
  gen : Byte
deriving DecidableEq, Repr

/-- The USERS bit of a caller (Table 14.2). -/
def userBit (w : Who) : Nat := match w with | .thread t => t.val / 32 | .sup => 4

/-- The key look-up of a crypto call; `open_` asks for OPEN, else SEAL (R330, R332, R334, R336). -/
def State.keyLook (w : Who) (handle e : Nat) (open_ : Bool) (s : State) : KeyLook × State :=
  let no (st : Status) (g : Byte) : KeyLook := ⟨st, [], g⟩
  if handle / 2 ^ 14 = 0 then
    let k := handle % 64
    if decide (handle / 64 ≠ 0) || decide (s.sec.life = 2) then (no .denied 0#8, s)
    else
      let s := s.slotCheck k
      let v := s.sec.slot k
      match s.sec.slotState k with
      | .bad => (no .slotBad 0#8, s)
      | .empty => (no .denied 0#8, s)
      | .retired => (no .denied 0#8, s)
      | .active =>
        if decide (polType v.policy = 0) && bit (polUsers v.policy) (userBit w) && (if open_ then polOpen v.policy else polSeal v.policy) then
          (⟨.ok, bytesOf 32 v.key, 0#8⟩, s)
        else (no .denied 0#8, s)
  else if handle / 2 ^ 14 = 1 then
    let idx := handle % 2 ^ 14
    if s.sec.life = 2 then (no .denied 0#8, s)
    else match s.ktSelect idx e with
    | none => (no .denied 0#8, s)
    | some older =>
      let h := s.ktHalf idx older
      if bit (ktUsers h) (userBit w) && (if open_ then ktOpen h else ktSeal h) then
        match s.ktKey idx older with
        | some key => (⟨.ok, key, ktGen h⟩, s.ktCache idx h key)
        | none => (no .slotBad (ktGen h), State.event 0x1A03 (BitVec.ofNat 32 (idx + if older then 65536 else 0)) s)
      else (no .denied (ktGen h), s)
  else (no .denied 0#8, s)

/-- A crypto parameter block (Table 2.13). -/
structure CryptBlk where
  handle : Nat
  nl : Nat
  tl : Nat
  aad : Nat
  al : Nat
  dat : Nat
  dl : Nat
  out : Nat
  rsv : Nat
  nonce : List Byte
deriving DecidableEq, Repr

/-- The parameter block at a scratch address. -/
def Thread.cryptBlk (t : Thread) (a : Nat) : CryptBlk :=
  ⟨t.scrNat a 2, t.scrNat (a + 2) 1, t.scrNat (a + 3) 1, t.scrNat (a + 4) 2, t.scrNat (a + 6) 2, t.scrNat (a + 8) 2,
   t.scrNat (a + 10) 2, t.scrNat (a + 12) 2, t.scrNat (a + 14) 2, t.scr (a + 16) (t.scrNat (a + 2) 1)⟩

/-- The configuration epoch in cw3; the supervisor has no item, and what it would use is free (log entry 25). -/
def State.cw3 (w : Who) (s : State) : W32 × State :=
  match w with
  | .thread t => ((s.thread t.val).iepoch, s)
  | .sup => s.draw 32

/-- The status and GEN a crypto call leaves in gd and USTAT (R54). -/
def cryptDone (w : Who) (rd : GReg) (st : Status) (gen : Byte) (s : State) : GRes :=
  .go (s.putMe w ((((s.me w).ustatStatus st.code).ustatGen gen).setG rd st.word))

/-- An AEAD call: lengths first, then the key, then the operation (R53, R54; the order is DESIGN CHOICE, log entry 25). A block whose
reserved bytes 14-15 are not zero breaks Table 2.13 and answers OUT_OF_RANGE (DESIGN CHOICE, log entry 25). -/
def aead (x : Ix) (rd ra : GReg) (open_ : Bool) (okLen : CryptBlk → Bool)
    (f : CryptBlk → List Byte → List Byte → List Byte → List Byte → Option (List Byte)) : State → Answer :=
  garnil x (fun s =>
    let t := s.me x.who
    let a := (t.getG ra).toNat
    if !scrOk a 32 then .fault .illegal .ok
    else
      let k := t.cryptBlk a
      let okL := okLen k && decide (k.al ≤ 1024) && decide (k.dl ≤ 4096) && decide (k.rsv = 0)
      let inLen := k.dl + (if open_ then k.tl else 0)
      let outLen := k.dl + (if open_ then 0 else k.tl)
      if okL && !(scrOk k.aad k.al && scrOk k.dat inLen && scrOk k.out outLen) then .fault .illegal .ok
      else
        let (e, s) := s.cw3 x.who
        let (l, s) := s.keyLook x.who k.handle e.toNat open_
        let s := s
        if !okL then cryptDone x.who rd .outOfRange l.gen s
        else if l.st ≠ .ok then cryptDone x.who rd l.st l.gen s
        else
          match f k l.key (t.scr k.aad k.al) (t.scr k.dat k.dl) (t.scr (k.dat + k.dl) k.tl) with
          | some out => cryptDone x.who rd .ok l.gen (s.putMe x.who ((s.me x.who).putScr k.out out))
          | none => cryptDone x.who rd .integrity l.gen (s.putMe x.who ((s.me x.who).putScr k.out (List.replicate k.dl 0#8))))

/-- CCM's lengths (Table 2.13). -/
def ccmLens (k : CryptBlk) : Bool := decide (7 ≤ k.nl ∧ k.nl ≤ 13) && decide (k.tl ∈ [4, 8, 12, 16])
/-- GCM's lengths (Table 2.13). -/
def gcmLens (k : CryptBlk) : Bool := decide (k.nl = 12) && decide (k.tl ∈ [12, 16])

def execCcmopen (x : Ix) (rd ra : GReg) (s : State) : Answer :=
  aead x rd ra true ccmLens (fun k key aad dat tag => ccmOpen key k.nonce aad dat tag) s
def execCcmseal (x : Ix) (rd ra : GReg) (s : State) : Answer :=
  aead x rd ra false ccmLens (fun k key aad dat _ => some (ccmSeal key k.nonce aad dat k.tl)) s
def execGcmopen (x : Ix) (rd ra : GReg) (s : State) : Answer :=
  aead x rd ra true gcmLens (fun k key aad dat tag => gcmOpen key k.nonce aad dat tag) s

/-- HASH: SHA-384 of the data, 48 bytes to the output (Table 2.13, Table 2.14). It ignores the handle, not the lengths. -/
def execHash (x : Ix) (rd ra : GReg) (s : State) : Answer :=
  garnil x (fun s =>
    let t := s.me x.who
    let a := (t.getG ra).toNat
    if !scrOk a 32 then .fault .illegal .ok
    else
      let k := t.cryptBlk a
      if decide (4096 < k.dl) || decide (1024 < k.al) || decide (k.rsv ≠ 0) then cryptDone x.who rd .outOfRange 0#8 s
      else if scrOk k.dat k.dl && scrOk k.out 48 then
        cryptDone x.who rd .ok 0#8 (s.putMe x.who (t.putScr k.out (sha384 (t.scr k.dat k.dl))))
      else .fault .illegal .ok) s

/-! ## Measurement registers (R341, R342) -/

def Sec.mr (x : Sec) (n : Nat) : BitVec 384 := Tab.get 0#384 x.mrs n
/-- Extend MRn with a 48-byte measurement. -/
def State.mrExtend (n : Nat) (m : BitVec 384) (s : State) : State :=
  { s with sec := { s.sec with mrs := Tab.set 0#384 s.sec.mrs n (sha384v (bytesOf 48 (s.sec.mr n) ++ bytesOf 48 m)) } }

/-- The secure initiators (R331). -/
def State.secure (s : State) (i : Init) : Bool :=
  decide (i = .sup) || i.heartwood || (decide (s.sec.life = 0) && (decide (i = .host) || decide (i = .spi)))

/-! ## The key-write sequence (R338 to R340) -/

/-- The parameters of one SEC_KCMD write. -/
structure KCmd where
  op : Nat
  parent : Nat
  dst : Nat
  src : Nat
  pol : W32
  from_ : W32
deriving DecidableEq, Repr

/-- The commands of a list of SEQ writes, each with the parameter values written before it. -/
def kcmds : List (Nat × W32) → (Nat → W32) → List KCmd
  | [], _ => []
  | (o, v) :: ws, r =>
    let r' : Nat → W32 := fun a => if a = o then v else r a
    if o = Reg.secKcmd then
      ⟨(fld v 28 4).toNat, (fld v 22 6).toNat, (fld v 0 16).toNat, (r 0x1A0020).toNat + 2 ^ 32 * (r 0x1A0024).toNat,
        r Reg.secKpol &&& 0xFFFC0000#32, r Reg.secKfrom⟩ :: kcmds ws r'
    else kcmds ws r'

/-- The command's destination is a key-table entry. -/
def KCmd.table (c : KCmd) : Bool := decide (c.dst / 2 ^ 14 = 1)
def KCmd.index (c : KCmd) : Nat := c.dst % 2 ^ 14
def KCmd.slot (c : KCmd) : Nat := c.dst % 64
/-- The command writes a slot's OTP cells. -/
def KCmd.otp (c : KCmd) : Bool := !c.table || decide (c.op = 5)

/-- The AAD of an IMPORT: KPOL, DST, KFROM, little-endian (Table 14.5). -/
def KCmd.aad (c : KCmd) : List Byte := bytesOf 4 c.pol ++ bytesOfNat 2 c.dst ++ bytesOf 4 c.from_

/-- The key a command makes, or the status it refuses with (Tables 14.5 and 14.6, R339). -/
def State.kKey (s : State) (c : KCmd) : Status × List Byte :=
  let pk := bytesOf 32 (s.sec.slot c.parent).key
  if c.op = 1 then s.ramRead c.src 32
  else if c.op = 2 then
    match s.ramRead c.src 60 with
    | (.ok, bs) =>
      match gcmOpen pk (bs.take 12) c.aad ((bs.drop 12).take 32) (bs.drop 44) with
      | some k => (.ok, k)
      | none => (.integrity, [])
    | (st, _) => (st, [])
  else if c.op = 3 then
    match s.ramRead c.src 2 with
    | (.ok, [sl, il]) =>
      if 64 < sl.toNat ∨ 64 < il.toNat then (.outOfRange, [])
      else match s.ramRead (c.src + 2) (sl.toNat + il.toNat) with
        | (.ok, bs) => (.ok, hkdf384 pk (bs.take sl.toNat) (bs.drop sl.toNat) 32)
        | (st, _) => (st, [])
    | (st, _) => (st, [])
  else (.ok, [])

/-- The checks of Table R339 on one command, in the table's order; a BAD slot answers SLOT_BAD. -/
def State.kCheck (s : State) (c : KCmd) : Status :=
  let dstSt := s.sec.slotState c.slot
  let parSt := s.sec.slotState c.parent
  let needs (ty : Nat) : Bool := decide (parSt = .active) && decide (polType (s.sec.slot c.parent).policy = ty)
  let dstForm := c.table || decide (c.dst < 64)
  let active3 (k : Nat) : Bool := decide (s.sec.slotState k = .active) && decide (polType (s.sec.slot k).policy = 3)
  let usesParent := decide (c.op = 2 ∨ c.op = 3)
  if c.op = 0 ∨ 5 < c.op then .denied
  else if c.op = 5 then
    let n := c.dst % 4
    if s.sec.life < n ∧ n ≤ 2 ∧ (n ≠ 1 ∨ (active3 0 && active3 1) = true) then .ok else .denied
  else if !dstForm then .denied
  else if (usesParent && decide (parSt = .bad)) || (!c.table && decide (dstSt = .bad)) then .slotBad
  else if decide (c.op ≠ 4) && (decide (3 < polType c.pol) || (c.table && decide (polType c.pol ≠ 0))) then .denied
  else if !c.table && decide (dstSt ≠ (if c.op = 4 then SlotState.active else SlotState.empty)) then .denied
  else if decide (c.op = 1) && decide (s.sec.life ≠ 0) then .denied
  else if (decide (c.op = 2) && !needs 2) || (decide (c.op = 3) && !needs 1) then .denied
  else if (s.kKey c).1 ≠ .ok ∧ (s.kKey c).1 ≠ .outOfRange then (s.kKey c).1
  else if c.table && decide (c.from_.toNat ≤ s.cfg.cur.toNat) then .outOfRange
  else (s.kKey c).1

/-- Write a key-table generation (R335, R338): `valid` false for a RETIRE, whose key and tag bytes are free. -/
def State.ktWrite (c : KCmd) (key : List Byte) (valid : Bool) (s : State) : State :=
  let idx := c.index
  let n := s.ktHalf idx false
  let ctr := s.evr.nonce + 1#64
  let s := { s with evr := { s.evr with nonce := ctr } }
  let gen := ktGen n + 1#8
  let flags := (if valid then 1 else 0) + (if polOpen c.pol then 2 else 0) + (if polSeal c.pol then 4 else 0) + (fld c.pol 18 3).toNat * 8
  let h : Item := setFld (setFld (setFld (setFld (setFld (0#512 : Item) 0 c.from_) 32 gen) 40 (BitVec.ofNat 8 flags)) 48 (polUsers c.pol)) 64 ctr
  let (h, s) :=
    if valid then
      let (ct, tag) := gcmSeal s.sec.tableKey (ktNonce idx gen ctr) (ktAad idx h) key
      ((setFld (setFld h 128 (packBytes 256 ct)) 384 (packBytes 128 tag) : Item), s)
    else
      let (f, s) := s.draw 384
      ((setFld h 128 f : Item), s)
  let s := if ktFrom n ≤ s.cfg.cur.toNat then (s.ramWrite (s.ktAddr idx true) (bytesOf 64 n)).2 else s
  (s.ramWrite (s.ktAddr idx false) (bytesOf 64 h)).2

/-- Apply one command that has passed its checks, extend MR5 and record its event (R338, R340, R342). -/
def State.kApply (c : KCmd) (s : State) : State :=
  let key := (s.kKey c).2
  let s :=
    if c.op = 5 then State.event 0x1A04 (BitVec.ofNat 32 (c.dst % 4)) { s with sec := { s.sec with
        life := c.dst % 4
        cache := if c.dst % 4 = 2 then [] else s.sec.cache } }
    else if c.table then s.ktWrite c key (decide (c.op ≠ 4))
    else
      let v := s.sec.slot c.slot
      if c.op = 4 then { s with sec := s.sec.setSlot c.slot { v with retire := true } }
      else
        let v : Slot := { key := packBytes 256 key, policy := c.pol, commit := true, prog := true }
        { s with sec := s.sec.setSlot c.slot { v with tag := s.sec.tagOf c.slot v } }
  let s := s.mrExtend 5 (sha384v (bytesOfNat 1 c.op ++ bytesOfNat 2 c.dst ++ bytesOf 4 c.pol ++ bytesOf 4 c.from_ ++ bytesOfNat 1 s.sec.life))
  s.event 0x1A02 (BitVec.ofNat 32 (c.op * 2 ^ 28 + c.dst))

/-- Check the commands in order, each against the state the earlier ones leave; the state after all of them. -/
def State.kRun : List KCmd → State → Status × State
  | [], s => (.ok, s)
  | c :: cs, s =>
    let st := s.kCheck c
    if st = .ok then State.kRun cs (s.kApply c) else (st, s)

/-- The slots a list of commands checks, as R332's check at use records them. -/
def State.kProbe (cs : List KCmd) (s : State) : State :=
  cs.foldl (fun s c =>
    let s := if c.op = 2 ∨ c.op = 3 then s.slotCheck c.parent else s
    if c.table || decide (c.op = 5) then s else s.slotCheck c.slot) s

/-- A close with apply of sequence 0x0001: refused whole, applied at once where no OTP cell is written, else begun and
applied when programming ends (R339). The flag says that the close still programs. -/
def seqApplySec (i : Init) (ws : List (Nat × W32)) (s : State) : Status × Bool × State :=
  let cs := kcmds ws s.reg
  let s := s.kProbe cs
  let (st, s') := s.kRun cs
  if st ≠ .ok then (st, false, s)
  else if cs.any (·.otp) then (.ok, true, { s with sec := { s.sec with otp := some (i, ws) } })
  else (.ok, false, ws.foldl (fun s p => s.setReg p.1 p.2) s')

/-- The end of OTP programming: every command applies, in order. -/
def State.otpApply (s : State) : State :=
  match s.sec.otp with
  | none => s
  | some (_, ws) =>
    let s := (kcmds ws s.reg).foldl (fun s c => s.kApply c) { s with sec := { s.sec with otp := none } }
    ws.foldl (fun s p => s.setReg p.1 p.2) s

/-- The commands before the `k`-th one that writes OTP cells, and that one. -/
def splitOtp : Nat → List KCmd → List KCmd × Option KCmd
  | _, [] => ([], none)
  | k, c :: cs =>
    if c.otp then
      match k with
      | 0 => ([], some c)
      | k + 1 => let r := splitOtp k cs; (c :: r.1, r.2)
    else let r := splitOtp k cs; (c :: r.1, r.2)

/-- Power lost while OTP is programmed: which slot was being programmed is free; the earlier commands stand, its slot is BAD,
the later ones are not applied (R339). -/
def State.otpLost (s : State) : State :=
  match s.sec.otp with
  | none => s
  | some (_, ws) =>
    let (d, s) := s.draw 6
    let cs := kcmds ws s.reg
    let n := (cs.filter (·.otp)).length
    let (done, cur) := splitOtp (d.toNat % max n 1) cs
    let s := done.foldl (fun s c => s.kApply c) { s with sec := { s.sec with otp := none } }
    match cur with
    | some c =>
      if c.op = 5 then s
      else if c.op = 4 then { s with sec := s.sec.setSlot c.slot { s.sec.slot c.slot with commit := false } }
      else { s with sec := s.sec.setSlot c.slot { key := packBytes 256 (s.kKey c).2, policy := c.pol, prog := true } }
    | none => s

/-! ## Attestation (R344, R345) -/

/-- The 728-byte statement of the moment, with its signature (Table 14.7). -/
def State.statement (s : State) : List Byte × State :=
  let x := s.sec
  let nonce := (List.range 8).flatMap (fun k => bytesOf 4 (s.reg (0x1A0184 + 4 * k)))
  let flags := (if s.tinv then 1 else 0) + (if s.evr.sealLow then 2 else 0) + (if s.evr.coverLow then 4 else 0) + (if x.fail then 8 else 0)
  let slots := (List.range 32).map (fun k => BitVec.ofNat 8 ((x.slotState (2 * k)).code + 16 * (x.slotState (2 * k + 1)).code))
  let body := [1#8, BitVec.ofNat 8 x.life] ++ bytesOfNat 2 s.device ++ bytesOf 4 s.cfg.cur
    ++ bytesOf 12 (if s.tinv then 0#96 else s.stampNow) ++ bytesOfNat 4 flags ++ bytesOf 16 s.sys.serial ++ x.idpub
    ++ (List.range 8).flatMap (fun n => bytesOf 48 (x.mr n))
    ++ bytesOf 48 (if s.ldg.hwRun then s.ldg.chkv else 0#384) ++ nonce ++ slots
  let sig := Config.ecdsaSig (BitVec.ofNat 384 x.scalar) (sha384v body) s.freeCtr
  (body ++ bytesOf 96 sig, { s with freeCtr := s.freeCtr + 1 })

/-- Store a base register with the bits below its alignment clear. -/
def acceptAligned (n : Nat) (r : RegRow) (o v : Nat) (s : State) : Status × State := accept r o (v - v % n) s

/-- Writes of the SEC window (R331, R334, R342, R344). -/
def writeSec : UnitWrite := fun i r o v s =>
  let att := decide (0x1A0180 ≤ o)
  if !att && !s.secure i then refuse .denied s
  else if o = 0x1A0008 then
    (.ok, if s.sec.stage < vf v 0 2 then { s with sec := { s.sec with stage := vf v 0 2 } } else s)
  else if o = Reg.secKtbase then acceptAligned (2 * 2 ^ 20) r o v s
  else if o = 0x1A00B0 then
    if (v = 0 ∧ s.sec.stage = 0) ∨ (v = 1 ∧ s.sec.stage = 1) ∨ v = 7 then
      let m := packBytes 384 ((List.range 12).flatMap (fun k => bytesOf 4 (s.reg (0x1A0080 + 4 * k))))
      (.ok, s.mrExtend v m)
    else refuse .denied s
  else if o = 0x1A0180 then
    if v ≠ 1 then (.ok, s)
    else if s.sec.att.isSome then (.retry, { s with sec := { s.sec with attStatus := .retry } })
    else if s.reg2 Reg.secAtaddr % 8 ≠ 0 then (.ok, { s with sec := { s.sec with attStatus := .outOfRange } })
    else
      let (bs, s) := s.statement
      (.ok, { s with sec := { s.sec with att := some (i, s.reg2 Reg.secAtaddr, bs) } })
  else if att && s.sec.att.isSome then (.retry, { s with sec := { s.sec with attStatus := .retry } })
  else accept r o v s

/-- Reads of the SEC window. -/
def readSec (o : Nat) (s : State) : W32 :=
  let x := s.sec
  if o = 0x1A0000 then BitVec.ofNat 32 x.life
  else if o = 0x1A0004 then BitVec.ofNat 32 (min 63 ((List.range 64).filter (fun k => decide (x.slotState k = .bad))).length)
  else if o = 0x1A0008 then BitVec.ofNat 32 (x.stage + if x.fail then 2 ^ 31 else 0)
  else if 0x1A0044 ≤ o ∧ o < 0x1A0074 then fld (x.mr (s.regF 0x1A0040 0 3)) (8 * (o - 0x1A0044)) 32
  else if 0x1A0100 ≤ o ∧ o < 0x1A0160 then BitVec.ofNat 32 (takeBytes x.idpub (o - 0x1A0100) 4)
  else if o = 0x1A01AC then BitVec.ofNat 32 ((if x.att.isSome then 2 ^ 31 else 0) + x.attStatus.code)
  else s.reg o

/-- A line that a write of `n` bytes at `a` covers only partly is poisoned (R364). -/
def State.partialBad (s : State) (a n : Nat) : Bool :=
  (decide (a % 64 ≠ 0) && s.poisoned (a / 64)) || (decide ((a + n) % 64 ≠ 0) && s.poisoned ((a + n) / 64))

/-- ATTESTATION_DONE: the statement is written with the requester's rights, or nothing of it is (R344). -/
def execAttestationDone (s : State) : Answer :=
  match s.sec.att with
  | none => .next s
  | some (i, a, bs) =>
    if !s.pwr.mainOn then .next s
    else
      let right := if s.fencedInit i then .fenced else s.ramWriteRight i a bs.length
      let part := s.partialBad a bs.length
      let st := if right ≠ .ok then right else if part then .integrity else .ok
      let s := if st = .ok then (s.ramWrite a bs).2 else s
      .next { s with sec := { s.sec with att := none, attStatus := st } }

end Sys2Proof.Machine
end

