-- ==== Sys2Proof/Machine/Ledger.lean ====
section
/-! DEFINITION. The ledger unit (08_ledger.md): registers and their bookings (R59, R192 to R195), local time and calendars (R196 to
R202), load profiles (R203 to R206), rights (R207), tamper counters, the check value and LEGAL_SHOW (R209 to R211). -/

namespace Sys2Proof.Machine
open Sys2Proof

namespace Reg
abbrev ldgCaladdr : Nat := 0x0C0010
abbrev ldgCalcmd : Nat := 0x0C0018
abbrev ldgPcfg : Nat := 0x0C0020
abbrev ldgDispcfg : Nat := 0x0C0024
abbrev ldgSnapaddr : Nat := 0x0C0050
end Reg

/-! ## Local time (R196) -/

/-- A signed little-endian field of `n` bytes. -/
def takeInt (bs : List Byte) (i n : Nat) : Int := (BitVec.ofNat (8 * n) (takeBytes bs i n)).toInt

/-- An offset entry: AT, TAIUTC, ZONE. -/
structure OffEnt where
  at_    : Nat
  taiutc : Int
  zone   : Int
deriving DecidableEq, Repr

/-- The offset entries of an image. -/
def calOffsets (g : List Byte) : List OffEnt :=
  (List.range (takeBytes g 4 1)).map (fun k => ⟨takeBytes g (728 + 16 * k) 8, takeInt g (728 + 16 * k + 8) 4, takeInt g (728 + 16 * k + 12) 4⟩)
/-- The entry in force at TAI second `s`: the largest AT at or below it. -/
def offsetAt (g : List Byte) (s : Nat) : Option OffEnt := (calOffsets g).reverse.find? (fun o => decide (o.at_ ≤ s))

/-- Year, month and day of a day number counted from 1970-01-01, in the Gregorian calendar. -/
def civil (days : Int) : Int × Nat × Nat :=
  let z := days + 719468
  let era := z / 146097
  let doe := (z % 146097).toNat
  let yoe := (doe - doe / 1460 + doe / 36524 - doe / 146096) / 365
  let doy := doe - (365 * yoe + yoe / 4 - yoe / 100)
  let mp := (5 * doy + 2) / 153
  let d := doy - (153 * mp + 2) / 5 + 1
  let m := if mp < 10 then mp + 3 else mp - 9
  (yoe + era * 400 + (if m ≤ 2 then 1 else 0), m, d)

/-! ## Calendars (R197 to R202) -/

/-- DEFRATE and ACTIVATE of an image. -/
def calDefrate (g : List Byte) : Nat := takeBytes g 1 1 % 8
def calActivate (g : List Byte) : Nat := takeBytes g 8 8

/-- The switch points of day profile `p`: minute and rate. -/
def calPoints (g : List Byte) (p : Nat) : List (Nat × Nat) :=
  ((((List.range 12).map (fun j => takeBytes g (88 + 24 * p + 2 * j) 2)).takeWhile (fun v => decide (v ≠ 0xFFFF))).map
    (fun v => (v % 2048, v / 8192)))
/-- Season `i`: month, day, week profile, zero byte. -/
def calSeason (g : List Byte) (i : Nat) : Nat × Nat × Nat × Nat :=
  (takeBytes g (16 + 4 * i) 1, takeBytes g (17 + 4 * i) 1, takeBytes g (18 + 4 * i) 1, takeBytes g (19 + 4 * i) 1)
/-- Special day `i`: year, month, day, day profile. -/
def calSpecial (g : List Byte) (i : Nat) : Nat × Nat × Nat × Nat :=
  (takeBytes g (472 + 4 * i) 2, takeBytes g (474 + 4 * i) 1 % 16, takeBytes g (475 + 4 * i) 1, takeBytes g (474 + 4 * i) 1 / 16)
/-- The day profile of a week profile on a weekday, Monday 0. -/
def calWeek (g : List Byte) (w d : Nat) : Nat := takeBytes g (32 + 7 * w + d) 1
def calSeasons (g : List Byte) : List (Nat × Nat × Nat × Nat) := (List.range (takeBytes g 2 1)).map (calSeason g)
def calSpecials (g : List Byte) : List (Nat × Nat × Nat × Nat) := (List.range (takeBytes g 3 1)).map (calSpecial g)

/-- The day profile of a local date (R199). -/
def calDay (g : List Byte) (days : Int) : Nat :=
  let (y, m, d) := civil days
  let hit (z : Nat × Nat × Nat × Nat) (yr : Int) : Bool := decide ((z.1 : Int) = yr ∧ z.2.1 = m ∧ z.2.2.1 = d)
  match (calSpecials g).find? (hit · y) with
  | some z => z.2.2.2
  | none =>
    match (calSpecials g).find? (hit · 0) with
    | some z => z.2.2.2
    | none =>
      let due := (calSeasons g).filter (fun z => decide (z.1 < m ∨ (z.1 = m ∧ z.2.1 ≤ d)))
      let season := (due.getLast?).orElse (fun _ => (calSeasons g).getLast?)
      match season with
      | some z => calWeek g z.2.2.1 ((days + 3) % 7).toNat
      | none => 0

/-- The calendar rate at a local second count (R199). -/
def calRate (g : List Byte) (local_ : Int) : Nat :=
  let minute := (local_ % 86400).toNat / 60
  match ((calPoints g (calDay g (local_ / 86400))).filter (fun p => decide (p.1 ≤ minute))).getLast? with
  | some p => p.2
  | none => calDefrate g

/-- The generation of a list that governs TAI second `s` (R200). -/
def calGovern (l : List CalGen) (s : Nat) : Option (List Byte) :=
  match ((l.drop 1).filter (fun g => decide (calActivate g.image ≤ s))).getLast? with
  | some g => some g.image
  | none => l.head?.map (·.image)

/-- The list that serves an epoch: the current one, or the preceding one (R200). -/
def State.calList (s : State) (e : W32) : List CalGen := if e = s.cfg.cur - 1#32 then s.ldg.calPrev else s.ldg.calCur

/-- The UTC interval of TAI second `t` under a list (R196). -/
def intervalOf (l : List CalGen) (t : Nat) : Option Nat :=
  match (calGovern l t).bind (offsetAt · t) with
  | some o => if o.taiutc ≤ t then some (((t : Int) - o.taiutc) / 900).toNat else none
  | none => none
/-- The current UTC interval. -/
def State.intervalNow (s : State) : Option Nat := intervalOf s.ldg.calCur (s.dom s.sel).sec.toNat
/-- TAI - UTC of the calendar list in force now. -/
def State.taiutcNow (s : State) : Option Int :=
  ((calGovern s.ldg.calCur (s.dom s.sel).sec.toNat).bind (offsetAt · (s.dom s.sel).sec.toNat)).map (·.taiutc)
/-- The TAI second at which interval `i` starts and the generation and entry it lies under. -/
def intervalStart (l : List CalGen) (i : Nat) : Option (Nat × List Byte × OffEnt) :=
  (l.flatMap (fun g => (calOffsets g.image).map (fun o => (((i : Int) * 900 + o.taiutc).toNat, g.image, o)))).find?
    (fun p => decide (calGovern l p.1 = some p.2.1) && decide (offsetAt p.2.1 p.1 = some p.2.2))

/-- What LADD chooses: rate, default used (R202). -/
def rateFor (l : List CalGen) (t : Nat) (bad : Bool) : Option (Nat × Bool) :=
  match l.getLast? with
  | none => none
  | some newest =>
    if bad then some (calDefrate newest.image, true)
    else match calGovern l t with
      | none => none
      | some g =>
        match offsetAt g t with
        | none => some (calDefrate g, true)
        | some o => some (calRate g ((t : Int) - o.taiutc + o.zone), false)

/-- A season, day-profile, special-day and offset check of an image (R198). -/
def calFormOk (g : List Byte) : Bool :=
  let ns := takeBytes g 2 1
  let np := takeBytes g 3 1
  let no := takeBytes g 4 1
  let dateOk (m d : Nat) : Bool := decide (1 ≤ m ∧ m ≤ 12 ∧ 1 ≤ d ∧ d ≤ 31)
  let used := (calSeasons g).flatMap (fun z => (List.range 7).map (calWeek g z.2.2.1)) ++ (calSpecials g).map (·.2.2.2)
  let raw (p : Nat) : List Nat := (((List.range 12).map (fun j => takeBytes g (88 + 24 * p + 2 * j) 2)).takeWhile (fun v => decide (v ≠ 0xFFFF)))
  let offs := calOffsets g
  let zch := (offs.zip (offs.drop 1)).filter (fun p => decide (p.1.zone ≠ p.2.zone))
  let years := zch.map (fun p => (civil (((p.2.at_ : Int) - p.2.taiutc) / 86400)).1)
  decide (takeBytes g 0 1 = 1) && decide (takeBytes g 1 1 < 8) && decide (1 ≤ ns ∧ ns ≤ 4 ∧ np ≤ 64 ∧ 1 ≤ no ∧ no ≤ 96)
    && decide (takeBytes g 5 3 = 0)
    && (calSeasons g).all (fun z => dateOk z.1 z.2.1 && decide (z.2.2.1 ≤ 7) && decide (z.2.2.2 = 0))
    && rising ((calSeasons g).map (fun z => (z.1 * 32 + z.2.1 : Nat)))
    && (List.range 56).all (fun k => decide (takeBytes g (32 + k) 1 ≤ 15))
    && (List.range 16).all (fun p => (raw p).all (fun v => decide (v / 2048 % 4 = 0) && decide (v % 2048 ≤ 1425) && decide (v % 2048 % 15 = 0)))
    && used.all (fun p => decide (((calPoints g p).head?.map (·.1)) = some 0) && rising ((calPoints g p).map (fun q => (q.1 : Int))))
    && (calSpecials g).all (fun z => dateOk z.2.1 z.2.2.1)
    && decide ((calSpecials g).map (fun z => (z.1, z.2.1, z.2.2.1))).Nodup
    && offs.all (fun o => decide (o.zone % 900 = 0) && decide (o.zone.natAbs ≤ 50400))
    && rising (offs.map (fun o => (o.at_ : Int)))
    && years.all (fun y => decide ((years.filter (fun z => decide (z = y))).length ≤ 2))
    && (match offsetAt g (calActivate g) with
        | some o => decide (((calActivate g : Int) - o.taiutc) % 900 = 0)
        | none => false)

/-- Insert a generation in ACTIVATE order. -/
def calInsert (g : CalGen) : List CalGen → List CalGen
  | [] => [g]
  | x :: xs => if calActivate g.image < calActivate x.image then g :: x :: xs else x :: calInsert g xs

/-- One LDG_CALCMD at a close (R198 to R200): the status and the state with the shadow list it makes. -/
def State.calLoad (addr : Nat) (cmd : W32) (s : State) : Status × State :=
  let list := s.ldg.calShadow.getD s.ldg.calCur
  let full := decide (4 ≤ list.length)
  let keep := s.regF Reg.ldgPcfg 8 8 * 86400
  let second := match list[1]? with | some g => calActivate g.image | none => 0
  let (st, img) : Status × List Byte :=
    if cmd ≠ 1#32 then (.denied, [])
    else match s.unitRead addr 2268 with
      | (.ok, bs) =>
        let g := bs.take 2264
        if takeBytes bs 2264 4 ≠ (crcC g).toNat then (.integrity, [])
        else if calFormOk g && decide ((s.dom s.sel).t32 + 86400 * 2 ^ 32 ≤ calActivate g * 2 ^ 32) then
          if full && decide ((s.dom s.sel).sec.toNat < second + keep) then (.retry, []) else (.ok, g)
        else (.outOfRange, [])
      | r => r
  if st = .ok then
    let l := calInsert ⟨img⟩ (if full then list.drop 1 else list)
    let k := (l.findIdx? (fun g => decide (g.image = img))).getD 0
    (.ok, { s with ldg := { s.ldg with calShadow := some l, calBusy := true, calIndex := k } })
  else (st, { s with ldg := { s.ldg with calStatus := st } })

/-- LDG's writes at a close, in order. -/
def State.ldgWrites : List (Nat × W32) → State → Status × State
  | [], s => (.ok, s)
  | (o, v) :: ws, s =>
    let s := s.setReg o v
    if o = Reg.ldgCalcmd then
      match s.calLoad (s.reg2 Reg.ldgCaladdr) v with
      | (.ok, s) => State.ldgWrites ws s
      | r => r
    else State.ldgWrites ws s

/-- LDG's part of a close of sequence 0x0002: RETRY where a load of an earlier close is still BUSY, or shadow loads are shut
(R199, R296); the loads of one close run in order (log entry 27). -/
def State.ldgClose (ws : List (Nat × W32)) (s : State) : Status × State :=
  if (s.ldg.calBusy || s.cfg.prep) && ws.any (fun w => decide (w.1 = Reg.ldgCalcmd)) then (.retry, s) else s.ldgWrites ws

/-- CALENDAR_LOAD_DONE: BUSY clears and the status is reported (R199). -/
def execCalendarLoadDone (s : State) : Answer :=
  if s.pwr.mainOn && s.ldg.calBusy then .next { s with ldg := { s.ldg with calBusy := false, calStatus := .ok } } else .next s

/-- The epoch switch of LDG: the shadow list becomes current, the former current one preceding (R200). -/
def State.ldgSwitch (s : State) : State :=
  { s with ldg := { s.ldg with calPrev := s.ldg.calCur, calCur := s.ldg.calShadow.getD s.ldg.calCur, calShadow := none } }

/-! ## Bookings (R59, R192, R193, R201) -/

def kindNo : LKind → Nat
  | .mass => 0 | .volume => 1 | .energy => 2 | .aux => 3

/-- The DRAM address of a point record. -/
def State.ptAddr (s : State) (l : Nat) : Nat := s.reg2 Reg.ldgPtbase + l * 0x800
/-- The DRAM address of the register of a rate and kind (Table 8.1). -/
def State.lregAddr (s : State) (l r k : Nat) : Nat := s.ptAddr l + 0x400 + (4 * r + k) * 16
def State.lreg (s : State) (l r k : Nat) : Int := (BitVec.ofNat 128 (s.ramNat (s.lregAddr l r k) 16)).toInt
/-- The address of a working line (R203). -/
def State.lineAddr (s : State) (l i : Nat) : Nat := s.reg2 Reg.ldgPwbase + (l * 128 + i % 128) * 64

/-- Pair [20:13] and local point [12:0] of a point word (R8). -/
def wordPair (p : W32) : Nat := (fld p 13 8).toNat
def wordLocal (p : W32) : Nat := (fld p 0 13).toNat
/-- The point is a custody point the device lacks; an instruction on it faults (R4, R5). -/
def State.pointAbsent (s : State) (p : W32) : Bool := decide (wordPair p = s.pair) && decide (8160 ≤ wordLocal p) && !s.custPresent (wordLocal p - 8160)

/-- What a list of staged LADDs adds to one register. -/
def staged (ls : List LAdd) (l r k : Nat) : Int :=
  (ls.filter (fun x => decide (x.local_ = l ∧ x.rate = r ∧ x.kind = k))).foldl (fun n x => n + x.amount) 0
/-- A signed 128-bit value. -/
def in128 (v : Int) : Bool := decide (-(2 ^ 127) ≤ v) && decide (v < 2 ^ 127)

/-- LADD (R59, R60, R202). -/
def execLadd (x : Ix) (k : LKind) (ad : AReg) (ra rb : GReg) (s : State) : Answer :=
  garnilPriv x (fun _ => outsideHeartwood x.who) (unlessFenced x.who fun s =>
    let t := s.me x.who
    let pw : W32 := fld (t.getG ra) 0 32
    let a := (t.getG rb).toNat
    if !scrOk a 20 then .fault .illegal .ok
    else if wordPair pw ≠ s.pair then .go (s.putMe x.who (t.lstatSet false 0 .outOfRange))
    else if s.pointAbsent pw then .fault .absentUnit .absent
    else
      let stamp : Stamp := BitVec.ofNat 96 (t.scrNat a 12)
      let fl := t.scrNat (a + 18) 2
      let sec := (fld stamp 0 64).toNat
      let list := s.calList t.iepoch
      let bad := decide (fl % 2 = 1) || decide (stamp = 0#96)
      let (rate, deflt, s) := match rateFor list sec bad with
        | some (r, d) => (r, d, s)
        | none => let (r, s) := s.draw 3; (r.toNat, true, s)
      let known := s.ldg.calCur ++ s.ldg.calShadow.getD []
      let late := !bad && known.any (fun g => decide (g ∉ list) && decide (calActivate g.image ≤ sec))
      let l : LAdd := ⟨wordLocal pw, kindNo k, rate, deflt, decide (fl / 2 % 2 = 1), t.getA ad, stamp,
        if stamp = 0#96 then none else intervalOf list sec, late⟩
      let ls := t.stage.ladds ++ [l]
      if in128 (s.lreg l.local_ rate l.kind + staged ls l.local_ rate l.kind) then
        let t := { s.me x.who with stage := { (s.me x.who).stage with ladds := ls } }
        .go (s.putMe x.who (t.lstatSet deflt rate (if deflt then .timeInvalid else .ok)))
      else .fault .arithmetic .ok) s

/-- LREAD: the committed register, whose line is one the task read (R312); of another pair's point, which no register holds, the value is free (log entry 27). -/
def execLread (x : Ix) (ad : AReg) (ra rb : GReg) (s : State) : Answer :=
  garnilPriv x (fun _ => outsideHeartwood x.who) (unlessFenced x.who fun s =>
    let t := s.me x.who
    let pw : W32 := fld (t.getG ra) 0 32
    let a := s.lregAddr (wordLocal pw) (fld (t.getG rb) 0 3).toNat (fld (t.getG rb) 3 2).toNat
    if s.pointAbsent pw then .fault .absentUnit .absent
    else if wordPair pw ≠ s.pair then
      let (v, s) := s.draw 128
      .go (s.putMe x.who ((s.me x.who).setA ad v.toInt))
    else match t.imaged (a / 64) with
      | some img => .go (s.putMe x.who (t.setA ad (fld img (8 * (a % 64)) 128).toInt))
      | none =>
        match s.ramRead a 16 with
        | (.ok, bs) =>
          let t := { t with stage := t.stage.noteImage (a / 64) (s.line (a / 64)) }
          .go (s.putMe x.who (t.setA ad (BitVec.ofNat 128 (natOfBytes bs)).toInt))
        | (st, _) => .fault .integrity st) s

/-- The points a list of LADDs books, each once. -/
def ladPoints (ls : List LAdd) : List Nat := (ls.map (·.local_)).eraseDups

/-- The lines a list of LADDs changes by read-modify-write. -/
def State.ladLines (s : State) (ls : List LAdd) : List Nat :=
  ls.flatMap (fun x =>
    [s.lregAddr x.local_ x.rate x.kind / 64, (s.ptAddr x.local_ + 0x640) / 64]
      ++ (match x.interval with | some i => [s.lineAddr x.local_ i / 64] | none => []))

/-- Why the LADDs of a stage cannot be applied: a line that does not verify (R38), or a register that would leave its range
(R59). -/
def State.ladCheck (s : State) (ls : List LAdd) : Option (FaultClass × Status) :=
  if (s.ladLines ls).any s.poisoned then some (.integrity, .integrity)
  else if ls.all (fun x => in128 (s.lreg x.local_ x.rate x.kind + staged ls x.local_ x.rate x.kind)) then none
  else some (.arithmetic, .ok)

/-! ## Profiles (R203 to R205) -/

/-- The bookkeeping bits of a point's interval: [0] default rate used, [1] calendar rate used, [2] split, [8 + k] DATA,
[12 + k] OVF, [16 + k] LATE of channel k. -/
def State.pw (s : State) (l i : Nat) : W32 := Tab.get 0#32 s.ldg.pwBits (l * 2 ^ 32 + i)
def State.setPw (s : State) (l i : Nat) (v : W32) : State :=
  { s with ldg := { s.ldg with pwBits := Tab.set 0#32 s.ldg.pwBits (l * 2 ^ 32 + i) v } }

/-- The status byte of channel `k` (Table 8.4): `qs` the QSTAT, `pb` byte 34 of the working line, `c3` channel 3 nonzero. -/
def profStatus (bits : W32) (k qs pb : Nat) (c3 : Bool) : Byte :=
  BitVec.ofNat 8 ((if bit bits 0 && bit bits 1 then 128 else 0) + (if pb / 64 % 2 = 1 then 64 else 0) + (if bit bits 0 then 32 else 0)
    + (if bit bits 2 then 16 else 0) + (if bit bits (16 + k) then 8 else 0) + (if bit bits (12 + k) then 4 else 0)
    + (if qs % 4 ≠ 0 ∨ c3 = true ∨ pb / 2 % 2 = 1 then 2 else 0) + (if bit bits (8 + k) then 1 else 0))

/-- A profile record from its parts (Table 8.3). -/
def mkProf (i : Nat) (vals : List Int) (bits : W32) (rate qs pb : Nat) : BitVec 256 :=
  let c3 := decide (vals.getD 3 0 ≠ 0)
  let body := bytesOfNat 4 i ++ vals.flatMap (fun v => bytesOf 4 (BitVec.ofInt 32 v))
    ++ (List.range 4).map (fun k => profStatus bits k qs pb c3)
    ++ [BitVec.ofNat 8 (rate + if bit bits 0 then 8 else 0), 0#8] ++ bytesOfNat 2 qs
  BitVec.ofNat 256 (natOfBytes (body ++ bytesOf 4 (crcC body)))

/-- A contribution to a channel value: clamped to the signed 32-bit range, and kept so once clamped (R203). -/
def addChan (v c : Int) (ovf : Bool) : Int × Bool :=
  if ovf then (v, true)
  else if v + c < -(2 ^ 31) then (-(2 ^ 31), true)
  else if 2 ^ 31 ≤ v + c then (2 ^ 31 - 1, true)
  else (v + c, false)

/-- A value was clamped: PROFOVF and event 0x0C04 with the point. -/
def State.profOvf (l : Nat) (s : State) : State :=
  State.event 0x0C04 (BitVec.ofNat 32 l) { s with ldg := { s.ldg with profovf := true } }

/-- The record of interval `i` has been formed. -/
def State.formed (s : State) (i : Nat) : Bool := match s.ldg.formNext with | some f => decide (i < f) | none => false

/-- The bits a booking sets. -/
def ladBits (x : LAdd) (bits : W32) (en : Bool) : W32 :=
  let b := if x.deflt then bits ||| 1#32 else bits ||| 2#32
  let b := if x.split then b ||| 4#32 else b
  if en then b ||| (1#32 <<< (8 + x.kind)) else b

/-- The stored record of a point's interval. -/
def State.profOf (s : State) (l i : Nat) : Option ProfRec := s.ldg.profiles.find? (fun p => decide (p.local_ = l ∧ p.interval = i))

/-- PKEEP in force: a smaller one written in the running interval acts at the next interval start (R206). -/
def State.pkeep (s : State) : Nat :=
  let k := s.regF Reg.ldgPcfg 16 7
  match s.ldg.pkOld, s.intervalNow with
  | some (m, o), some n => if m = n then max k o else k
  | _, _ => k

/-- Before a first booking or forming, the intervals still open are those PKEEP keeps: forming begins with the oldest of them (R204). -/
def State.formStart (s : State) : State :=
  match s.ldg.formNext, s.intervalNow with
  | none, some n => { s with ldg := { s.ldg with formNext := some (n - s.pkeep) } }
  | _, _ => s

/-- Form the record of one point's interval and clear its working line (R204). A record that stands is kept. -/
def State.formOne (i : Nat) (s : State) (l : Nat) : State :=
  if (s.profOf l i).isSome then s
  else
    let a := s.lineAddr l i
    let bits := s.pw l i
    let vals := (List.range 4).map (fun k => (BitVec.ofNat 64 (s.ramNat (a + 8 * k) 8)).toInt)
    let (rate, s) := match intervalStart s.ldg.calCur i with
      | some (t, g, o) => (calRate g ((t : Int) - o.taiutc + o.zone), s)
      | none => let (r, s) := s.draw 3; (r.toNat, s)
    let pb := (s.ramByte (a + 34)).toNat
    let r := mkProf i vals bits rate (s.ramNat (a + 32) 2) pb
    let s := (s.ramWrite a (List.replicate 64 0#8)).2.setPw l i 0#32
    { s with ldg := { s.ldg with profiles := s.ldg.profiles ++ [⟨l, i, r, bits, pb⟩] } }

/-- A record without a booking, for an interval whose forming is over and left none for the point (R204, R205). -/
def State.formEmpty (l i : Nat) (s : State) : State :=
  let (rate, s) := match intervalStart s.ldg.calCur i with
    | some (t, g, o) => (calRate g ((t : Int) - o.taiutc + o.zone), s)
    | none => let (r, s) := s.draw 3; (r.toNat, s)
  { s with ldg := { s.ldg with profiles := s.ldg.profiles ++ [⟨l, i, mkProf i [0, 0, 0, 0] 0#32 rate 0 0, 0#32, 0⟩] } }

/-- Add a contribution to the stored record of a formed interval (R204); where none stands, one without a booking is made first, so that
the contribution is not lost. -/
def State.profLate (x : LAdd) (i : Nat) (en : Bool) (c : Int) (s : State) : State :=
  let s := if (s.profOf x.local_ i).isSome then s else s.formEmpty x.local_ i
  match s.profOf x.local_ i with
  | none => s
  | some p =>
    let bs := bytesOf 32 p.rec_
    let k := x.kind
    let bits := ladBits x p.bits en
    let (v, o) := addChan (takeInt bs (4 + 4 * k) 4) c (bit bits (12 + k))
    let newOvf := en && o && !bit bits (12 + k)
    let bits := if en then (bits ||| (1#32 <<< (16 + k))) else bits
    let bits := if newOvf then bits ||| (1#32 <<< (12 + k)) else bits
    let vals := (List.range 4).map (fun j => if j = k ∧ en = true then v else takeInt bs (4 + 4 * j) 4)
    let r := mkProf i vals bits (takeBytes bs 24 1 % 8) (takeBytes bs 26 2) p.pb
    let s := { s with ldg := { s.ldg with
      profiles := s.ldg.profiles.map (fun q => if q.local_ = x.local_ ∧ q.interval = i then { q with rec_ := r, bits } else q) } }
    if newOvf then s.profOvf x.local_ else s

/-- Add a contribution to the working line of an open interval (R203). -/
def State.profOpen (x : LAdd) (i : Nat) (en : Bool) (c : Int) (s : State) : State :=
  let bits := ladBits x (s.pw x.local_ i) en
  if !en then s.setPw x.local_ i bits
  else
    let a := s.lineAddr x.local_ i + 8 * x.kind
    let o0 := bit bits (12 + x.kind)
    let (v, o) := addChan (BitVec.ofNat 64 (s.ramNat a 8)).toInt c o0
    let s := (s.ramPut a (bytesOf 8 (BitVec.ofInt 64 v))).setPw x.local_ i (if o then bits ||| (1#32 <<< (12 + x.kind)) else bits)
    if o && !o0 then s.profOvf x.local_ else s

/-- Apply one LADD at commit: the register, the profile, and R201's flag. -/
def State.bookOne (x : LAdd) (s : State) : State :=
  let a := s.lregAddr x.local_ x.rate x.kind
  let s := s.ramPut a (bytesOf 16 (BitVec.ofInt 128 (s.lreg x.local_ x.rate x.kind + x.amount)))
  let en := bit (s.ramByte (s.ptAddr x.local_ + 0x641)) x.kind
  let c := divHalfEven x.amount (10 ^ (s.ramByte (s.ptAddr x.local_ + 0x642 + x.kind)).toNat)
  let s := match x.interval with
    | none => s
    | some i =>
      if s.formed i || (s.profOf x.local_ i).isSome then s.profLate x i en c else s.profOpen x i en c
  if x.lateAct then State.event 0x0C03 0#32 { s with ldg := { s.ldg with lateact := true } } else s

/-- LCOUNT rises by one and LASTST takes the higher stamp (R193). -/
def State.bookPoint (l : Nat) (st : Stamp) (s : State) : State :=
  let p := s.ptAddr l
  let s := s.ramPut (p + 0x648) (bytesOf 8 (BitVec.ofNat 64 (s.ramNat (p + 0x648) 8 + 1)))
  if stampLt (BitVec.ofNat 96 (s.ramNat (p + 0x650) 12)) st then s.ramPut (p + 0x650) (bytesOf 12 st) else s

/-- Apply the LADDs of a stage (R193, R203, R204). -/
def State.book (ls : List LAdd) (s : State) : State :=
  let s := if ls.isEmpty then s else s.formStart
  let late := ((ls.filterMap (fun x => x.interval.map (fun i => (x.local_, i)))).filter
    (fun p => s.formed p.2 || (s.profOf p.1 p.2).isSome)).eraseDups.length
  let s := ls.foldl (fun s x => s.bookOne x) s
  let s := (ladPoints ls).foldl (fun s l =>
    s.bookPoint l ((ls.filter (fun x => decide (x.local_ = l))).foldl (fun m x => if stampLt m x.stamp then x.stamp else m) 0#96)) s
  { s with ldg := { s.ldg with latecnt := min 0xFFFF (s.ldg.latecnt + late) } }

/-- PROFILE_RECORD_FORM: interval i + PKEEP has begun, so the records of interval i are formed (R204, R206). -/
def execProfileRecordForm (s : State) : Answer :=
  match s.intervalNow with
  | none => .next s
  | some n =>
    let keep := s.pkeep
    let i := s.ldg.formNext.getD (n - keep)
    if s.pwr.mainOn && decide (i + keep ≤ n) then
      let s := (List.range 8192).foldl (fun s l => s.formOne i l) s
      .next { s with ldg := { s.ldg with formNext := some (i + 1) } }
    else .next s

/-- PROFILE_RETENTION_DISCARD: records older than RETD days go (R204). -/
def execProfileRetentionDiscard (s : State) : Answer :=
  match s.intervalNow with
  | none => .next s
  | some n =>
    let days := s.regF Reg.ldgPcfg 23 9
    if s.pwr.mainOn then
      .next { s with ldg := { s.ldg with profiles := s.ldg.profiles.filter (fun p => decide (n ≤ p.interval + days * 96)) } }
    else .next s

/-! ## Snapshots (R195) -/

/-- Copy lines one by one; a line that does not verify is left out. -/
def State.copyLines (src dst : Nat) : Nat → State → State
  | 0, s => s
  | n + 1, s =>
    let s := if s.poisoned (src / 64) then s else (s.ramWrite dst (s.ramBytes src 64)).2
    State.copyLines (src + 64) (dst + 64) n s

/-- SNAPSHOT_DONE: the point records stand in the snapshot, each as one committed version. -/
def execSnapshotDone (s : State) : Answer :=
  match s.ldg.snap with
  | none => .next s
  | some (a, f, n) =>
    if s.pwr.mainOn then
      let s := State.copyLines (s.ptAddr f) a (32 * n) s
      .next { s with ldg := { s.ldg with snap := none } }
    else .next s

/-! ## Rights (R207) -/

/-- The rights rows taken from the legal parameter block (Table 8.7). -/
def legalRights : List W32 := [0x00010554#32, 0x00020754#32, 0x00030D74#32, 0x00040554#32, 0x000505D5#32, 0x00060740#32, 0x00070740#32]
/-- LDG_RIGHTS of row `k`. -/
def State.rightsRow (s : State) (k : Nat) : W32 := (legalRights[k]?).getD (Tab.get 0#32 s.ldg.rights k)

/-! ## The check value and LEGAL_SHOW (R210, R211) -/

/-- Cluster 0 has loaded an image: the check value over it and the legal parameter block, and event 0x0C05 (R210). -/
def State.heartLoaded (img params : List Byte) (s : State) : State :=
  let v := sha384v (img ++ params)
  State.event 0x0C05 (fld v 0 32) { s with ldg := { s.ldg with chkv := v, hwRun := true } }

/-- The groups of page `p`; none while no Heartwood image runs, when every group reads "----". -/
def State.showGroups (s : State) (p : Nat) : List (BitVec 16) :=
  let gpp := s.regF Reg.ldgDispcfg 4 4
  if s.ldg.hwRun then
    (((List.range 12).drop (p * gpp)).take gpp).map (fun g => (fld s.ldg.chkv (16 * g) 8) ++ (fld s.ldg.chkv (16 * g + 8) 8))
  else []
/-- Pages of a showing. -/
def State.showPages (s : State) : Nat := (12 + s.regF Reg.ldgDispcfg 4 4 - 1) / s.regF Reg.ldgDispcfg 4 4

/-- LEGAL_SHOW_ASSERT: LEGAL_SHOW has been low for 20 ms; an assertion during a showing restarts its period. -/
def execLegalShowAssert (s : State) : Answer :=
  if !s.pwr.mainOn then .next s
  else match s.ldg.show_ with
    | some (_, p, t) => .next { s with ldg := { s.ldg with show_ := some (s.tb.elapsed, p, t) } }
    | none => .next { s with ldg := { s.ldg with show_ := some (s.tb.elapsed, 0, s.tb.elapsed) }, out := s.out ++ [.display (s.showGroups 0) false] }

/-- LEGAL_SHOW_PAGE: the page time is over and the next page shows. -/
def execLegalShowPage (s : State) : Answer :=
  match s.ldg.show_ with
  | none => .next s
  | some (t0, p, t) =>
    let n := s.regF Reg.ldgDispcfg 0 4 * (sCounts / 2)
    if s.pwr.mainOn && s.past t n then
      let q := (p + 1) % s.showPages
      .next { s with ldg := { s.ldg with show_ := some (t0, q, t + n) }, out := s.out ++ [.display (s.showGroups q) false] }
    else .next s

/-- LEGAL_SHOW_END: the port is released blank, SHOWEND sets, event 0x0C06. -/
def execLegalShowEnd (s : State) : Answer :=
  match s.ldg.show_ with
  | none => .next s
  | some (t0, _, _) =>
    if s.pwr.mainOn && s.past t0 (s.regF Reg.ldgDispcfg 8 8 * sCounts) then
      .next (State.event 0x0C06 0#32 { s with ldg := { s.ldg with show_ := none, showend := true }, out := s.out ++ [.display [] true] })
    else .next s

/-! ## The LDG window -/

/-- Writes of the LDG window that are not SEQ (R192, R195, R206, R207, R211, Table 8.10). -/
def writeLdg : UnitWrite := fun i r o v s =>
  if o = Reg.ldgPtbase then accept r o (v - v % (16 * 2 ^ 20)) s
  else if o = Reg.ldgPcfg then
    if vf v 23 9 = 0 ∨ 400 < vf v 23 9 ∨ vf v 16 7 < 2 ∨ 96 < vf v 16 7 ∨ vf v 8 8 < 8 then refuse .outOfRange s
    else
      let s := match s.intervalNow with | some n => { s with ldg := { s.ldg with pkOld := some (n, s.pkeep) } } | none => s
      accept r o v s
  else if o = Reg.ldgDispcfg then
    if vf v 8 8 = 0 ∨ 60 < vf v 8 8 ∨ vf v 4 4 = 0 ∨ 12 < vf v 4 4 ∨ vf v 0 4 = 0 then refuse .outOfRange s else accept r o v s
  else if o = 0x0C0028 then
    let l := s.ldg
    let l := if vf v 30 1 = 1 then { l with showend := false } else l
    let l := if vf v 29 1 = 1 then { l with lateact := false } else l
    let l := if vf v 28 1 = 1 then { l with profovf := false } else l
    (.ok, { s with ldg := if vf v 0 1 = 1 then { l with latecnt := 0 } else l })
  else if o = 0x0C0034 then
    let k := s.regF 0x0C0030 0 6
    if k < legalRights.length then refuse .denied s
    else (.ok, { s with ldg := { s.ldg with rights := Tab.set 0#32 s.ldg.rights k (BitVec.ofNat 32 v) } })
  else if o = Reg.ldgSnapaddr then
    if i = .sup then accept r o v s else refuse .denied s
  else if o = 0x0C0058 then
    let f := vf v 0 13
    let n := vf v 16 14
    let a := s.reg2 Reg.ldgSnapaddr
    if i ≠ .sup then refuse .denied s
    else if s.ldg.snap.isSome then refuse .retry s
    else if n = 0 ∨ 8192 < f + n ∨ a % 64 ≠ 0 then refuse .outOfRange s
    else (.ok, { s with ldg := { s.ldg with snap := some (a, f, n) } })
  else accept r o v s

/-- Reads of the LDG window. -/
def readLdg (o : Nat) (s : State) : W32 :=
  let l := s.ldg
  if o = 0x0C001C then ldStat l.calBusy 1 l.calStatus l.calIndex
  else if o = 0x0C0028 then
    BitVec.ofNat 32 ((if l.show_.isSome then 2 ^ 31 else 0) + (if l.showend then 2 ^ 30 else 0) + (if l.lateact then 2 ^ 29 else 0)
      + (if l.profovf then 2 ^ 28 else 0) + (if l.restore then 2 ^ 27 else 0) + (if l.snap.isSome then 2 ^ 26 else 0) + l.latecnt)
  else if o = 0x0C0034 then s.rightsRow (s.regF 0x0C0030 0 6)
  else if o = 0x0C0040 then l.tdev0
  else if o = 0x0C0044 then l.tdev1
  else if o = 0x0C0048 then l.tdev2
  else if 0x0C0080 ≤ o ∧ o < 0x0C00B0 then fld l.chkv (8 * (o - 0x0C0080)) 32
  else s.reg o

end Sys2Proof.Machine
end

