-- ==== Sys2Proof/Machine/Afe.lean ====
section
/-! DEFINITION. The custody front end (05_custody_inputs.md): sample chain, DP gain, sensor faults, block records, pulse inputs
and calibration, and which twin owns a custody point (R306, R308, R328). -/

namespace Sys2Proof.Machine
open Sys2Proof

def State.chan (s : State) (c : Nat) : Chan := Tab.get {} s.afe.chans c
def State.setChan (s : State) (c : Nat) (x : Chan) : State := { s with afe := { s.afe with chans := Tab.set {} s.afe.chans c x } }
def State.pt (s : State) (p : Nat) : Point := Tab.get {} s.afe.points p
def State.setPt (s : State) (p : Nat) (x : Point) : State := { s with afe := { s.afe with points := Tab.set {} s.afe.points p x } }
/-- A pulse input as it resets: its POINT is input / 2 (Table 5.6). -/
def pulseReset (i : Nat) : Pulse := { cfg := BitVec.ofNat 32 (i / 2 * 2 ^ 22 + 125) }
def State.pulse (s : State) (i : Nat) : Pulse := Tab.get (pulseReset i) s.afe.pulses i
def State.setPulse (s : State) (i : Nat) (x : Pulse) : State :=
  { s with afe := { s.afe with pulses := Tab.set (pulseReset i) s.afe.pulses i x } }

/-- The AFE converts and captures in P0 to P2 (Table 17.1, R385 step 4). -/
def State.fieldRuns (s : State) : Bool := s.pwr.mainOn && decide (s.pwr.state < 3)

/-- The device owns custody point `c`: SOLO, the twin lost, or the bit of TWN_CUSTOWN; a bit on which the twins differ is
twin 0's, and a twin that found itself faulty owns none (R306, R308, R315, R327, R328). -/
def State.ownsPoint (s : State) (c : Nat) : Bool :=
  !s.twn.selfflt && (s.solo || s.twn.lost || s.twn.takeover ||
    (let mine := bit s.twn.custown c
     let own := if mine = bit s.twn.twinCust c then mine else false
     !s.twn.ceded && decide (own = decide (s.twinBit = 1))))

/-- The point word of a custody point: kind 2, this pair, local 8,160 + c (R7, R127, R140). -/
def State.custWord (s : State) (c : Nat) : W32 := BitVec.ofNat 32 (2 * 2 ^ 21 + s.pair * 2 ^ 13 + 8160 + c)

/-! ## Fields of AFE_CHCFG (Table 5.2) -/

def chMode (w : W32) : Nat := (fld w 28 3).toNat
/-- The channel samples: EN set and its mode not off. -/
def chActive (w : W32) : Bool := bit w 31 && decide (chMode w ≠ 0)
def chGmin (w : W32) : Nat := (fld w 24 3).toNat
def chGmax (w : W32) : Nat := (fld w 21 3).toNat
def chRtd (w : W32) : Bool := decide (chMode w = 3 ∨ chMode w = 4)

/-- Rounded to nearest, ties away from zero (R129). -/
def rndAway (x : Int) (d : Nat) : Int :=
  if 0 ≤ x then (2 * x + d) / (2 * d : Int) else -((2 * (-x) + d) / (2 * d : Int))

/-- The input voltage a sample stands for, as a fraction of 10^5 x 2^30 volts (Table 5.1): voltage mode x VFS, current mode
through the shunt, RTD modes 0.5 V at R_FS. -/
def chVolts (w : W32) (x : Int) : Int :=
  if chMode w = 1 then x * 200000 / 2 ^ (fld w 16 3).toNat
  else if chMode w = 2 then (fld w 0 14).toNat * (4 * 2 ^ 30 + 16 * x)
  else x * 50000

/-- |input| compared with `pct` per cent of F = 2.5 V / 2^g (R132). -/
def overF (w : W32) (x : Int) (g pct : Nat) : Bool := decide ((250000 * pct * 2 ^ 30 : Nat) < (chVolts w x).natAbs * 2 ^ g * 100)
def underF (w : W32) (x : Int) (g pct : Nat) : Bool := decide ((chVolts w x).natAbs * 2 ^ g * 100 < (250000 * pct * 2 ^ 30 : Nat))

/-! ## Compensation and calibration of one sample (R129, R135) -/

/-- Z and G at entry `i` of a table; an empty table is Z 0 and G 1.0 (log entry 12). -/
def chZ (t : List Byte) (i : Nat) : Int := (BitVec.ofNat 32 (takeBytes t (8 * i) 4)).toInt
def chG (t : List Byte) (i : Nat) : Int := if t.isEmpty then 2 ^ 30 else (BitVec.ofNat 32 (takeBytes t (8 * i + 4) 4)).toInt

/-- Linear interpolation at `th` sixteenths of a degree, entries every 8 degrees from -40 (R135). -/
def interpTheta (f : Nat → Int) (th : Int) : Int :=
  let d := th + 640
  if d ≤ 0 then f 0
  else if 2048 ≤ d then f 16
  else
    let i := (d / 128).toNat
    f i + rndAway ((f (i + 1) - f i) * (d % 128)) 128

/-- θ is outside the table (R135). -/
def tempExt (th : Int) : Bool := decide (th < -640) || decide (1408 < th)

/-- x_t = (x - Z) x G. -/
def compensate (c : Chan) (th x : Int) : Int := rndAway ((x - interpTheta (chZ c.table) th) * interpTheta (chG c.table) th) (2 ^ 30)

/-- y = (x_t - CZ) x CS, clipped (R129). -/
def calibrate (c : Chan) (xt : Int) : Int :=
  clampInt (-0x7FFFFFFF) 0x7FFFFFFF (rndAway ((xt - c.cz.toInt) * c.cs.toNat) (2 ^ 30))

/-! ## Sample instants -/

/-- The stamping domain's time in whole us. -/
def State.usNow (s : State) : Nat := (s.dom s.sel).t32 * 1000000 / 2 ^ 32

/-- The window centre last passed, in us: 125 us + j x 250 us after a whole second of the stamping domain (R131). None passes while
REFCLK is lost: the domain holds (R277). -/
def State.centre (s : State) : Option Nat :=
  if s.tb.clkLost || decide (s.usNow < 125) then none else some ((s.usNow - 125) / 250 * 250 + 125)

/-- What TB writes for a window centre: its stamp, with the offset and flags of now (R131, R268, R274). -/
def State.centreMoment (s : State) (c : Nat) : TimeRec := { s.momentNow with st := stampOf ((c * 2 ^ 32 + 999999) / 1000000) }

/-- A channel of the point samples (R128). -/
def State.ptActive (s : State) (p : Nat) : Bool := (List.range 3).any (fun k => chActive (s.chan (3 * p + k)).cfg)

/-- Open a sample instant of a point at centre `c`: its DP word is invalid until its sample comes (R130, R131). -/
def State.openInstant (p c : Nat) (s : State) : State :=
  let x := s.pt p
  s.setPt p { x with
    n := x.n + 1, first := if x.n = 0 then s.centreMoment c else x.first, dp := 0x80000000#32 :: x.dp, got := 0#3, ctr := some c }

/-- The calibration window of a point is open: it has started and holds fewer than ten blocks (R146). -/
def State.calOpen (s : State) (p : Nat) : Bool := match (s.pt p).cal with | some c => c.started && decide (c.blocks < 10) | none => false

/-- Mark the samples of a point invalid in its three channels, for the check of an open calibration window (R13, R146). -/
def State.markBad (p : Nat) (s : State) : State :=
  if s.calOpen p then
    (List.range 3).foldl (fun s k => s.setChan (3 * p + k) { s.chan (3 * p + k) with calBad := true }) s
  else s

/-- End a calibration with CAL_REJECTED and a reason (R148, R149, R150). -/
def State.calReject (p reason : Nat) (s : State) : State :=
  match (s.pt p).cal with
  | none => s
  | some c =>
    let s := s.setPt p { s.pt p with cal := none }
    let s := { s with afe := { s.afe with calStatus := .calRejected, calReason := reason, calChan := c.chan } }
    s.event 0x0F02 (BitVec.ofNat 32 (reason * 256 + c.chan))

/-- One sensor-fault condition after a sample or a block: onset and clearing events (R137, R150). -/
def State.faultEdge (ch idx : Nat) (was now : Bool) (s : State) : State :=
  if was = now then s else s.event (if now then 0x0F03 else 0x0F04) (BitVec.ofNat 32 (idx * 256 + ch))

/-- The DP gain after a sample: halved past DN, doubled after DWELL samples below UP (R132). -/
def gainStep (w gcfg : W32) (c : Chan) (x : Int) : Chan × Bool :=
  if !bit w 20 then (c, false)
  else if overF w x c.gain (fld gcfg 24 8).toNat then
    if chGmin w < c.gain then ({ c with gain := c.gain - 1, dwell := 0, settle := 2 }, true) else ({ c with dwell := 0 }, false)
  else if underF w x c.gain (fld gcfg 16 8).toNat then
    if (fld gcfg 0 16).toNat ≤ c.dwell + 1 ∧ c.gain < chGmax w then
      ({ c with gain := c.gain + 1, dwell := 0, settle := 2 }, true)
    else ({ c with dwell := c.dwell + 1 }, false)
  else ({ c with dwell := 0 }, false)

/-- The excitation watch of an RTD channel: onset after 4 open samples in a row, clearing after 4,000 clear ones (R137). -/
def rtdStep (c : Chan) (openLead : Bool) : Chan :=
  let o := if openLead then c.openRun + 1 else 0
  let k := if openLead then 0 else c.clearRun + 1
  let r := if c.rtdopen then !decide (4000 ≤ k) else decide (4 ≤ o)
  { c with openRun := o, clearRun := k, rtdopen := r, rtdopenBlk := c.rtdopenBlk || c.rtdopen || r }

/-! ## Block close (R138 to R140) -/

/-- `n / d` rounded up or down as the spec leaves open: exact where it divides, else the floor or one more (log entry 29). -/
def State.openRound (n : Int) (d : Nat) (s : State) : Int × State :=
  if n % (d : Int) = 0 then (n / (d : Int), s)
  else
    let (b, s) := s.draw 1
    (n / (d : Int) + b.toNat, s)

/-- The current-limit judgement of a channel at block close from the block's mean (R137); a block without a valid sample leaves
it as it was. -/
def curJudge (c : Chan) : Bool × Bool :=
  if chMode c.cfg ≠ 2 then (false, false)
  else if c.valid = 0 then (c.curlo, c.curhi)
  else (decide (40 * c.raw + 2 ^ 30 * (c.valid : Int) < 0), decide (17 * 2 ^ 30 * (c.valid : Int) < 16 * c.raw))

/-- Judge a channel's block-mean and overrange conditions at block close; `blk` collects the flags of word 5. -/
def State.chanFaults (ch : Nat) (s : State) : State :=
  let c := s.chan ch
  let (lo, hi) := curJudge c
  let ov := decide (0 < c.clipped)
  let s := s.setChan ch { c with curlo := lo, curhi := hi, ovr := ov }
  let s := (s.faultEdge ch 3 c.curlo lo).faultEdge ch 4 c.curhi hi
  s.faultEdge ch (5 + ch % 3) c.ovr ov

/-- Flags [11:0] of word 5 (Table 5.5). -/
def State.blockFlags (s : State) (p : Nat) : Nat :=
  let x := s.pt p
  let c (k : Nat) : Chan := s.chan (3 * p + k)
  let f (b : Bool) (k : Nat) : Nat := if b then 2 ^ k else 0
  let anyC (g : Chan → Bool) : Bool := g (c 0) || g (c 1) || g (c 2)
  f (decide (0 < x.inval)) 0 + f (decide (0 < x.settle)) 1 + f (anyC (·.rtdopenBlk)) 2 + f (anyC (·.curlo)) 3 + f (anyC (·.curhi)) 4
    + f (decide (0 < (c 0).clipped)) 5 + f (decide (0 < (c 1).clipped)) 6 + f (decide (0 < (c 2).clipped)) 7
    + f (decide (0 < x.changes)) 8 + f x.tempExt 9 + f x.calBlk 10 + f x.gap 11

/-- The bytes of a block record with its samples (Table 5.5). -/
def State.blockRecord (p : Nat) (s : State) : List Byte × State :=
  let x := s.pt p
  let c (k : Nat) : Chan := s.chan (3 * p + k)
  let (mean, s) := if x.thetaN = 0 then ((0 : Int), s) else s.openRound x.theta x.thetaN
  let w (v : Nat) : List Byte := bytesOfNat 4 v
  let head := w (0x01000000 + p * 65536 + x.n) ++ bytesOf 4 x.bseq ++ bytesOf 12 x.first.st ++ w (s.blockFlags p)
    ++ w (x.inval * 65536 + x.settle) ++ w (min 4000 (c 0).clipped * 65536 + (c 0).gain * 256 + x.changes)
    ++ bytesOf 8 (BitVec.ofInt 64 (c 1).sum) ++ bytesOf 8 (BitVec.ofInt 64 (c 2).sum) ++ bytesOf 4 x.cgen
    ++ bytesOf 2 (BitVec.ofInt 16 mean) ++ [0#8, 0#8]
  let samples := x.dp.reverse.flatMap (bytesOf 4)
  (head ++ bytesOf 4 (crcC (head ++ samples)) ++ w 0 ++ samples, s)

/-- The slot address of block `bseq` of point `p` from a region's base (R139, R306). -/
def blockSlot (base p : Nat) (bseq : W32) : Nat := base + p * 0x20000 + bseq.toNat % 8 * 0x4000

/-- The body of a custody item (R140). -/
def State.custodyBody (s : State) (p addr : Nat) : Item :=
  let x := s.pt p
  setFld (setFld (setFld (setFld (setFld (0#512 : Item) 288 (s.custWord p)) 320 (BitVec.ofNat 64 addr))
    384 (BitVec.ofNat 16 x.n)) 400 (BitVec.ofNat 16 (s.blockFlags p))) 416 x.bseq

/-- AFE_CTL.PRIO. -/
def State.afePrio (s : State) : Nat := s.regF 0x0F0014 0 3

/-- SPN sends the twin a block record or pulse item of an owned point (R306). -/
def State.spnBlock (m : BlockMsg) (s : State) : State :=
  if s.spn.link && !s.solo then { s with out := s.out ++ [.spnBlock m] } else s

/-- A lost block: counted, recorded, and the next written block carries GAP (R139). -/
def State.blockLost (p : Nat) (s : State) : State :=
  let x := s.pt p
  let l := x.lost + 1#32
  (s.setPt p { x with lost := l, gap := true }).event 0x0F05 (BitVec.ofNat 32 (l.toNat % 65536 * 65536 + p))

/-- The block of a point closes: written to its slot and its item issued, or lost, its samples invalid where FIFO 10 is full (R139,
R140); a point the device does not
own overwrites its slots in turn and issues nothing (R306). -/
def State.closeBlock (p : Nat) (s : State) : State :=
  let x := s.pt p
  let slot := x.bseq.toNat % 8
  let addr := blockSlot (s.reg2 Reg.afeBlkbase) p x.bseq
  let own := s.ownsPoint p
  let s :=
    if own && bit x.busy slot then s.blockLost p
    else if own && decide (32 ≤ (s.fifo 10).items.length) then (s.blockLost p).markBad p
    else
      let (rec_, s) := s.blockRecord p
      let s := (s.ramWrite addr rec_).2
      let body := s.custodyBody p addr
      let s := s.setPt p { s.pt p with gap := false }
      if own then
        let s := s.setPt p { s.pt p with busy := x.busy ||| BitVec.ofNat 8 (2 ^ slot) }
        let (it, s) := s.stampAs 10 x.first body
        let s := (s.fifoPush 10 s.afePrio it).2
        s.spnBlock (.block (Fin.ofNat 32 p) x.bseq rec_ it)
      else s.setPt p { s.pt p with kept := (x.kept.drop (x.kept.length - 7)) ++ [(x.first, body)] }
  s.setPt p { s.pt p with bseq := x.bseq + 1#32 }

/-! ## The block boundary (R128, R136, R147, R148) -/

/-- The statistics of a finished calibration block of one channel. -/
def calSecond (c : Chan) : Chan := { c with calSecs := c.calSecs ++ [(c.calSum, c.calCnt)], calSum := 0, calCnt := 0 }

/-- Clear a channel's calibration statistics. -/
def calClear (c : Chan) : Chan := { c with calSecs := [], calSum := 0, calCnt := 0, calSq := 0, calBad := false }

/-- Clear a channel's block sums. -/
def blockClear (c : Chan) : Chan := { c with sum := 0, raw := 0, valid := 0, clipped := 0, rtdopenBlk := c.rtdopen }

/-- Apply what waits for the boundary on one channel: configuration, blob, calibration result. A gain the new configuration moves has its
two settle samples (R134). -/
def State.chanBoundary (ch : Nat) (s : State) : State :=
  let p := ch / 3
  let c := s.chan ch
  let c := match c.cfgNew with
    | some w =>
      let g := if bit w 20 then max (chGmin w) (min (chGmax w) c.gain) else chGmin w
      { c with cfg := w, cfgNew := none, dwell := 0, gain := g, settle := if g = c.gain then c.settle else 2 }
    | none => c
  let s := s.setChan ch c
  let s := match c.blobNew with
    | some bs =>
      let g := (s.pt p).cgen + 1#32
      let s := s.setChan ch { s.chan ch with
        table := bs.take 136, cz := BitVec.ofNat 32 (takeBytes bs 136 4), cs := BitVec.ofNat 32 (takeBytes bs 140 4), blobNew := none }
      (s.setPt p { s.pt p with cgen := g }).event 0x0F06 (BitVec.ofNat 32 (g.toNat % 65536 * 65536 + ch))
    | none => s
  match c.calNew with
  | some (k, cz, cs) =>
    let g := (s.pt p).cgen + 1#32
    let x := s.chan ch
    let s := s.setChan ch { x with cz := (if k = 3 then x.cz else cz), cs := (if k = 3 then x.cs else cs), calNew := none }
    (s.setPt p { s.pt p with cgen := g }).event 0x0F01 (BitVec.ofNat 32 (g.toNat % 65536 * 65536 + k * 256 + ch))
  | none => s

/-- The calibration of a point at a block boundary: a running window counts the block, an accepted one starts (R146 to R148). -/
def State.calBoundary (p : Nat) (s : State) : State :=
  match (s.pt p).cal with
  | none => s
  | some c =>
    if c.started then
      if c.blocks < 10 then
        let s := (List.range 3).foldl (fun s k => s.setChan (3 * p + k) (calSecond (s.chan (3 * p + k)))) s
        s.setPt p { s.pt p with cal := some { c with blocks := c.blocks + 1 }, calBlk := decide (c.blocks + 1 < 10) }
      else s.setPt p { s.pt p with calBlk := false }
    else
      let s := (List.range 3).foldl (fun s k => s.setChan (3 * p + k) (calClear (s.chan (3 * p + k)))) s
      s.setPt p { s.pt p with
        calBlk := true, cal := some { c with started := true, blocks := 0, lim0 := s.reg 0x0F0038, lim1 := s.reg 0x0F003C } }

/-- The boundary of a point (R131): its block, where it holds a sample, closes; what waits for the boundary takes effect; the next
block follows the second the stamping domain is in. -/
def State.boundary (p : Nat) (s : State) : State :=
  let s := if (s.pt p).n = 0 then s
    else State.closeBlock p ((List.range 3).foldl (fun s k => s.chanFaults (3 * p + k)) s)
  let x := s.pt p
  let s := s.setPt p { x with
    n := 0, first := {}, dp := [], inval := 0, settle := 0, changes := 0, tempExt := false, theta := 0, thetaN := 0, got := 7#3,
    calBlk := false, skip := false, per := some (s.sel, (s.dom s.sel).sec.toNat), cut := false, ctr := if x.cut then none else x.ctr }
  let s := (List.range 3).foldl (fun s k => (s.setChan (3 * p + k) (blockClear (s.chan (3 * p + k)))).chanBoundary (3 * p + k)) s
  s.calBoundary p

/-- A boundary of a point is due: the second its block period runs in has ended, in the domain the period follows, or a negative step
has ended it (R131). A change of TB_SEL ends no period. -/
def State.boundaryDue (s : State) (p : Nat) : Bool :=
  (s.pt p).cut || (match (s.pt p).per with | none => true | some (b, n) => decide ((s.dom b).sec.toNat ≠ n))

/-- BLOCK_CLOSE: the boundary that is due (R128, R131). -/
def execBlockClose (point : Fin 32) (s : State) : Answer :=
  if s.fieldRuns && s.custPresent point.val && s.boundaryDue point.val then .next (s.boundary point.val) else .next s

/-! ## Samples (R129 to R137) -/

/-- The point as a sample of the last centre finds it: a boundary that is due has run, but the last centre of a second, 125 us before its
end, still belongs to that second's block. None where no centre has passed, or its block is over. -/
def State.sampleState (p : Nat) (s : State) : Option (Nat × State) :=
  match s.centre with
  | none => none
  | some c =>
    if s.usNow % 1000000 < 125 then (if s.boundaryDue p then some (c, s) else none)
    else some (c, if s.boundaryDue p then s.boundary p else s)

/-- A new sample instant of a point can open at centre `c`. -/
def State.instantFree (s : State) (p c : Nat) : Bool := !(s.pt p).skip && decide ((s.pt p).ctr ≠ some c) && decide ((s.pt p).n < 4000)

/-- A transfer dropped for its CRC is recorded by an event whose code the spec does not give (R13). -/
def State.bridgeEvent (s : State) : State :=
  let (k, s) := s.draw 8
  s.event (0x0F00 + k.toNat) 0#32

/-- DIE_BRIDGE_TRANSFER (R13): a transfer of samples opens a sample instant of its point; one whose CRC fails makes it invalid on all
three channels (R130) and may end a calibration (R149). A dropped transfer of pulse edges or of converter samples marks them invalid
in their input or port. -/
def execDieBridgeTransfer (load : BridgeLoad) (crcOk : Bool) (s : State) : Answer :=
  match load with
  | .point point =>
    let p := point.val
    if s.fieldRuns && s.custPresent p then
      match s.sampleState p with
      | none => .next s
      | some (c, t) =>
        if t.ptActive p && t.instantFree p c then
          let s := t.openInstant p c
          if crcOk then .next s
          else
            let x := s.pt p
            let s := (s.setPt p { x with inval := x.inval + 1, got := 7#3 }).markBad p
            let s := match x.cal with
              | some c => if c.started && decide (5 ≤ c.blocks) && decide (c.blocks < 10) then s.calReject p 9 else s
              | none => s
            .next s.bridgeEvent
        else .next s
    else .next s
  | .edges inp =>
    if s.fieldRuns && s.custPresent (inp.val / 2) && !crcOk then
      .next (s.setPulse inp.val { s.pulse inp.val with badE := (s.pulse inp.val).badE + 1 }).bridgeEvent
    else .next s
  | .converter n =>
    if s.fieldRuns && s.present (0x10 + n.val) && !crcOk then
      let x := Tab.get {} s.plc n.val
      .next (State.bridgeEvent { s with plc := Tab.set {} s.plc n.val { x with badSamp := x.badSamp + 1 } })
    else .next s

/-- A channel's state and its point's after one sample `x` of channel `ch` at die temperature `th`: compensated, calibrated, summed,
the gain moved and the sensor judged (R129 to R137). A sample that saturates at the lowest gain is clipped to 1.25 x 2^30, with the sign of
the input. -/
def State.takeSample (ch : Nat) (x th : Int) (openLead : Bool) (s : State) : State :=
  let p := ch / 3
  let k := ch % 3
  let c := s.chan ch
  let w := c.cfg
  let low := decide (c.gain = 0 ∨ c.gain = chGmin w)
  let sat := low && !underF w x c.gain 100
  let x' : Int := if sat then (if chVolts w x < 0 then -1342177280 else 1342177280) else x
  let xt := compensate c th x'
  let y := calibrate c xt
  let clip := sat || decide (y ≠ rndAway ((xt - c.cz.toInt) * c.cs.toNat) (2 ^ 30))
  let inSettle := decide (k = 0) && decide (0 < c.settle)
  let c0 : Chan := { c with
    sum := c.sum + y, raw := c.raw + x', valid := c.valid + 1, clipped := if clip then c.clipped + 1 else c.clipped
    ovr := c.ovr || clip, settle := c.settle - 1 }
  let c1 : Chan := if s.calOpen p then { c0 with
      calSum := c.calSum + xt, calCnt := c.calCnt + 1, calSq := c.calSq + (xt * xt).toNat, calBad := c.calBad || clip } else c0
  let (c2, changed) := if k = 0 then gainStep w (s.reg 0x0F0008) c1 x else (c1, false)
  let c3 := rtdStep c2 (chRtd w && openLead)
  let s := s.setChan ch c3
  let q := s.pt p
  let s := s.setPt p { q with
    dp := if k = 0 then listSet q.dp 0 (BitVec.ofInt 32 y) else q.dp
    settle := if inSettle then q.settle + 1 else q.settle
    changes := if changed then satInc 255 q.changes else q.changes
    tempExt := q.tempExt || tempExt th, theta := q.theta + th, thetaN := q.thetaN + 1
    got := q.got ||| BitVec.ofNat 3 (2 ^ k) }
  let s := { s with afe := { s.afe with theta := th } }
  let s := s.faultEdge ch (5 + k) c.ovr c3.ovr
  s.faultEdge ch 2 c.rtdopen c3.rtdopen

/-- DECIMATED_SAMPLE: the window at the last centre completes, and its sample joins its point's instant there, or opens it (R129 to
R131). -/
def execDecimatedSample (ch : Fin 96) (x : Int) (theta : BitVec 16) (openLead : Bool) (s : State) : Answer :=
  let p := ch.val / 3
  if s.fieldRuns && s.custPresent p then
    match s.sampleState p with
    | none => .next s
    | some (c, t) =>
      if !chActive (t.chan ch.val).cfg then .next s
      else if decide ((t.pt p).ctr = some c) && !bit (t.pt p).got (ch.val % 3) then .next (t.takeSample ch.val x theta.toInt openLead)
      else if t.instantFree p c then .next ((t.openInstant p c).takeSample ch.val x theta.toInt openLead)
      else .next s
  else .next s

/-! ## Calibration verdict (R146, R148) -/

/-- Sum and count over the window. -/
def calTotal (c : Chan) : Int × Nat := (c.calSecs.foldl (fun a p => a + p.1) 0, c.calSecs.foldl (fun a p => a + p.2) 0)

/-- Maximum minus minimum of the one-second means is at most `ppm` millionths of 2^30. -/
def driftOk (secs : List (Int × Nat)) (ppm : Nat) : Bool :=
  secs.all (fun a => secs.all (fun b =>
    decide ((a.1 * b.2 - b.1 * a.2) * 1000000 ≤ (ppm * 2 ^ 30 * a.2 * b.2 : Int))))

/-- The standard deviation over the window is at most `ppm` millionths of 2^30. -/
def noiseOk (c : Chan) (ppm : Nat) : Bool :=
  let (t, n) := calTotal c
  decide (((n * c.calSq : Nat) - t * t) * 10 ^ 12 ≤ ((ppm * 2 ^ 30) ^ 2 * n ^ 2 : Int))

/-- A ratio `num / den` lies in 0.5 to 2.0. -/
def csOk (num den : Int) : Bool :=
  if 0 < den then decide (den ≤ 2 * num) && decide (num ≤ 2 * den)
  else if den < 0 then decide (2 * num ≤ den) && decide (2 * den ≤ num) else false

/-- The reasons for which a calibration fails (Tables 5.7, 5.8). -/
def State.calReasons (s : State) (p : Nat) (c : Calib) : List Nat :=
  let x := s.chan c.chan
  let (t, n) := calTotal x
  let z := (fld c.lim0 16 16).toNat
  let noise := (fld c.lim0 0 16).toNat
  let drift := (fld c.lim1 16 16).toNat
  let span := (fld c.lim1 0 16).toNat
  let r (ok : Bool) (k : Nat) : List Nat := if ok then [] else [k]
  let clean := !x.calBad && x.calSecs.all (fun a => decide (a.2 ≠ 0))
  if c.kind = 1 then
    r (decide (t.natAbs * 1000000 ≤ z * 2 ^ 30 * n)) 1 ++ r (noiseOk x noise) 2
      ++ r (decide (c.chan % 3 ≠ 0) || driftOk (s.chan (3 * p + 1)).calSecs drift) 3 ++ r clean 5
  else if c.kind = 2 then
    r (noiseOk x noise) 2 ++ r (driftOk x.calSecs span) 4 ++ r clean 5
      ++ r (csOk (c.ref * n) (t - x.cz.toInt * n)) 6 ++ r (decide (2 ^ 30 ≤ 5 * c.ref) && decide (10 * c.ref ≤ 11 * 2 ^ 30)) 7
  else if c.kind = 3 then r (driftOk x.calSecs span) 4 ++ r clean 5
  else
    match x.low with
    | none => r (driftOk x.calSecs span) 4 ++ r clean 5 ++ [8]
    | some (lt, ln, lr, _) =>
      r (driftOk x.calSecs span) 4 ++ r clean 5 ++ r (csOk ((c.ref - lr) * (n * ln : Nat)) (t * ln - lt * n)) 6
        ++ r (decide (2 ^ 30 ≤ 4 * (c.ref - lr))) 7

/-- A quotient of signed numbers with the open rounding. -/
def State.openDiv (n d : Int) (s : State) : Int × State := if d < 0 then s.openRound (-n) d.natAbs else s.openRound n d.natAbs

/-- The coefficients an accepted calibration gives (Table 5.7): CZ and CS. -/
def State.calCoef (c : Calib) (s : State) : (BitVec 32 × BitVec 32) × State :=
  let x := s.chan c.chan
  let (t, n) := calTotal x
  if c.kind = 1 then
    let (m, s) := s.openDiv t n
    ((BitVec.ofInt 32 m, x.cs), s)
  else if c.kind = 2 then
    let (q, s) := s.openDiv (c.ref * n * 2 ^ 30) (t - x.cz.toInt * n)
    ((x.cz, BitVec.ofInt 32 q), s)
  else
    match x.low with
    | none => ((x.cz, x.cs), s)
    | some (lt, ln, lr, _) =>
      let (q, s) := s.openDiv ((c.ref - lr) * (n * ln : Nat) * 2 ^ 30) (t * ln - lt * n)
      let (z, s) := s.openDiv (lt * q - lr * 2 ^ 30 * ln) (q * ln)
      ((BitVec.ofInt 32 z, BitVec.ofInt 32 q), s)

/-- CALIBRATION_VERDICT: after the window's tenth block every check is made; a pass holds the new coefficients, or the RTD low
point, for the next boundary, a failure ends the calibration (R146, R148). Which of several failed checks REASON names is
not given. -/
def execCalibrationVerdict (point : Fin 32) (s : State) : Answer :=
  let p := point.val
  match (s.pt p).cal with
  | none => .next s
  | some c =>
    if s.fieldRuns && c.started && decide (10 ≤ c.blocks) then
      match s.calReasons p c with
      | [] =>
        let x := s.chan c.chan
        let s := s.setPt p { s.pt p with cal := none }
        let s := { s with afe := { s.afe with calStatus := .ok, calReason := 0, calChan := c.chan } }
        if c.kind = 3 then
          let (t, n) := calTotal x
          .next (s.setChan c.chan { x with low := some (t, n, c.ref, s.tb.elapsed), calNew := some (3, x.cz, x.cs) })
        else
          let ((z, q), s) := s.calCoef c
          .next (s.setChan c.chan { x with calNew := some (c.kind, z, q) })
      | [r] => .next (s.calReject p r)
      | rs =>
        let (k, s) := s.draw 8
        .next (s.calReject p (rs.getD (k.toNat % rs.length) 0))
    else .next s

/-- RTD_LOW_POINT_EXPIRY: a held low point is dropped after 600 s (Table 5.7). -/
def execRtdLowPointExpiry (ch : Fin 96) (s : State) : Answer :=
  match (s.chan ch.val).low with
  | some (_, _, _, t) =>
    if s.pwr.mainOn && s.past t (600 * sCounts) then .next (s.setChan ch.val { s.chan ch.val with low := none }) else .next s
  | none => .next s

/-- Every running calibration ends where the device enters P3 or P4 (R149). -/
def State.calAbortAll (s : State) : State := s.afe.points.foldl (fun s p => s.calReject p.1 9) s

/-! ## The AFE's part of a close of sequence 0x0002 (R136, R147) -/

/-- Channel `ch` is absent (R5, R127). -/
def State.chAbsent (s : State) (ch : Nat) : Bool := decide (96 ≤ ch) || !s.custPresent (ch / 3)

/-- AFE_TTLOAD: load a coefficient blob for channel `ch` from `addr`. A calibration of the channel is in progress until its coefficients
are in force, so that no boundary mixes them with a blob (R136, R148; log entry 29). -/
def State.blobLoad (addr ch : Nat) (s : State) : Status × State :=
  if s.chAbsent ch then (.absent, s)
  else if (match (s.pt (ch / 3)).cal with | some c => decide (c.chan = ch) | none => false) || (s.chan ch).calNew.isSome then (.retry, s)
  else
    match s.unitRead addr 148 with
    | (.ok, bs) =>
      let cs := takeBytes bs 140 4
      if takeBytes bs 144 4 ≠ (crcC (bs.take 144)).toNat then (.integrity, s)
      else if cs < 0x20000000 ∨ 0x80000000 < cs then (.outOfRange, s)
      else (.ok, s.setChan ch { s.chan ch with blobNew := some (bs.take 144) })
    | (st, _) => (st, s)

/-- Whether a calibration kind fits a channel's mode (Table 5.7). -/
def calFits (kind ch : Nat) (w : W32) : Bool :=
  if kind ≤ 2 then decide (ch % 3 ≠ 2) && decide (chMode w = 1 ∨ chMode w = 2) else decide (ch % 3 = 2) && chRtd w

/-- AFE_CALCMD: start a calibration (R146, R147). -/
def State.calStart (ref cmd : W32) (s : State) : Status × State :=
  let kind := (fld cmd 28 4).toNat
  let ch := (fld cmd 0 7).toNat
  let p := ch / 3
  if s.chAbsent ch then (.absent, s)
  else if kind = 0 ∨ 4 < kind then (.outOfRange, s)
  else if !calFits kind ch (s.chan ch).cfg then (.denied, s)
  else if (s.pt p).cal.isSome then (.retry, s)
  else (.ok, s.setPt p { s.pt p with cal := some ⟨kind, ch, ref.toInt, 0#32, 0#32, 0, false⟩ })

/-- AFE's part of a close: every TTLOAD takes the address, every CALCMD the CALREF, written before it. -/
def State.afeClose : List (Nat × W32) → State → Status × State
  | [], s => (.ok, s)
  | (o, v) :: ws, s =>
    let s := s.setReg o v
    let r := if o = 0x0F002C then s.blobLoad (s.reg2 0x0F0024) v.toNat
      else if o = 0x0F0034 then s.calStart (s.reg 0x0F0030) v
      else (.ok, s)
    match r with
    | (.ok, s) => State.afeClose ws s
    | r => r

/-- What AFE_CALSTAT shows of a refused start (Table 5.8). -/
def State.calRefused (st : Status) (ws : List (Nat × W32)) (s : State) : State :=
  match ws.reverse.find? (fun p => decide (p.1 = 0x0F0034)) with
  | some p => if st ∈ [Status.retry, .denied, .absent, .outOfRange] then
      { s with afe := { s.afe with calStatus := st, calReason := 0, calChan := (fld p.2 0 7).toNat } } else s
  | none => s

/-! ## Registers (Tables 5.2, 5.3, 5.6, 5.8) -/

/-- The check of an AFE_CHCFG value for channel `ch` (R128). -/
def chcfgCheck (ch v : Nat) : Status :=
  let mode := vf v 28 3
  if 5 ≤ mode then .denied
  else if (3 ≤ mode ∧ ch % 3 ≠ 2) ∨ vf v 21 3 < vf v 24 3 ∨ (ch % 3 ≠ 0 ∧ (vf v 24 3 ≠ 0 ∨ vf v 21 3 ≠ 0))
      ∨ vf v 0 14 < 1000 ∨ 10000 < vf v 0 14 then .outOfRange
  else .ok

/-- Free a block slot or a mirror slot from a done register's value: [31:27] point, [2:0] slot (R139, R306). -/
def doneBits (v : Nat) : Nat × BitVec 8 := (v / 2 ^ 27 % 32, BitVec.ofNat 8 (2 ^ (v % 8)))

/-- An AFE register leads to a channel, pulse input or custody point that is absent: AFE_CHCFG and AFE_PICFG through their selection,
AFE_LOSTc (R5, R127). -/
def State.afeAbsent (s : State) (o : Nat) : Bool :=
  if o = 0x0F0004 then s.chAbsent (s.regF 0x0F0000 0 7)
  else if o = 0x0F0010 then !s.custPresent (s.regF 0x0F000C 0 6 / 2)
  else decide (0x0F0080 ≤ o) && !s.custPresent ((o - 0x0F0080) / 4)

/-- Writes of the AFE window that are not SEQ (R5, R127, R128, R133, R139, R141, R149). Selecting an absent channel or input answers
ABSENT, and the selection stands, so that the accesses made through it answer ABSENT too (log entry 29). -/
def writeAfe : UnitWrite := fun _ r o v s =>
  let ch := s.regF 0x0F0000 0 7
  let pi := s.regF 0x0F000C 0 6
  if s.afeAbsent o then refuse .absent s
  else if o = 0x0F0000 then (if s.chAbsent (vf v 0 7) then .absent else .ok, s.store r o v)
  else if o = 0x0F000C then (if !s.custPresent (vf v 0 6 / 2) then .absent else .ok, s.store r o v)
  else if o = 0x0F0004 then
    match chcfgCheck ch v with
    | .ok =>
      let s := s.setChan ch { s.chan ch with cfgNew := some (BitVec.ofNat 32 v &&& r.mask) }
      (.ok, match (s.pt (ch / 3)).cal with
        | some c => if c.chan = ch then s.calReject (ch / 3) 9 else s
        | none => s)
    | st => refuse st s
  else if o = 0x0F0008 then
    let dn := vf v 24 8
    let up := vf v 16 8
    let dw := vf v 0 16
    if dn ≤ 2 * up ∨ dn < 50 ∨ 99 < dn ∨ up < 10 ∨ 49 < up ∨ dw < 1 ∨ 4000 < dw then refuse .outOfRange s else accept r o v s
  else if o = 0x0F0010 then
    if 5 ≤ vf v 28 3 ∨ (vf v 28 3 = 4 ∧ pi % 2 = 1) then refuse .denied s
    else if !s.custPresent (vf v 22 5) then refuse .absent s
    else (.ok, s.setPulse pi { s.pulse pi with cfg := BitVec.ofNat 32 v &&& r.mask })
  else if o = Reg.afeBlkbase then accept r o (v - v % (4 * 2 ^ 20)) s
  else if o = 0x0F0020 then
    let (p, m) := doneBits v
    if !s.custPresent p then refuse .absent s
    else (.ok, s.setPt p { s.pt p with busy := (s.pt p).busy &&& ~~~m })
  else accept r o v s

/-- Reads of the AFE window. -/
def readAfe (o : Nat) (s : State) : W32 :=
  let ch := s.regF 0x0F0000 0 7
  if o = 0x0F0004 then (match (s.chan ch).cfgNew with | some w => w | none => (s.chan ch).cfg)
  else if o = 0x0F0010 then (s.pulse (s.regF 0x0F000C 0 6)).cfg
  else if o = 0x0F0040 then
    let run := s.afe.points.any (fun p => match p.2.cal with | some c => c.started | none => false)
    let low := s.afe.chans.any (fun p => p.2.low.isSome)
    BitVec.ofNat 32 ((if run then 2 ^ 31 else 0) + (if low then 2 ^ 30 else 0) + s.afe.calStatus.code * 65536
      + s.afe.calReason * 256 + s.afe.calChan)
  else if 0x0F0080 ≤ o then (s.pt ((o - 0x0F0080) / 4)).lost
  else s.reg o

/-! ## Pulse inputs (R141 to R144) -/

def pMode (w : W32) : Nat := (fld w 28 3).toNat
/-- The input that counts an edge of input `i`: the even one of a pair in quadrature, else itself. -/
def State.pulseOwner (s : State) (i : Nat) : Nat := if pMode (s.pulse (i / 2 * 2)).cfg = 4 then i / 2 * 2 else i
def pActive (w : W32) : Bool := bit w 31 && decide (pMode w ≠ 0)

/-- Count one accepted edge: `d` is what it adds to the count. -/
def Pulse.tally (x : Pulse) (e : PEdge) (d : Int) : Pulse :=
  { x with
    count := BitVec.ofInt 32 (x.count.toInt + d), edges := x.edges + 1
    first := if x.edges = 0 then e.at_ else x.first, last := e.at_, stamp := e.st
    net := if pMode x.cfg = 4 then x.net + d else 0 }

/-- The direction of a quadrature edge of line `b` (true B) to level `up` while the other line stands at `other`: A leading B
counts up (log entry 29). -/
def quadDir (b up other : Bool) : Int := if b then (if up = other then 1 else -1) else (if up = other then -1 else 1)

/-- The second of the stamping domain a stamp point of now falls in. -/
def State.secOfNow (s : State) : Nat := if s.tb.clkLost then (s.dom s.sel).sec.toNat else (fld s.stampNow 0 64).toNat

/-- The body of a pulse item (R143). More than 65,535 rejected pulses in a second have no stated count. -/
def State.pulseBody (i : Nat) (s : State) : Item × State :=
  let x := s.pulse i
  let (g, s) : BitVec 16 × State := if x.glitch < 65536 then (BitVec.ofNat 16 x.glitch, s) else s.draw 16
  let rev := bit x.cfg 27 && decide (x.net < 0)
  let f : Nat := (if x.fast then 1 else 0) + (if rev then 2 else 0)
  (setFld (setFld (setFld (setFld (setFld (setFld (setFld (setFld (0#512 : Item) 288 (s.custWord (fld x.cfg 22 5).toNat))
    320 (BitVec.ofNat 8 i)) 328 (BitVec.ofNat 8 f)) 336 g) 352 x.count) 384 (BitVec.ofNat 32 x.edges))
    416 (BitVec.ofNat 32 (x.last - x.first))) 448 (BitVec.ofInt 32 x.net), s)

/-- Issue an input's item for the second its tally covers (R142 to R144), kept where another device owns the point (R306). -/
def State.pulseIssue (i : Nat) (s : State) : State :=
  let x := s.pulse i
  let (body, s) := s.pulseBody i
  let s := if bit x.cfg 27 && decide (x.net < 0) then
      s.event 0x0F07 (BitVec.ofNat 32 (min 65535 x.net.natAbs * 65536 + i))
    else s
  if s.ownsPoint (fld x.cfg 22 5).toNat then
    let (it, s) := s.stampAs 11 x.stamp body
    (s.fifoPush 11 s.afePrio it).2.spnBlock (.pulse (Fin.ofNat 64 i) it)
  else s.setPulse i { s.pulse i with kept := (x.kept.drop (x.kept.length - 7)) ++ [(x.stamp, body)] }

/-- Begin the tally of second `sec`: the item of the second before it is issued, where a counted edge fell in it (R143). -/
def State.pulseRoll (i sec : Nat) (s : State) : State :=
  if (s.pulse i).sec = some sec then s
  else
    let s := if (s.pulse i).edges = 0 then s else s.pulseIssue i
    s.setPulse i { s.pulse i with
      edges := 0, first := 0, last := 0, stamp := {}, net := 0, glitch := 0, fast := false, sec := some sec }

/-- An edge's pulse has lasted: the edge is accepted, and counted in the second it fell in where the mode counts it (R141 to R144). -/
def State.pulseAccept (i : Nat) (e : PEdge) (s : State) : State :=
  let x := s.pulse i
  let prev := if e.up then x.prevR else x.prevF
  let fast := match prev with | some t => decide (e.at_ < t + 10 * usCounts) | none => false
  let s := s.setPulse i { x with
    level := e.up, prevR := (if e.up then some e.at_ else x.prevR), prevF := (if e.up then x.prevF else some e.at_) }
  let o := s.pulseOwner i
  let s := s.pulseRoll o e.sec
  let y := s.pulse o
  let y := if fast then { y with fast := true } else y
  let m := pMode y.cfg
  if m = 4 then
    let other := (s.pulse (if i = o then o + 1 else o)).level
    s.setPulse o (y.tally e (quadDir (decide (i ≠ o)) e.up other))
  else if m = 3 ∨ (m = 1 ∧ e.up) ∨ (m = 2 ∧ !e.up) then s.setPulse o (y.tally e 1)
  else s.setPulse o y

/-- Accept an input's waiting edge once its pulse has lasted GLITCH. -/
def State.pulseFlush (i : Nat) (s : State) : State :=
  let x := s.pulse i
  match x.pendE with
  | some d => if s.past d.at_ (fld x.cfg 0 10).toNat then State.pulseAccept i d (s.setPulse i { x with pendE := none }) else s
  | none => s

/-- Accept the waiting edges that have lasted: of the input, or of both lines of a quadrature pair in the order in which they fell, so
that each edge meets the other line's level of its own time (R144). -/
def State.pulseSettle (i : Nat) (s : State) : State :=
  let o := i / 2 * 2
  if pMode (s.pulse o).cfg ≠ 4 then s.pulseFlush i
  else
    let (a, b) : Nat × Nat := match (s.pulse o).pendE, (s.pulse (o + 1)).pendE with
      | some x, some y => if y.at_ < x.at_ then (o + 1, o) else (o, o + 1)
      | _, _ => (o, o + 1)
    let s := s.pulseFlush a
    if (s.pulse a).pendE.isSome then s else s.pulseFlush b

/-- The inputs whose edges input `i` counts, or shares a pair with. -/
def State.pulseLines (s : State) (i : Nat) : List Nat :=
  if pMode (s.pulse (i / 2 * 2)).cfg = 4 then [i / 2 * 2, i / 2 * 2 + 1] else [i]

/-- PULSE_EDGE: an edge is captured; it and its predecessor are rejected together where less than GLITCH lies between them
(R141, R142). -/
def execPulseEdge (inp : Fin 64) (rising : Bool) (s : State) : Answer :=
  let i := inp.val
  let o := s.pulseOwner i
  if s.fieldRuns && s.custPresent (i / 2) && pActive (s.pulse o).cfg then
    let s := s.pulseSettle i
    let x := s.pulse i
    let e : PEdge := ⟨s.tb.elapsed, rising, s.secOfNow, s.momentNow⟩
    match x.pendE with
    | none => .next (s.setPulse i { x with pendE := some e })
    | some d =>
      if s.past d.at_ (fld x.cfg 0 10).toNat then
        let s := State.pulseAccept i d (s.setPulse i { x with pendE := none })
        .next (s.setPulse i { s.pulse i with pendE := some e })
      else
        let s := s.setPulse i { x with pendE := none }
        let s := if (s.pulseLines i).any (fun j => (s.pulse j).pendE.isSome) then s else s.pulseRoll o e.sec
        .next (s.setPulse o { s.pulse o with glitch := (s.pulse o).glitch + 1 })
  else .next s

/-- PULSE_SECOND_ITEM: the second an input's tally covers has ended, and no edge of it is still under GLITCH old: its item is issued
(R143). -/
def execPulseSecondItem (inp : Fin 64) (s : State) : Answer :=
  let i := inp.val
  if s.fieldRuns && s.custPresent (i / 2) then
    let s := s.pulseSettle i
    let n := s.secOfNow
    if (s.pulseLines i).any (fun j => match (s.pulse j).pendE with | some e => decide (e.sec ≠ n) | none => false) then .next s
    else .next (s.pulseRoll i n)
  else .next s

/-! ## Taking over the twin's points (R308) -/

/-- Put a kept item into a list in stamp order. -/
def insKept (k : Nat × TimeRec × Item) : List (Nat × TimeRec × Item) → List (Nat × TimeRec × Item)
  | [] => [k]
  | x :: xs => if stampLt k.2.1.st x.2.1.st then k :: x :: xs else x :: insKept k xs

/-- Issue the kept block of a point, its slot busy from now on; it stays kept while FIFO 10 is full. -/
def State.issueBlock (p : Nat) (k : TimeRec × Item) (s : State) : State :=
  if 32 ≤ (s.fifo 10).items.length then s
  else
    let x := s.pt p
    let s := s.setPt p { x with
      busy := x.busy ||| BitVec.ofNat 8 (2 ^ ((fld k.2 416 32).toNat % 8)), kept := x.kept.filter (fun y => decide (y ≠ k)) }
    let (it, s) := s.stampAs 10 k.1 k.2
    (s.fifoPush 10 s.afePrio it).2

/-- Issue the kept item of a pulse input; it stays kept while FIFO 11 is full. -/
def State.issuePulse (i : Nat) (k : TimeRec × Item) (s : State) : State :=
  if 32 ≤ (s.fifo 11).items.length then s
  else
    let x := s.pulse i
    let s := s.setPulse i { x with kept := x.kept.filter (fun y => decide (y ≠ k)) }
    let (it, s) := s.stampAs 11 k.1 k.2
    (s.fifoPush 11 s.afePrio it).2

/-- The survivor issues items for the blocks held in its slots of the points it now owns and for the pulse seconds of the
last 8 s it kept, oldest first (R306, R308). -/
def State.custodyTakeover (s : State) : State :=
  let bs := (s.afe.points.filter (fun e => s.ownsPoint e.1)).flatMap (fun e => e.2.kept.map (fun k => (e.1, k)))
  let s := (bs.foldl (fun l k => insKept k l) []).foldl (fun s k => s.issueBlock k.1 k.2) s
  let ps := (s.afe.pulses.filter (fun e => s.ownsPoint (fld e.2.cfg 22 5).toNat)).flatMap (fun e =>
    (e.2.kept.filter (fun k => decide ((s.dom s.sel).t32 ≤ stampT32 k.1.st + 8 * 2 ^ 32))).map (fun k => (e.1, k)))
  (ps.foldl (fun l k => insKept k l) []).foldl (fun s k => s.issuePulse k.1 k.2) s

/-- At an epoch switch a point the device now owns by TWN_CUSTOWN starts anew: what it kept before is not issued (R306). -/
def State.custForget (s : State) : State :=
  if s.twn.takeover then s
  else
    let s := (s.afe.points.filter (fun e => s.ownsPoint e.1)).foldl (fun s e => s.setPt e.1 { s.pt e.1 with kept := [] }) s
    (s.afe.pulses.filter (fun e => s.ownsPoint (fld e.2.cfg 22 5).toNat)).foldl (fun s e => s.setPulse e.1 { s.pulse e.1 with kept := [] }) s

end Sys2Proof.Machine
end

