-- ==== Sys2Proof/Machine/Balance.lean ====
section
/-! DEFINITION. The balance engine (07_balance.md): topology loads, postings, evaluation of intervals, revisions and verdict
records (R174 to R191). -/

namespace Sys2Proof.Machine
open Sys2Proof

namespace Reg
abbrev balTopaddr : Nat := 0x0D0000
abbrev balUtcoff : Nat := 0x0D0010
abbrev balOutq : Nat := 0x0D0028
abbrev balCusrsti : Nat := 0x0D0030
end Reg

/-! ## Topology (R175 to R178) -/

/-- POINT, SIGN, UNIDIR, SHARE (0 is 65,536) and NODE of an edge (Table 7.1). -/
def ePoint (e : BitVec 64) : Nat := (fld e 0 21).toNat
def eOut (e : BitVec 64) : Bool := bit e 21
def eUnidir (e : BitVec 64) : Bool := bit e 22
def eShare (e : BitVec 64) : Nat := let n := (fld e 32 16).toNat; if n = 0 then 65536 else n
def eNode (e : BitVec 64) : Nat := (fld e 48 16).toNat

/-- Fields of a node record (Table 7.2). -/
def nKind (n : BitVec 512) : Nat := (fld n 0 8).toNat
def nTerm (n : BitVec 512) : Nat := (fld n 8 8).toNat
def nEn (n : BitVec 512) : Bool := bit n 16
def nCusum (n : BitVec 512) : Bool := bit n 17
def nStatept (n : BitVec 512) : Nat := (fld n 32 32).toNat
def nF (n : BitVec 512) (i : Nat) : Word := fld n (8 * i) 64
def nTmin (n : BitVec 512) : Nat := (fld n 256 64).toNat
def nCrc (n : BitVec 512) : W32 := fld n 480 32

/-- Whole numbers as binary64. -/
def f64 (n : Int) : Word := (roundInt false n 1).1
/-- A binary64 lies between two others. -/
def fIn (lo hi a : Word) : Bool := fLe lo a && fLe a hi

/-- A node record keeps to Table 7.2. -/
def nodeOk (n : BitVec 512) : Bool :=
  decide (nKind n ≤ 1) && decide (nTerm n ≤ 3) && decide ((fld n 18 6).toNat = 0) && decide ((fld n 24 8).toNat = 0)
    && decide (nStatept n < 2 ^ 21) && (decide (nTerm n = 1 ∨ nTerm n = 2) || decide (nStatept n = 0))
    && fFinite (nF n 8) && (decide (nTerm n ≠ 3) || fIn 0#64 0x3FE0000000000000#64 (nF n 8))
    && fFinite (nF n 16) && fIn (f64 1) (f64 10) (nF n 24)
    && fIn 0#64 (f64 5) (nF n 40) && fIn 0x3FE0000000000000#64 (f64 100) (nF n 48)
    && decide ((fld n 448 32).toNat = 0) && !(decide (nTerm n = 1) && decide (nKind n = 1))

/-- Edges sorted by point, then node. -/
def edgesSorted : List (BitVec 64) → Bool
  | a :: b :: t => decide (ePoint a * 65536 + eNode a ≤ ePoint b * 65536 + eNode b) && edgesSorted (b :: t)
  | _ => true

/-- The checks of a topology but its CRCs (R178). -/
def topoOk (ns : List (BitVec 512)) (es : List (BitVec 64)) : Bool :=
  ns.all nodeOk && es.all (fun e => decide ((fld e 23 9).toNat = 0) && decide (eNode e < ns.length)) && edgesSorted es
    && es.all (fun e =>
      let same := es.filter (fun f => decide (ePoint f = ePoint e))
      decide (same.length ≤ 16) &&
        decide ((same.filter (fun f => decide (eOut f = eOut e))).foldl (fun n f => n + eShare f) 0 ≤ 65536))
    && decide (((ns.filter (fun n => decide (nTerm n = 1 ∨ nTerm n = 2))).map nStatept).eraseDups.length ≤ 4096)

/-- The records of a DRAM area. -/
def State.recs (s : State) (w a : Nat) : Nat → List (BitVec w)
  | 0 => []
  | n + 1 => BitVec.ofNat w (s.ramNat a (w / 8)) :: s.recs w (a + w / 8) n

/-- Read and check the staging buffer: node count, edge count, node records from byte 64, then edges (the buffer's header is
DESIGN CHOICE, log entry 28). -/
def State.topoRead (a : Nat) (s : State) : Status × Option Topo :=
  match s.unitRead a 64 with
  | (.ok, hd) =>
    let n := takeBytes hd 0 4
    let m := takeBytes hd 4 4
    if 65536 < n ∨ 4194304 < m then (.outOfRange, none)
    else if (s.unitRead (a + 64) (64 * n + 8 * m)).1 ≠ .ok then ((s.unitRead (a + 64) (64 * n + 8 * m)).1, none)
    else
      let ns := s.recs 512 (a + 64) n
      let es := s.recs 64 (a + 64 + 64 * n) m
      if ns.any (fun r => decide (crcC (bytesOf 60 r) ≠ nCrc r)) then (.integrity, none)
      else if topoOk ns es then (.ok, some ⟨ns, es, 0#32, 0⟩) else (.outOfRange, none)
  | (st, _) => (st, none)

/-! ## Time of the engine -/

/-- UTC seconds of the stamping domain by BAL_UTCOFF (R179). -/
def State.balUtc (s : State) : Int := (s.dom s.sel).sec.toNat - (s.reg Reg.balUtcoff).toInt
/-- The interval that runs now. -/
def State.balNow (s : State) : Nat := (s.balUtc / 900).toNat
def State.latehS (s : State) : Nat := s.regF Reg.balTiming 24 8 * 3600
/-- Every interval below this is final: LATEH hours have passed since its end (R187); one final stays final (R188). -/
def State.balFinal (s : State) : Nat := max s.bal.finalBelow ((s.balUtc - s.latehS) / 900).toNat
/-- Some time domain has sufficient quality (R185). -/
def State.timeGood (s : State) : Bool := decide (s.qmin ≤ s.cls false) || decide (s.qmin ≤ s.cls true)
/-- The address of a verdict record (R189). -/
def State.verdictAddr (s : State) (i n : Nat) : Nat :=
  s.reg2 Reg.balWorkbase + 0x40000000 + i % (4 * s.regF Reg.balTiming 24 8 + 2) * 0x800000 + n * 128
/-- The record of a node as it stands in the region. -/
def State.verdictAt (s : State) (i n : Nat) : BitVec 1024 := BitVec.ofNat 1024 (s.ramNat (s.verdictAddr i n) 128)
/-- The region holds the record of that interval and node, whole. -/
def State.recordStands (s : State) (i n : Nat) : Bool :=
  let r := s.verdictAt i n
  decide ((fld r 0 32).toNat = i) && decide ((fld r 32 16).toNat = n) && decide (fld r 992 32 = crcC (bytesOf 124 r))

/-- A node's interval has been closed: by this device, or by the twin whose records it received (R185, R327). -/
def State.closed (s : State) (n i : Nat) : Bool :=
  match s.bal.nextClose with
  | some c => decide (i < c) && ((match s.bal.firstClose with | some f => decide (f ≤ i) | none => false) || s.recordStands i n)
  | none => false
/-- A node's interval has been closed, or its close has begun and stands stalled (R185, R190). -/
def State.closeBegun (s : State) (n i : Nat) : Bool := s.closed n i || (s.bal.nextNode.isSome && decide (s.bal.nextClose = some i))

/-- The topology active at an interval's start (R175). -/
def State.topoOf (s : State) (i : Nat) : Option Topo := s.bal.gens.reverse.find? (fun t => decide (t.from_ ≤ i))
/-- The oldest generation is still needed by an interval that is not final. -/
def State.oldestNeeded (s : State) : Bool :=
  match s.bal.gens with
  | _ :: g :: _ => decide (s.balFinal < g.from_)
  | _ => true

/-- The edges of a node. -/
def Topo.edgesOf (t : Topo) (n : Nat) : List (BitVec 64) := t.edges.filter (fun e => decide (eNode e = n))

/-- The epoch switch of BAL: a loaded topology becomes active; the oldest of four goes (R175). -/
def State.balSwitch (b32 : Nat) (s : State) : State :=
  match s.bal.shadow with
  | none => s
  | some t =>
    let utc : Int := ((b32 + 2 ^ 32 - 1) / 2 ^ 32 : Nat) - (s.reg Reg.balUtcoff).toInt
    let g := { t with epoch := s.cfg.cur, from_ := ((utc + 899) / 900).toNat }
    let kept := if 4 ≤ s.bal.gens.length then s.bal.gens.drop 1 else s.bal.gens
    { s with bal := { s.bal with gens := kept ++ [g], shadow := none } }

/-- BAL_TOPOLOGY_LOAD_DONE: the load is checked, accepted or refused (R178). -/
def execBalTopologyLoadDone (s : State) : Answer :=
  match s.bal.topBusy with
  | none => .next s
  | some a =>
    if s.pwr.mainOn then
      let (st, t) := s.topoRead a
      let b := { s.bal with topBusy := none, topStatus := st, topKind := 1 }
      .next { s with bal := match t with | some t => { b with shadow := some t } | none => b }
    else .next s

/-! ## Postings (R179 to R181) -/

def pInterval (p : BitVec 256) : Nat := (fld p 0 32).toNat
def pQstat (p : BitVec 256) : BitVec 16 := fld p 32 16
def pKind (p : BitVec 256) : Nat := (fld p 48 8).toNat
def pFinal (p : BitVec 256) : Bool := bit p 56
def pReverse (p : BitVec 256) : Bool := bit p 57
def pQty (p : BitVec 256) : Int := (fld p 64 64 : BitVec 64).toInt
def pUnc (p : BitVec 256) : Nat := (fld p 128 64).toNat
/-- The global point of a point word. -/
def wordPoint (w : W32) : Nat := (fld w 0 21).toNat

/-- A point has an edge or is a state point of a topology. -/
def Topo.knows (t : Topo) (pt : Nat) : Bool :=
  t.edges.any (fun e => decide (ePoint e = pt)) || t.nodes.any (fun n => decide (nTerm n = 1 ∨ nTerm n = 2) && decide (nStatept n = pt))

/-- The status of a BALPOST, in the order of R180; `st` are the postings already staged. -/
def State.postStatus (s : State) (w : W32) (p : BitVec 256) (st : List Posting) : Status :=
  let i := pInterval p
  let pt := wordPoint w
  let same (q : Posting) : Bool := decide (wordPoint q.point = pt) && decide (pInterval q.body = i)
  if i < s.balFinal then .stale
  else if s.balNow + 1 < i ∨ 2 < pKind p ∨ (fld p 58 6).toNat ≠ 0 ∨ (fld p 192 64).toNat ≠ 0
      ∨ (match s.topoOf i with | some t => !t.knows pt | none => true) = true then .outOfRange
  else if pKind p = 2 then
    if s.bal.states.any (fun x => decide (x.1 = pt ∧ x.2.1 = i)) || st.any (fun q => same q && decide (pKind q.body = 2)) then .duplicate else .ok
  else if pFinal p && (decide ((pt, i) ∈ s.bal.finals) || st.any (fun q => same q && decide (pKind q.body ≠ 2) && pFinal q.body)) then .duplicate
  else .ok

/-- BALPOST (R60, R174, R180). -/
def execBalpost (x : Ix) (rd ra rb : GReg) (s : State) : Answer :=
  garnilPriv x (fun _ => outsideHeartwood x.who) (unlessFenced x.who fun s =>
    let t := s.me x.who
    let pw : W32 := fld (t.getG ra) 0 32
    let a := (t.getG rb).toNat
    if !s.present 0x0D || s.pointAbsent pw then .fault .absentUnit .absent
    else if !scrOk a 32 then .fault .illegal .ok
    else
      let p : BitVec 256 := BitVec.ofNat 256 (t.scrNat a 32)
      let st := s.postStatus pw p t.stage.posts
      let posts := if st = .ok then t.stage.posts ++ [⟨pw, p⟩] else t.stage.posts
      .go (s.putMe x.who ({ t with stage := { t.stage with posts := posts } }.setG rd st.word))) s

def accKey (i n : Nat) : Nat := i * 65536 + n
def State.acc (s : State) (i n : Nat) : Acc := Tab.get {} s.bal.accs (accKey i n)
/-- Mark a node dirty for an interval. -/
def State.markDirty (n i : Nat) (s : State) : State :=
  if (n, i) ∈ s.bal.dirty then s else { s with bal := { s.bal with dirty := s.bal.dirty ++ [(n, i)] } }

/-- The 64-bit mix of a posting (R181). -/
def mixOf (p : Posting) : Word :=
  let bs := bytesOf 32 p.body ++ bytesOf 4 p.point
  (crcC bs) ++ (crcE bs)

/-- One edge of a committed quantity posting (R181's pseudocode). -/
def State.postEdge (p : Posting) (t : Topo) (s : State) (e : BitVec 64) : State :=
  let n := eNode e
  let i := pInterval p.body
  if nKind (t.nodes.getD n 0#512) ≠ pKind p.body then { s with bal := { s.bal with kindmis := satInc 0x3FF s.bal.kindmis } }
  else
    let a := s.acc i n
    let q := divHalfEven (pQty p.body * eShare e) 65536
    let v := (divHalfEven (pUnc p.body * eShare e : Nat) 65536).toNat
    let a := if eOut e then { a with out := a.out + q } else { a with inn := a.inn + q }
    let a : Acc := { a with var := min (a.var + v * v) (2 ^ 128 - 1), qany := a.qany ||| pQstat p.body, posts := a.posts + 1#32,
                            setsum := a.setsum + mixOf p, finals := a.finals + (if pFinal p.body then 1 else 0),
                            revpt := if eUnidir e && (decide (pQty p.body < 0) || pReverse p.body) then p.point else a.revpt }
    let s := { s with bal := { s.bal with accs := Tab.set {} s.bal.accs (accKey i n) a } }
    if s.closeBegun n i then s.markDirty n i else s

/-- The nodes of a topology that name a state point. -/
def Topo.stateNodes (t : Topo) (pt : Nat) : List Nat :=
  (List.range t.nodes.length).filter (fun n =>
    decide (nTerm (t.nodes.getD n 0#512) = 1 ∨ nTerm (t.nodes.getD n 0#512) = 2) && decide (nStatept (t.nodes.getD n 0#512) = pt))

/-- A posting at its commit: dropped and counted once its interval is final (R180), else booked (R181). A state posting marks the nodes
that name its point dirty for its interval and the next, each by that interval's own topology. -/
def State.postBook (p : Posting) (s : State) : State :=
  let i := pInterval p.body
  let pt := wordPoint p.point
  if i < s.balFinal then { s with bal := { s.bal with stale := satInc 0xFFFF s.bal.stale } }
  else match s.topoOf i with
    | none => s
    | some t =>
      if pKind p.body = 2 then
        let s := { s with bal := { s.bal with states := s.bal.states ++ [(pt, i, fld p.body 64 64, fld p.body 128 64)] } }
        let s := (t.stateNodes pt).foldl (fun s n => s.markDirty n i) s
        match s.topoOf (i + 1) with
        | some u => (u.stateNodes pt).foldl (fun s n => s.markDirty n (i + 1)) s
        | none => s
      else
        let s := (t.edges.filter (fun e => decide (ePoint e = pt))).foldl (fun s e => s.postEdge p t e) s
        if pFinal p.body then { s with bal := { s.bal with finals := s.bal.finals ++ [(pt, i)] } } else s

/-! ## Evaluation (R182 to R184, R189) -/

/-- A quantity in base units converted to ledger units, rounded half to even; none where it is no finite number. -/
def fLedger (w : Word) : Option Int := if fFinite w then some (divHalfEven (fUnits w * 10 ^ 9) (2 ^ 1074)) else none
def State.stateAt (s : State) (pt i : Nat) : Option (Word × Word) :=
  (s.bal.states.find? (fun x => decide (x.1 = pt ∧ x.2.1 = i))).map (fun x => (x.2.2.1, x.2.2.2))

/-- DS or COND in base units (R182); none where a needed state posting is missing. -/
def State.balTerm (s : State) (nd : BitVec 512) (i : Nat) (a : Acc) : Option (Word × Word) :=
  let k := nF nd 8
  if nTerm nd = 1 ∨ nTerm nd = 2 then
    match s.stateAt (nStatept nd) i, s.stateAt (nStatept nd) (i - 1) with
    | some (pe, te), some (ps, ts) =>
      let d := if nTerm nd = 1 then (fSub (fDiv pe te).1 (fDiv ps ts).1).1
               else if nKind nd = 0 then (fSub (fMul pe te).1 (fMul ps ts).1).1 else (fSub pe ps).1
      some ((fMul k d).1, 0#64)
    | _, _ => none
  else if nTerm nd = 3 then some (0#64, (fMul k (roundInt false a.inn (10 ^ 9)).1).1)
  else some (0#64, 0#64)

/-- A value in ledger units, free where the term is no finite number or needs more than 64 bits: one value for each term, so that equal
posting sets agree (R191; log entry 28). -/
def balUnits (w : Word) : Int :=
  match fLedger w with
  | some v => if -(2 ^ 63) ≤ v ∧ v < 2 ^ 63 then v else (Config.balUnits w).toInt
  | none => (Config.balUnits w).toInt

/-- THR of a threshold already in ledger units: rounded half to even and no less than TMIN; free where it is no finite number or
needs more than 64 bits (R182, R191; log entry 28). -/
def balThr (w : Word) (tmin : Nat) : Nat :=
  let v := divHalfEven (fUnits w) (2 ^ 1074)
  if fFinite w && decide (v < 2 ^ 64) then max v.toNat tmin else (Config.balThr w).toNat

/-- A CUSUM restart was requested for a node and interval (R183). -/
def State.cusReset (s : State) (n i : Nat) : Bool := decide ((n, i) ∈ s.bal.cusrst)
/-- The latest evaluation of a node before interval `i`: its S and the CRC of its node record. -/
def State.cusLast (s : State) (n i : Nat) : Option (Word × W32) :=
  (s.bal.cus.foldl (fun (best : Option (Nat × Word × W32)) p =>
    match p.2 with
    | none => best
    | some x => if p.1 % 65536 = n ∧ p.1 / 65536 < i ∧ (match best with | some b => decide (b.1 < p.1) | none => true) = true then some (p.1, x)
                else best) none).map (·.2)
/-- S before interval `i`: that of the latest interval evaluated, which an INSUFFICIENT_DATA one has carried on; 0 where none was, under
another node record, or after a restart (R183). -/
def State.cusPrev (s : State) (n i : Nat) (nd : BitVec 512) : Word :=
  match s.cusLast n i with
  | some (v, c) => if s.cusReset n i || decide (c ≠ nCrc nd) then 0#64 else v
  | none => 0#64

/-- An evaluation: the record without REVISION, REVSAT and CRC, and S. -/
structure Verdict where
  rec_ : BitVec 1024
  s_   : Word

/-- Evaluate one node for one interval (R182 to R184). -/
def State.evaluate (s : State) (t : Topo) (n i : Nat) : Verdict :=
  let nd := t.nodes.getD n 0#512
  let a := s.acc i n
  let edges := (t.edgesOf n).length
  let term := s.balTerm nd i a
  let (dsF, condF) := term.getD (0#64, 0#64)
  let ds := balUnits dsF
  let cond := balUnits condF
  let res := a.inn - a.out - ds - cond
  let q := (fMul (nF nd 16) (f64 (ds + cond).natAbs)).1
  let u := (fSqrt (fAdd (f64 a.var) (fMul q q).1).1).1
  let thr := balThr (fMul (nF nd 24) u).1 (nTmin nd)
  let z := (fDiv (f64 res) (fMax u (f64 1)).1).1
  let insuf := decide (a.finals < edges) || term.isNone
  let prev := s.cusPrev n i nd
  let sNow := if !nCusum nd then 0#64 else if insuf then prev
              else (fMax 0#64 (fSub (fAdd prev z).1 (nF nd 40)).1).1
  let ill := decide (a.qany &&& 0x1743#16 ≠ 0#16)
  let verdict := if insuf then 4 else if res < -(thr : Int) then 3 else if (thr : Int) < res then (if ill then 3 else 1)
    else if fLess (nF nd 48) sNow then 2 else 0
  let fl := (if verdict = 2 ∧ ill = false then 1 else 0) + (if a.revpt = 0#32 then 0 else 2) + (if s.cusReset n i then 4 else 0)
    + (if term.isNone then 8 else 0)
  let body := bytesOfNat 4 i ++ bytesOfNat 2 n ++ [0#8, 0#8, BitVec.ofNat 8 verdict, BitVec.ofNat 8 fl] ++ bytesOf 2 a.qany
    ++ bytesOfNat 4 (edges - a.finals) ++ bytesOf 16 (BitVec.ofInt 128 a.inn) ++ bytesOf 16 (BitVec.ofInt 128 a.out)
    ++ bytesOf 8 (BitVec.ofInt 64 ds) ++ bytesOf 8 (BitVec.ofInt 64 cond)
    ++ bytesOf 16 (BitVec.ofInt 128 res) ++ bytesOf 8 u ++ bytesOfNat 8 thr ++ bytesOf 8 sNow ++ bytesOf 8 a.setsum
    ++ bytesOf 4 a.revpt ++ bytesOf 4 t.epoch ++ bytesOf 4 a.posts
  ⟨BitVec.ofNat 1024 (natOfBytes body), sNow⟩

/-- Put a verdict item to BAL_OUTQ, or hold it (R190). -/
def State.balItem (t : Topo) (i n : Nat) (r : BitVec 1024) (s : State) : State :=
  let (q, s) := s.nextSeq 18
  let s := if q = 0xFFFFFFFF#32 then { s with bal := { s.bal with wraps := s.bal.wraps + 1 } } else s
  let tai : Int := (i + 1) * 900 + (s.reg Reg.balUtcoff).toInt
  let stream := 0xFF00 + (if q = 0xFFFFFFFF#32 then s.bal.wraps - 1 else s.bal.wraps) % 256
  let x : Item := setFld (0#512) 0 (BitVec.ofInt 64 tai)
  let x := setFld x 128 (s.sourceId 18)
  let x := setFld x 160 q
  let x := setFld x 192 (BitVec.ofNat 64 (s.device * 2 ^ 48 + stream * 2 ^ 32 + q.toNat))
  let x := setFld x 256 t.epoch
  let x := setFld x 288 (BitVec.ofNat 32 (3 * 2 ^ 21 + n))
  let x := setFld x 320 (BitVec.ofNat 64 (s.verdictAddr i n))
  let x := setFld x 384 (128#16)
  let x := setFld x 400 (fld r 48 16 : BitVec 16)
  let x := setFld x 416 (fld r 64 16 : BitVec 16)
  let x := setFld x 432 (BitVec.ofNat 32 i)
  let x := setFld x 464 (BitVec.ofNat 16 n)
  if s.bal.held.isEmpty then
    let (ok, s) := s.hwPut (s.regF Reg.balOutq 0 16) x
    if ok then s else { s with bal := { s.bal with held := [x] } }
  else { s with bal := { s.bal with held := s.bal.held ++ [x] } }

/-- Write a record with its CRC. -/
def State.verdictPut (i n : Nat) (r : BitVec 1024) (s : State) : State :=
  let bs := bytesOf 124 r
  (s.ramWrite (s.verdictAddr i n) (bs ++ bytesOf 4 (crcC bs))).2

/-- Keep S of an evaluation, and the CRC of its node record. -/
def State.cusPut (i n : Nat) (v : Word) (crc : W32) (s : State) : State :=
  { s with bal := { s.bal with cus := Tab.set none s.bal.cus (accKey i n) (some (v, crc)) } }

/-- The evaluation of one node at the close: revision 0 (R185). -/
def State.closeNode (t : Topo) (i n : Nat) (s : State) : State :=
  if !nEn (t.nodes.getD n 0#512) then s
  else
    let v := s.evaluate t n i
    ((s.cusPut i n v.s_ (nCrc (t.nodes.getD n 0#512))).verdictPut i n v.rec_).balItem t i n v.rec_

/-- Evaluate nodes from `n` in order; the node at which a full output stalls it (R190). -/
def State.closeFrom (t : Topo) (i : Nat) : Nat → Nat → State → Option Nat × State
  | 0, _, s => (none, s)
  | k + 1, n, s => if 4096 ≤ s.bal.held.length then (some n, s) else State.closeFrom t i k (n + 1) (s.closeNode t i n)

/-- Close interval `i`, or go on with it where the output stalled it (R185). -/
def State.closeInterval (i : Nat) (s : State) : State :=
  match s.topoOf i with
  | none => { s with bal := { s.bal with nextClose := some (i + 1), nextNode := none } }
  | some t =>
    let s := if s.bal.nextNode.isSome then s
      else { s with bal := { s.bal with dirty := s.bal.dirty.filter (fun d => decide (d.2 ≠ i)) } }
    let n := s.bal.nextNode.getD 0
    let (at_, s) := State.closeFrom t i (t.nodes.length - n) n s
    match at_ with
    | some m => { s with bal := { s.bal with nextNode := some m } }
    | none => { s with bal := { s.bal with nextClose := some (i + 1), nextNode := none } }

/-- The close of interval `i` is due (R185). -/
def State.closeDue (s : State) (i : Nat) : Bool := decide (((i : Int) + 1) * 900 + s.regF Reg.balTiming 12 12 ≤ s.balUtc)

/-- BAL runs: the unit is present and the main domains are up. -/
def State.balRuns (s : State) : Bool := s.pwr.mainOn && s.present 0x0D

/-- The latest interval whose close is due, if any. -/
def State.lastDue (s : State) : Option Nat :=
  let d := s.balUtc - s.regF Reg.balTiming 12 12
  if d < 900 then none else some ((d / 900).toNat - 1)

/-- The first close the engine makes: the latest interval due, where its due second is now, and else the one after it; the intervals
whose close passed before it ran stay unclosed (R185; log entry 28). -/
def State.closeStart (s : State) : State :=
  let i := match s.lastDue with
    | none => 0
    | some j => if ((j : Int) + 1) * 900 + s.regF Reg.balTiming 12 12 = s.balUtc then j else j + 1
  { s with bal := { s.bal with nextClose := some i, firstClose := some (min i (s.bal.firstClose.getD i)) } }

/-- What is due closes, `k` intervals at most: with time of sufficient quality, and else the closes are deferred (R185). -/
def State.closeAllDue : Nat → State → State
  | 0, s => s
  | k + 1, s =>
    match s.bal.nextClose with
    | none => s
    | some i =>
      if !s.closeDue i then s
      else if !s.timeGood then { s with bal := { s.bal with defer := true } }
      else
        let t := s.closeInterval i
        if t.bal.nextNode.isSome then t else State.closeAllDue k t

/-- How many closes are due. -/
def State.closesDue (s : State) : Nat :=
  match s.bal.nextClose, s.lastDue with
  | some i, some j => j + 1 - i
  | _, _ => 0

/-- A posting at its commit: the closes due by now come first, so that one of the close's own instant belongs to the first revision
(R185). -/
def State.postCommit (p : Posting) (s : State) : State := (State.closeAllDue s.closesDue s).postBook p

/-- BAL_INTERVAL_CLOSE: an interval closes at its end plus CLOSEDLY; without time of sufficient quality it is deferred. -/
def execBalIntervalClose (s : State) : Answer :=
  if !s.balRuns then .next s
  else
    let s := if s.bal.nextClose.isNone then s.closeStart else s
    .next (State.closeAllDue 1 s)

/-- BAL_DEFERRED_CLOSE: deferred closes run in interval order once time is valid again; DEFER clears with the last. -/
def execBalDeferredClose (s : State) : Answer :=
  if !s.balRuns || !s.bal.defer || !s.timeGood then .next s
  else match s.bal.nextClose with
    | none => .next { s with bal := { s.bal with defer := false } }
    | some i =>
      let s := if s.closeDue i then s.closeInterval i else s
      let more := match s.bal.nextClose with | some j => s.closeDue j | none => false
      .next { s with bal := { s.bal with defer := more } }

/-- The fields of a record but REVISION, VFLAGS.REVSAT and CRC. -/
def verdictCore (r : BitVec 1024) : BitVec 1024 := setFld (setFld (setFld r 48 (0#16)) 76 (0#1)) 992 (0#32)

/-- Re-evaluate a node for a closed interval: a changed record takes the next revision and is published; whether S or the
verdict changed (R186, R187). -/
def State.reviseNode (i n : Nat) (s : State) : Bool × State :=
  match s.topoOf i with
  | none => (false, s)
  | some t =>
    if !nEn (t.nodes.getD n 0#512) then (false, s)
    else
      let old := s.verdictAt i n
      let v := s.evaluate t n i
      let moved := decide (some v.s_ ≠ (Tab.get none s.bal.cus (accKey i n)).map (·.1)) || decide ((fld v.rec_ 64 8 : BitVec 8) ≠ fld old 64 8)
      let s := s.cusPut i n v.s_ (nCrc (t.nodes.getD n 0#512))
      if verdictCore old = verdictCore v.rec_ then (moved, s)
      else
        let rev := (fld old 48 16).toNat
        if rev = 0xFFFF then
          let r := setFld (setFld v.rec_ 48 (0xFFFF#16)) 76 (1#1)
          let (f, s) := s.draw 8
          (moved, State.event (0x0D00 + f.toNat) (BitVec.ofNat 32 n) { s.verdictPut i n r with bal := { (s.verdictPut i n r).bal with revsat := true } })
        else
          let r := setFld v.rec_ 48 (BitVec.ofNat 16 (rev + 1))
          (moved, (s.verdictPut i n r).balItem t i n r)

/-- Re-evaluate a node from interval `i` on, `k` intervals at most: the dirty ones it has closed, and each later one an earlier change
reaches; a full output stalls it, and the interval it goes on at is kept (R190). -/
def State.reviseFrom (n : Nat) : Nat → Nat → Bool → State → State
  | 0, _, _, s => s
  | k + 1, i, carry, s =>
    if 4096 ≤ s.bal.held.length then
      let s := if carry then s.markDirty n i else s
      { s with bal := { s.bal with work := s.bal.work ++ [(n, i)] } }
    else if (carry || decide ((n, i) ∈ s.bal.dirty)) && s.closed n i then
      let s := { s with bal := { s.bal with dirty := s.bal.dirty.filter (fun d => decide (d ≠ (n, i))) } }
      let (c, s) := s.reviseNode i n
      State.reviseFrom n k (i + 1) c s
    else State.reviseFrom n k (i + 1) carry s

/-- The dirty nodes, each with its first dirty closed interval, in node order. -/
def State.dirtyNodes (s : State) : List (Nat × Nat) :=
  let ds := s.bal.dirty.filter (fun d => s.closed d.1 d.2)
  let ns := (ds.map (·.1)).eraseDups.mergeSort (fun a b => decide (a ≤ b))
  ns.map (fun n => (n, ((ds.filter (fun d => decide (d.1 = n))).map (·.2)).foldl min (s.bal.nextClose.getD 0)))

/-- Revise nodes in order, each from its interval on. -/
def State.reviseAll (l : List (Nat × Nat)) (s : State) : State :=
  l.foldl (fun s p => State.reviseFrom p.1 (s.bal.nextClose.getD 0 - p.2) p.2 false s) { s with bal := { s.bal with work := [] } }

/-- BAL_REVISION_BOUNDARY: at a multiple of REVPER seconds of UTC, the dirty nodes are re-evaluated (R186). -/
def execBalRevisionBoundary (s : State) : Answer :=
  let per := s.regF Reg.balTiming 0 12
  let b := (s.balUtc.toNat / max per 1) * max per 1
  let due := match s.bal.lastRev with | some l => decide (l ≠ b) | none => true
  if s.balRuns && due then
    let s := { s with bal := { s.bal with lastRev := some b, dirty := s.bal.dirty.filter (fun d => decide (s.balFinal ≤ d.2)) } }
    .next (s.reviseAll s.dirtyNodes)
  else .next s

/-- BAL_INTERVAL_FINAL: intervals whose late window has passed are final, and what only they needed goes (R175, R187). -/
def execBalIntervalFinal (s : State) : Answer :=
  if !s.balRuns then .next s
  else
    let f := s.balFinal
    let b := s.bal
    .next { s with bal := { b with
      finalBelow := f
      accs := b.accs.filter (fun p => decide (f ≤ p.1 / 65536))
      cus := b.cus.filter (fun p => decide (f ≤ p.1 / 65536) ||
        b.cus.all (fun q => decide (q.1 % 65536 ≠ p.1 % 65536) || decide (q.1 ≤ p.1) || decide (f ≤ q.1 / 65536)))
      finals := b.finals.filter (fun p => decide (f ≤ p.2))
      states := b.states.filter (fun p => decide (f ≤ p.2.1 + 1))
      dirty := b.dirty.filter (fun p => decide (f ≤ p.2))
      cusrst := b.cusrst.filter (fun p => decide (f ≤ p.2)) } }

/-- Held items go out while the queue takes them (R190). -/
def State.balDrain : Nat → State → State
  | 0, s => s
  | k + 1, s =>
    match s.bal.held with
    | [] => s
    | x :: xs =>
      let (ok, s) := s.hwPut (s.regF Reg.balOutq 0 16) x
      if ok then State.balDrain k { s with bal := { s.bal with held := xs } } else s

/-- BAL_OUTPUT_RETRY: held items go out, and what the full output stalled goes on: the close, then the revisions (R190). -/
def execBalOutputRetry (s : State) : Answer :=
  if !s.balRuns then .next s
  else
    let s := State.balDrain s.bal.held.length s
    let s := if s.bal.nextNode.isSome && s.timeGood then State.closeAllDue 1 s else s
    .next (if s.bal.work.isEmpty then s else s.reviseAll s.bal.work)

/-! ## The BAL window -/

/-- Writes of the BAL window (R175, R183, R188 to R190, Table 7.6). -/
def writeBal : UnitWrite := fun i r o v s =>
  if o = Reg.balTopaddr ∨ o = 0x0D0008 then
    if i ≠ .sup ∧ i ≠ .host then refuse .denied s
    else if o = Reg.balTopaddr then accept r o v s
    else if s.bal.topBusy.isSome ∨ s.cfg.prep = true ∨ (4 ≤ s.bal.gens.length ∧ s.oldestNeeded = true) then refuse .retry s
    else (.ok, { s with bal := { s.bal with topBusy := some (s.reg2 Reg.balTopaddr), topKind := 1 } })
  else if o = Reg.balTiming then
    if vf v 24 8 = 0 ∨ 168 < vf v 24 8 ∨ 3600 < vf v 12 12 ∨ vf v 0 12 < 10 ∨ 3600 < vf v 0 12 then refuse .outOfRange s
    else
      let s := { s with bal := { s.bal with finalBelow := s.balFinal } }
      accept r o v s
  else if o = 0x0D001C then
    let b := s.bal
    let b := if vf v 31 1 = 1 then { b with revsat := false } else b
    let b := if vf v 16 1 = 1 then { b with kindmis := 0 } else b
    (.ok, { s with bal := if vf v 0 1 = 1 then { b with stale := 0 } else b })
  else if o = Reg.balWorkbase then
    let (st, s) := accept r o v s
    (st, { s with bal := { s.bal with given := true } })
  else if o = Reg.balOutq then
    if (s.desc (vf v 0 16)).cls ∈ [1, 3, 5] then accept r o v s else refuse .denied s
  else if o = 0x0D0014 then
    let n := vf v 0 16
    let j := (s.reg Reg.balCusrsti).toNat
    if j < s.balFinal ∨ s.balNow + 1 < j then refuse .outOfRange s
    else
      let s := if (n, j) ∈ s.bal.cusrst then s else { s with bal := { s.bal with cusrst := s.bal.cusrst ++ [(n, j)] } }
      (.ok, if s.closeBegun n j then s.markDirty n j else s)
  else accept r o v s

/-- Reads of the BAL window. -/
def readBal (o : Nat) (s : State) : W32 :=
  let b := s.bal
  if o = 0x0D000C then ldStat b.topBusy.isSome 1 b.topStatus 0
  else if o = 0x0D001C then
    BitVec.ofNat 32 ((if b.revsat then 2 ^ 31 else 0) + (if b.defer then 2 ^ 30 else 0) + (if 4096 ≤ b.held.length then 2 ^ 29 else 0)
      + b.gens.length * 2 ^ 26 + b.kindmis * 65536 + b.stale)
  else s.reg o

end Sys2Proof.Machine
end

