-- ==== Sys2Proof/Machine/Ports.lean ====
section
/-! DEFINITION. What the field, Ethernet and Spindle ports share: the transmit role (R236, R250, R328), receive buffer pools
(R234, R249, R262, R285), completion items and their queues, and what they hand to the twin (R301, R323). -/

namespace Sys2Proof.Machine
open Sys2Proof

/-- TXROLE: 1 on the Headstock and on a solo device; 0 on a device that found itself faulty or whose stores failed (R236, R250,
R315, R328, R353). -/
def State.txRole (s : State) : Bool := !s.twn.selfflt && !s.upd.loadfail && (s.solo || decide (s.twn.cp = 0#2) || decide (s.twn.cp = 2#2))

/-- Take a free buffer of a pool. The pool's size and which free buffer is used are not given (log entry 30). -/
def State.poolTake (port : Nat) (used : List Nat) (s : State) : Option Nat × State :=
  let free := (List.range (Config.poolSize port)).filter (fun k => !decide (k ∈ used))
  match free with
  | [] => (none, s)
  | _ =>
    let (k, s) := s.draw 32
    (free[k.toNat % free.length]?, s)

/-- A completion item: request ID in bytes 24-31, status in byte 40 (log entry 30; R371 gives NFT's so). -/
def completion (reqid : Word) (st : Status) : Item := setFld (setFld (0#512 : Item) 192 reqid) 320 (BitVec.ofNat 8 st.code)

/-- Item bytes the transmit items share: request ID, buffer address, length, DST, FC, flags (R235, R251, R263). -/
def txAddr (x : Item) : Nat := (fld x 320 64).toNat
def txLen (x : Item) : Nat := (fld x 384 16).toNat
def txDst (x : Item) : BitVec 16 := fld x 400 16
def txFc (x : Item) : Byte := fld x 416 8
def txFlags (x : Item) : Byte := fld x 424 8

/-- Try to put a completion to the queue of a CQ register; the status is kept for another try where there is no room. -/
def State.putCompletion (cq : Nat) (reqid : Word) (st : Status) (s : State) : Bool × State :=
  s.hwPut (s.regF cq 0 16) (completion reqid st)

/-- A domain taken back by `ago` edges at its increment in force (log entry 48). -/
def Domain.back (d : Domain) (ago : Nat) : Domain :=
  let t := d.sec.toNat * 2 ^ 64 + d.frac.toNat - d.incr * ago
  { d with sec := BitVec.ofNat 64 (t / 2 ^ 64), frac := BitVec.ofNat 64 t }

/-- What TB wrote for a stamp point `ago` edges before now (R268, R274): the next edge's values, taken back. A frame that a stamp point
began is delivered at its end. -/
def State.momentAgo (s : State) (ago : Nat) : TimeRec :=
  if s.tb.clkLost then ⟨0#96, 0, s.timeFlags⟩
  else
    let e := s.atEdge
    let e := { e with tb := { e.tb with a := e.tb.a.back ago, b := e.tb.b.back ago } }
    ⟨stampOf (e.dom e.sel).t32, e.offsetNs, e.timeFlags⟩

/-- The same for a stamp point measured `n/d` of an edge past the edge `ago` before the last one (R268). -/
def State.momentAgoSub (s : State) (ago n d : Nat) : TimeRec :=
  let e := { s with tb := { s.tb with a := s.tb.a.back ago, b := s.tb.b.back ago } }
  e.momentSub n d

/-- Whether a duplicate window has not run out (R233, R247). -/
def State.inDupWin (s : State) (at_ : Option Nat) (win : Nat) : Bool :=
  match at_ with | some t => !s.past t (win * sCounts) | none => false

/-- The age in seconds of an elapsed count, saturating at 24 bits; 0 without one (Table 9.12, R254). -/
def State.ageSec (s : State) (at_ : Option Nat) : Nat :=
  match at_ with | some t => min 0xFFFFFF ((s.tb.elapsed - t) / sCounts) | none => 0

/-! ## Messages to the twin and the journal (R301, R323) -/

/-- TWN_CTL.EN. -/
def State.twnEn (s : State) : Bool := bit (s.reg Reg.twnCtl) 31
/-- Twin operation is on: EN set, SOLO clear, in P0 to P2 (R328, Table 17.1). -/
def State.twinRuns (s : State) : Bool := s.fieldRuns && s.twnEn && !s.solo
/-- Messages reach the twin: twin operation is on and the link is up. -/
def State.twinLink (s : State) : Bool := s.twinRuns && s.spn.link
/-- Hand a message to Spindle. -/
def State.toTwin (o : Out) (s : State) : State := if s.twinLink then { s with out := s.out ++ [o] } else s

def jPos (e : JEntry) : Word := fld e 0 64
def jKind (e : JEntry) : Nat := (fld e 96 8).toNat
def jReq (e : JEntry) : Word := fld e 128 64

/-- Put an entry: POS, CKPT, byte 13 and DIGEST written (Table 13.6), kept in the ring of 65,536, and sent to the twin. -/
def State.journalPut (e : JEntry) (s : State) : State :=
  let pos := s.twn.jpos + 1#64
  let e := setFld (setFld (setFld e 0 pos) 64 s.twn.capNum) 104 (0#8)
  let bs := bytesOf 120 e
  let e := setFld (setFld e 960 (crcE bs)) 992 (crcC bs)
  let ring := s.twn.journal ++ [e]
  State.toTwin (.spnJournal e) { s with twn := { s.twn with jpos := pos, journal := ring.drop (ring.length - 65536) } }

end Sys2Proof.Machine
end

