-- ==== Sys2Proof/Machine/Upd.lean ====
section
/-! DEFINITION. Updates (15_updates.md): Husk verification and staging, the image sets, the handover of the changing clusters at an
epoch switch, and the boot copies in SPI NOR. -/

namespace Sys2Proof.Machine
open Sys2Proof

/-- A table with the `n` entries from key `a` replaced by at most `n` bytes, the rest at the default, keeping the canonical form. -/
def tabSpan (d : Byte) (t : Tab Byte) (a n : Nat) (bs : List Byte) : Tab Byte :=
  t.filter (fun p => decide (p.1 < a)) ++ ((List.range' a (bs.take n).length).zip (bs.take n)).filter (fun p => decide (p.2 ≠ d))
    ++ t.filter (fun p => decide (a + n ≤ p.1))

/-! ## The Husk (Table 15.1) -/

/-- A Husk header and what follows it (R346). -/
structure Husk where
  hdr  : List Byte
  body : List Byte
  sig  : List Byte
deriving DecidableEq, Repr

def Husk.f (h : Husk) (i n : Nat) : Nat := takeBytes h.hdr i n
def Husk.kind (h : Husk) : Nat := h.f 5 1
def Husk.delta (h : Husk) : Bool := decide (h.f 6 1 % 2 = 1)
def Husk.enc (h : Husk) : Bool := decide (h.f 6 1 / 2 % 2 = 1)
def Husk.signer (h : Husk) : Nat := h.f 7 1
def Husk.version (h : Husk) : BitVec 16 := BitVec.ofNat 16 (h.f 8 2)
def Husk.target (h : Husk) : Nat := h.f 14 1
def Husk.bodyLen (h : Husk) : Nat := h.f 16 4
def Husk.imgLen (h : Husk) : Nat := h.f 20 4

/-- The largest image of a kind (Table 15.2); none for a reserved kind. -/
def kindMax (k : Nat) : Option Nat :=
  if k = 1 then some 8388592 else if k = 2 ∨ k = 3 then some 262144 else if k = 4 then some 4096
  else if k = 0x10 ∨ k = 0x11 then some 786432 else none

/-- The image sets a Husk of a kind is staged in: by cluster, 4 the legal parameter block, 5 and 6 the push payloads. -/
def kindKeys (kind clusters : Nat) : List Nat :=
  if kind = 2 then [0] else if kind = 3 then [1, 2, 3].filter (fun c => decide (clusters / 2 ^ c % 2 = 1))
  else if kind = 4 then [4] else if kind = 0x10 then [5] else if kind = 0x11 then [6] else []

def zeroBytes (bs : List Byte) : Bool := bs.all (fun b => decide (b = 0#8))

/-- Check 2: the form of the header (R348). -/
def Husk.formOk (h : Husk) : Bool :=
  decide (h.f 0 4 = 0x4B535548) && decide (h.f 4 1 = 1) && decide (h.f 6 1 < 4) && decide (h.f 15 1 = 0)
    && zeroBytes ((h.hdr.drop 244).take 12) && decide (h.target < 128)
    && (h.delta || (decide (h.f 10 2 = 0) && zeroBytes ((h.hdr.drop 100).take 48))) && (h.enc || decide (h.f 12 2 = 0))
    && (match kindMax h.kind with
        | some m => decide (1 ≤ h.bodyLen) && decide (h.bodyLen ≤ 67108864) && decide (h.imgLen ≤ m)
            && (decide (h.kind ≠ 4) || decide (h.imgLen = 4096)) && (h.delta || decide (h.bodyLen = h.imgLen))
        | none => false)

/-- Whether Table 15.2 allows a slot for a kind. -/
def signerAllowed (kind slot : Nat) : Bool :=
  if kind = 1 ∨ kind = 3 then decide (slot = 0) else if kind = 2 ∨ kind = 4 then decide (slot = 1)
  else decide (2 ≤ slot) && decide (slot ≤ 63)

/-- The variant's bit of TARGET. -/
def variantBit : Variant → Nat | .m => 4 | .w => 5 | .r => 6

/-- SYS_CAPS1.CLUST (Table 20.2). -/
def State.clusterPresent (s : State) (c : Nat) : Bool := bit (caps1 s.sys.variant) (16 + c)

def State.activeImg (s : State) (k : Nat) : Option Img := Tab.get none s.upd.active k
def State.stagedImg (s : State) (k : Nat) : Option Img := Tab.get none s.upd.staged k
def State.keptImg (s : State) (k : Nat) : Option Img := Tab.get none s.upd.kept k

/-! ## Boot copies (R354) -/

def State.norBytes (s : State) (a n : Nat) : List Byte := (List.range n).map (fun k => Tab.get 0xFF#8 s.upd.nor (a + k))
def State.norPut (a : Nat) (bs : List Byte) (s : State) : State := { s with upd := { s.upd with nor := tabSpan 0xFF#8 s.upd.nor a bs.length bs } }

/-- A boot copy: serial, version, image. -/
structure Boot where
  serial  : Nat
  version : Nat
  image   : List Byte
deriving DecidableEq, Repr

/-- Boot copy `k`, where its descriptor is not erased and its CRC-32C holds over its image. -/
def State.bootCopy (s : State) (k : Nat) : Option Boot :=
  let d := s.norBytes (k * 0x800000) 16
  let len := takeBytes d 8 4
  if takeBytes d 0 4 = 0xFFFFFFFF ∨ 8388592 < len then none
  else
    let img := s.norBytes (k * 0x800000 + 16) len
    if (crcC img).toNat = takeBytes d 12 4 then some ⟨takeBytes d 0 4, takeBytes d 4 4, img⟩ else none

/-- The copies in the order the ROM tries them: the higher SERIAL first. -/
def State.bootOrder (s : State) : List (Nat × Option Boot) :=
  let a := s.bootCopy 0
  let b := s.bootCopy 1
  let sa := match a with | some x => x.serial | none => 0
  let sb := match b with | some x => x.serial | none => 0
  if a.isNone || (b.isSome && decide (sa < sb)) then [(1, b), (0, a)] else [(0, a), (1, b)]

/-- Write an image to the copy with the lower SERIAL, or the failed one, its descriptor last (R354). -/
def State.bootWrite (version : Nat) (img : List Byte) (s : State) : State :=
  let old := (s.bootOrder.getLast?).getD (1, none)
  let new := (s.bootOrder.head?).getD (0, none)
  let serial := match new.2 with | some b => b.serial + 1 | none => 1
  let a := old.1 * 0x800000
  (s.norPut (a + 16) img).norPut a (bytesOfNat 4 serial ++ bytesOfNat 4 version ++ bytesOfNat 4 img.length ++ bytesOf 4 (crcC img))

/-! ## Deltas (R349) -/

/-- The 8-byte operation at the head of a list and what follows; the image built so far. -/
def deltaRun (base : List Byte) (imgLen : Nat) : Nat → List Byte → List Byte → Status × List Byte
  | 0, _, out => (.outOfRange, out)
  | fuel + 1, ops, out =>
    if ops.length < 8 then (.outOfRange, out)
    else
      let op := takeBytes ops 0 1
      let len := takeBytes ops 1 3
      let src := takeBytes ops 4 4
      let rest := ops.drop 8
      if op = 3 then (if len = 0 ∧ out.length = imgLen then (.ok, out) else (.outOfRange, out))
      else if len = 0 ∨ imgLen < out.length + len then (.outOfRange, out)
      else if op = 1 then
        if base.length < src + len then (.outOfRange, out)
        else deltaRun base imgLen fuel rest (out ++ (base.drop src).take len)
      else if op = 2 then
        if rest.length < len ∨ src ≠ 0 then (.outOfRange, out)
        else deltaRun base imgLen fuel (rest.drop ((len + 3) / 4 * 4)) (out ++ rest.take len)
      else (.outOfRange, out)

/-- The base image of a delta: active or kept in the same set, with BASEHASH and BASEVER. -/
def State.deltaBase (s : State) (h : Husk) (k : Nat) : Option Img :=
  ([s.activeImg k, s.keptImg k].filterMap id).find? (fun i =>
    decide (bytesOf 48 i.hash = (h.hdr.drop 100).take 48) && decide (i.version.toNat = h.f 10 2))

/-- The base in every set the Husk is for. -/
def State.deltaImage (s : State) (h : Husk) (body : List Byte) : Status × List Byte :=
  let bases := (kindKeys h.kind h.target).map (s.deltaBase h)
  match bases.head? with
  | some (some b) => if bases.all (·.isSome) then deltaRun b.bytes h.imgLen (body.length + 1) body [] else (.denied, [])
  | _ => (.denied, [])

/-! ## The image's own format (R354, R355) -/

/-- The legal parameter block: format, zero bytes, the rows of Table 8.7, its CRC. -/
def legalBlockOk (b : List Byte) : Bool :=
  decide (takeBytes b 0 1 = 1) && decide (takeBytes b 1 1 = 0) && decide (takeBytes b 4 4 = 0)
    && decide ((b.drop 8).take 28 = legalRights.flatMap (bytesOf 4)) && decide (takeBytes b 4092 4 = (crcC (b.take 4092)).toNat)

/-- Check 13 (R348). -/
def imageOk (kind : Nat) (b : List Byte) : Bool :=
  if kind = 2 then (b.take 6).length == 6 && (b.take 6).all (fun x => decide (x = 1#8)) && zeroBytes ((b.drop 6).take 2)
  else if kind = 4 then legalBlockOk b
  else true

/-! ## Verification (R348) -/

/-- The active version a Husk must rise above; none where nothing is active. -/
def State.activeVersions (s : State) (h : Husk) : List (BitVec 16) :=
  if h.kind = 1 then (s.bootOrder.head?).toList.flatMap (fun e => match e.2 with | some b => [BitVec.ofNat 16 b.version] | none => [])
  else (kindKeys h.kind h.target).filterMap (fun k => (s.activeImg k).map Img.version)

/-- Checks 2 to 9. -/
def State.huskHead (s : State) (h : Husk) (recon : Bool) : Status :=
  let slot := s.sec.slot h.signer
  let allowed := signerAllowed h.kind h.signer
  let st := s.sec.slotState h.signer
  let pub := (h.hdr.drop 148).take 96
  let high := !s.evr.sealLow
  let lacks := (kindKeys h.kind h.target).any (fun c => decide (h.kind = 3) && !s.clusterPresent c)
  if !h.formOk then .outOfRange
  else if allowed ∧ st = .bad then .slotBad
  else if !allowed || decide (st ≠ .active) || decide (polType slot.policy ≠ 3) then .denied
  else if (sha384 pub).take 32 ≠ bytesOf 32 slot.key ∨ ¬ ecdsaOk pub h.sig (sha384 (h.hdr ++ h.body)) then .integrity
  else if (h.kind = 2 ∨ h.kind = 4) ∧ high then .denied
  else if h.target / 2 ^ variantBit s.sys.variant % 2 = 0 then .denied
  else if h.kind = 3 ∧ (h.target % 16 = 0 ∨ h.target % 2 = 1 ∨ lacks) then .denied
  else if s.tre.quar && !recon then .denied
  else if (s.activeVersions h).any (fun v => decide (h.version.toNat ≤ v.toNat)) then .denied
  else .ok

/-- Checks 10 to 13: the resulting image. -/
def State.huskImage (h : Husk) (s : State) : (Status × List Byte) × State :=
  let (k, s) := if h.enc then s.keyLook .sup (h.f 12 2) s.cfg.cur.toNat true else (⟨.ok, [], 0#8⟩, s)
  if k.st ≠ .ok then ((k.st, []), s)
  else
    let clear := if h.enc then gcmOpen k.key ((h.hdr.drop 24).take 12) (h.hdr.take 24) h.body ((h.hdr.drop 36).take 16) else some h.body
    match clear with
    | none => ((.integrity, []), s)
    | some body =>
      let (st, img) := if h.delta then s.deltaImage h body else (.ok, body)
      if st ≠ .ok then ((st, []), s)
      else if sha384 img ≠ (h.hdr.drop 52).take 48 then ((.integrity, []), s)
      else if !imageOk h.kind img then ((.outOfRange, []), s)
      else ((.ok, img), s)

/-- The body's length as the header gives it, at most what a Husk may carry. -/
def huskLen (hdr : List Byte) : Nat := min (takeBytes hdr 16 4) 67108864
/-- The body and the signature behind a header read with status `st`. -/
def State.huskRest (s : State) (a : Nat) (st : Status) (hdr : List Byte) (len : Nat) : Status × Husk :=
  let r := s.unitRead (a + 256) (len + 96)
  (if st = .ok then r.1 else st, ⟨hdr, r.2.take len, r.2.drop len⟩)
/-- Read a Husk from DRAM; INTEGRITY where it cannot be read. -/
def State.huskRead (s : State) (a : Nat) : Status × Husk :=
  let r := s.unitRead a 256
  s.huskRest a r.1 r.2 (huskLen r.2)

/-- Stage an image that passed: in its set, or in the boot copy (R347, R348). -/
def State.stageImg (h : Husk) (img : List Byte) (s : State) : State :=
  if h.kind = 1 then s.bootWrite h.version.toNat img
  else
    let i : Img := ⟨h.version, sha384v img, img⟩
    (kindKeys h.kind h.target).foldl (fun s k => { s with upd := { s.upd with staged := Tab.set none s.upd.staged k (some i) } }) s

/-- The end of a UPD command. -/
def State.updDone (kind : Nat) (st : Status) (s : State) : State :=
  { s with upd := { s.upd with busy := none, status := st, kind } }

/-- HUSK_VERIFY_DONE: staged with event 0x1B01, and 0x1B06 for a legally relevant image; or refused with event 0x1B02 (R212, R348); a signer's slot
found BAD is recorded (R332). -/
def execHuskVerifyDone (s : State) : Answer :=
  match s.upd.busy with
  | none => .next s
  | some (a, recon) =>
    if !s.pwr.mainOn then .next s
    else
      let (st, h) := s.huskRead a
      let head := if st = .ok then s.huskHead h recon else st
      let s := if head = .slotBad then s.slotCheck h.signer else s
      let ((st, img), s) := if head = .ok then s.huskImage h else ((head, []), s)
      let s := s.updDone h.kind st
      if st ≠ .ok then .next (s.event 0x1B02 (BitVec.ofNat 32 (h.kind * 256 + st.code)))
      else
        let s := (s.stageImg h img).event 0x1B01 (BitVec.ofNat 32 (h.kind * 65536 + h.version.toNat))
        .next (if h.kind = 2 ∨ h.kind = 4 then
          s.event 0x1B06 (BitVec.ofNat 32 ((if s.evr.sealLow then 0 else 65536) + h.version.toNat)) else s)

/-! ## Commands (R348, R350, R353, R360, Table 15.5) -/

/-- DISCARD: drop the staged images named (R350). -/
def State.updDiscard (kind clusters : Nat) (s : State) : Status × State :=
  match kindMax kind with
  | none => (.outOfRange, s.updDone kind .outOfRange)
  | some _ =>
    (.ok, ((kindKeys kind clusters).foldl (fun s k => { s with upd := { s.upd with staged := Tab.set none s.upd.staged k none } }) s).updDone kind .ok)

/-- A command of the manager under RECON has been taken (R292, R353). -/
def State.reconTaken (recon : Bool) (s : State) : State := { s with cfg := { s.cfg with recon := s.cfg.recon || recon } }

/-- REVERT: the kept images named become the staged ones; while quarantined only under RECON (R292, R350, R353). -/
def State.updRevert (kind clusters : Nat) (recon : Bool) (s : State) : Status × State :=
  let ks := kindKeys kind clusters
  if kindMax kind = none then (.outOfRange, s.updDone kind .outOfRange)
  else if (s.tre.quar && !recon) || ks.isEmpty || ks.any (fun k => (s.keptImg k).isNone) then (.denied, s.updDone kind .denied)
  else
    let s := ks.foldl (fun s k => { s with upd := { s.upd with staged := Tab.set none s.upd.staged k (s.keptImg k) } }) s
    (.ok, (s.updDone kind .ok).reconTaken recon)

/-- A write of UPD_CMD. A verification asked for while a command runs fails check 1 of R348; its Husk has not been read, so the KIND
its event carries is free. -/
def State.updCmd (v : Nat) (s : State) : Status × State :=
  let op := vf v 28 4
  let recon := decide (vf v 27 1 = 1)
  if s.upd.hand.isSome then (.retry, s)
  else if s.upd.busy.isSome then
    if op = 1 then
      let (k, s) := s.draw 8
      (.retry, State.event 0x1B02 (BitVec.ofNat 32 (k.toNat * 256 + Status.retry.code)) { s with upd := { s.upd with status := .retry } })
    else (.retry, s)
  else if op = 1 then (.ok, { s with upd := { s.upd with busy := some (s.reg2 0x1B0000, recon) } })
  else if op = 2 then s.updDiscard (vf v 8 8) (vf v 0 4)
  else if op = 3 then s.updRevert (vf v 8 8) (vf v 0 4) recon
  else (.denied, s)

/-- Writes of the UPD window: the supervisor's alone. -/
def writeUpd : UnitWrite := fun i r o v s =>
  if i ≠ .sup then refuse .denied s
  else if o = 0x1B0008 then s.updCmd v
  else if o = 0x1B0010 then if vf v 0 16 = 0 ∨ 60000 < vf v 0 16 then refuse .outOfRange s else accept r o v s
  else accept r o v s

/-- Reads of the UPD window (Table 15.6). -/
def readUpd (o : Nat) (s : State) : W32 :=
  let f (x : Bool) (k : Nat) : Nat := if x then 2 ^ k else 0
  if o = 0x1B000C then
    BitVec.ofNat 32 (f s.upd.busy.isSome 31 + f s.upd.gated 30 + f s.upd.loadfail 29 + s.upd.status.code * 65536 + s.upd.kind * 256
      + s.upd.parked.toNat * 16 + f (s.stagedImg 3).isSome 3 + f (s.stagedImg 2).isSome 2 + f (s.stagedImg 1).isSome 1
      + f ((s.stagedImg 0).isSome || (s.stagedImg 4).isSome) 0)
  else if o = 0x1B0020 then s.upd.setlog
  else s.reg o

/-! ## The handover (R351 to R353, Table 15.3) -/

/-- The clusters with a staged image, cluster 0 also for a staged legal parameter block. -/
def State.changing (s : State) : BitVec 4 :=
  ofBool 4 ((s.stagedImg 0).isSome || (s.stagedImg 4).isSome) ||| (ofBool 4 (s.stagedImg 1).isSome <<< 1)
    ||| (ofBool 4 (s.stagedImg 2).isSome <<< 2) ||| (ofBool 4 (s.stagedImg 3).isSome <<< 3)

/-- Step 1: at the switch to the epoch in force the gate closes for the changing clusters (R352). -/
def State.handoverGate (s : State) : State :=
  if s.changing = 0#4 then s
  else { s with upd := { s.upd with gated := true, hand := some (s.cfg.cur, s.changing, s.tb.elapsed, false) } }

/-- A queue a hardware unit consumes: class-4 pull queues and those a port or NFT takes from. -/
def State.hwConsumed (s : State) (q : Nat) : Bool :=
  let d := s.desc q
  decide (d.mode = 2#3) &&
    (decide (d.cls = 4) || decide (q ∈ [s.regF 0x10002C 0 16, s.regF 0x11002C 0 16, s.regF 0x12002C 0 16, s.regF 0x13002C 0 16, s.regF 0x1D0020 0 16])
      || (List.range 6).any (fun n => decide (s.regF (0x14001C + 0x40 * n) 0 16 = q))
      || (List.range 4).any (fun n => decide (s.regF (0x15001C + 0x40 * n) 0 16 = q)))

/-- The pointers of the unconsumed slots of a queue, oldest first. -/
def Desc.slots (d : Desc) : List Nat := ((List.range d.depth).map (fun k => (d.head + k) % d.modulus)).filter (fun p => !decide (p ∈ d.done))

/-- No item of an epoch below E is left in a queue a cluster or the supervisor consumes, halted queues apart; items in flight and
in merge windows lie in their rings until they are consumed (Table 15.3 step 2). -/
def State.drained (s : State) (e : W32) : Bool :=
  s.qm.descs.all (fun p =>
    let d := p.2
    !d.hasRing || decide (d.state = 2) || s.hwConsumed p.1 ||
      d.slots.all (fun k => decide (e.toNat ≤ (itemEpoch (s.slotItem p.1 k)).toNat)))

/-- Load one cluster's store with an image and measure it (R342, Table 14.6, Table 15.3 step 4). -/
def State.loadStore (c : Nat) (img : List Byte) (s : State) : State :=
  let s := { s with ge := { s.ge with store := tabSpan 0#8 s.ge.store (c * 0x40000) 0x40000 img } }
  if c = 0 then s.mrExtend 2 (sha384v img) else s.mrExtend 3 (sha384v (BitVec.ofNat 8 c :: img))

/-- A staged image becomes active and the former active one kept (Table 15.3 step 5). -/
def State.activate (k : Nat) (s : State) : State :=
  match s.stagedImg k with
  | none => s
  | some i => { s with upd := { s.upd with
      kept := Tab.set none s.upd.kept k (s.activeImg k), active := Tab.set none s.upd.active k (some i), staged := Tab.set none s.upd.staged k none } }

/-- Steps 3 to 5 of the handover: the stores loaded and checked; `bad` names the clusters whose store failed its check twice,
which leaves every changing cluster parked and the gate closed (R352, R353). -/
def State.handoverLoad (cl bad : BitVec 4) (s : State) : State :=
  let s := (List.range 4).foldl (fun s c => match s.stagedImg c with | some i => s.loadStore c i.bytes | none => s) s
  let s := match s.stagedImg 4 with | some i => s.mrExtend 4 (sha384v i.bytes) | none => s
  if bad &&& cl ≠ 0#4 then
    State.event 0x1B05 0#32 { s with
      upd := { s.upd with loadfail := true, parked := s.upd.parked ||| cl }
      ldg := { s.ldg with hwRun := s.ldg.hwRun && !bit cl 0 } }
  else
    let s := (List.range 5).foldl (fun s k => s.activate k) s
    let s := match bit cl 0, s.activeImg 0 with
      | true, some i => s.heartLoaded i.bytes ((s.activeImg 4).map Img.bytes |>.getD [])
      | _, _ => s
    State.event 0x1B03 0#32 { s with upd := { s.upd with gated := false, hand := none } }

/-- HANDOVER_DRAIN_END. -/
def execHandoverDrainEnd (bad : BitVec 4) (s : State) : Answer :=
  match s.upd.hand with
  | some (e, cl, _, _) => if s.pwr.mainOn && !s.upd.loadfail && s.drained e then .next (s.handoverLoad cl bad) else .next s
  | none => .next s

/-- DRAINWARN_EXPIRY: the drain has lasted DRAINWARN: event 0x1B04 once, and the wait goes on (R352). -/
def execDrainwarnExpiry (s : State) : Answer :=
  match s.upd.hand with
  | some (e, cl, t, false) =>
    if s.pwr.mainOn && s.past t (s.regF 0x1B0010 0 16 * msCounts) then
      .next (State.event 0x1B04 0#32 { s with upd := { s.upd with hand := some (e, cl, t, true) } })
    else .next s
  | _ => .next s

end Sys2Proof.Machine
end

