-- ==== Sys2Proof/Machine/Mem.lean ====
section
/-! DEFINITION. The DRAM controller as the fabric sees it (16_storage.md, R361 to R367, R452): line reads and writes, partial
writes, the scrubber, the poison log and the MEM window. -/

namespace Sys2Proof.Machine
open Sys2Proof

/-- A fabric target whose grants FAB_FREEZE stops (R403): 0 and 1 the DRAM channels, 2 register windows, 3 supervisor memory,
4 program stores, 5 PCIe outbound. -/
def State.frozenTgt (s : State) (k : Nat) : Bool := bit (s.reg 0x040040) k

/-- The DRAM channel of an address: they alternate every 4 KiB (Table 18.1). -/
def dramChannel (a : Nat) : Nat := a / 4096 % 2

/-- The DRAM channels a run of `n` bytes touches wait at a frozen target. -/
def State.ramFrozen (s : State) (a n : Nat) : Bool :=
  (linesOf a n).any (fun l => s.frozenTgt (dramChannel (64 * l)))

/-- DRAM serves accesses: the main domains run and DRAM does not self-refresh (R361, Table 17.1). -/
def State.dramOn (s : State) : Bool := s.pwr.mainOn && decide (s.pwr.state < 3)

/-- An agent's own lock check on a write of `n` bytes (R117). -/
def State.lockStops (s : State) (i : Init) (a n : Nat) : Bool :=
  match i.agent with
  | some g => (List.range n).any (fun k => s.lockDenied g (a + k))
  | none => false

/-- Enter a host error in HST_ERRLOG; a full log loses it (R405). -/
def State.hostError (addr : Nat) (st : Status) (agent : Nat) (s : State) : State :=
  if s.hst.errlog.length < 16 then { s with hst := { s.hst with errlog := s.hst.errlog ++ [(addr, st, agent)] } }
  else { s with hst := { s.hst with errOvf := true } }

/-- A BAR2 window that is open, for writes with WR, maps onto address `a` (R404). -/
def State.hostWindow (s : State) (write : Bool) (a : Nat) : Bool :=
  (List.range 16).any (fun w =>
    let v := s.reg (0x1E0010 + 4 * w)
    bit v 31 && (!write || bit v 30) && decide ((fld v 0 10).toNat = a / 2 ^ 24))

/-- The response to a DRAM access; the host's error responses are logged (R405). -/
def State.dramAnswer (i : Init) (a : Nat) (st : Status) (s : State) : State :=
  State.respond (if i = .host ∧ st ≠ .ok then s.hostError a st agHost else s) i st

/-- What stands before an access to DRAM lines: the fence, the rights. -/
def State.ramGate (s : State) (i : Init) (write : Bool) (a n : Nat) : Status :=
  if s.fencedInit i then .fenced
  else if write then (if s.ramWriteRight i a n ≠ .ok then .denied else if s.lockStops i a n then .denied else .ok)
  else s.ramReadRight i a n

/-- The same for an access from the fabric, where the host comes through a BAR2 window (R404). -/
def State.lineGate (s : State) (i : Init) (write : Bool) (a n : Nat) : Status :=
  if decide (i = .host) && !s.fencedInit i && !s.hostWindow write a then .denied else s.ramGate i write a n

/-- A line read as the controller does it: corrected, or poisoned as R363 says. -/
def State.lineVerify (l : Nat) (c : LineCond) (s : State) : Bool × State :=
  if s.poisoned l then (false, s)
  else match c with
    | .clean => (true, s)
    | .oneBit => (true, ({ s with mem := { s.mem with corr := satInc 0xFFFF s.mem.corr } }).count 0x0503 1 { addr := some (64 * l) })
    | .many => (false, s.poisonLine l)

/-- DRAM_LINE_READ: the three outcomes of R363. -/
def execDramLineRead (i : Init) (line : BitVec 28) (c : LineCond) (s : State) : Answer :=
  let l := line.toNat
  if !s.dramOn || s.ramFrozen (64 * l) 64 then .next s
  else
    let st := s.lineGate i false (64 * l) 64
    if st ≠ .ok then .next (s.dramAnswer i (64 * l) st)
    else
      let s := s.count 0x0500 1 { init := some i, addr := some (64 * l) }
      let (ok, s) := s.lineVerify l c
      .next (s.dramAnswer i (64 * l) (if ok then .ok else .integrity))

/-- A line of a ledger block written while RESTORE is open counts for event 0x0C07 (R195). -/
def State.restoreCount (l : Nat) (s : State) : State :=
  if s.ldg.restore && s.inLedger (64 * l) then { s with ldg := { s.ldg with restCnt := s.ldg.restCnt + 1 } } else s

/-- DRAM_LINE_WRITE: a whole line is stored with a fresh tag, which clears POISON and its log entry (R364, R452). -/
def execDramLineWrite (i : Init) (line : BitVec 28) (v : Item) (s : State) : Answer :=
  let l := line.toNat
  if !s.dramOn || s.ramFrozen (64 * l) 64 then .next s
  else
    let st := s.lineGate i true (64 * l) 64
    if st ≠ .ok then .next (s.dramAnswer i (64 * l) st)
    else
      let s := (s.restoreCount l).count 0x0501 1 { init := some i, addr := some (64 * l) }
      .next ((s.lineWrite l 0 (bytesOf 64 v)).2.respond i .ok)

/-- DRAM_PARTIAL_WRITE: the merge of R364; a host posted write that fails is discarded without a response and counted. -/
def execDramPartialWrite (i : Init) (line : BitVec 28) (first : Fin 64) (data : List Byte) (c : LineCond) (s : State) : Answer :=
  let l := line.toNat
  let bs := data.take (64 - first.val)
  let a := 64 * l + first.val
  let host := decide (i = .host)
  if !s.dramOn || s.ramFrozen (64 * l) 64 || bs.isEmpty then .next s
  else
    let st := s.lineGate i true a bs.length
    if st ≠ .ok then .next (s.dramAnswer i (64 * l) st)
    else if first.val = 0 ∧ bs.length = 64 then
      .next ((((s.restoreCount l).count 0x0501 1 { init := some i, addr := some a }).lineWrite l 0 bs).2.respond i .ok)
    else
      let s := s.count 0x0502 1 { init := some i, addr := some a }
      let (ok, s) := s.lineVerify l c
      if ok then
        let s := s.ramPut a bs
        .next (if host then s else s.respond i .ok)
      else if host then
        .next (State.event 0x1C03 (BitVec.ofNat 32 l) { s with mem := { s.mem with pwdrop := satInc 0x7F s.mem.pwdrop } })
      else .next (s.dramAnswer i (64 * l) .integrity)

/-- SCRUB_LINE: the scrubber reads one line under R363; it abandons its write-back where a write has reached the line since its
read; the last line ends the pass (R366, R367). -/
def execScrubLine (line : BitVec 28) (c : LineCond) (written : Bool) (s : State) : Answer :=
  let l := line.toNat
  let en := bit (s.reg 0x1C0008) 31
  if !s.dramOn || !en || decide (s.usable < 64 * l + 64) then .next s
  else
    let s := { s with mem := { s.mem with scrubon := true } }
    let s := if written then s else (s.lineVerify l c).2
    .next (if s.usable ≤ 64 * l + 64 then { s with mem := { s.mem with scrubon := false } } else s)

/-- Writes of the MEM window (R367, Table 16.2); a RATE of 3 names no rate of R361. -/
def writeMem : UnitWrite := fun _ r o v s =>
  if o = 0x1C0008 then
    if vf v 0 8 = 0 ∨ 168 < vf v 0 8 then refuse .outOfRange s
    else
      let s := if vf v 31 1 = 0 then { s with mem := { s.mem with scrubon := false } } else s
      accept r o v s
  else if o = 0x1C0004 then
    (.ok, { s with mem := { s.mem with
      plovf := s.mem.plovf && decide (vf v 31 1 = 0)
      pwdrop := if vf v 16 1 = 1 then 0 else s.mem.pwdrop
      corr := if vf v 0 1 = 1 then 0 else s.mem.corr } })
  else if o = 0x1C0000 then if vf v 0 2 = 3 then refuse .outOfRange s else accept r o v s
  else accept r o v s

/-- Reads of the MEM window (Tables 16.2, 16.6, R452). -/
def readMem (o : Nat) (s : State) : W32 :=
  if o = 0x1C0004 then
    BitVec.ofNat 32 ((if s.mem.plovf then 2 ^ 31 else 0) + (if s.mem.scrubon then 2 ^ 30 else 0)
      + min 64 (s.mem.plog.filter (fun p => p.2.isSome)).length * 2 ^ 23 + s.mem.pwdrop * 65536 + s.mem.corr)
  else if o = 0x1C0010 then
    match Tab.get none s.mem.plog (s.regF 0x1C000C 0 6) with
    | some (l, _) => BitVec.ofNat 32 (2 ^ 31 + l % 2 ^ 28)
    | none => 0#32
  else s.reg o

end Sys2Proof.Machine
end

