-- ==== Sys2Proof/Machine/Nft.lean ====
section
/-! DEFINITION. The NAND store (16_storage.md, R368 to R379): commands, stripes, reads and rebuilds, map checkpoints, formatting,
health, and the NFT window. -/

namespace Sys2Proof.Machine
open Sys2Proof

/-! ## Command items (Table 16.3) -/

def nOp (x : Item) : Nat := (fld x 320 8).toNat
def nVol (x : Item) : Nat := (fld x 328 8).toNat
def nCount (x : Item) : Nat := (fld x 336 16).toNat
def nSector (x : Item) : Nat := (fld x 352 32).toNat
def nBuf (x : Item) : Nat := (fld x 384 64).toNat
/-- The table keys of a command's sectors. -/
def nKeys (x : Item) : List Nat := (List.range (nCount x)).map (fun k => nVol x * 2 ^ 32 + nSector x + k)
abbrev nftCmdq : Nat := 0x1D0020
abbrev nftCq : Nat := 0x1D0024

/-- A sector never written or trimmed reads zeros (R375). -/
def zeroSector : List Byte := List.replicate 4096 0#8

/-- NFT works: the main domains run, P3 and P4 apart, and the map is loaded (R378, Table 17.1). -/
def State.nftOn (s : State) : Bool := s.dramOn && s.nft.ready

/-! ## Geometry (R368 to R370) -/

def popCount : Nat → Nat → Nat
  | 0, _ => 0
  | n + 1, v => v % 2 + popCount n (v / 2)

/-- The dies a geometry names. -/
def geomDies (g : W32) : Nat := popCount 4 (fld g 20 4).toNat * ((fld g 16 3).toNat + 1) * (if bit g 12 then 2 else 1)
def geomWidth (g : W32) : Nat := (fld g 0 5).toNat
/-- The stripe groups of the geometry in force. -/
def State.nftGroups (s : State) : Nat := geomDies s.nft.geom / geomWidth s.nft.geom
def State.die (s : State) (d : Nat) : Die := Tab.get {} s.nft.dies d
def State.setDie (s : State) (d : Nat) (x : Die) : State := { s with nft := { s.nft with dies := Tab.set {} s.nft.dies d x } }
def State.groupOf (s : State) (d : Nat) : Nat := d / geomWidth s.nft.geom
/-- The working dies of a group. -/
def State.groupDies (s : State) (g : Nat) : List Nat :=
  ((List.range (geomWidth s.nft.geom)).map (g * geomWidth s.nft.geom + ·)).filter (fun d => decide ((s.die d).state = 1))
/-- A group takes new stripes while it has 4 working dies (R377). -/
def State.groupOk (s : State) (g : Nat) : Bool := decide (4 ≤ (s.groupDies g).length)
/-- Sectors a stripe of a group holds: four in the 16 KiB page of every working die but the parity's (R369). -/
def State.stripeRoom (s : State) (g : Nat) : Nat := ((s.groupDies g).length - 1) * 4

/-! ## Health (R379) -/

/-- A die's part of LIFE. -/
def State.dieLife (s : State) (d : Die) : Int :=
  let rated := (s.reg 0x1D000C).toNat
  if rated = 0 ∨ d.spare0 = 0 then Config.lifeOpen
  else min (100 - ((100 * d.pemean + rated - 1) / rated : Nat)) ((100 * d.spare / d.spare0 : Nat) : Int)

/-- LIFE; 0 with no working die (Table 16.5). -/
def State.nftLife (s : State) : Nat :=
  match (s.nft.dies.filter (fun p => decide (p.2.state = 1))).map (fun p => s.dieLife p.2) with
  | [] => 0
  | x :: xs => (clampInt 0 100 (xs.foldl min x)).toNat

/-- LIFE at 10 or below records event 0x1D04 once. -/
def State.lifeCheck (s : State) : State :=
  if !s.nft.lifeEv && s.nft.dies.any (fun p => decide (p.2.state = 1)) && decide (s.nftLife ≤ 10) then
    State.event 0x1D04 0#32 { s with nft := { s.nft with lifeEv := true } }
  else s

/-- The wear of a programmed stripe on its dies: how it falls on the blocks is not given, so a mean may rise by one and a block
may retire (free). -/
def State.wearDie (s : State) (d : Nat) : State :=
  let (x, s) := s.draw 2
  let v := s.die d
  let mean := if bit x 0 then min 0xFFFF (v.pemean + 1) else v.pemean
  let retire := bit x 1 && decide (0 < v.spare)
  s.setDie d { v with
    pemean := mean
    pemax := max v.pemax mean
    spare := if retire then v.spare - 1 else v.spare
    grown := if retire then v.grown + 1 else v.grown }

/-! ## Completions (R371, R372) -/

/-- A completion item: request ID, status in byte 40, sectors completed in bytes 42-43. -/
def nandDone (x : Item) (st : Status) (n : Nat) : Item := setFld (completion (itemReq x) st) 336 (BitVec.ofNat 16 n)

/-- Put completions that wait, oldest first, while NFT_CQ takes them. -/
def State.nandFlush : Nat → State → State
  | 0, s => s
  | fuel + 1, s =>
    match s.nft.dones with
    | [] => s
    | d :: ds =>
      let (ok, s) := s.hwPut (s.regF nftCq 0 16) d
      if ok then State.nandFlush fuel { s with nft := { s.nft with dones := ds } } else s

/-- Complete a command item. -/
def State.nandComplete (x : Item) (st : Status) (n : Nat) (s : State) : State :=
  let s := { s with nft := { s.nft with dones := s.nft.dones ++ [nandDone x st n] } }
  State.nandFlush s.nft.dones.length s

/-- Complete every WRITE none of whose sectors lies in an open stripe any more. -/
def State.nandWritesDone (s : State) : State :=
  let go := s.nft.cmds.filter (fun c => decide (nOp c.item = 2) && decide (c.open_ = 0))
  let s := { s with nft := { s.nft with cmds := s.nft.cmds.filter (fun c => !(decide (nOp c.item = 2) && decide (c.open_ = 0))) } }
  go.foldl (fun s c => s.nandComplete c.item .ok (nCount c.item)) s

/-! ## Stripes (R374) -/

def State.stripe (s : State) (g : Nat) : Stripe := Tab.get {} s.nft.stripes g
def State.setStripe (s : State) (g : Nat) (x : Stripe) : State := { s with nft := { s.nft with stripes := Tab.set {} s.nft.stripes g x } }

/-- A command has `n` sectors fewer in open stripes. -/
def lessOpen (pages : List NPage) (c : NCmd) : NCmd :=
  { c with open_ := c.open_ - (pages.filter (fun p => decide (p.cmd = c.id))).length }

/-- A page still open elsewhere that an older command wrote is dead once a newer page of its sector is closed (R373). -/
def supersede (ps : List NPage) (q : NPage) : NPage :=
  if ps.any (fun p => p.key.isSome && decide (p.key = q.key) && decide (q.cmd < p.cmd)) then { q with key := none } else q

/-- Close a group's open stripe with its parity page: the map points at the new pages, older open pages of their sectors are dead,
and the WRITEs they end complete (R373, R374). -/
def State.closeStripe (g : Nat) (s : State) : State :=
  let ps := (s.stripe g).pages
  if ps.isEmpty then s
  else
    let s := s.setStripe g {}
    let s := { s with nft := { s.nft with
      sectors := ps.foldl (fun t (p : NPage) => match p.key with | some k => Tab.set zeroSector t k p.data | none => t) s.nft.sectors
      stripes := s.nft.stripes.map (fun (p : Nat × Stripe) => (p.1, { p.2 with pages := p.2.pages.map (supersede ps) }))
      cmds := s.nft.cmds.map (lessOpen ps) } }
    let s := (s.groupDies g).foldl State.wearDie s
    (s.nandWritesDone).lifeCheck

/-- Close every open stripe, as a FLUSH does. -/
def State.closeAll (s : State) : State := (s.nft.stripes.map (·.1)).foldl (fun s g => s.closeStripe g) s

/-- Drop the pages of some commands from the open stripes. -/
def State.dropPages (s : State) (ids : List Nat) : State :=
  { s with nft := { s.nft with stripes := s.nft.stripes.filterMap (fun p =>
      let q : Stripe := { p.2 with pages := p.2.pages.filter (fun x => !decide (x.cmd ∈ ids)) }
      if q.pages.isEmpty then none else some (p.1, q)) } }

/-- Abort commands: their pages are abandoned and they complete with a status (R377). -/
def State.nandAbort (s : State) (st : Status) (f : NCmd → Bool) : State :=
  let go := s.nft.cmds.filter f
  let s := s.dropPages (go.map (·.id))
  let s := { s with nft := { s.nft with cmds := s.nft.cmds.filter (fun c => !f c) } }
  go.foldl (fun s c => s.nandComplete c.item st 0) s

/-- Place one sector in the open stripe of a group that a free draw chooses among those that can take stripes; a full stripe
closes. -/
def State.placeSector (id : Nat) (s : State) (k : Nat × List Byte) : State :=
  let gs := (List.range s.nftGroups).filter s.groupOk
  let (d, s) := s.draw 8
  let g := (gs[d.toNat % gs.length]?).getD 0
  let x := s.stripe g
  let x : Stripe := if x.pages.isEmpty then { pages := [], at_ := s.tb.elapsed, close := s.regF 0x1D0004 0 8 } else x
  let ps := x.pages ++ [⟨some k.1, k.2, id⟩]
  let s := s.setStripe g { x with pages := ps }
  if s.stripeRoom g ≤ ps.length then s.closeStripe g else s

/-- The content a sector has for a command taken now: the newest open page, else what the map points at. -/
def State.sectorNow (s : State) (k : Nat) : List Byte :=
  let open_ := (s.nft.stripes.flatMap (fun p => p.2.pages)).filter (fun p => decide (p.key = some k))
  match open_ with
  | [] => Tab.get zeroSector s.nft.sectors k
  | p :: ps => (ps.foldl (fun (b : NPage) p => if b.cmd ≤ p.cmd then p else b) p).data

/-! ## Taking commands (R371 to R375) -/

/-- OUT_OF_RANGE causes of R372. -/
def State.nandFormOk (s : State) (x : Item) : Bool :=
  let size := (Tab.get 0#32 s.nft.vsize (nVol x)).toNat
  decide (fld x 448 64 = (0#64)) && decide (1 ≤ nOp x ∧ nOp x ≤ 4)
    && (if nOp x = 4 then decide (nCount x = 0)
        else decide (1 ≤ nVol x ∧ nVol x ≤ 15) && decide (size ≠ 0) && decide (nSector x + nCount x ≤ size)
          && decide (1 ≤ nCount x ∧ nCount x ≤ 256) && decide (nBuf x % 64 = 0))

/-- Run a command NFT has just taken; `who` is the agent whose QPUT it was. -/
def State.nandRun (x : Item) (who : Option Nat) (s : State) : State :=
  let id := s.nft.nextId
  let s := { s with nft := { s.nft with nextId := id + 1 } }
  if !s.nandFormOk x then s.nandComplete x .outOfRange 0
  else if nOp x = 1 then
    { s with nft := { s.nft with cmds := s.nft.cmds ++ [{ id, item := x, agent := who, data := (nKeys x).map s.sectorNow }] } }
  else if nOp x = 4 then (s.closeAll).nandComplete x .ok 0
  else if s.nft.readonly then s.nandComplete x .denied 0
  else if nOp x = 3 then
    let ks := nKeys x
    let s := { s with nft := { s.nft with
      sectors := s.nft.sectors.filter (fun p => !decide (p.1 ∈ ks))
      stripes := s.nft.stripes.map (fun (p : Nat × Stripe) => (p.1, { p.2 with
        pages := p.2.pages.map (fun (q : NPage) => if q.key.any (fun k => decide (k ∈ ks)) then { q with key := none } else q) })) } }
    s.nandComplete x .ok (nCount x)
  else
    let (st, bs) := s.unitRead (nBuf x) (4096 * nCount x)
    if st ≠ .ok then s.nandComplete x st 0
    else
      let s := { s with nft := { s.nft with cmds := s.nft.cmds ++ [{ id, item := x, agent := who, open_ := nCount x }] } }
      ((nKeys x).zip (parts 4096 (nCount x) bs)).foldl (State.placeSector id) s

/-- Take the command at the head of NFT_CMDQ where it has the operation `op`, or a reserved one. -/
def State.nandTake (op : Nat) (s : State) : State :=
  if !s.nftOn then s
  else
    let s := State.nandFlush s.nft.dones.length s
    let q := s.regF nftCmdq 0 16
    match s.headItem q with
    | none => s
    | some r =>
      if nOp r.item = op ∨ nOp r.item = 0 ∨ 4 < nOp r.item then
        match s.hwTake q with
        | (none, s) => s
        | (some x, s) =>
          let who := (s.nft.putBy.find? (fun p => decide (p.1 = r.ptr))).map (·.2)
          let s := { s with nft := { s.nft with putBy := s.nft.putBy.filter (fun p => decide (p.1 ≠ r.ptr)) } }
          s.nandRun x who
      else s

/-- NAND_READ: a READ is taken; it delivers at NAND_READ_DONE (R371, R373). -/
def execNandRead (s : State) : Answer := .next (s.nandTake 1)
/-- NAND_WRITE: a WRITE's sectors enter open stripes, or it is refused (R372, R374). -/
def execNandWrite (s : State) : Answer := .next (s.nandTake 2)
/-- TRIM completes at once (R375). -/
def execTrim (s : State) : Answer := .next (s.nandTake 3)
/-- FLUSH closes every open stripe before it completes (R374). -/
def execFlush (s : State) : Answer := .next (s.nandTake 4)

/-- A read's lines stored in BUF with fresh tags; DENIED where a line may not be written there. -/
def State.nandDeliver (a : Nat) (bs : List Byte) (s : State) : Status × State :=
  if s.ramWriteRight (.hw 12) a bs.length ≠ .ok then (.denied, s)
  else
    let s := (linesOf a bs.length).foldl (fun s l => s.restoreCount l) s
    s.ramWrite a bs

/-- NAND_READ_DONE: the oldest READ delivers. `bad` names the sectors (from 0 in the command) that could not be recovered, `rebuilt`
those rebuilt from their stripes (R372, R376). -/
def execNandReadDone (bad rebuilt : List Nat) (s : State) : Answer :=
  match s.nft.cmds.find? (fun c => decide (nOp c.item = 1)) with
  | none => .next s
  | some c =>
    if !s.nftOn then .next s
    else
      let n := nCount c.item
      let bad := ((List.range n).filter (fun k => decide (k ∈ bad)))
      let reb := ((List.range n).filter (fun k => decide (k ∈ rebuilt) && !decide (k ∈ bad)))
      let s := { s with nft := { s.nft with cmds := s.nft.cmds.filter (fun d => decide (d.id ≠ c.id)) } }
      let bytes := ((List.range n).zip c.data).flatMap (fun p => if p.1 ∈ bad then zeroSector else p.2)
      let (st, s) := s.nandDeliver (nBuf c.item) bytes
      let s := reb.foldl (fun s _ =>
        let dies := (s.nft.dies.filter (fun p => decide (p.2.state ≠ 0))).map (·.1)
        let (d, s) := s.draw 8
        let k := (dies[d.toNat % dies.length]?).getD 0
        let v := s.die k
        let s := if dies.isEmpty then s else s.setDie k { v with recon := satInc 0xFFFF v.recon, retries := satInc 0xFFFFFFFF v.retries }
        s.event 0x1D01 0#32) s
      let s := bad.foldl (fun s k =>
        State.event 0x1D03 (BitVec.ofNat 32 (nVol c.item * 2 ^ 28 + (nSector c.item + k) % 2 ^ 28)) { s with nft := { s.nft with loss := true } }) s
      .next (s.nandComplete c.item (if bad ≠ [] then .integrity else st) (if st = .ok then n - bad.length else 0))

/-- STRIPE_CLOSE: a group's open stripe is closed NFT_CTL.CLOSE ms after its first data page (R374). -/
def execStripeClose (grp : Fin 16) (s : State) : Answer :=
  let x := s.stripe grp.val
  if s.nftOn && !x.pages.isEmpty && s.past x.at_ (x.close * msCounts) then .next (s.closeStripe grp.val) else .next s

/-- The store becomes read-only when a group can no longer close a stripe (R379): the commands whose pages lie in its open stripe
end with DENIED. -/
def State.readonlyCheck (s : State) : State :=
  let lame := (List.range s.nftGroups).filter (fun g => !s.groupOk g)
  if lame.isEmpty then s
  else
    let s := { s with nft := { s.nft with readonly := true } }
    let ids := lame.flatMap (fun g => (s.stripe g).pages.map (·.cmd))
    s.nandAbort .denied (fun c => decide (c.id ∈ ids))

/-- DIE_FAILURE: FAILED, DEGRADED, event 0x1D02 (R377). -/
def execDieFailure (die : Fin 64) (s : State) : Answer :=
  let v := s.die die.val
  if !s.nftOn || decide (v.state ≠ 1) then .next s
  else
    let s := s.setDie die.val { v with state := 2 }
    let s := State.event 0x1D02 0#32 { s with nft := { s.nft with degraded := true } }
    .next (s.readonlyCheck.lifeCheck)

/-- REBUILD_DONE: DEGRADED clears (R377). -/
def execRebuildDone (s : State) : Answer :=
  if s.nftOn && s.nft.degraded then .next { s with nft := { s.nft with degraded := false } } else .next s

/-- MAP_CHECKPOINT: due every MAPCKPT minutes; the checkpoint lies in volume 0, which is NFT's own (R378). -/
def execMapCheckpoint (s : State) : Answer :=
  if s.nftOn && s.past s.nft.ckAt (s.nft.ckPer * 60 * sCounts) then
    .next { s with nft := { s.nft with ckAt := s.tb.elapsed, ckPer := s.regF 0x1D0004 8 6 } }
  else .next s

/-- NFT_MAP_LOADED: the newest checkpoint and the stripes closed after it are applied; commands are accepted, or refused where a
group can close no stripe (R378, R379). -/
def execNftMapLoaded (s : State) : Answer :=
  if !s.dramOn || s.nft.ready then .next s
  else .next (State.readonlyCheck { s with nft := { s.nft with ready := true, ckAt := s.tb.elapsed, ckPer := s.regF 0x1D0004 8 6 } })

/-! ## The NFT window (R370, Tables 16.5, 16.7, 16.8) -/

/-- A freshly formatted die: its wear figures are what the die has (free); SPARE0 is taken at its first format. -/
def State.formatDie (s : State) (d : Nat) : State :=
  let (m, s) := s.draw 16
  let (x, s) := s.draw 16
  let (p, s) := s.draw 16
  let v := s.die d
  s.setDie d { v with
    pemean := m.toNat
    pemax := max m.toNat x.toNat
    spare := p.toNat
    spare0 := if v.spare0 = 0 then p.toNat else v.spare0
    grown := 0
    state := if v.state = 2 then 2 else 1 }

/-- A format: every die named is erased, an empty map, volume sizes 0 (R370). -/
def State.nandFormat (g : W32) (s : State) : State :=
  let n := geomDies g
  let s := { s with nft := { s.nft with
    geom := setFld g 31 (0#1)
    sectors := []
    stripes := []
    vsize := []
    readonly := false
    degraded := false
    lifeEv := false
    dies := s.nft.dies.filter (fun p => decide (p.1 < n)) } }
  (((List.range n).foldl State.formatDie s).readonlyCheck).lifeCheck

/-- A write of NFT_GEOM (R370). -/
def State.geomWrite (v : Nat) (s : State) : Status × State :=
  let g : W32 := BitVec.ofNat 32 v &&& 0x80F71C1F#32
  let ch := vf v 20 4
  let have_ := (fld (caps1 s.sys.variant) 20 4).toNat
  let d := s.desc (s.regF nftCmdq 0 16)
  if vf v 31 1 = 0 then (.denied, s)
  else if !s.nft.cmds.isEmpty || (d.hasRing && decide (d.depth ≠ 0) && decide (d.mode = 2#3)) then (.retry, s)
  else if (List.range 4).any (fun k => decide (ch / 2 ^ k % 2 = 1) && decide (have_ / 2 ^ k % 2 = 0)) then (.absent, s)
  else if 64 < geomDies g ∨ geomWidth g < 4 ∨ 16 < geomWidth g ∨ geomDies g < geomWidth g ∨ vf v 10 2 = 3 then (.outOfRange, s)
  else (.ok, s.nandFormat g)

/-- Writes of the NFT window. -/
def writeNft : UnitWrite := fun _ r o v s =>
  if o = 0x1D0000 then s.geomWrite v
  else if o = 0x1D0004 then
    if vf v 0 8 = 0 ∨ 100 < vf v 0 8 ∨ vf v 8 6 = 0 ∨ 60 < vf v 8 6 then refuse .outOfRange s else accept r o v s
  else if o = 0x1D0008 then
    (.ok, if vf v 28 1 = 1 then { s with nft := { s.nft with loss := false } } else s)
  else if o = 0x1D0014 then
    let k := s.regF 0x1D0010 0 4
    if k = 0 then refuse .outOfRange s
    else (.ok, { s with nft := { s.nft with vsize := Tab.set 0#32 s.nft.vsize k (BitVec.ofNat 32 v) } })
  else accept r o v s

/-- Reads of the NFT window. -/
def readNft (o : Nat) (s : State) : W32 :=
  let d := s.die (s.regF 0x1D0030 0 6)
  let f (x : Bool) (k : Nat) : Nat := if x then 2 ^ k else 0
  if o = 0x1D0000 then s.nft.geom
  else if o = 0x1D0008 then
    BitVec.ofNat 32 (f s.nft.ready 31 + f s.nft.degraded 30 + f s.nft.readonly 29 + f s.nft.loss 28
      + (s.nft.dies.filter (fun p => decide (p.2.state = 2))).length % 64 * 256 + s.nftLife)
  else if o = 0x1D0014 then Tab.get 0#32 s.nft.vsize (s.regF 0x1D0010 0 4)
  else if o = 0x1D0034 then BitVec.ofNat 32 (d.pemax % 65536 * 65536 + d.pemean % 65536)
  else if o = 0x1D0038 then BitVec.ofNat 32 (d.spare % 65536 * 65536 + d.grown % 65536)
  else if o = 0x1D003C then BitVec.ofNat 32 d.retries
  else if o = 0x1D0040 then BitVec.ofNat 32 (d.recon % 65536 * 65536 + d.bermax % 256 * 256 + d.state % 4)
  else s.reg o

end Sys2Proof.Machine
end

