-- ==== Sys2Proof/Machine/Ord.lean ====
section
/-! DEFINITION. The ordering unit (04_order_once.md): completion cache, lock and sequence registers, merge-window expiry and the
unit's own time-driven events. -/

namespace Sys2Proof.Machine
open Sys2Proof

/-! ## The completion cache (R103 to R110) -/

/-- A completion entry (Table 4.2) as 256 bits. -/
abbrev CcEnt := BitVec 256
def ccReq (e : CcEnt) : Word := fld e 0 64
def ccResult (e : CcEnt) : BitVec 128 := fld e 64 128
def ccStatus (e : CcEnt) : Byte := fld e 192 8
def ccValid (e : CcEnt) : Bool := bit e 200
def ccTime (e : CcEnt) : W32 := fld e 224 32

/-- The bucket of a request ID (R103). -/
def State.ccBucket (s : State) (id : Word) : Nat := Config.ccHash s.ord.key id % 524288
def State.ccAddr (s : State) (b w : Nat) : Nat := s.ccBase + b * 256 + 32 * w
def State.ccAt (s : State) (a : Nat) : CcEnt := BitVec.ofNat 256 (s.ramNat a 32)
def State.ccPut (s : State) (a : Nat) (e : CcEnt) : State := s.ramPut a (bytesOf 32 e)
/-- A line of the bucket is poisoned (R110). -/
def State.ccPoisoned (s : State) (b : Nat) : Bool := (linesOf (s.ccAddr b 0) 256).any s.poisoned
/-- The address of the entry of an ID in its bucket. -/
def State.ccFind (s : State) (id : Word) : Option Nat :=
  ((List.range 8).map (s.ccAddr (s.ccBucket id))).find? (fun a => ccValid (s.ccAt a) && decide (ccReq (s.ccAt a) = id))
/-- The bucket is in the quarantine list (R110). -/
def State.quarantined (s : State) (b : Nat) : Bool := s.ord.quar.any (fun p => decide (p.1 = b))

/-- Retention of an origin in seconds: RETD for device origins, RETH for head ends (R105). -/
def State.retention (s : State) (id : Word) : Nat :=
  (if (reqOrigin id).toNat < 0x200 then s.regF 0x0B0010 1 10 else s.regF 0x0B0010 11 10) * 3600
/-- An age in TAI seconds modulo 2^32 (R105). -/
def State.age (s : State) (t : W32) : Nat := (s.secNow - t).toNat

/-- Retire the entry at `a`: valid clears, LIVE falls, FLOOR takes the count, FV sets (R105). -/
def State.ccRetire (a : Nat) (s : State) : State :=
  let e := s.ccAt a
  let id := ccReq e
  let s := s.ccPut a (setFld e 200 (0#1))
  match s.stFind (reqOrigin id) (reqStream id) with
  | none => s
  | some x =>
    let t := s.stAt x
    let t := setFld t 32 (BitVec.ofNat 32 (max (stFloor t).toNat (reqCount id).toNat))
    let t := setFld t 97 (1#1)
    s.stPut x (setFld t 104 (BitVec.ofNat 24 (stLive t - 1)))

/-- The way a new entry takes: the first not valid, else the oldest CTIME, the lowest-numbered on a tie (R105). Ages are
judged modulo 2^32. -/
def State.ccVictim (s : State) (b : Nat) : Nat :=
  let ways := (List.range 8).map (s.ccAddr b)
  match ways.find? (fun a => !ccValid (s.ccAt a)) with
  | some a => a
  | none => ways.foldl (fun best a => if s.age (ccTime (s.ccAt best)) < s.age (ccTime (s.ccAt a)) then a else best) (s.ccAddr b 0)

/-- Write a completion at commit (R104, R105, R107); EOVF sets at the first retirement EARLY, at 0x7FFF, can no longer count (DESIGN
CHOICE, log entry 50: Table 4.5 says 'saturated'). A full bucket retires a way first, counted in EARLY when its retention
had not ended; the stream entry takes LAST and LIVE and loses TENT. -/
def State.ccCommit (c : Comp) (s : State) : State :=
  let a := s.ccVictim (s.ccBucket c.id)
  let e := s.ccAt a
  let s :=
    if ccValid e then
      let early := decide (s.age (ccTime e) < s.retention (ccReq e))
      let s := s.ccRetire a
      if early then
        { s with ord := { s.ord with early := satInc 0x7FFF s.ord.early, eovf := s.ord.eovf || decide (s.ord.early = 0x7FFF) } }
      else s
    else s
  let n : CcEnt := setFld (setFld (setFld (setFld (setFld (setFld (0#256 : CcEnt) 0 c.id) 64 c.res) 192 c.st) 200 (1#8))
    208 (BitVec.ofNat 16 s.device)) 224 s.secNow
  let s := s.ccPut a n
  let s := match s.stFind (reqOrigin c.id) (reqStream c.id) with
    | none => s
    | some x =>
      let t := setFld (setFld (s.stAt x) 64 s.secNow) 98 (0#1)
      s.stPut x (setFld t 104 (BitVec.ofNat 24 (stLive t + 1)))
  { s with ord := { s.ord with pend := s.ord.pend.filter (fun p => decide (p.id ≠ c.id)) } }

/-- A stream entry that may be removed: committed, LIVE 0, LAST older than IDLE days, no pending mark (R106). -/
def State.stIdle (s : State) (e : StreamEnt) : Bool :=
  !stTent e && decide (stLive e = 0) && decide (s.regF 0x0B0010 23 9 * 86400 < s.age (stLast e)) && !s.stPending (stOrigin e) (stStream e)

/-- The way a new stream takes in its bucket; none where all eight hold entries that cannot be removed (R106). -/
def State.stRoom (s : State) (o st : BitVec 16) : Option Nat :=
  let ways := (List.range 8).map (s.stAddr o st)
  match ways.find? (fun a => !stValid (s.stAt a)) with
  | some a => some a
  | none => ways.find? (fun a => s.stIdle (s.stAt a))

/-- A tentative entry of a new stream (R106). -/
def tentEntry (o st : BitVec 16) : StreamEnt := setFld (setFld (setFld (0#128 : StreamEnt) 0 o) 16 st) 96 (5#8)

/-- What IDCHK finds, in the order of its checks (R107's pseudocode). -/
inductive IdLook where
  | fault
  | duplicate (res : BitVec 128) (st : Byte)
  | stale
  | retry
  | full
  | ok
deriving DecidableEq, Repr

/-- The look-up of IDCHK for an agent (R51, R106, R107, R110). -/
def State.idLook (s : State) (agent : Nat) (id : Word) : IdLook :=
  let b := s.ccBucket id
  if s.ccPoisoned b then .fault
  else match s.ccFind id with
    | some a => .duplicate (ccResult (s.ccAt a)) (ccStatus (s.ccAt a))
    | none =>
      if s.quarantined b then .stale
      else
        let e := s.stFind (reqOrigin id) (reqStream id)
        let below := match e with
          | some a => stFv (s.stAt a) && decide ((reqCount id).toNat ≤ (stFloor (s.stAt a)).toNat)
          | none => false
        if below then .stale
        else if s.ord.pend.any (fun p => decide (p.id = id ∧ p.agent ≠ agent ∧ p.epoch = s.epochOf p.agent)) then .retry
        else if e.isNone && (s.stRoom (reqOrigin id) (reqStream id)).isNone then .full
        else .ok

/-- Mark an ID pending for an agent, reserving a way for a new stream (R106, R107). -/
def State.idMark (agent : Nat) (id : Word) (s : State) : State :=
  let s := match s.stFind (reqOrigin id) (reqStream id) with
    | some _ => s
    | none => match s.stRoom (reqOrigin id) (reqStream id) with
      | some a => s.stPut a (tentEntry (reqOrigin id) (reqStream id))
      | none => s
  if s.ord.pend.any (fun p => decide (p.id = id ∧ p.agent = agent)) then s
  else { s with ord := { s.ord with pend := s.ord.pend ++ [⟨id, agent, s.epochOf agent⟩] } }

/-- The valid completion entries in DRAM, by address. -/
def State.ccLive (s : State) : List Nat :=
  (s.mem.dram.filter (fun p => inRegion p.1 s.ccBase (2 ^ 27) && decide ((p.1 - s.ccBase) % 32 = 25) && bit p.2 0)).map (·.1 - 25)
/-- The valid stream entries in DRAM, by address. -/
def State.stLiveAddrs (s : State) : List Nat :=
  (s.mem.dram.filter (fun p => inRegion p.1 (s.ccBase + 2 ^ 27) (2 ^ 26) && decide ((p.1 - s.ccBase) % 16 = 12) && bit p.2 0)).map (·.1 - 12)

/-- One pass of the background sweep (R105, R106). -/
def State.ccSweep (s : State) : State :=
  let s := s.ccLive.foldl (fun s a => if s.retention (ccReq (s.ccAt a)) < s.age (ccTime (s.ccAt a)) then s.ccRetire a else s) s
  let live := s.ccLive.map (fun a => ccReq (s.ccAt a))
  s.stLiveAddrs.foldl (fun s a =>
    let e := s.stAt a
    let n := (live.filter (fun id => decide (reqOrigin id = stOrigin e ∧ reqStream id = stStream e))).length
    let e := if stTent e then e else setFld e 104 (BitVec.ofNat 24 n)
    if s.stIdle e || (stTent e && !s.stPending (stOrigin e) (stStream e)) then s.stPut a 0#128 else s.stPut a e) s

/-! ## Locked sequences (R120 to R123) -/

/-- Who may open a sequence (Table 4.10). -/
def seqMayOpen (n : Nat) (i : Init) : Bool :=
  match n with
  | 1 => decide (i = .sup) || decide (i = .host)
  | 2 => i.heartwood
  | 3 => decide (i = .sup)
  | _ => false

def State.seq (s : State) (n : Nat) : Seqn := Tab.get {} s.ord.seqs n
def State.setSeq (s : State) (n : Nat) (q : Seqn) : State := { s with ord := { s.ord with seqs := Tab.set {} s.ord.seqs n q } }

/-- Remember the sequence an initiator last named and its status (Table 4.11). -/
def State.seqNote (i : Init) (n : Nat) (st : Status) (s : State) : State :=
  { s with ord := { s.ord with seqStat := Tab.set (0, .ok) s.ord.seqStat i.key (n, st) } }

/-- Open a sequence (R120, R121). An opener whose earlier open had expired, and who never closed it, has no STALE due any more: the
close now names the new open (DESIGN CHOICE, log entry 49). -/
def State.seqOpen (i : Init) (n : Nat) (s : State) : Status × State :=
  let q := s.seq n
  if !seqMayOpen n i then (.denied, s.seqNote i n .denied)
  else match q.owner with
    | some o =>
      if o = i ∧ ¬ (n = 1 ∧ s.sec.otp.isSome) then (.ok, s.seqNote i n .ok) else (.retry, s.seqNote i n .retry)
    | none =>
      let s := s.setSeq n { owner := some i, epoch := s.epochOf i.key, opened := s.tb.elapsed,
                            tmo := s.regF Reg.ordSeqTmo 0 10, expired := q.expired.filter (fun j => decide (j ≠ i)) }
      (.ok, s.seqNote i n .ok)

/-- The sequence a SEQ register belongs to (Table 4.10). -/
def seqOfUnit (u : Nat) : Nat := if u = 0x1A then 1 else if u = 0x03 then 3 else 2

/-- The bits of a write that its register takes: writes to reserved bits are ignored (R10). -/
def takenBits (off : Nat) (v : W32) : W32 := match regRow off with | some r => v &&& r.mask | none => v

/-- Buffer a SEQ write in its owner's open sequence; the 33rd spoils it (R10, R122). -/
def State.seqBuffer (i : Init) (off : Nat) (v : W32) (s : State) : Status × State :=
  let n := seqOfUnit (off / 0x10000)
  let v := takenBits off v
  let q := s.seq n
  if n = 1 ∧ s.sec.otp.isSome then (if q.owner = some i then .retry else .denied, s)
  else if q.owner = some i then
    if q.writes.length < 32 then (.ok, s.setSeq n { q with writes := q.writes ++ [(off, v)] })
    else (.outOfRange, s.setSeq n { q with spoiled := true })
  else (.denied, s)

/-! ## The ORD window -/

/-- Release what a context holds and forget its last key, as disabling or binding it does (R98, R100). -/
def State.ctxClear (c : Nat) (s : State) : State :=
  let s := s.releaseAll c
  s.setMerge c { s.merge c with last := none }

/-- The context now binds its queue while enabled: the next publication without it records 0x0B01 again (R100). -/
def State.ctxBound (c : Nat) (s : State) : State :=
  let m := s.merge c
  if m.en then s.setDesc m.mq { s.desc m.mq with noCtxEv := false } else s

/-- Another enabled context binds the queue (R101). -/
def State.boundElsewhere (s : State) (c q : Nat) : Bool :=
  s.ord.merges.any (fun p => decide (p.1 ≠ c) && p.2.en && decide (p.2.mq = q))

/-- The lock range of another protected lock overlaps `n` lines at `b` (R118). -/
def State.rangeClash (s : State) (l b n : Nat) : Bool :=
  s.ord.locks.any (fun p => decide (p.1 ≠ l) && p.2.prot && decide (p.2.base ≤ b + n) && decide (b ≤ p.2.base + p.2.count))

/-- Writes of the ORD window but ORD_SEQ_OPEN and ORD_SEQ_CLOSE (R99, R101, R102, R107, R110, R117 to R119, R121, R451). -/
def writeOrd : UnitWrite := fun i r o v s =>
  let c := s.regF 0x0B0000 0 10
  let l := s.regF 0x0B0030 0 12
  if o = 0x0B0004 then
    let q := vf v 0 16
    if s.boundElsewhere c q then refuse .denied s
    else
      let s := if (s.merge c).mq = q then s.setMerge c { s.merge c with last := none } else s.ctxClear c
      (.ok, (s.setMerge c { s.merge c with mq := q }).ctxBound c)
  else if o = 0x0B0008 then
    if 500000 < vf v 0 20 then refuse .outOfRange s
    else if vf v 31 1 = 1 ∧ s.boundElsewhere c (s.merge c).mq then refuse .denied s
    else
      let s := if vf v 31 1 = 0 then s.ctxClear c else s
      (.ok, (s.setMerge c { s.merge c with mcfg := BitVec.ofNat 32 v }).ctxBound c)
  else if o = 0x0B000C then
    let s := if vf v 31 1 = 1 then { s with ord := { s.ord with poolfull := false } } else s
    (.ok, if vf v 16 1 = 1 then s.setMerge c { s.merge c with early := 0 } else s)
  else if o = 0x0B0010 then
    let retd := vf v 1 10
    let reth := vf v 11 10
    let idle := vf v 23 9
    if retd < 48 ∨ 720 < retd ∨ reth < 48 ∨ 720 < reth ∨ idle < 3 ∨ 365 < idle ∨ idle * 24 < max retd reth then refuse .outOfRange s
    else accept r o v s
  else if o = 0x0B0014 then
    let s := if vf v 31 1 = 1 then { s with ord := { s.ord with sfull := false } } else s
    let s := if vf v 30 1 = 1 then { s with ord := { s.ord with eovf := false } } else s
    (.ok, if vf v 0 1 = 1 then { s with ord := { s.ord with early := 0, eovf := false } } else s)
  else if o = 0x0B0018 then
    if i ≠ .sup then refuse .denied s
    else if 524288 ≤ v then refuse .outOfRange s
    else if 256 ≤ s.ord.quar.length then refuse .retry s
    else
      let s := (s.ramWrite (s.ccAddr v 0) (List.replicate 256 0#8)).2
      (.ok, { s with ord := { s.ord with quar := s.ord.quar.filter (fun p => decide (p.1 ≠ v)) ++ [(v, s.tb.elapsed)] } })
  else if o = Reg.ordCcbase then
    if i ≠ .sup ∨ s.ord.idchkSeen then refuse .denied s
    else if s.usable < vf v 0 7 * 2 ^ 27 + 192 * 2 ^ 20 then refuse .outOfRange s
    else accept r o v s
  else if o = 0x0B0034 ∨ o = 0x0B0038 then
    let x := s.lock l
    let y : Lock := if o = 0x0B0034 then { x with base := vf v 0 28 } else { x with prot := decide (vf v 31 1 = 1), count := vf v 16 6 }
    if i ≠ .sup then refuse .denied s
    else if x.owner.isSome then refuse .retry s
    else if y.prot && s.rangeClash l y.base y.count then refuse .outOfRange s
    else (.ok, s.setLock l y)
  else if o = Reg.ordLkwarn then
    if vf v 0 14 = 0 ∨ 10000 < vf v 0 14 then refuse .outOfRange s else accept r o v s
  else if o = Reg.ordSeqTmo then
    if vf v 0 10 = 0 ∨ 1000 < vf v 0 10 then refuse .outOfRange s else accept r o v s
  else accept r o v s

/-- Reads of the ORD window (Tables 4.1, 4.5, 4.9, 4.11, 4.13). -/
def readOrd (i : Init) (o : Nat) (s : State) : W32 :=
  let m := s.merge (s.regF 0x0B0000 0 10)
  let x := s.lock (s.regF 0x0B0030 0 12)
  if o = 0x0B0004 then BitVec.ofNat 32 m.mq
  else if o = 0x0B0008 then m.mcfg
  else if o = 0x0B000C then
    BitVec.ofNat 32 ((if s.ord.poolfull then 2 ^ 31 else 0) + m.early * 65536 + (m.held.length + 15) / 16)
  else if o = 0x0B0014 then
    BitVec.ofNat 32 ((if s.ord.sfull then 2 ^ 31 else 0) + (if s.ord.eovf then 2 ^ 30 else 0) + min 255 s.ord.quar.length * 65536
      + (if 256 ≤ s.ord.quar.length then 2 ^ 15 else 0) + s.ord.early)
  else if o = 0x0B0034 then BitVec.ofNat 32 x.base
  else if o = 0x0B0038 then
    let lapsed := match x.owner with | some (a, e) => decide (e ≠ s.epochOf a) | none => false
    BitVec.ofNat 32 ((if x.prot then 2 ^ 31 else 0) + (if x.owner.isSome then 2 ^ 30 else 0) + (if x.mark then 2 ^ 29 else 0)
      + (if lapsed then 2 ^ 28 else 0) + x.count * 65536 + (match x.owner with | some (a, _) => a | none => 0))
  else if o = 0x0B0048 then
    let (n, st) := Tab.get (0, .ok) s.ord.seqStat i.key
    let q := s.seq n
    BitVec.ofNat 32 ((if q.owner.isSome then 2 ^ 31 else 0) + (if q.spoiled then 2 ^ 30 else 0) + q.writes.length * 2 ^ 24
      + st.code * 65536 + n)
  else s.reg o

/-! ## Events of the unit -/

/-- MERGE_WINDOW_EXPIRY: the item whose window ran out first is released with every lower held key (R96). The release comes after the
publications of its own instant, which are handled first (R97), and so at the next count at the earliest. -/
def execMergeWindowExpiry (ctx : Fin 1024) (s : State) : Answer :=
  match firstDue s.tb.elapsed (s.merge ctx.val).held with
  | some h => if s.pwr.mainOn then .next (s.releaseUpTo ctx.val h.ptr) else .next s
  | none => .next s

/-- CC_SWEEP (R105). -/
def execCcSweep (s : State) : Answer := if s.pwr.mainOn then .next s.ccSweep else .next s

/-- QUARANTINE_EXPIRY: a bucket leaves the list after the longer retention (R110). -/
def execQuarantineExpiry (s : State) : Answer :=
  let n := max (s.regF 0x0B0010 1 10) (s.regF 0x0B0010 11 10) * 3600 * sCounts
  if s.pwr.mainOn then
    .next { s with ord := { s.ord with quar := s.ord.quar.filter (fun p => !s.past p.2 n) } }
  else .next s

/-- LOCK_HOLD_WARNING: a hold longer than the ORD_LKWARN in force when it began records 0x0B03 once (R119). -/
def execLockHoldWarning (l : Fin 4096) (s : State) : Answer :=
  let x := s.lock l.val
  match x.owner with
  | some (a, _) =>
    if s.pwr.mainOn && !x.warned && decide (x.since + x.warnMs * msCounts < s.tb.elapsed) then
      .next ((s.setLock l.val { x with warned := true }).event 0x0B03 (BitVec.ofNat 32 (l.val + a * 4096)))
    else .next s
  | none => .next s

/-- SEQUENCE_TIMEOUT: an open sequence expires when ORD_SEQ_TMO has passed since the open (R121). -/
def execSequenceTimeout (n : BitVec 16) (s : State) : Answer :=
  let q := s.seq n.toNat
  if s.pwr.mainOn && q.owner.isSome && s.past q.opened (q.tmo * msCounts) then .next (s.seqExpire n.toNat 1) else .next s

end Sys2Proof.Machine
end

