-- ==== Sys2Proof/Machine/Plc.lean ====
section
/-! DEFINITION. The power-line ports (09_powerline.md). A received frame is one step, at its stamp point; the time it lies on the
line counts for the instants that follow its end. -/

namespace Sys2Proof.Machine
open Sys2Proof

def State.plcAt (s : State) (n : Nat) : Plc := Tab.get {} s.plc n
def State.setPlc (s : State) (n : Nat) (x : Plc) : State := { s with plc := Tab.set {} s.plc n x }
/-- A register of port `n`. -/
def plcReg (n o : Nat) : Nat := 0x100000 + n * 0x10000 + o
/-- The port is present, enabled and in a state that runs the field ports (R213). -/
def State.plcOn (s : State) (n : Nat) : Bool := s.fieldRuns && s.present (0x10 + n) && bit (s.reg (plcReg n 0)) 31
/-- Plan F: one band plan for both directions (R214). -/
def State.planF (s : State) (n : Nat) : Bool := bit (s.reg (plcReg n 0)) 30
/-- Tones of the plan (Table 9.1). -/
def State.planTones (s : State) (n : Nat) : Nat := if s.planF n then 216 else 36
def State.panId (s : State) (n : Nat) : Nat := s.regF (plcReg n 0) 0 16
/-- An event of port `n` (Table 9.11: PLC1's codes lie 0x0100 above PLC0's). -/
def State.plcEvent (n code : Nat) (param : W32) (s : State) : State := s.event (code + 0x100 * n) param

/-! ## Neighbours (R231, R232) -/

def Plc.nb (p : Plc) (k : Nat) : PlcNb := Tab.get {} p.nbs k
def Plc.setNb (p : Plc) (k : Nat) (x : PlcNb) : Plc := { p with nbs := Tab.set {} p.nbs k x }
/-- The valid entry of a short address. -/
def Plc.nbOf (p : Plc) (a : BitVec 16) : Option Nat := (p.nbs.find? (fun e => e.2.valid && decide (e.2.saddr = a))).map (·.1)

/-- The class that at least 6 of the last 8 classified frames share; 7 for none (R225). -/
def classOf (hist : List Nat) : Nat :=
  ((List.range 6).find? (fun c => decide (6 ≤ (hist.filter (fun k => decide (k = c))).length))).getD 7

/-- The phase class of one frame: delta in 1/1,024 cycle within 2.5/64 of a nominal value (R225). -/
def frameClass (own : Nat) (zco : Nat) : Option Nat :=
  let d := (own % 1024 + 1024 - zco * 16) % 1024
  (List.range 6).find? (fun k =>
    let e := (6 * d + 6144 - 1024 * k) % 6144
    decide (e ≤ 240) || decide (6144 - 240 ≤ e))

/-! ## Frame times (Table 9.1, R216) -/

/-- Coded bits a symbol carries under a tone map. -/
def mapBits (m : List (BitVec 3)) : Nat := m.foldl (fun n c => n + min 4 c.toNat) 0

/-- Payload symbols of a PSDU of `b` bytes (R216). -/
def State.plcSyms (s : State) (n b : Nat) (robust : Bool) (m : List (BitVec 3)) : Nat :=
  let bits := ((b + 16 * ((b + 238) / 239)) * 8 + 6) * 2 * (if robust then 4 else 1)
  let per := if robust then s.planTones n else max 1 (mapBits m)
  (bits + per - 1) / per

/-- The length of a frame in 10 us: preamble 5.76 ms, FCH and payload symbols of 0.72 ms. -/
def State.plcAir (s : State) (n syms : Nat) : Nat := 576 + 72 * ((if s.planF n then 2 else 12) + syms)
/-- 10 us in elapsed counts. -/
abbrev air10 : Nat := 1250

/-- The symbols of a waiting frame under the map in use for its destination; robust without one (R222). -/
def State.jobSyms (s : State) (n : Nat) (j : TxJob) : Nat :=
  let p := s.plcAt n
  let m := match p.nbOf j.dst with | some k => (if (p.nb k).rxTm = 0 then [] else (p.nb k).rxMap) | none => []
  s.plcSyms n j.psdu.length (j.robust || m.isEmpty) m

/-- The instant in 0.1 us, the resolution of the crossing detection (R224). -/
def State.tenths (s : State) : Nat := s.tb.elapsed * 2 / 25

/-- The lengths of the cycles between the kept crossings, newest first. -/
def Plc.cycles (p : Plc) : List Nat := List.zipWith (· - ·) p.zcs (p.zcs.drop 1)

/-- The port's zero-crossing offset now in 1/1,024 cycle (R224); a part of a unit is dropped (DESIGN CHOICE, log entry 30). -/
def State.zcOffset (s : State) (n : Nat) : Nat :=
  let p := s.plcAt n
  match p.zcs with
  | t :: _ => (s.tenths - t) * 1024 * p.cycles.length / max 1 p.cycles.sum % 1024
  | [] => 0

/-- The header of a frame that starts now (Table 9.2): frame type, payload in robust mode, tone map, and what [40:32] holds. -/
def State.plcFch (s : State) (n ft : Nat) (robust : Bool) (tmid nsym : Nat) : BitVec 48 :=
  let h : BitVec 40 := BitVec.ofNat 40 (ft * 2 ^ 38 + (if robust then 2 ^ 37 else 0) + tmid % 16 * 2 ^ 33 + nsym % 512 * 2 ^ 24
    + s.zcOffset n / 16 * 2 ^ 18 + (if (s.plcAt n).zcv then 2 ^ 17 else 0))
  h ++ crc8 0x07#8 0#8 ((List.range 5).map (fun k => (fld h (32 - 8 * k) 8 : Byte)))

/-! ## Slots (R227 to R229) -/

/-- A port's time in its superframe, in elapsed counts. -/
def State.sfTime (s : State) (n : Nat) : Option Nat := (s.plcAt n).sf.map (fun x => s.tb.elapsed - x.2)

/-- A frame of `d` x 10 us that starts now ends before the guard and the next slot 0 (R229). -/
def State.slotFits (s : State) (n d : Nat) : Bool :=
  match s.sfTime n with
  | some t => decide (t + d * air10 ≤ 125 * 1250000)
  | none => false

/-- The phases a frame is driven on, bit k for L(k+1) (R223). -/
def State.txPhases (s : State) (n : Nat) : BitVec 3 :=
  if s.regF (plcReg n 0) 28 2 = 1 then 7#3 else BitVec.ofNat 3 (2 ^ s.regF (plcReg n 0) 26 2)

/-- The port sends a frame of `syms` payload symbols that starts now. -/
def State.plcDrive (n syms : Nat) (o : Out) (s : State) : State :=
  { s.setPlc n { s.plcAt n with airEnd := s.tb.elapsed + s.plcAir n syms * air10 } with out := s.out ++ [o] }

/-- The port sends nothing now. -/
def State.plcFree (s : State) (n : Nat) : Bool := decide ((s.plcAt n).airEnd ≤ s.tb.elapsed)

/-- The contention-free entries in use of a beacon: address, first slot, slot count (Table 9.6). -/
def cfpEntries (img : List Byte) : List (Nat × Nat × Nat × Nat) :=
  (List.range (min 16 (takeBytes img 10 1))).map (fun k =>
    (k, takeBytes img (16 + 4 * k) 2, takeBytes img (18 + 4 * k) 1, takeBytes img (19 + 4 * k) 1))

/-- CAPEND of the beacon in force; the whole superframe before any beacon. -/
def Plc.capEnd (p : Plc) : Nat := if p.bcn.isEmpty then 124 else takeBytes p.bcn 9 1

/-- The slot of the running superframe, where the port sends nothing and a frame of `syms` payload symbols would end before the guard. -/
def State.slotFor (s : State) (n syms : Nat) : Option Nat :=
  if s.plcFree n && s.slotFits n (s.plcAir n syms) then (s.sfTime n).map (· / 1250000) else none

/-- A frame of `syms` payload symbols may start in the contention period now (R228, R229). -/
def State.capOpen (s : State) (n syms : Nat) : Bool :=
  match s.slotFor n syms with
  | some slot => decide ((if s.planF n then 4 else 16) ≤ slot) && decide (slot ≤ (s.plcAt n).capEnd)
  | none => false

/-- The slot rules let the waiting frame start now (R228, R229). -/
def State.mayStart (s : State) (n : Nat) (j : TxJob) : Bool :=
  let syms := s.jobSyms n j
  if j.cfp then
    match s.slotFor n syms, s.sfTime n with
    | some slot, some t => (cfpEntries (s.plcAt n).bcn).any (fun e => decide (e.2.1 = j.dst.toNat) && decide (e.2.2.1 ≤ slot) &&
        decide (t + s.plcAir n syms * air10 ≤ (e.2.2.1 + e.2.2.2) * 1250000))
    | _, _ => false
  else decide (j.hold ≤ s.tb.elapsed) && s.capOpen n syms

/-- A contention deferral with exponent `be`: the elapsed count it ends at, 0 to 2^BE - 1 symbol times from now; how many is free
(R229, log entry 30). -/
def State.deferTo (be : Nat) (s : State) : Nat × State :=
  let (r, s) := s.draw 16
  (s.tb.elapsed + r.toNat % 2 ^ be * 72 * air10, s)

/-- The exponent after a busy detection (R229). -/
def State.beNext (s : State) (n be : Nat) : Nat := min (s.regF (plcReg n 4) 20 4) (be + 1)

/-! ## Sending (R235) -/

/-- Start the waiting frame; its length and tone map stay as they are now (R222). -/
def State.plcStart (n : Nat) (j : TxJob) (s : State) : State :=
  let p := s.plcAt n
  let tm := match p.nbOf j.dst with | some k => (p.nb k).rxTm | none => 0
  let robust := j.robust || decide (tm = 0)
  let syms := s.jobSyms n j
  let fch := s.plcFch n 0 robust (if robust then 0 else tm) syms
  let s := s.setPlc n { p with tx := some { j with sending := true, at_ := s.tb.elapsed, ended := none, syms } }
  s.plcDrive n syms (.plcFrame n (s.txPhases n) fch j.psdu)

/-- Complete the frame a port has taken; it waits where the completion queue has no room. -/
def State.plcComplete (n : Nat) (j : TxJob) (st : Status) (s : State) : State :=
  let (ok, s) := s.putCompletion (plcReg n 0x30) j.reqid st
  s.setPlc n { s.plcAt n with tx := if ok then none else some { j with sending := false, ended := none, status := some st } }

/-- The PSDU holds 1 to 1,024 bytes and its payload at most 511 symbols under the map now in use (R218). -/
def State.jobFits (s : State) (n : Nat) (j : TxJob) : Bool :=
  decide (1 ≤ j.psdu.length) && decide (j.psdu.length ≤ 1024) && decide (s.jobSyms n j ≤ 511)

/-- A frame waits: it completes with OUT_OF_RANGE where it does not fit, stays where the slot rules do not let it start, defers on a busy
channel of the contention period, and else starts (R218, R229). The deferral takes the exponent before its rise (DEDUCED, log entry 30). -/
def State.plcTry (n : Nat) (busy : Bool) (j : TxJob) (s : State) : State :=
  if !s.jobFits n j then s.plcComplete n j .outOfRange
  else if !s.mayStart n j then s.setPlc n { s.plcAt n with tx := some j }
  else if busy && !j.cfp then
    let (hold, s) := s.deferTo j.be
    s.setPlc n { s.plcAt n with tx := some { j with hold, be := s.beNext n j.be } }
  else s.plcStart n j

/-- PLC_TX_TAKE: the transmit-role twin takes an item, builds its frame and starts it where the slot rules permit
(R218, R229, R235, R236). -/
def execPlcTxTake (c : PlcSense) (s : State) : Answer :=
  let p := s.plcAt c.port.val
  if s.plcOn c.port.val && s.txRole && p.tx.isNone then
    match s.hwTake (s.regF (plcReg c.port.val 0x2C) 0 16) with
    | (none, s) => .next s
    | (some x, s) =>
      let req := itemReq x
      let dst := txDst x
      let seq := Tab.get 0#8 p.txseq dst.toNat
      match s.unitRead (txAddr x) (txLen x) with
      | (.ok, pay) =>
        let head := [txFc x &&& 0x3F#8, seq] ++ bytesOfNat 2 (s.panId c.port.val) ++ bytesOf 2 dst ++ [0#8, 0#8] ++ pay
        let psdu := head ++ bytesOf 4 (crcE head)
        let j : TxJob := { reqid := req, psdu, dst, seq, ackreq := bit (txFc x) 0, be := s.regF (plcReg c.port.val 4) 24 4,
                           robust := bit (txFlags x) 0, cfp := bit (txFlags x) 1 }
        let s := if s.jobFits c.port.val j then s.setPlc c.port.val { s.plcAt c.port.val with txseq := Tab.set 0#8 p.txseq dst.toNat (seq + 1#8) } else s
        .next (s.plcTry c.port.val c.busy j)
      | (st, _) => .next (s.plcComplete c.port.val { reqid := req, psdu := [] } st)
  else .next s

/-- PLC_BACKOFF_EXPIRY: a deferral ends or an entry's slots begin; the waiting frame starts, or defers again with a larger BE (R229). -/
def execPlcBackoffExpiry (n : Fin 2) (busy : Bool) (s : State) : Answer :=
  let p := s.plcAt n.val
  match p.tx with
  | some j =>
    if s.plcOn n.val && s.txRole && !j.sending && j.ended.isNone && j.status.isNone then .next (s.plcTry n.val busy j) else .next s
  | none => .next s

/-- PLC_TX_END: the frame in progress ends; without ACKREQ its completion is put (R235). A completion still waiting for room is
put again. -/
def execPlcTxEnd (n : Fin 2) (s : State) : Answer :=
  let p := s.plcAt n.val
  match p.tx with
  | some j =>
    match j.status with
    | some st => if s.pwr.mainOn then .next (s.plcComplete n.val j st) else .next s
    | none =>
      if s.fieldRuns && j.sending && s.past j.at_ (s.plcAir n.val j.syms * air10) then
        if j.ackreq then .next (s.setPlc n.val { p with tx := some { j with sending := false, ended := some s.tb.elapsed } })
        else .next (s.plcComplete n.val j .ok)
      else .next s
  | none => .next s

/-- PLC_ACK_TIMEOUT: no acknowledgement within 10 ms (plan F) or 18 ms (plan A) of the frame's end: the frame is sent again
with its SEQ, or completes with RETRY (R235). -/
def execPlcAckTimeout (c : PlcSense) (s : State) : Answer :=
  let p := s.plcAt c.port.val
  match p.tx with
  | some j =>
    match j.ended with
    | some e =>
      if s.fieldRuns && s.past e ((if s.planF c.port.val then 10 else 18) * msCounts) then
        if j.tries < s.regF (plcReg c.port.val 4) 28 4 then
          let j := { j with tries := j.tries + 1, ended := none, be := s.regF (plcReg c.port.val 4) 24 4 }
          .next (if s.txRole then s.plcTry c.port.val c.busy j else s.setPlc c.port.val { p with tx := some j })
        else .next (s.plcComplete c.port.val j .retry)
      else .next s
    | none => .next s
  | none => .next s

/-! ## Receiving (R215, R219 to R225, R230 to R234) -/

/-- A received acknowledgement: the frame it names completes with OK; [40] asks for a tone-map refresh (R221, R235). -/
def State.plcAckIn (n : Nat) (fch : BitVec 48) (s : State) : State :=
  let p := s.plcAt n
  match p.tx with
  | some j =>
    if j.ended.isSome && decide (j.seq = fld fch 32 8) then
      let s := match p.nbOf j.dst with
        | some k => if bit fch 40 then s.setPlc n (p.setNb k { p.nb k with ask := true }) else s
        | none => s
      s.plcComplete n j .ok
    else s
  | none => s

/-- What a frame tells of its sender: frame count, SNR history and phase class (R220, R225, Table 9.12). -/
def State.plcHear (n k : Nat) (f : PlcRx) (s : State) : State :=
  let p := s.plcAt n
  let b := p.nb k
  let snrs := (f.snr :: b.snrs).take 4
  let (mean, s) := s.openRound (snrs.foldl (fun a v => a + (v.toNat : Int)) 0) snrs.length
  let cl := if p.zcv && bit f.fch 25 then frameClass (s.zcOffset n) (fld f.fch 26 6).toNat else none
  let hist := match cl with | some c => (c :: b.hist).take 8 | none => b.hist
  let c := match cl with | some _ => classOf hist | none => b.cls
  let s := s.setPlc n ((s.plcAt n).setNb k { b with
    frames := satInc32 b.frames, snrs, snr := BitVec.ofInt 8 mean, toneHist := (f.tones :: b.toneHist).take 4, hist, cls := c })
  if c = b.cls then s else s.plcEvent n 0x1006 (BitVec.ofNat 32 (b.saddr.toNat + c * 65536))

/-- The codes of a tone map, 3 bits each, lowest first (R219). -/
def unpackMap (nt : Nat) (bs : List Byte) : List (BitVec 3) :=
  let v := natOfBytes bs
  (List.range nt).map (fun k => BitVec.ofNat 3 (v / 8 ^ k))

/-- A tone map packed into `len` bytes (R219). -/
def packMap (len : Nat) (m : List (BitVec 3)) : List Byte := bytesOfNat len (m.foldr (fun c a => c.toNat + 8 * a) 0)

/-! ## Tone maps in the journal (R222): a KIND 2 entry whose address is the port's PLCn_NBDATA0, with the entry's number and short
address, 0 for an issued and 1 for a received map, and the map's MAC payload (its layout is DESIGN CHOICE, log entry 31). -/

/-- The SNR over a map's used tones in the frames kept: a sum in dB and how many it adds up (R221). -/
def mapSnr (m : List (BitVec 3)) (hist : List (List (Fin 64))) : Nat × Nat :=
  hist.foldl (fun a ts => (ts.zip m).foldl (fun a e => if e.2 = 0#3 then a else (a.1 + e.1.val, a.2 + 1)) a) (0, 0)

/-- Two such means differ by more than `d` dB. -/
def snrApart (d : Nat) (a b : Nat × Nat) : Bool :=
  decide (d * a.2 * b.2 < (a.1 * b.2 - b.1 * a.2) + (b.1 * a.2 - a.1 * b.2))

/-- The fabric address of PLCn_NBDATA0. -/
def nbAddr (n : Nat) : Nat := 0x400000000 + plcReg n 0x44

/-- The journal entry of a neighbour's map. -/
def mapEntry (n k : Nat) (a : BitVec 16) (rx : Bool) (pay : List Byte) : JEntry :=
  let data := bytesOfNat 8 (nbAddr n) ++ bytesOfNat 2 k ++ bytesOf 2 a ++ [ofBool 8 rx] ++ pay.take 82
  setFld (setFld (setFld (0#1024 : JEntry) 96 (2#8)) 112 (BitVec.ofNat 16 data.length)) 192 (BitVec.ofNat 768 (natOfBytes data))

/-- The Headstock journals a map that it issues or receives (R222). -/
def State.journalMap (n k : Nat) (a : BitVec 16) (rx : Bool) (pay : List Byte) (s : State) : State :=
  if decide (s.twn.cp = 0#2) && !s.solo then s.journalPut (mapEntry n k a rx pay) else s

/-- The port of a journal entry that carries a map. -/
def mapPort (e : JEntry) : Option Nat :=
  if jKind e = 2 then (List.range 2).find? (fun n => decide ((fld e 192 64).toNat = nbAddr n)) else none

/-- A neighbour's map as the journal brings it (R222). -/
def State.mapFrom (e : JEntry) (s : State) : State :=
  match mapPort e with
  | none => s
  | some n =>
    let bs := (bytesOf 128 e).drop 24
    let k := takeBytes bs 8 2
    let h := takeBytes bs 13 1
    let m := unpackMap (if h / 16 % 2 = 1 then 216 else 36) (bs.drop 14)
    let p := s.plcAt n
    let b := p.nb k
    if !b.valid || decide (b.saddr ≠ BitVec.ofNat 16 (takeBytes bs 10 2)) then s
    else if takeBytes bs 12 1 = 1 then s.setPlc n (p.setNb k { b with rxTm := h % 16, rxMap := m })
    else s.setPlc n (p.setNb k { b with
      prevTm := b.curTm, prevMap := b.curMap, curTm := h % 16, curMap := m, tmAt := some s.tb.elapsed, tmSnr := mapSnr m b.toneHist
      ask := false })

/-- A received tone map replaces the one used for sending to its sender (R219, R222). -/
def State.plcMapIn (n : Nat) (src : BitVec 16) (pay : List Byte) (s : State) : State :=
  let p := s.plcAt n
  let h := takeBytes pay 0 1
  let nt := s.planTones n
  let m := unpackMap nt (pay.drop 1)
  if decide (h / 16 % 2 = 1) != s.planF n || m.any (fun c => decide (4 < c.toNat)) then s.setPlc n { p with badtm := true }
  else match p.nbOf src with
    | some k => (s.setPlc n (p.setNb k { p.nb k with rxTm := h % 16, rxMap := m })).journalMap n k src true pay
    | none => s

/-- Queue an acknowledgement, due 1 ms after the frame's end (R234). -/
def State.plcAckDue (n : Nat) (src : BitVec 16) (seq : Byte) (endAt : Nat) (s : State) : State :=
  s.setPlc n { s.plcAt n with acks := (s.plcAt n).acks ++ [(src, seq, endAt)] }

/-- The phase a frame counts as received on: REFPH in a single-phase coupling (R223). -/
def State.rxPhase (s : State) (n : Nat) (f : PlcRx) : Nat :=
  if s.regF (plcReg n 0) 28 2 = 0 then s.regF (plcReg n 0) 26 2 else f.phase.val

/-- The ingress item of a received frame (Table 9.8). -/
def plcItem (addr len : Nat) (src : BitVec 16) (seq fc : Byte) (f : PlcRx) (phase cls : Nat) : Item :=
  setFld (setFld (setFld (setFld (setFld (setFld (setFld (setFld (setFld (0#512 : Item) 320 (BitVec.ofNat 64 addr))
    384 (BitVec.ofNat 16 len)) 400 src) 416 seq) 424 fc)
    432 (BitVec.ofNat 8 (phase + 4 * cls + (if bit f.fch 25 then 32 else 0) + 64 * (fld f.fch 46 2).toNat)))
    440 (BitVec.ofNat 8 (fld f.fch 26 6).toNat)) 448 f.snr) 456 (BitVec.ofNat 8 (fld f.fch 41 4).toNat)

/-- Put a received PSDU into a buffer and its item into the port's FIFO; true where it was accepted (R234). -/
def State.plcDeliver (n prio : Nat) (src : BitVec 16) (seq fc : Byte) (cls : Nat) (f : PlcRx) (s : State) : Bool × State :=
  let p := s.plcAt n
  let (b, s) := s.poolTake ((0x10 + n) * 16) p.bufs
  match b with
  | none => (false, s.setPlc n { s.plcAt n with nobuf := true })
  | some k =>
    let addr := s.reg2 (plcReg n 0x20) + 2048 * k
    let s := (s.ramWrite addr f.psdu).2
    let (ok, s) := s.ingress n prio (s.momentSub (f.sub.val / 4) 8) (plcItem addr f.psdu.length src seq fc f (s.rxPhase n f) cls)
    (ok, if ok then s.setPlc n { s.plcAt n with bufs := (s.plcAt n).bufs ++ [k] } else s)

/-- A data or tone-map frame whose FCH and FCS hold (R221, R225, R230 to R234). -/
def State.plcFrame (n : Nat) (f : PlcRx) (s : State) : State :=
  let b (i k : Nat) : Nat := takeBytes f.psdu i k
  let fc : Byte := BitVec.ofNat 8 (b 0 1)
  let seq : Byte := BitVec.ofNat 8 (b 1 1)
  let src : BitVec 16 := BitVec.ofNat 16 (b 6 2)
  let isMap := decide (fld f.fch 46 2 = 3#2)
  let robust := bit f.fch 45
  let tm := (fld f.fch 41 4).toNat
  let p := s.plcAt n
  let k := p.nbOf src
  let known := match k with
    | some k => decide (tm ≠ 0) && (decide (tm = (p.nb k).curTm) || decide (tm = (p.nb k).prevTm))
    | none => false
  if b 2 2 ≠ s.panId n then s
  else if !robust && !known then s.setPlc n { p with badtm := true }
  else
    let endAt := s.tb.elapsed + s.plcAir n (fld f.fch 32 9).toNat * air10
    let ack := bit fc 0 && decide (b 4 2 = 0) && !isMap
    let dup := match k with
      | some k => decide ((p.nb k).seq = seq) && s.inDupWin (p.nb k).seqAt (s.regF (plcReg n 4) 0 16)
      | none => false
    let s := match k with | some k => s.plcHear n k f | none => s
    let seen (s : State) : State := match k with
      | some k => s.setPlc n ((s.plcAt n).setNb k { (s.plcAt n).nb k with seq, seqAt := some s.tb.elapsed })
      | none => s
    if dup then
      let s := s.setPlc n { s.plcAt n with dupdrop := satInc 0xFFFF (s.plcAt n).dupdrop }
      if ack then s.plcAckDue n src seq endAt else s
    else if isMap then seen (s.plcMapIn n src ((f.psdu.drop 8).take (f.psdu.length - 12)))
    else
      let cls := match k with | some k => ((s.plcAt n).nb k).cls | none => 7
      let (ok, s) := s.plcDeliver n (b 0 1 / 8 % 8) src seq fc cls f
      if ok then
        let s := seen s
        if ack then s.plcAckDue n src seq endAt else s
      else s

/-- A ZCADJ sample in 0.1 us; one outside +-200 us is ignored (R237). -/
def State.zcSample (n : Nat) (d : Int) (s : State) : State :=
  if d.natAbs ≤ 2000 then
    let p := s.plcAt n
    let (d, s) := s.openRound (d - p.zcadj) 16
    s.setPlc n { s.plcAt n with zcadj := p.zcadj + d }
  else s

/-- A received beacon: the Headstock's own gives the Tailstock a ZCADJ sample against the superframe start it lies beside, before or after it,
and ends a run of covers; a foreign one is delivered at priority 0 (R230, R237, R238). -/
def State.plcBeaconIn (n : Nat) (f : PlcRx) (s : State) : State :=
  let p := s.plcAt n
  if takeBytes f.psdu 4 2 ≠ s.panId n then (s.plcDeliver n 0 (BitVec.ofNat 16 (takeBytes f.psdu 6 2)) 0#8 0#8 7 f).2
  else if s.txRole then s
  else
    let s := s.setPlc n { p with covering := false, covered := 0, coverEnd := false }
    let since := match p.sf with | some (_, t) => some ((s.tenths : Int) - (t * 2 / 25 : Nat)) | none => none
    match since with
    | some d => if d ≤ 2000 then s.zcSample n d else s.setPlc n { s.plcAt n with bcnAt := some s.tenths }
    | none => s.setPlc n { s.plcAt n with bcnAt := some s.tenths }

/-- PLC_FRAME_RECEIVE (R215, R230, R234). -/
def execPlcFrameReceive (n : Fin 2) (f : PlcRx) (s : State) : Answer :=
  let hdr := (List.range 5).map (fun k => (fld f.fch (40 - 8 * k) 8 : Byte))
  let ft := (fld f.fch 46 2).toNat
  let m := f.psdu.length
  let crcOk (k : Nat) : Bool := decide (takeBytes f.psdu k 4 = (crcE (f.psdu.take k)).toNat)
  if !s.plcOn n.val || decide (crc8 0x07#8 0#8 hdr ≠ fld f.fch 0 8) then .next s
  else if ft = 2 then .next (s.plcAckIn n.val f.fch)
  else if (ft = 1 ∧ m = 96 ∧ crcOk 92) then .next (s.plcBeaconIn n.val f)
  else if ft ≠ 1 ∧ 12 ≤ m ∧ m ≤ 1024 ∧ crcOk (m - 4) then .next (s.plcFrame n.val f)
  else .next (s.setPlc n.val { s.plcAt n.val with badfcs := (s.plcAt n.val).badfcs + 1 })

/-- The acknowledgements of a port that can still start: at most 1.05 ms after their frame's end (R234). -/
def State.acksOwed (s : State) (n : Nat) : List (BitVec 16 × Byte × Nat) :=
  (s.plcAt n).acks.filter (fun a => decide (s.tb.elapsed ≤ a.2.2 + 1050 * usCounts))

/-- PLC_ACK_SEND: 1.00 ms +- 0.05 ms after an accepted frame's end the transmit-role twin acknowledges it where the slot rules let it; an
acknowledgement whose time has passed is not sent. Whether it asks for a tone map is free (R229, R234, R236, log entry 30). -/
def execPlcAckSend (n : Fin 2) (s : State) : Answer :=
  let owed := s.acksOwed n.val
  let keep (l : List (BitVec 16 × Byte × Nat)) (s : State) : State := s.setPlc n.val { s.plcAt n.val with acks := l }
  match owed with
  | (dst, seq, e) :: rest =>
    if s.plcOn n.val && s.txRole && s.past e (950 * usCounts) && s.plcFree n.val && s.slotFits n.val (s.plcAir n.val 0) then
      let (ask, s) := s.draw 1
      let fch := s.plcFch n.val 2 false 0 (seq.toNat + 256 * ask.toNat)
      .next ((keep rest s).plcDrive n.val 0 (.plcAck n.val (s.txPhases n.val) fch dst))
    else .next (keep owed s)
  | [] => .next (keep [] s)

/-! ## Tone maps issued (R220, R221) -/

/-- The modulation code of a tone whose SNR over `k` frames sums to `sum` dB (R220). -/
def toneCode (margin k sum : Nat) : BitVec 3 :=
  if (16 + margin) * k ≤ sum then 4#3 else if (12 + margin) * k ≤ sum then 3#3
  else if (7 + margin) * k ≤ sum then 2#3 else if (4 + margin) * k ≤ sum then 1#3 else 0#3

/-- The map the port builds for a neighbour from its last four frames. -/
def State.buildMap (s : State) (n : Nat) (b : PlcNb) : List (BitVec 3) :=
  (List.range (s.planTones n)).map (fun t =>
    toneCode (s.regF (plcReg n 8) 16 4) b.toneHist.length
      (b.toneHist.foldl (fun a ts => a + (match ts[t]? with | some v => v.val | none => 0)) 0))

/-- A refresh is due: scheduled, forced by drift, asked for, or the first map of a heard neighbour (R221). -/
def State.mapDue (s : State) (n : Nat) (b : PlcNb) : Bool :=
  match b.tmAt with
  | none => true
  | some t => s.past t (s.regF (plcReg n 8) 20 12 * sCounts) || b.ask
      || (s.past t (s.regF (plcReg n 8) 0 8 * sCounts)
          && snrApart (s.regF (plcReg n 8) 12 4) (mapSnr b.curMap b.toneHist) b.tmSnr)

/-- The payload symbols of a tone-map frame. -/
def State.mapSyms (s : State) (n : Nat) : Nat := s.plcSyms n (12 + 1 + (if s.planF n then 81 else 14)) true []

/-- TONE_MAP_REFRESH: the transmit-role twin issues the neighbour its next map in the contention period and journals it, unless it would
leave fewer than a quarter of the tones in use; a busy channel defers it. Its FC is 0 (R220 to R222, R229, R230, DESIGN CHOICE, log
entry 30). -/
def execToneMapRefresh (c : PlcSense) (entry : Fin 2048) (s : State) : Answer :=
  let p := s.plcAt c.port.val
  let b := p.nb entry.val
  let m := s.buildMap c.port.val b
  let used := (m.filter (fun x => decide (x ≠ 0#3))).length
  if s.plcOn c.port.val && s.txRole && b.valid && !b.toneHist.isEmpty && s.mapDue c.port.val b
      && decide (p.mapHold ≤ s.tb.elapsed) && s.capOpen c.port.val (s.mapSyms c.port.val) then
    if 4 * used < s.planTones c.port.val then .next s
    else if c.busy then
      let be := max (s.regF (plcReg c.port.val 4) 24 4) p.mapBe
      let (hold, s) := s.deferTo be
      .next (s.setPlc c.port.val { s.plcAt c.port.val with mapHold := hold, mapBe := s.beNext c.port.val be })
    else
      let tm := b.curTm % 15 + 1
      let pay := BitVec.ofNat 8 (tm + (if s.planF c.port.val then 16 else 0)) ::
        packMap (if s.planF c.port.val then 81 else 14) m
      let seq := Tab.get 0#8 p.txseq b.saddr.toNat
      let head := [0#8, seq] ++ bytesOfNat 2 (s.panId c.port.val) ++ bytesOf 2 b.saddr ++ [0#8, 0#8] ++ pay
      let s := s.setPlc c.port.val { (p.setNb entry.val { b with
        prevTm := b.curTm, prevMap := b.curMap, curTm := tm, curMap := m, tmAt := some s.tb.elapsed, tmSnr := mapSnr m b.toneHist
        ask := false }) with mapBe := 0, txseq := Tab.set 0#8 p.txseq b.saddr.toNat (seq + 1#8) }
      let fch := s.plcFch c.port.val 3 true 0 (s.mapSyms c.port.val)
      let o := Out.plcToneMap c.port.val (s.txPhases c.port.val) fch (head ++ bytesOf 4 (crcE head))
      .next (State.journalMap c.port.val entry.val b.saddr false pay (s.plcDrive c.port.val (s.mapSyms c.port.val) o))
  else .next s

/-! ## Zero crossings and the neutral (R224, R226) -/

/-- The last 16 cycles are there, regular, and their mean frequency lies in 47-63 Hz (R224). -/
def Plc.zcGood (p : Plc) : Bool :=
  let c := p.cycles
  decide (c.length = 16) && decide (16 * 10000000 ≤ 63 * c.sum) && decide (47 * c.sum ≤ 16 * 10000000)
    && c.all (fun d => Config.zcRegular d (c.sum / 16))

/-- ZERO_CROSSING: a crossing on a phase of the line, of which the monitor takes the rising ones of REFPH; the period is the mean of the last 16 cycles, of those there are until then (a part of a us is
dropped, DESIGN CHOICE, log entry 30). -/
def execZeroCrossing (n : Fin 2) (phase : Fin 3) (rising : Bool) (s : State) : Answer :=
  if s.plcOn n.val && rising && decide (phase.val = s.regF (plcReg n.val 0) 26 2) then
    let p := s.plcAt n.val
    let p := { p with zcs := (s.tenths :: p.zcs).take 17 }
    let v := p.zcGood
    let back := v && p.zcLost
    let s := s.setPlc n.val { p with
      period := if p.cycles.isEmpty then p.period else BitVec.ofNat 16 (min 0xFFFF (p.cycles.sum / p.cycles.length / 10))
      zcv := v, zcLost := (p.zcLost || p.zcv) && !v }
    .next (if back then s.plcEvent n.val 0x1005 0#32 else s)
  else .next s

/-- ZERO_CROSSING_LOSS: two missed crossings clear ZCV, event 0x1004. -/
def execZeroCrossingLoss (n : Fin 2) (s : State) : Answer :=
  let p := s.plcAt n.val
  match p.zcs with
  | t :: _ =>
    if s.plcOn n.val && p.zcv && decide (t + 20 * p.period.toNat ≤ s.tenths) then
      .next (State.plcEvent n.val 0x1004 0#32 (s.setPlc n.val { p with zcv := false, zcs := [], zcLost := true }))
    else .next s
  | [] => .next s

/-- The coupler monitor watches the device's own supply (R226). -/
def State.watchesNeutral (s : State) (n : Nat) : Bool :=
  s.plcOn n && decide (s.regF (plcReg n 0) 28 2 = 1 ∨ s.regF (plcReg n 0) 28 2 = 2)

/-- Since when a condition holds. -/
def sinceWhen (now : Nat) (c : Bool) (at_ : Option Nat) : Option Nat := if c then some (at_.getD now) else none

/-- A measurement of the three phase voltages in 0.1 V: since when each is below 80 % and above 110 % of VNOM, and since when all lie
within (R226). -/
def State.neutralWatch (n : Nat) (vs : List Nat) (s : State) : State :=
  let p := s.plcAt n
  let v0 := (s.reg (plcReg n 0x14)).toNat
  let now := s.tb.elapsed
  let low (v : Nat) : Bool := decide (100 * v < 80 * v0)
  let high (v : Nat) : Bool := decide (110 * v0 < 100 * v)
  let since (f : Nat → Bool) (l : List (Option Nat)) : List (Option Nat) := vs.mapIdx (fun i v => sinceWhen now (f v) (l[i]?.getD none))
  s.setPlc n { p with
    lows := since low p.lows, highs := since high p.highs, within := sinceWhen now (vs.all (fun v => !low v && !high v)) p.within }

/-- A condition that some phase has met for `d` counts. -/
def State.heldFor (s : State) (d : Nat) (l : List (Option Nat)) : Bool :=
  l.any (fun o => match o with | some t => s.past t d | none => false)

/-- NEUTRAL_MISSING: a measurement; once one phase has stayed below 80 % while another stayed above 110 % for 1 s the neutral is missing, one
tamper record at its onset (R209, R226). -/
def execNeutralMissing (n : Fin 2) (v1 v2 v3 : BitVec 16) (s : State) : Answer :=
  if s.watchesNeutral n.val then
    let s := s.neutralWatch n.val [v1.toNat, v2.toNat, v3.toNat]
    let p := s.plcAt n.val
    if !p.neutral && s.heldFor sCounts p.lows && s.heldFor sCounts p.highs then
      let s := s.setPlc n.val { p with neutral := true }
      .next (State.event 0x0C10 0#32 { s with ldg := { s.ldg with tdev2 := satInc32 s.ldg.tdev2 } })
    else .next s
  else .next s

/-- NEUTRAL_CLEAR: a measurement; 10 s with every phase within the limits clear the condition (R226). -/
def execNeutralClear (n : Fin 2) (v1 v2 v3 : BitVec 16) (s : State) : Answer :=
  if s.watchesNeutral n.val then
    let s := s.neutralWatch n.val [v1.toNat, v2.toNat, v3.toNat]
    let p := s.plcAt n.val
    .next (if p.neutral && s.heldFor (10 * sCounts) [p.within] then s.setPlc n.val { p with neutral := false } else s)
  else .next s

/-! ## Superframe and beacon (R227, R228, R237, R238) -/

/-- The number of the superframe whose nominal boundary was passed last, and the time since it, in 2^-32 s x 100. -/
def State.sfNow (s : State) : Nat × Nat :=
  let t := (s.dom s.sel).t32 * 100
  (t / (128 * 2 ^ 32), t % (128 * 2 ^ 32))

/-- Send a port's beacon and tell the twin it has begun. -/
def State.plcBeacon (n : Nat) (k : W32) (psdu : List Byte) (cover : Bool) (s : State) : State :=
  let s := s.setPlc n { s.plcAt n with sent := some k, covering := cover, image := psdu }
  let syms := s.plcSyms n psdu.length true []
  let s := s.plcDrive n syms (.plcBeacon n (s.txPhases n) (s.plcFch n 1 true 0 syms) k psdu cover)
  if s.spn.link && !s.solo then { s with out := s.out ++ [.spnBegun n k] } else s

/-- Superframe `num` begins on a port: the beacon armed or shipped for it gives its slots, and a Headstock beacon heard just before is a
ZCADJ sample (R227, R228, R237). -/
def State.sfBegin (n : Nat) (num : W32) (s : State) : State :=
  let p := s.plcAt n
  let of_ (b : Option (W32 × List Byte)) : Option (List Byte) := match b with | some (m, psdu) => if m = num then some psdu else none | none => none
  let s := s.setPlc n { p with
    sf := some (num, s.tb.elapsed), bcn := ((of_ p.armed).orElse (fun _ => of_ p.shipped)).getD p.bcn, bcnAt := none }
  match p.bcnAt with
  | some t => if s.txRole then s else s.zcSample n ((t : Int) - s.tenths)
  | none => s

/-- The Headstock starts the armed beacon of the running superframe; not where it has lost the role or the twin has begun it; it waits while
the port still sends, to 20 us after its slot at most (R237, R238). -/
def State.beaconStart (n : Nat) (s : State) : State :=
  let p := s.plcAt n
  match p.sf, p.armed with
  | some (num, start), some (m, psdu) =>
    if m ≠ num then s
    else if !s.txRole || decide (p.begun = some num) then s.setPlc n { p with armed := none }
    else if start + 20 * usCounts < s.tb.elapsed then
      State.plcEvent n 0x1001 0#32 (s.setPlc n { p with armed := none, latebcn := true })
    else if s.plcFree n then State.plcBeacon n num psdu false (s.setPlc n { p with armed := none })
    else s
  | _, _ => s

/-- SUPERFRAME_START: superframe k begins at the first crossing at or after its boundary, or at the boundary, and its beacon is started;
once it runs, a beacon that still waits is tried again (R227, R237, R238). -/
def execSuperframeStart (n : Fin 2) (s : State) : Answer :=
  let p := s.plcAt n.val
  let (k, _) := s.sfNow
  let num : W32 := BitVec.ofNat 32 k
  let aligned := p.zcv && bit (s.reg (plcReg n.val 0)) 25
  let fresh := match p.sf with | some (m, _) => decide (m ≠ num) | none => true
  if !s.plcOn n.val then .next s
  else if fresh && (!aligned || decide (p.zcs.head? = some s.tenths)) then .next ((s.sfBegin n.val num).beaconStart n.val)
  else .next (s.beaconStart n.val)

/-- The entry breaks R228: it overlaps another, reaches past slot 124 or starts at or below CAPEND. -/
def cfpBad (img : List Byte) (e : Nat × Nat × Nat × Nat) : Bool :=
  let (k, _, f, c) := e
  decide (125 < f + c) || decide (f ≤ takeBytes img 9 1)
    || (cfpEntries img).any (fun o => decide (o.1 ≠ k) && decide (o.2.2.1 < f + c) && decide (f < o.2.2.1 + o.2.2.2))

/-- Bytes of a list replaced from position `i`. -/
def putBytes (bs : List Byte) (i : Nat) (v : List Byte) : List Byte := bs.take i ++ v ++ bs.drop (i + v.length)

/-- A beacon with its SFN written and its CRC computed again. -/
def reSfn (psdu : List Byte) (k : W32) : List Byte :=
  let b := putBytes psdu 0 (bytesOf 4 k)
  putBytes b 92 (bytesOf 4 (crcE (b.take 92)))

/-- BEACON_ARM: within 100 ms of a nominal boundary the transmit-role port takes the image, freezes the PSDU and ships it to the
twin (R228). -/
def execBeaconArm (n : Fin 2) (s : State) : Answer :=
  let p := s.plcAt n.val
  let (k, r) := s.sfNow
  let num : W32 := BitVec.ofNat 32 (k + 1)
  let due := decide (118 * 2 ^ 32 ≤ r) && (match p.armed with | some (m, _) => decide (m ≠ num) | none => true)
  if s.plcOn n.val && s.txRole && due then
    let img : List Byte := if p.newAddr then
        (match s.unitRead (s.reg2 (plcReg n.val 0x18)) 96 with | (.ok, bs) => bs | _ => p.image) else p.image
    if img.isEmpty then .next (s.setPlc n.val { p with newAddr := false })
    else
      let bad := (cfpEntries img).filter (cfpBad img)
      let img := bad.foldl (fun i e => putBytes i (16 + 4 * e.1) [0#8, 0#8, 0#8, 0#8]) img
      let fl : Byte := setFld (BitVec.ofNat 8 (takeBytes img 8 1)) 1 (ofBool 1 (!p.zcv))
      let psdu := reSfn (putBytes img 8 [fl]) num
      let s := s.setPlc n.val { p with
        armed := some (num, psdu), image := psdu, newAddr := false, badcfp := p.badcfp || !bad.isEmpty }
      .next (if s.spn.link && !s.solo then { s with out := s.out ++ [.spnBeacon n.val num psdu] } else s)
  else .next s

/-- BEACON_MESSAGE_RECEIVE: a shipped beacon of the twin is kept (R228, R238). -/
def execBeaconMessageReceive (n : Fin 2) (sfn : W32) (psdu : List Byte) (s : State) : Answer :=
  if s.fieldRuns && s.spn.link then
    .next (s.setPlc n.val { s.plcAt n.val with shipped := some (sfn, psdu), covered := 0, coverEnd := false })
  else .next s

/-- BEGUN_RECEIVE: the twin has begun the beacon of a superframe, which ends a run of covers (R237, R238). -/
def execBegunReceive (n : Fin 2) (sfn : W32) (s : State) : Answer :=
  if s.fieldRuns && s.spn.link then .next (s.setPlc n.val { s.plcAt n.val with
    begun := some sfn, covering := false, covered := 0, coverEnd := false }) else .next s

/-- BEACON_COVER: at its predicted slot + 40 us the Tailstock sends the shipped beacon, or for at most COVERMAX superframes in a row the last
one with its SFN advanced, unless it has heard one (R237, R238). -/
def execBeaconCover (n : Fin 2) (energy : Bool) (s : State) : Answer :=
  let p := s.plcAt n.val
  match p.sf, p.shipped with
  | some (k, start), some (m, psdu) =>
    let due := decide ((start : Int) * 10 + p.zcadj * 125 + 40 * 1250 ≤ s.tb.elapsed * 10)
    if s.plcOn n.val && !s.txRole && !s.solo && due && decide (p.sent ≠ some k) && decide (p.begun ≠ some k) then
      if energy then .next (s.setPlc n.val { p with covered := 0, coverEnd := false })
      else if m = k then .next ((s.plcBeacon n.val k psdu true).plcEvent n.val 0x1002 0#32)
      else if p.covered < s.regF (plcReg n.val 0) 16 8 then
        let s := s.setPlc n.val { p with covered := p.covered + 1 }
        .next ((s.plcBeacon n.val k (reSfn psdu k) true).plcEvent n.val 0x1002 0#32)
      else if p.coverEnd then .next s
      else .next ((s.setPlc n.val { p with coverEnd := true }).plcEvent n.val 0x1003 0#32)
    else .next s
  | _, _ => .next s

/-! ## Registers -/

/-- The entry the neighbour select register names. -/
def State.plcSel (s : State) (n : Nat) : Nat := s.regF (plcReg n 0x40) 0 11

/-- Writes of a PLC window (R219, R228, R232, R234, R239, Tables 9.4, 9.9 to 9.12). -/
def writePlc (n : Nat) : UnitWrite := fun _ r o v s =>
  let p := s.plcAt n
  let w := BitVec.ofNat 32 v
  if o = plcReg n 0 then
    let old := s.reg o
    if vf v 28 2 = 3 ∨ vf v 26 2 = 3 then refuse .denied s
    else if vf v 16 8 = 0 then refuse .outOfRange s
    else if bit old 31 ∧ (old ^^^ w) &&& 0x7C00FFFF#32 ≠ 0#32 then refuse .retry s
    else accept r o v s
  else if o = plcReg n 4 then
    if 7 < vf v 28 4 ∨ vf v 24 4 < 1 ∨ 8 < vf v 24 4 ∨ vf v 20 4 < vf v 24 4 ∨ 10 < vf v 20 4 ∨ vf v 0 16 < 1 ∨ 3600 < vf v 0 16 then
      refuse .outOfRange s
    else accept r o v s
  else if o = plcReg n 8 then
    if vf v 20 12 < 10 ∨ 3600 < vf v 20 12 ∨ vf v 12 4 < 1 ∨ vf v 0 8 < 1 then refuse .outOfRange s else accept r o v s
  else if o = plcReg n 0xC then
    (.ok, s.setPlc n { p with
      latebcn := p.latebcn && !bit w 27, nobuf := p.nobuf && !bit w 26, badcfp := p.badcfp && !bit w 25, badtm := p.badtm && !bit w 24
      dupdrop := if bit w 0 then 0 else p.dupdrop })
  else if o = plcReg n 0x18 then (.ok, (s.store r o v).setPlc n { p with newAddr := true })
  else if o = plcReg n 0x28 then (.ok, s.setPlc n { p with bufs := p.bufs.filter (fun k => decide (k ≠ v)) })
  else if o = plcReg n 0x44 then
    let valid := decide (vf v 31 1 = 1)
    let a : BitVec 16 := BitVec.ofNat 16 v
    let k := s.plcSel n
    if valid ∧ (vf v 0 16 < 1 ∨ 0x7FFF < vf v 0 16) then refuse .outOfRange s
    else if (p.nbs.any (fun e => decide (e.1 ≠ k) && e.2.valid && decide (e.2.saddr = a))) then refuse .denied s
    else (.ok, s.setPlc n (p.setNb k { valid, saddr := a, cls := 0 }))
  else if plcReg n 0x48 ≤ o ∧ o ≤ plcReg n 0x50 then (.ok, s)
  else accept r o v s

/-- NBDATA0 to NBDATA3 of an entry (Table 9.12). -/
def State.nbWord (s : State) (n k j : Nat) : W32 :=
  let b := (s.plcAt n).nb k
  if j = 0 then BitVec.ofNat 32 ((if b.valid then 2 ^ 31 else 0) + b.saddr.toNat)
  else if j = 1 then BitVec.ofNat 32 (s.ageSec b.seqAt * 256 + b.seq.toNat)
  else if j = 2 then BitVec.ofNat 32 (b.snr.toNat * 2 ^ 24 + b.cls * 65536 + b.rxTm * 256 + b.prevTm * 16 + b.curTm)
  else b.frames

/-- Reads of a PLC window (Tables 9.11, 9.12; PLCn_ZC). -/
def readPlc (n o : Nat) (s : State) : W32 :=
  let p := s.plcAt n
  let f (x : Bool) (k : Nat) : Nat := if x then 2 ^ k else 0
  if o = plcReg n 0xC then
    BitVec.ofNat 32 (f p.zcv 31 + f s.txRole 30 + f p.covering 29 + f p.neutral 28 + f p.latebcn 27 + f p.nobuf 26 + f p.badcfp 25
      + f p.badtm 24 + p.dupdrop)
  else if o = plcReg n 0x10 then p.period ++ BitVec.ofInt 16 p.zcadj
  else if o = plcReg n 0x44 then s.nbWord n (s.plcSel n) 0
  else if o = plcReg n 0x48 then s.nbWord n (s.plcSel n) 1
  else if o = plcReg n 0x4C then s.nbWord n (s.plcSel n) 2
  else if o = plcReg n 0x50 then s.nbWord n (s.plcSel n) 3
  else s.reg o

/-! ## Neighbour entries in a checkpoint (R321): 263 bytes, the layout DESIGN CHOICE (log entry 31) -/

/-- A valid entry: port, SEQ known, number, NBDATA0 to NBDATA3, and the current, previous and received map. -/
def State.nbRecord (s : State) (n k : Nat) : List Byte :=
  let b := (s.plcAt n).nb k
  [BitVec.ofNat 8 n, ofBool 8 b.seqAt.isSome] ++ bytesOfNat 2 k ++ (List.range 4).flatMap (fun j => bytesOf 4 (s.nbWord n k j))
    ++ packMap 81 b.curMap ++ packMap 81 b.prevMap ++ packMap 81 b.rxMap

/-- A tone map read back; none where it has no TMID. -/
def mapBack (nt tm : Nat) (bs : List Byte) : List (BitVec 3) := if tm = 0 then [] else unpackMap nt bs

/-- Put an entry of a checkpoint back: what this twin has itself heard of the neighbour stays, the maps are the checkpoint's (R222,
R325). -/
def State.nbRestore (bs : List Byte) (s : State) : State :=
  let n := takeBytes bs 0 1
  let k := takeBytes bs 2 2
  let w (i m : Nat) : Nat := takeBytes bs i m
  let a : BitVec 16 := BitVec.ofNat 16 (w 4 2)
  let nt := s.planTones n
  let p := s.plcAt n
  let b := p.nb k
  let b : PlcNb := if b.valid && decide (b.saddr = a) then b else
    { valid := true, saddr := a, seq := BitVec.ofNat 8 (w 8 1), seqAt := if w 1 1 = 1 then some (s.tb.elapsed - w 9 3 * sCounts) else none
      snr := BitVec.ofNat 8 (w 15 1), cls := w 14 1 % 8, frames := BitVec.ofNat 32 (w 16 4) }
  let cur := w 12 1 % 16
  let prev := w 12 1 / 16
  let rx := w 13 1 % 16
  s.setPlc n (p.setNb k { b with
    curTm := cur, prevTm := prev, rxTm := rx, curMap := mapBack nt cur (bs.drop 20), prevMap := mapBack nt prev (bs.drop 101)
    tmSnr := mapSnr (mapBack nt cur (bs.drop 20)) b.toneHist, rxMap := mapBack nt rx (bs.drop 182), tmAt := if cur = 0 then b.tmAt else some (b.tmAt.getD s.tb.elapsed) })

end Sys2Proof.Machine
end

