-- ==== Sys2Proof/Machine/Radio.lean ====
section
/-! DEFINITION. The radio ports (10_radio_wired.md, R240 to R256). A received frame is one step at its end; its stamp point lies the time
of its PHR and PSDU before that. -/

namespace Sys2Proof.Machine
open Sys2Proof

def State.rfAt (s : State) (n : Nat) : Rf := Tab.get {} s.rf n
def State.setRf (s : State) (n : Nat) (x : Rf) : State := { s with rf := Tab.set {} s.rf n x }
/-- A register of port `n`. -/
def rfReg (n o : Nat) : Nat := 0x120000 + n * 0x10000 + o
/-- The port is enabled in a state that runs it (R240). -/
def State.rfOn (s : State) (n : Nat) : Bool := s.fieldRuns && bit (s.reg (rfReg n 0)) 31
/-- The data rate in kb/s (Table 10.4). -/
def State.rfRate (s : State) (n : Nat) : Nat := 50 * (s.regF (rfReg n 0) 29 2 + 1)
/-- The time of `k` octets on the air, in elapsed counts. -/
def State.rfOctets (s : State) (n k : Nat) : Nat := k * 1000000 / s.rfRate n
def State.rfNetid (s : State) (n : Nat) : Nat := s.regF (rfReg n 0) 16 8

def Rf.nb (p : Rf) (k : Nat) : RfNb := Tab.get {} p.nbs k
def Rf.setNb (p : Rf) (k : Nat) (x : RfNb) : Rf := { p with nbs := Tab.set {} p.nbs k x }
def Rf.nbOf (p : Rf) (a : BitVec 16) : Option Nat := (p.nbs.find? (fun e => e.2.valid && decide (e.2.saddr = a))).map (·.1)

/-! ## Sending (R248 to R253) -/

/-- W + LISTEN + MARGIN of an RFn_LPL value, ms (R252, R253). -/
def lplSpan (w : W32) : Nat := (fld w 18 14).toNat + (fld w 12 6).toNat + (fld w 4 8).toNat

/-- Octets of one train copy: preamble, SFD and PHR, PSDU (R253). -/
def copyOctets (pream psdu : Nat) : Nat := pream + 4 + psdu

/-- The least number of copies that spans the wake period (R253). -/
def State.trainCopies (s : State) (n pream psdu : Nat) (lpl : W32) : Nat :=
  let per := copyOctets pream psdu * 8000 + 250 * s.rfRate n
  (lplSpan lpl * 1000 * s.rfRate n + per - 1) / per

/-- A wake preamble in octets: W + LISTEN + MARGIN ms rounded up to whole octets (R252). -/
def State.wakeOctets (s : State) (n : Nat) (lpl : W32) : Nat := (lplSpan lpl * s.rfRate n + 7) / 8

/-- A wake preamble or train with its frame would last longer than 20 s (R251). -/
def State.tooLong (s : State) (n wake pream psdu : Nat) (lpl : W32) : Bool :=
  if wake = 1 then decide (20000 * s.rfRate n < (s.wakeOctets n lpl + 4 + psdu) * 8)
  else if wake = 2 then
    decide (20000000 * s.rfRate n < s.trainCopies n pream psdu lpl * (copyOctets pream psdu * 8000 + 250 * s.rfRate n) - 250 * s.rfRate n)
  else false

/-- The PSDU as it is sent: SEQ, REM of a train, FCS over both (R251, R253). -/
def rfPsdu (j : TxJob) : List Byte :=
  let a := j.psdu.take 1 ++ [j.seq] ++ j.psdu.drop 2
  let a := if j.wake = 2 then a.take 7 ++ bytesOfNat 2 j.copies ++ a.drop 9 else a
  a ++ bytesOf 4 (crcE a)

/-- The preamble octets of a frame or copy (R252, R253). -/
def State.rfPreamble (s : State) (n : Nat) (j : TxJob) : Nat := if j.wake = 1 then s.wakeOctets n (s.rfAt n).txLpl else j.pream

/-- The time from the start of the frame or copy in progress to its end, in elapsed counts: preamble, SFD and PHR, PSDU. -/
def State.rfAir (s : State) (n : Nat) (j : TxJob) : Nat := s.rfOctets n (s.rfPreamble n j + 4 + j.psdu.length + 4)

/-- The port sends nothing now. -/
def State.rfFree (s : State) (n : Nat) : Bool := decide ((s.rfAt n).airEnd ≤ s.tb.elapsed)

/-- The port sends for `d` counts from now. -/
def State.rfDrive (n d : Nat) (o : Out) (s : State) : State :=
  { s.setRf n { s.rfAt n with airEnd := s.tb.elapsed + d } with out := s.out ++ [o] }

/-- Send one frame or copy. -/
def State.rfSend (n : Nat) (j : TxJob) (s : State) : State :=
  let p := s.rfAt n
  let s := s.setRf n { p with cca := false, backoff := none, tx := some { j with sending := true, at_ := s.tb.elapsed, ended := none } }
  s.rfDrive n (s.rfAir n j) (.rfFrame n (rfPsdu j) (s.rfPreamble n j))

/-- Complete the frame taken; it waits where the completion queue has no room. -/
def State.rfComplete (n : Nat) (j : TxJob) (st : Status) (s : State) : State :=
  let (ok, s) := s.putCompletion (rfReg n 0x30) j.reqid st
  s.setRf n { s.rfAt n with
    cca := false, backoff := none, tx := if ok then none else some { j with sending := false, ended := none, status := some st } }

/-- The copies that follow the first one of an attempt. -/
def State.rfCopies (s : State) (n : Nat) (j : TxJob) : Nat :=
  if j.wake = 2 then s.trainCopies n j.pream (j.psdu.length + 4) (s.rfAt n).txLpl - 1 else 0

/-- Begin an attempt: a channel assessment (R251). -/
def State.rfAttempt (n : Nat) (j : TxJob) (s : State) : State :=
  let p := s.rfAt n
  s.setRf n { p with cca := true, backoff := none, tx := some { j with
    be := (fld p.txMac 24 4).toNat, busyN := 0, ended := none, sending := false, copies := s.rfCopies n j } }

/-- RF_TX_TAKE: the transmit-role twin takes an item, checks it and assesses the channel (R250, R251). -/
def execRfTxTake (n : Fin 2) (s : State) : Answer :=
  let p := s.rfAt n.val
  if s.rfOn n.val && s.txRole && p.tx.isNone then
    match s.hwTake (s.regF (rfReg n.val 0x2C) 0 16) with
    | (none, s) => .next s
    | (some x, s) =>
      let dst := txDst x
      let seq := Tab.get 0#8 p.txseq dst.toNat
      let wake := (fld (txFlags x) 0 2).toNat
      let ft := (fld (txFc x) 0 2).toNat
      let m := txLen x + 4
      let pream := s.regF (rfReg n.val 0) 8 8
      let j : TxJob := { reqid := itemReq x, psdu := [], dst, seq, ackreq := bit (txFc x) 2, wake, pream }
      let lpl := s.reg (rfReg n.val 8)
      if wake = 3 ∨ ft = 1 ∨ ft = 3 then .next (s.rfComplete n.val j .denied)
      else if m < 11 ∨ 1024 < m ∨ s.tooLong n.val wake pream m lpl then .next (s.rfComplete n.val j .outOfRange)
      else
        match s.unitRead (txAddr x) (txLen x) with
        | (.ok, bs) =>
          let s := s.setRf n.val { s.rfAt n.val with
            txMac := s.reg (rfReg n.val 4), txLpl := lpl, txseq := Tab.set 0#8 p.txseq dst.toNat (seq + 1#8) }
          .next (s.rfAttempt n.val { j with psdu := bs })
        | (st, _) => .next (s.rfComplete n.val j st)
  else .next s

/-- RF_CCA_DONE: while the port sends nothing itself, a quiet channel starts the frame; a busy one backs off for a random time, eight in one attempt complete with
RETRY, and so does a frame not begun when TXROLE fell (R250, R251). -/
def execRfCcaDone (n : Fin 2) (powerDbfs : Int) (s : State) : Answer :=
  let p := s.rfAt n.val
  match p.tx with
  | some j =>
    if s.rfOn n.val && p.cca && s.rfFree n.val then
      if !s.txRole then .next (s.rfComplete n.val j .retry)
      else if powerDbfs ≤ -(s.regF (rfReg n.val 0) 0 7 : Int) then .next (s.rfSend n.val j)
      else if 8 ≤ j.busyN + 1 then .next (s.rfComplete n.val j .retry)
      else
        let (r, s) := s.draw 16
        let w := r.toNat % 2 ^ j.be * msCounts
        .next (s.setRf n.val { p with
          cca := false, backoff := some (s.tb.elapsed + w)
          tx := some { j with busyN := j.busyN + 1, be := min (fld p.txMac 20 4).toNat (j.be + 1) } })
    else .next s
  | none => .next s

/-- RF_BACKOFF_EXPIRY: the port assesses again. -/
def execRfBackoffExpiry (n : Fin 2) (s : State) : Answer :=
  let p := s.rfAt n.val
  match p.backoff with
  | some t =>
    if s.rfOn n.val && decide (t ≤ s.tb.elapsed) then .next (s.setRf n.val { p with cca := true, backoff := none }) else .next s
  | none => .next s

/-- RF_TRAIN_COPY: 250 us +- 10 us after a copy the next one is sent, REM counting down (R253). -/
def execRfTrainCopy (n : Fin 2) (s : State) : Answer :=
  match (s.rfAt n.val).tx with
  | some j =>
    if s.fieldRuns && j.sending && decide (0 < j.copies) && s.past j.at_ (s.rfAir n.val j + 240 * usCounts) then
      .next (s.rfSend n.val { j with copies := j.copies - 1 })
    else .next s
  | none => .next s

/-- RF_TX_END: the frame, or the last copy of a train, ends; without ACKREQ, or without the transmit role, the completion is
put (R250, R251). A completion still waiting for room is put again. -/
def execRfTxEnd (n : Fin 2) (s : State) : Answer :=
  let p := s.rfAt n.val
  match p.tx with
  | some j =>
    match j.status with
    | some st => if s.pwr.mainOn then .next (s.rfComplete n.val j st) else .next s
    | none =>
      if s.fieldRuns && j.sending && decide (j.copies = 0) && s.past j.at_ (s.rfAir n.val j) then
        if j.ackreq then .next (s.setRf n.val { p with tx := some { j with sending := false, ended := some s.tb.elapsed } })
        else .next (s.rfComplete n.val j .ok)
      else .next s
  | none => .next s

/-- RF_ACK_TIMEOUT: ACKWAIT has passed: another attempt, or RETRY after the last or where TXROLE fell (R250, R251). -/
def execRfAckTimeout (n : Fin 2) (s : State) : Answer :=
  let p := s.rfAt n.val
  match p.tx with
  | some j =>
    match j.ended with
    | some e =>
      if s.fieldRuns && s.past e ((fld p.txMac 16 4).toNat * msCounts) then
        if j.tries < (fld p.txMac 28 4).toNat ∧ s.txRole then .next (s.rfAttempt n.val { j with tries := j.tries + 1 })
        else .next (s.rfComplete n.val j .retry)
      else .next s
    | none => .next s
  | none => .next s

/-! ## Receiving (R242, R245 to R249) -/

/-- The PHR is refused: MS, FCS type 1, or a length outside 11 to 1,024. MS is [15], FCS type [12], length [10:0]
(log entry 30). -/
def phrBad (phr : BitVec 16) : Bool :=
  bit phr 15 || bit phr 12 || decide ((fld phr 0 11).toNat < 11) || decide (1024 < (fld phr 0 11).toNat)

/-- Where a frame that ends now had its preamble begin, its SFD begin, and its stamp point, the SFD's end: elapsed counts before now. -/
def State.rfSpan (s : State) (n : Nat) (f : RfRx) : Nat × Nat × Nat :=
  let o := s.rfOctets n
  let m := f.psdu.length
  (o (f.preamble + 4 + m), o (4 + m), o (2 + m))

/-- A FIFO has held all the time from `a` to `b`. -/
def Fifo.heldThrough (f : Fifo) (a b : Nat) : Bool :=
  (f.hold && decide (f.heldAt ≤ a)) || f.holds.any (fun h => decide (h.1 ≤ a) && decide (b ≤ h.2))

/-- The port has received the frame that ends now: it was on, or cleared while the frame ran; it sent nothing since the preamble's end; its
FIFO did not hold all through the preamble; and the IQ stream has not stalled since (R242, R244, Table 10.4; what of a preamble must be
heard is DESIGN CHOICE, log entry 30). -/
def State.rfHeard (s : State) (n : Nat) (f : RfRx) : Bool :=
  let p := s.rfAt n
  let (pre, sfd, _) := s.rfSpan n f
  let now := s.tb.elapsed
  let since (o : Option Nat) : Bool := match o with | some t => decide (now - sfd ≤ t) | none => false
  s.fieldRuns && (bit (s.reg (rfReg n 0)) 31 || since p.offAt) && decide (p.airEnd ≤ now - sfd)
    && !(s.fifo (2 + n)).heldThrough (now - pre) (now - sfd) && !since p.stallAt

/-- The ingress item of a received frame (Table 10.3). -/
def State.rfItem (s : State) (n addr len : Nat) (src : BitVec 16) (seq fc : Byte) (f : RfRx) : Item :=
  let c := s.reg (rfReg n 0)
  setFld (setFld (setFld (setFld (setFld (setFld (setFld (0#512 : Item) 320 (BitVec.ofNat 64 addr)) 384 (BitVec.ofNat 16 len))
    400 src) 416 seq) 424 fc) 432 f.power)
    440 (BitVec.ofNat 8 ((fld c 29 2).toNat + (if bit c 28 then 4 else 0) + (if bit fc 4 then 8 else 0)))

/-- A frame for this port: duplicate check, buffer, FIFO, acknowledgement (R247 to R249). -/
def State.rfFrame (n : Nat) (f : RfRx) (s : State) : State :=
  let b (i k : Nat) : Nat := takeBytes f.psdu i k
  let fc : Byte := BitVec.ofNat 8 (b 0 1)
  let seq : Byte := BitVec.ofNat 8 (b 1 1)
  let src : BitVec 16 := BitVec.ofNat 16 (b 5 2)
  let p := s.rfAt n
  let k := if src = 0xFFFE#16 then none else p.nbOf src
  let ack := bit fc 2 && decide (b 3 2 = 0) && decide (src ≠ 0xFFFE#16) && (!bit fc 4 || decide (b 7 2 = 0))
  let due (s : State) : State := if ack then s.setRf n { s.rfAt n with acks := (s.rfAt n).acks ++ [(src, seq, s.tb.elapsed)] } else s
  let dup := match k with
    | some k => decide ((p.nb k).seq = seq) && s.inDupWin (p.nb k).seqAt (fld p.txMac 0 16).toNat
    | none => false
  if dup then due (s.setRf n { p with dupdrop := satInc 0xFFFF p.dupdrop })
  else
    let (bf, s) := s.poolTake ((0x12 + n) * 16) p.bufs
    match bf with
    | none => s.setRf n { s.rfAt n with nobuf := true }
    | some i =>
      let addr := s.reg2 (rfReg n 0x20) + 2048 * i
      let s := (s.ramWrite addr f.psdu).2
      let m := s.momentAgoSub (s.rfSpan n f).2.2 (f.sub.val / 4) 8
      let (ok, s) := s.ingress (2 + n) (b 0 1 / 32) m (s.rfItem n addr f.psdu.length src seq fc f)
      if ok then
        let s := s.setRf n { s.rfAt n with bufs := (s.rfAt n).bufs ++ [i] }
        let s := match k with
          | some k => s.setRf n ((s.rfAt n).setNb k { (s.rfAt n).nb k with seq, seqAt := some s.tb.elapsed })
          | none => s
        due s
      else s

/-- A received acknowledgement of the frame in flight. -/
def State.rfAckIn (n : Nat) (seq : Byte) (src : BitVec 16) (s : State) : State :=
  match (s.rfAt n).tx with
  | some j => if j.ended.isSome && decide (j.seq = seq) && decide (j.dst = src) then s.rfComplete n j .ok else s
  | none => s

/-- RF_FRAME_RECEIVE: a frame ends; filtered, checked and delivered (R242, R244 to R249). -/
def execRfFrameReceive (n : Fin 2) (f : RfRx) (s : State) : Answer :=
  let p := s.rfAt n.val
  let m := f.psdu.length
  let b (i k : Nat) : Nat := takeBytes f.psdu i k
  if !s.rfHeard n.val f then .next s
  else if phrBad f.phr || f.fec then .next (s.setRf n.val { p with badphr := true })
  else if (fld f.phr 0 11).toNat ≠ m ∨ takeBytes f.psdu (m - 4) 4 ≠ (crcE (f.psdu.take (m - 4))).toNat then .next s
  else if b 0 1 % 4 = 3 ∨ b 2 1 ≠ s.rfNetid n.val ∨ (b 3 2 ≠ 0 ∧ b 3 2 ≠ 0xFFFF) then .next s
  else if b 0 1 % 4 = 1 then .next (s.rfAckIn n.val (BitVec.ofNat 8 (b 1 1)) (BitVec.ofNat 16 (b 5 2)))
  else .next (s.rfFrame n.val f)

/-- RF_ACK_SEND: 1.00 ms +- 0.05 ms after an accepted frame's end the transmit-role twin, where it sends nothing else, sends the 11-octet
acknowledgement; one whose time has passed is not sent (R248). -/
def execRfAckSend (n : Fin 2) (s : State) : Answer :=
  let p := s.rfAt n.val
  let owed := p.acks.filter (fun a => decide (s.tb.elapsed ≤ a.2.2 + 1050 * usCounts))
  let keep (l : List (BitVec 16 × Byte × Nat)) : State := s.setRf n.val { p with acks := l }
  match owed with
  | (dst, seq, e) :: rest =>
    if s.rfOn n.val && s.txRole && s.past e (950 * usCounts) && s.rfFree n.val && !p.tx.any (·.sending) then
      let a : List Byte := [1#8, seq, BitVec.ofNat 8 (s.rfNetid n.val)] ++ bytesOf 2 dst ++ [0#8, 0#8]
      .next ((keep rest).rfDrive n.val (s.rfOctets n.val (copyOctets (s.regF (rfReg n.val 0) 8 8) 11)) (.rfAck n.val (a ++ bytesOf 4 (crcE a))))
    else .next (keep owed)
  | [] => .next (keep [])

/-- RF_FESPI_DONE: the transfer completes and its read data stands in the register (R243). -/
def execRfFespiDone (n : Fin 2) (rdata : BitVec 16) (s : State) : Answer :=
  let p := s.rfAt n.val
  if s.fieldRuns && p.fespi then
    let s := s.setReg (rfReg n.val 0x10) (setFld (s.reg (rfReg n.val 0x10)) 0 rdata)
    .next (s.setRf n.val { p with fespi := false, ferd := rdata })
  else .next s

/-- RF_IQ_STALL: IQERR is set; a frame in progress is discarded when it ends (R244). -/
def execRfIqStall (n : Fin 2) (s : State) : Answer :=
  if s.rfOn n.val then .next (s.setRf n.val { s.rfAt n.val with iqerr := true, stallAt := some s.tb.elapsed }) else .next s

/-! ## Registers (Tables 10.4 to 10.7, R254, R256) -/

def State.rfSel (s : State) (n : Nat) : Nat := s.regF (rfReg n 0x40) 0 11

/-- Writes of an RF window (R243, R249, R254, R256). -/
def writeRf (n : Nat) : UnitWrite := fun _ r o v s =>
  let p := s.rfAt n
  let w := BitVec.ofNat 32 v
  if o = rfReg n 0 then
    if vf v 8 8 < 4 ∨ vf v 0 7 < 20 then refuse .outOfRange s
    else if bit (s.reg o) 31 ∧ (s.reg o ^^^ w) &&& 0x78FF0000#32 ≠ 0#32 then refuse .retry s
    else accept r o v (if bit (s.reg o) 31 && !bit w 31 then s.setRf n { p with offAt := some s.tb.elapsed } else s)
  else if o = rfReg n 4 then
    if 7 < vf v 28 4 ∨ vf v 24 4 < 1 ∨ 8 < vf v 24 4 ∨ vf v 20 4 < vf v 24 4 ∨ 10 < vf v 20 4 ∨ vf v 16 4 < 2 ∨ vf v 0 16 < 1
        ∨ 3600 < vf v 0 16 then refuse .outOfRange s
    else accept r o v s
  else if o = rfReg n 8 then
    if vf v 18 14 < 10 ∨ 10000 < vf v 18 14 ∨ vf v 12 6 < 1 ∨ vf v 4 8 < 1 then refuse .outOfRange s else accept r o v s
  else if o = rfReg n 0xC then
    (.ok, s.setRf n { p with
      nobuf := p.nobuf && !bit w 29, badphr := p.badphr && !bit w 28, iqerr := p.iqerr && !bit w 27
      dupdrop := if bit w 0 then 0 else p.dupdrop })
  else if o = rfReg n 0x10 then
    if p.fespi then refuse .retry s
    else
      let s := (s.store r o v).setRf n { p with fespi := true }
      (.ok, { s with out := s.out ++ [.rfSpi n w] })
  else if o = rfReg n 0x28 then (.ok, s.setRf n { p with bufs := p.bufs.filter (fun k => decide (k ≠ v)) })
  else if o = rfReg n 0x44 then (.ok, s.setRf n (p.setNb (s.rfSel n) { valid := decide (vf v 31 1 = 1), saddr := BitVec.ofNat 16 v }))
  else accept r o v s

/-- Reads of an RF window. -/
def readRf (n o : Nat) (s : State) : W32 :=
  let p := s.rfAt n
  let b := p.nb (s.rfSel n)
  let f (x : Bool) (k : Nat) : Nat := if x then 2 ^ k else 0
  if o = rfReg n 0xC then
    BitVec.ofNat 32 (f s.txRole 31 + f (p.tx.any (·.sending) || !s.rfFree n) 30 + f p.nobuf 29 + f p.badphr 28
      + f p.iqerr 27 + p.dupdrop)
  else if o = rfReg n 0x44 then BitVec.ofNat 32 (f b.valid 31 + b.saddr.toNat)
  else if o = rfReg n 0x48 then BitVec.ofNat 32 (s.ageSec b.seqAt * 256 + b.seq.toNat)
  else s.reg o

end Sys2Proof.Machine
end

