-- ==== Sys2Proof/Machine/Twin.lean ====
section
/-! DEFINITION. Spindle and the twin pair (13_twin_pair.md): heartbeats, pairing of field frames, mirrored custody blocks, leases,
checkpoints, the journal, promotion, replay and rejoin. The declaration of loss and the journal's acknowledgement, which
release waiting commits, stand in Machine/Commit.lean. -/

namespace Sys2Proof.Machine
open Sys2Proof

/-- TWN_CTL.LEASE in counts of the elapsed count (R319). -/
def State.leaseCounts (s : State) : Nat := s.regF Reg.twnCtl 13 10 * msCounts
/-! ## The journal (R323, R324) -/

/-- The entry whose image lies at a DRAM address (R323). -/
def State.journalAt (addr : Nat) (s : State) : State := s.journalPut (BitVec.ofNat 1024 (s.ramNat addr 128))

/-- The KIND 1 entry of a completion: result, then status (R324, Table 13.6). -/
def completionEntry (c : Comp) : JEntry :=
  setFld (setFld (setFld (setFld (setFld (0#1024 : JEntry) 96 (1#8)) 112 (17#16)) 128 c.id) 192 c.res) 320 c.st

/-- ORD on the Headstock journals each completion of a head-end or host origin (R324). -/
def State.journalComp (c : Comp) (s : State) : State :=
  if decide (s.twn.cp = 0#2) && !s.solo && decide (0x200 ≤ (reqOrigin c.id).toNat) then s.journalPut (completionEntry c) else s

/-! ## Checkpoints (R321, R322) -/

/-- The neighbour tables of the PLC and radio ports, 263 bytes a valid entry; a radio entry has NBDATA0 and NBDATA1 and no maps. -/
def State.nbImage (s : State) : List Byte :=
  let rf (n k : Nat) (b : RfNb) : List Byte :=
    [BitVec.ofNat 8 (2 + n), ofBool 8 b.seqAt.isSome] ++ bytesOfNat 2 k ++ bytesOfNat 4 (2 ^ 31 + b.saddr.toNat)
      ++ bytesOfNat 4 (s.ageSec b.seqAt * 256 + b.seq.toNat) ++ List.replicate 251 0#8
  (List.range 2).flatMap (fun n => (s.plcAt n).nbs.flatMap (fun e => if e.2.valid then s.nbRecord n e.1 else []))
    ++ (List.range 2).flatMap (fun n => (s.rfAt n).nbs.flatMap (fun e => if e.2.valid then rf n e.1 e.2 else []))

/-- The body of a checkpoint: the region of TWN_CPBASE and TWN_CPLEN, the neighbour tables, TWN_CUSTOWN (R321). -/
def State.ckBody (s : State) : List Byte :=
  s.ramBytes (s.reg2 0x170020) (s.reg 0x170028).toNat ++ s.nbImage ++ bytesOf 4 (s.reg 0x17000C)

/-- The header of Table 13.5. -/
def ckHeader (num : W32) (len : Nat) (jpos : Word) (epoch : W32) (digest : BitVec 384) : BitVec 1024 :=
  setFld (setFld (setFld (setFld (setFld (0#1024) 0 num) 64 (BitVec.ofNat 64 len)) 128 jpos) 192 epoch) 256 digest

/-- Capture the control-plane state and ship it (R321). -/
def State.capture (s : State) : State :=
  let num := s.twn.capNum + 1#32
  let body := s.ckBody
  let hdr := ckHeader num body.length s.twn.jpos s.cfg.cur (sha384v body)
  State.toTwin (.spnCkpt hdr body) { s with
    twn := { s.twn with capNum := num, caps := s.twn.caps ++ [(num, s.twn.jpos)], ckAt := s.tb.elapsed, ckPer := s.regF Reg.twnCtl 0 13 } }

/-- The journal entries from the JPOS of the last acknowledged checkpoint onward (R322). -/
def State.journalHeld (s : State) : Nat := (s.twn.journal.filter (fun e => decide (s.twn.ackJpos.toNat < (jPos e).toNat))).length

/-- CHECKPOINT_CAPTURE: CKPER has passed since the last capture, or the journal ring is three-quarters full (R321). -/
def execCheckpointCapture (s : State) : Answer :=
  if s.twinRuns && decide (s.twn.cp = 0#2) && (s.past s.twn.ckAt (s.twn.ckPer * 12500000) || decide (49152 ≤ s.journalHeld)) then
    .next s.capture
  else .next s

/-- CHECKPOINT_RECEIVE: a whole checkpoint with a good digest and a higher number is swapped in and acknowledged; any other is
discarded with event 0x1704 (R322). -/
def execCheckpointReceive (hdr : BitVec 1024) (body : List Byte) (s : State) : Answer :=
  let num : W32 := fld hdr 0 32
  let last := match s.twn.ck with | some c => c.num.toNat | none => 0
  if s.twinLink then
    if (fld hdr 64 64).toNat = body.length ∧ fld hdr 256 384 = sha384v body ∧ (s.twn.ck.isNone ∨ last < num.toNat) then
      let c : Ckpt := { num, jpos := fld hdr 128 64, epoch := fld hdr 192 32, body }
      .next (State.toTwin (.spnCkack num) { s with twn := { s.twn with
        ck := some c } })
    else .next (s.event 0x1704 0#32)
  else .next s

/-- CKACK_RECEIVE: the entries up to the acknowledged checkpoint's JPOS need no longer be kept and count no more towards the ring; a handover
waiting for it gives up the control plane (R320 to R322). -/
def execCkackReceive (num : W32) (s : State) : Answer :=
  if s.twinLink then
    match s.twn.caps.find? (fun p => decide (p.1 = num)) with
    | none => .next s
    | some p =>
      let done := match s.twn.hand with | some h => decide (h.toNat ≤ num.toNat) | none => false
      .next { s with twn := { s.twn with
        ackJpos := p.2
        caps := s.twn.caps.filter (fun q => decide (num.toNat < q.1.toNat))
        cp := if done && decide (s.twn.cp = 0#2) then 1#2 else s.twn.cp } }
  else .next s

/-! ## Heartbeats and rejoin (R301, R302, R306, R327) -/

/-- The number of the last accepted checkpoint, 0 for none. -/
def State.ckNum (s : State) : W32 := match s.twn.ck with | some c => c.num | none => 0#32

/-- SPINDLE_HB_SEND: every 100 us (R301). -/
def execSpindleHbSend (s : State) : Answer :=
  let due := match s.spn.hbSent with | none => true | some t => s.past t (100 * usCounts)
  if s.twinLink && due then
    let m : HbMsg := { cpstate := s.twn.cp, cur := s.cfg.cur, next := s.reg 0x190004, custown := s.twn.custown,
                       ckNum := s.ckNum, jpos := s.twn.jpos }
    .next (State.toTwin (.spnHb m) { s with spn := { s.spn with hbSent := some s.tb.elapsed } })
  else .next s

/-- The regions STREAM carries: point records, completion cache and stream table, working profile lines, BAL work region (R327). -/
def State.streamRegions (s : State) : List (Nat × Nat) :=
  [(s.reg2 Reg.ldgPtbase, 8192 * 0x800), (s.ccBase, 192 * 2 ^ 20), (s.reg2 Reg.ldgPwbase, 8192 * 128 * 64)]
    ++ (if s.bal.given then [(s.reg2 Reg.balWorkbase, s.workSize)] else [])

/-- The lines of these regions that verify. -/
def State.streamLines (s : State) : List Nat :=
  (s.streamRegions.flatMap (fun r => linesOf r.1 r.2)).filter (fun l => !s.poisoned l)

/-- What the model holds of that state beside DRAM. -/
def State.streamWork (s : State) : StreamMsg := .work s.bal.accs s.bal.cus s.bal.states s.bal.finals s.ldg.pwBits

/-- What a heartbeat shows of a device that has run since it started: a later configuration epoch than the other's, a checkpoint or a
journal. -/
def hasRun (cur other ck : W32) (jpos : Word) : Bool := decide (other.toNat < cur.toNat) || decide (ck ≠ 0#32) || decide (jpos ≠ 0#64)

/-- The running twin serves a rejoin: a checkpoint at once, the state, the end marker; TWINUP and event 0x1702. One that ran alone
(`all`) keeps every custody point until the next epoch switch (R302, R327). -/
def State.serveRejoin (all : Bool) (s : State) : State :=
  let s := s.capture
  let s := s.streamLines.foldl (fun s l => s.toTwin (.spnStream (.line (64 * l) (s.ramBytes (64 * l) 64)))) s
  let s := (s.toTwin (.spnStream s.streamWork)).toTwin .spnStreamEnd
  State.event 0x1702 0#32 { s with twn := { s.twn with twinup := true, takeover := all } }

/-- The first HB after reset or loss decides who joins: a device that hears a Headstock joins it, and so does one that starts and hears a
device that has run; any other serves the rejoin. Of two that start alike both do, neither having run alone: the twin bit breaks no
tie here (R9, R302, R327; DESIGN CHOICE, log entry 31). -/
def State.twinArrives (fresh : Bool) (m : HbMsg) (s : State) : State :=
  if decide (s.twn.cp ≠ 0#2) && (decide (m.cpstate = 0#2) || (fresh && hasRun m.cur s.cfg.cur m.ckNum m.jpos)) then
    { s with twn := { s.twn with joining := true, ceded := true, takeover := false, streamAt := some s.tb.elapsed } }
  else s.serveRejoin (!fresh || decide (s.twn.cp = 0#2) || hasRun s.cfg.cur m.cur s.ckNum s.twn.jpos)

/-- SPINDLE_HB_RECEIVE: the twin is there; ownership mismatch is judged (R302, R306); a twin that advertises none has found
itself faulty and gives up its points (R315). -/
def execSpindleHbReceive (m : HbMsg) (s : State) : Answer :=
  if s.twinLink then
    let first := s.twn.lost
    let fresh := s.spn.hbAt.isNone
    let mis := decide (m.custown ≠ s.twn.custown)
    let was := s.twn.custmis
    let s := { s with
      spn := { s.spn with hbAt := some s.tb.elapsed }
      twn := { s.twn with lost := false, twinCust := m.custown, custmis := mis } }
    let s := if mis && !was then s.event 0x1706 0#32 else s
    let s := if first then s.twinArrives fresh m else s
    if decide (m.cpstate = 3#2) && !s.twn.takeover then
      .next (State.custodyTakeover { s with twn := { s.twn with takeover := true } })
    else .next s
  else .next s

/-- SPINDLE_LINK_TRAINED: training has run on both devices; HB may flow (R302). A solo device keeps Spindle down (R328). -/
def execSpindleLinkTrained (s : State) : Answer :=
  if s.fieldRuns && !s.solo then .next { s with spn := { s.spn with link := true, lane0 := true, lane1 := true } } else .next s

/-- SPINDLE_LANE_DOWN: the link runs on the other lane; with both down it is down (R300). -/
def execSpindleLaneDown (lane1 : Bool) (s : State) : Answer :=
  if s.pwr.mainOn && s.spn.link then
    let l0 := s.spn.lane0 && lane1
    let l1 := s.spn.lane1 && !lane1
    .next { s with spn := { s.spn with lane0 := l0, lane1 := l1, link := l0 || l1 } }
  else .next s

/-- Store a piece of streamed state (R183, R327). -/
def State.streamStore (m : StreamMsg) (s : State) : State :=
  match m with
  | .line addr data => (s.ramWrite addr data).2
  | .work accs cus states finals pw => { s with
      bal := { s.bal with accs, cus, states, finals }
      ldg := { s.ldg with pwBits := pw } }

/-- STREAM_RECEIVE: a joining twin stores state (R327). -/
def execStreamReceive (m : StreamMsg) (s : State) : Answer :=
  if s.twinLink && s.twn.joining then .next (s.streamStore m) else .next s

/-- STREAM_END_MARKER: the joining twin may dispatch; TWINUP, event 0x1702 (R302, R327). -/
def execStreamEndMarker (s : State) : Answer :=
  if s.twinLink && s.twn.joining then
    .next (State.event 0x1702 0#32 { s with twn := { s.twn with joining := false, twinup := true, streamAt := none } })
  else .next s

/-- STREAM_TIMEOUT: no marker within 60 s: event 0x1709, and streaming starts again (R327). -/
def execStreamTimeout (s : State) : Answer :=
  match s.twn.streamAt with
  | some t =>
    if s.twinRuns && s.twn.joining && s.past t (60 * sCounts) then
      .next (State.event 0x1709 0#32 { s with twn := { s.twn with streamAt := some s.tb.elapsed } })
    else .next s
  | none => .next s

/-! ## One frame, one key (R303 to R305) -/

/-- SPN_PAIRCFG.PAIRWIN in us. -/
def State.pairwin (s : State) : Nat := s.regF 0x160004 0 8

/-- An own item and a FRAME match (R304). -/
def State.pairs (s : State) (o : OwnItem) (m : FrameMsg) : Bool :=
  let d : Int := (stampT32 (itemStamp o.item) : Int) - stampT32 (itemStamp m.item)
  decide (fld (itemSrc o.item) 0 7 = fld (itemSrc m.item) 0 7) && decide (o.len = m.psdu.length) && decide (o.dig = m.digest)
    && decide (d.natAbs * 1000000 ≤ s.pairwin * 2 ^ 32)

/-- A held entry of a slot takes a new key, in its new place (R96, R304). -/
def State.rekey (q ptr key : Nat) (s : State) : State :=
  match s.ctxOf q with
  | none => s
  | some c =>
    let m := s.merge c
    match m.held.find? (fun h => decide (h.ptr = ptr)) with
    | none => s
    | some h => s.setMerge c { m with held := insHeld { h with key } (m.held.filter (fun x => decide (x.ptr ≠ ptr))) }

/-- At a match the item settles, first taking the FRAME's key where that is lower (R304, R25). -/
def State.pairMatch (o : OwnItem) (m : FrameMsg) (s : State) : State :=
  let s := { s with spn := { s.spn with own := s.spn.own.filter (fun p => !(decide (p.q = o.q) && decide (p.ptr = o.ptr))) } }
  let s :=
    if itemKey m.item < itemKey o.item then
      let a := (s.desc o.q).slotAddr o.ptr
      let x := s.slotItem o.q o.ptr
      let x := setFld (setFld (setFld (setFld x 0 (itemStamp m.item)) 96 (fld m.item 96 32)) 128 (itemSrc m.item)) 160 (itemSeq m.item)
      let x := setFld (setFld x 144 (fld m.item 144 4)) 256 (s.epochAt (stampT32 (itemStamp m.item)))
      (s.ramPut a (bytesOf 64 x)).rekey o.q o.ptr (itemKey x)
    else s
  s.settle o.q o.ptr

/-- Adopt a FRAME: its PSDU in a buffer, its item with the FRAME's key on Q(16 x 8 + p) (R305). -/
def State.adopt (m : FrameMsg) (s : State) : State :=
  match s.poolTake 0x160 s.spn.bufs with
  | (none, s) => s
  | (some k, s) =>
    let addr := s.reg2 0x160010 + 2048 * k
    let s := (s.ramWrite addr m.psdu).2
    let x : Item := setFld (setFld (0#512 : Item) 0 (fld m.item 0 192)) 256 (fld m.item 256 32)
    let x := setFld (setFld x 320 (fld m.item 320 192)) 320 (BitVec.ofNat 64 addr)
    let (ok, s) := s.fifoPush 16 m.prio.val x
    { s with spn := { s.spn with
      adopted := satInc 0xFFFF s.spn.adopted
      bufs := if ok then s.spn.bufs ++ [k] else s.spn.bufs } }

/-- Adopt a FRAME where FIFO 16 has room; else it waits: that FIFO never overflows (Table 3.3). -/
def State.adoptRoom (f : PairFrame) (s : State) : State :=
  if (s.fifo 16).items.length < 32 then s.adopt f.msg else { s with spn := { s.spn with frames := s.spn.frames ++ [f] } }

/-- SPN_FRAME_RECEIVE: matched with an own item, adopted late, or kept until its window ends (R304, R305). While FIFO 16 holds, link credit
is withheld and no FRAME arrives (Table 3.3). -/
def execSpnFrameReceive (m : FrameMsg) (s : State) : Answer :=
  if s.fieldRuns && s.spn.link && !s.solo && !(s.fifo 16).hold then
    match s.spn.own.find? (fun o => !o.settled && s.pairs o m) with
    | some o => .next (s.pairMatch o m)
    | none =>
      match s.spn.own.find? (fun o => o.settled && s.pairs o m) with
      | some o =>
        let s := { s with spn := { s.spn with
          latepair := true
          own := s.spn.own.filter (fun p => !(decide (p.q = o.q) && decide (p.ptr = o.ptr) && p.settled)) } }
        .next ((s.adoptRoom ⟨m, s.tb.elapsed⟩).event 0x1603 0#32)
      | none => .next { s with spn := { s.spn with frames := s.spn.frames ++ [⟨m, s.tb.elapsed⟩] } }
  else .next s

/-- The newest own item against the FRAMEs that wait (R304). -/
def State.pairNewest (s : State) : State :=
  match s.spn.own.getLast? with
  | none => s
  | some o =>
    if o.settled then s
    else match s.spn.frames.find? (fun f => s.pairs o f.msg) with
      | none => s
      | some f => State.pairMatch o f.msg { s with spn := { s.spn with frames := s.spn.frames.filter (fun g => decide (g ≠ f)) } }

/-- PAIRWIN_EXPIRY: own items without a match settle unchanged; FRAMEs without one are adopted (R304, R305). -/
def execPairwinExpiry (s : State) : Answer :=
  if s.fieldRuns then
    let w := s.pairwin * usCounts
    let out := s.spn.own.filter (fun o => !o.settled && s.past o.at_ w)
    let s := out.foldl (fun s o => s.settle o.q o.ptr) s
    let own := (s.spn.own.map (fun o => if s.past o.at_ w then { o with settled := true } else o)).filter
      (fun o => !(o.settled && s.past o.at_ sCounts))
    let (late, wait) := s.spn.frames.partition (fun f => s.past f.at_ w)
    let s := { s with spn := { s.spn with own, frames := wait } }
    .next (late.foldl (fun s f => s.adoptRoom f) s)
  else .next s

/-! ## Mirrored custody blocks (R306) -/

/-- BLOCK_MESSAGE_RECEIVE: the record goes to its mirror slot and its item is published with the owner's key; a busy slot loses
the block (R306). -/
def execBlockMessageReceive (m : BlockMsg) (s : State) : Answer :=
  if s.twinLink then
    match m with
    | .block p bseq rec_ item =>
      let x := s.pt p.val
      let addr := blockSlot (s.reg2 Reg.twnMirbase) p.val bseq
      if bit x.mbusy (bseq.toNat % 8) then .next (s.blockLost p.val)
      else
        let s1 := (s.ramWrite addr rec_).2
        match s1.hwPut 0x56 (setFld item 320 (BitVec.ofNat 64 addr)) with
        | (true, s2) =>
          let x := s2.pt p.val
          .next (s2.setPt p.val { x with mbusy := x.mbusy ||| BitVec.ofNat 8 (2 ^ (bseq.toNat % 8)) })
        | (false, s2) => .next (s2.blockLost p.val)
    | .pulse _ item => .next (s.hwPut 0x5E item).2
  else .next s

/-! ## Leases and roles (R316 to R320) -/

/-- The lease a root twin's witnesses give: the host alone in a single pair, else the second of the witnesses to end (R320). -/
def State.rootLease (s : State) : Option Nat :=
  let alone := decide (s.tre.childAct = 0#32)
  let ends := (s.twn.wits.filter (fun w => (!alone || decide (w.1 = 0x100)) && decide (s.tb.elapsed < w.2))).map (·.2)
  let top := ends.foldl max 0
  let rest := ends.erase top
  if alone then ends.head? else if rest.isEmpty then none else some (rest.foldl max 0)

/-- A lease that stood ends: the twin becomes Tailstock, event 0x1703 (R319). -/
def State.leaseEnd (s : State) : State :=
  State.event 0x1703 0#32 { s with twn := { s.twn with lease := none, cp := if s.twn.cp = 0#2 then 1#2 else s.twn.cp } }

/-- A grant arrives from a grantor: it renews the lease it names this twin for, or ends it at once (R319, R320). Witness 0x100 is
the host. -/
def State.grantIn (wit : Nat) (b : Byte) (s : State) : State :=
  if !bit b 7 then s
  else
    let mine := decide ((fld b 6 1).toNat = s.twinBit)
    let till := s.tb.elapsed + s.leaseCounts
    let had := s.twn.lease.isSome
    let root := decide (s.role = 2)
    let others := s.twn.wits.filter (fun w => decide (w.1 ≠ wit))
    let s := { s with twn := { s.twn with
      hand := if mine then s.twn.hand else none
      wits := if root then (if mine then others ++ [(wit, till)] else others) else s.twn.wits } }
    let lease := if root then s.rootLease else if mine then some till else none
    if lease.isNone && had then s.leaseEnd else { s with twn := { s.twn with lease } }

/-- LEASE_EXPIRY: the lease has run out on the elapsed count, in P3 too (R319, R382). -/
def execLeaseExpiry (s : State) : Answer :=
  match s.twn.lease with
  | some e => if s.pwr.mainOn && decide (e ≤ s.tb.elapsed) then .next s.leaseEnd else .next s
  | none => .next s

/-- The lease is valid now. -/
def State.leaseValid (s : State) : Bool := match s.twn.lease with | some e => decide (s.tb.elapsed < e) | none => false

/-! ## Promotion (R325, R326) -/

/-- Restore a radio neighbour entry of a checkpoint. -/
def State.rfRestore (bs : List Byte) (s : State) : State :=
  let n := takeBytes bs 0 1 - 2
  let k := takeBytes bs 2 2
  let a : BitVec 16 := BitVec.ofNat 16 (takeBytes bs 4 2)
  let p := s.rfAt n
  if (p.nb k).valid && decide ((p.nb k).saddr = a) then s
  else s.setRf n (p.setNb k { valid := true, saddr := a, seq := BitVec.ofNat 8 (takeBytes bs 8 1)
                              seqAt := if takeBytes bs 1 1 = 1 then some (s.tb.elapsed - takeBytes bs 9 3 * sCounts) else none })

/-- Restore the neighbour entries of a checkpoint. -/
def State.restoreNbs : Nat → List Byte → State → State
  | 0, _, s => s
  | fuel + 1, bs, s =>
    if bs.length < 263 then s
    else State.restoreNbs fuel (bs.drop 263) (if takeBytes bs 0 1 < 2 then s.nbRestore bs else s.rfRestore bs)

/-- Restore the last complete checkpoint and apply the state writes journalled after it: DATA is the address, then the bytes
(Table 13.7 step 2). -/
def State.restoreCk (c : Ckpt) (s : State) : State :=
  let len := (s.reg 0x170028).toNat
  let tail := c.body.drop len
  let s := (s.ramWrite (s.reg2 0x170020) (c.body.take len)).2
  let s := State.restoreNbs (tail.length / 263) (tail.take (tail.length - 4)) s
  let s := s.setReg 0x17000C (BitVec.ofNat 32 (natOfBytes (tail.drop (tail.length - 4))))
  (s.twn.journal.filter (fun e => decide (jKind e = 2) && decide (c.jpos.toNat < (jPos e).toNat))).foldl (fun s e =>
    if (mapPort e).isSome then s.mapFrom e
    else (s.ramWrite (fld e 192 64).toNat ((bytesOf 128 e).drop 32 |>.take ((fld e 112 16).toNat - 8))).2) s

/-- The actions of the ring begun and not ended, before the checkpoint or after it (R323, Table 13.7 step 6). -/
def openActions (j : List JEntry) : List Word :=
  (j.filter (fun e => decide (jKind e = 3) && !j.any (fun f => decide (jKind f = 4) && decide (jReq f = jReq e)))).map jReq

/-- PROMOTION: a Tailstock with its state restored and a valid lease becomes Headstock, event 0x1707, and issues the open actions
again; without a complete checkpoint event 0x1708 and none (R325, R326). -/
def execPromotion (s : State) : Answer :=
  if s.twinRuns && decide (s.twn.cp = 1#2) && !s.twn.selfflt && s.twn.hand.isNone && s.leaseValid && !s.twn.joining then
    let promote (s : State) : State := State.event 0x1707 0#32 { s with twn := { s.twn with cp := 0#2 } }
    match s.twn.ck with
    | none => .next ((promote s).event 0x1708 0#32)
    | some c =>
      let s := promote (s.restoreCk c)
      let s := { s with twn := { s.twn with capNum := if s.twn.capNum.toNat < c.num.toNat then c.num else s.twn.capNum } }
      .next { s with out := s.out ++ (openActions s.twn.journal).map Out.reissue }
  else .next s

/-! ## Replay (R312 to R315) -/

/-- The version of the active Heartwood image; 0 for none. -/
def State.hwVersion (s : State) : BitVec 16 := match Tab.get none s.upd.active 0 with | some i => i.version | none => 0#16

/-- The digest of a class-4 item: CRC-32C over CRC-32E of bytes 0-55 with flags [15:4] read as zero (R310). -/
def itemDigest (x : Item) : Word :=
  let bs := bytesOf 56 (setFld x 148 (0#12))
  (crcC bs ++ crcE bs : BitVec 64)

/-! ## Registers (Tables 13.2, 13.3, 13.9, 13.10, R329) -/

/-- Writes of the SPN window. -/
def writeSpn : UnitWrite := fun _ r o v s =>
  if o = 0x160000 then
    (.ok, { s with spn := { s.spn with
      latepair := s.spn.latepair && decide (vf v 28 1 = 0)
      adopted := if vf v 0 1 = 1 then 0 else s.spn.adopted } })
  else if o = 0x160004 then if vf v 0 8 < 5 then refuse .outOfRange s else accept r o v s
  else if o = 0x160018 then (.ok, { s with spn := { s.spn with bufs := s.spn.bufs.filter (fun k => decide (k ≠ v)) } })
  else accept r o v s

/-- Reads of the SPN window; LINK is 1 once HB flows on the trained link (Table 13.2). -/
def readSpn (o : Nat) (s : State) : W32 :=
  let f (x : Bool) (k : Nat) : Nat := if x then 2 ^ k else 0
  if o = 0x160000 then
    BitVec.ofNat 32 (f (s.spn.link && !s.twn.lost) 31 + f s.spn.lane1 30 + f s.spn.lane0 29 + f s.spn.latepair 28 + s.spn.adopted)
  else s.reg o

/-- The control-plane state TWN_CTL gives: none while faulty, solo under SOLO, Tailstock when EN sets, none while it is clear. -/
def State.cpFor (s : State) : BitVec 2 :=
  if s.twn.selfflt then 3#2 else if s.solo then 2#2 else if !s.twnEn then 3#2
  else if s.twn.cp = 0#2 then 0#2 else 1#2

/-- TWN_CMD.HANDOVER on the Headstock: ship a checkpoint and wait for its CKACK; while the twin is lost there is nothing to hand
over to. TWN_CMD.CKPT: capture and ship. Elsewhere DENIED (R316, R320, R321). -/
def State.twnCmd (hand ck : Bool) (s : State) : Status × State :=
  if !hand && !ck then (.ok, s)
  else if !s.twinRuns || decide (s.twn.cp ≠ 0#2) then (.denied, s)
  else
    let s := s.capture
    (.ok, if hand && !s.twn.lost then { s with twn := { s.twn with hand := some s.twn.capNum } } else s)

/-- REVOKE has withdrawn the initiator's transmit lease on Spindle (R125, log entry 41). -/
def State.leaseless (s : State) (i : Init) : Bool := match i.agent with | some a => decide (a ∈ s.spn.revoked) | none => false

/-- Writes of the TWN window (R306, R316, R320, R321, R323, R328, R329). -/
def writeTwn : UnitWrite := fun i r o v s =>
  if o = 0x170000 then
    if vf v 23 6 < 10 ∨ vf v 13 10 < 100 ∨ 1000 < vf v 13 10 ∨ vf v 0 13 < 10 ∨ 8000 < vf v 0 13 then refuse .outOfRange s
    else if s.twnEn ∧ decide (vf v 30 1 = 1) ≠ s.solo then refuse .retry s
    else
      let s := s.store r o v
      (.ok, { s with twn := { s.twn with cp := s.cpFor } })
  else if o = 0x17000C then if s.cfg.prep then refuse .retry s else accept r o v s
  else if o = 0x170010 then
    let (st, s) := accept r o v s
    (st, { s with twn := { s.twn with mirGiven := true } })
  else if (o = 0x170008 ∨ o = 0x170030) ∧ s.leaseless i then refuse .denied s
  else if o = 0x170008 then s.twnCmd (decide (vf v 0 1 = 1)) (decide (vf v 1 1 = 1))
  else if o = 0x170018 then
    let (p, m) := doneBits v
    let x := s.pt p
    (.ok, s.setPt p { x with mbusy := x.mbusy &&& ~~~m })
  else if o = 0x170028 then if 64 * 2 ^ 20 < v then refuse .outOfRange s else accept r o v s
  else if o = 0x170030 then
    if s.solo then (.ok, s) else if s.twn.cp ≠ 0#2 then refuse .denied s else (.ok, s.journalAt v)
  else if o = 0x170040 then
    if i = .host ∨ i = .spi ∨ i = .i2c then (.ok, if s.role = 2 ∧ s.twnEn then s.grantIn 0x100 (BitVec.ofNat 8 v) else s)
    else refuse .denied s
  else accept r o v s

/-- Reads of the TWN window (Table 13.10). -/
def readTwn (o : Nat) (s : State) : W32 :=
  let f (x : Bool) (k : Nat) : Nat := if x then 2 ^ k else 0
  if o = 0x170004 then
    BitVec.ofNat 32 (f s.twn.twinup 31 + f s.leaseValid 30 + s.twn.cp.toNat * 2 ^ 28 + f s.twn.joining 27 + f s.twn.selfflt 26
      + f s.twn.custmis 25 + f s.twn.ck.isSome 24 + (match s.twn.ck with | some c => c.num.toNat % 65536 | none => 0))
  else s.reg o

end Sys2Proof.Machine
end

