-- ==== Sys2Proof/Machine/Tree.lean ====
section
/-! DEFINITION. The tree unit (12_hierarchy.md): roles, the device's place in the tree, heartbeats, loss of manager and children,
quarantine reasons, and the leases a device grants (R318). -/

namespace Sys2Proof.Machine
open Sys2Proof

/-! ## Place in the tree (Table 12.1) -/

/-- TRE_CTL.EN. -/
def State.treEn (s : State) : Bool := bit (s.reg Reg.treCtl) 31
/-- The tree runs: enabled, in P0 to P2. -/
def State.treRuns (s : State) : Bool := s.fieldRuns && s.treEn
/-- The manager pair; none for the root. -/
def State.managerPair (s : State) : Option Nat :=
  if s.role = 2 then none else if s.role = 1 then some 0 else some (s.pair / 16)
/-- The pair of child index `c`, where the role has such a child. -/
def State.childPair (s : State) (c : Nat) : Option Nat :=
  if s.role = 2 then (if 1 ≤ c ∧ c ≤ 15 then some c else none)
  else if s.role = 1 then (if c ≤ 15 then some (16 * s.pair + c) else none)
  else none
/-- The child index of a pair. -/
def State.childIdx (s : State) (p : Nat) : Option Nat := (List.range 16).find? (fun c => decide (s.childPair c = some p))
/-- The child index is one TRE_CHILD in force names (R286). -/
def State.childOn (s : State) (c : Nat) : Bool := (s.childPair c).isSome && bit s.tre.childAct c

/-- What a device number is to this one. -/
inductive Rel where
  | manager (t : Nat)
  | child (c t : Nat)
  | foreign_
deriving DecidableEq, Repr

/-- The relation of a device (pair, twin bit) to this one (R282). -/
def State.relOf (s : State) (p t : Nat) : Rel :=
  if s.managerPair = some p then .manager t
  else match s.childIdx p with
    | some c => if s.childOn c then .child c t else .foreign_
    | none => .foreign_

/-- Key of a peer: children by 2 x index + twin, the manager's twins at 32 and 33. -/
def Rel.key : Rel → Nat
  | .manager t => 32 + t
  | .child c t => 2 * c + t
  | .foreign_ => 64

def State.peer (s : State) (k : Nat) : Peer := Tab.get {} s.tre.peers k
def State.setPeer (s : State) (k : Nat) (p : Peer) : State := { s with tre := { s.tre with peers := Tab.set {} s.tre.peers k p } }

/-- HBPER in counts. -/
def State.hbPeriod (s : State) : Nat := s.tre.hbPer * msCounts
/-- HBMISS x HBPER in counts (R287). -/
def State.hbWindow (s : State) : Nat := s.tre.hbMiss * s.hbPeriod
/-- A heartbeat of the peer arrived within HBMISS x HBPER. -/
def State.hears (s : State) (k : Nat) : Bool :=
  match (s.peer k).seen with | some t => !s.past t s.hbWindow | none => false
/-- Nothing has been heard of the peer for HBMISS x HBPER. -/
def State.silent (s : State) (k : Nat) : Bool := s.past ((s.peer k).seen.getD 0) s.hbWindow

/-- An Ethernet port is enabled and its link is up. -/
def State.ethAt (s : State) (n : Nat) : Eth := Tab.get {} s.eth n
def State.setEth (s : State) (n : Nat) (x : Eth) : State := { s with eth := Tab.set {} s.eth n x }
def State.ethUp (s : State) (n : Nat) : Bool := s.fieldRuns && bit (s.reg (0x150000 + 0x40 * n)) 31 && (s.ethAt n).link

/-- The up-facing port in service: port 2 while its link is up, else port 3. -/
def State.upPort (s : State) : Option Nat := if s.ethUp 2 then some 2 else if s.ethUp 3 then some 3 else none

/-! ## Addresses (R282) -/

/-- TRE_MACBASE. -/
def State.macBase (s : State) : Nat := s.reg2 0x180010 % 2 ^ 48
/-- The address of a device. -/
def State.deviceMac (s : State) (dev : Nat) : Nat := s.macBase / 512 * 512 + dev % 512
/-- The group address of a pair: bit 40 set, bits [8:0] twice the pair number. -/
def State.groupMac (s : State) (p : Nat) : Nat := s.macBase / 512 * 512 + 2 ^ 40 + 2 * p

/-! ## Leases granted (R317, R318) -/

/-- A LEASE byte. -/
def leaseByte (t : Nat) (serial : BitVec 6) : Byte := BitVec.ofNat 8 (0x80 + 64 * t + serial.toNat)

/-- The grant the grantor of record `g` (peers `k` and `k + 1`) sends now; the first grant goes to the lower twin bit (R9, R318). -/
def State.grantOut (g k : Nat) (s : State) : Byte × State :=
  let r : Grant := Tab.get {} s.tre.grants g
  let put (r : Grant) (s : State) : State := { s with tre := { s.tre with grants := Tab.set {} s.tre.grants g r } }
  let adv (t : Nat) : Nat := (s.peer (k + t)).cpstate
  let live (t : Nat) : Bool := s.hears (k + t) && decide (adv t < 2)
  let solo := (List.range 2).any (fun t => s.hears (k + t) && decide (adv t = 2))
  let free := match r.lastAt with | some a => s.past a (s.leaseCounts + s.regF Reg.twnCtl 23 6 * msCounts) | none => true
  let give (t : Nat) (new : Bool) (s : State) : Byte × State :=
    let serial := if new && r.holder.isSome then r.serial + 1#6 else r.serial
    let s := put { holder := some (decide (t = 1)), serial, lastAt := some s.tb.elapsed } s
    let s := if new then s.setPeer (k + t) { s.peer (k + t) with headAt := none } else s
    (leaseByte t serial, s)
  if solo then (0#8, s)
  else match r.holder with
    | some hb =>
      let h := if hb then 1 else 0
      let o := 1 - h
      let held := match r.lastAt with | some a => !s.past a s.leaseCounts | none => false
      let gaveUp := live h && decide (adv h = 1) && (s.peer (k + h)).headAt.isSome && held
      if gaveUp && live o then (if s.tre.quar then (0#8, s) else give o true s)
      else if live h then give h false s
      else if free && live o then (if s.tre.quar then (0#8, s) else give o true s)
      else (0#8, s)
    | none =>
      if !free || s.tre.quar then (0#8, s)
      else if live 0 then give 0 true s
      else if live 1 then give 1 true s
      else (0#8, s)

/-! ## Sending heartbeats (R286) -/

/-- The four bytes of seconds and four of fraction of a stamp (Table 12.2). -/
def stamp64 (x : Stamp) : Word := BitVec.ofNat 64 ((fld x 0 32).toNat + (fld x 64 32).toNat * 2 ^ 32)

/-- The peer of a group whose HBTIME arrived last, within 4 x HBPER. -/
def State.lastPeer (s : State) (k : Nat) : Option Peer :=
  let fresh (p : Peer) : Bool := match p.seen with | some t => !s.past t (4 * s.hbPeriod) | none => false
  let a := s.peer k
  let b := s.peer (k + 1)
  if fresh a && (!fresh b || decide (b.seen.getD 0 ≤ a.seen.getD 0)) then some a else if fresh b then some b else none

/-- HBTIME for a group of peers from key `k`, whose egress stamp point lies `sub`/32 of an edge past the last one (R268, Table 12.2). -/
def State.hbTimeItem (s : State) (k sub : Nat) : Item :=
  let x : Item := setFld (setFld (0#512 : Item) 0 (s.stampSub sub 32)) 128 (s.sourceId 0)
  let x := setFld (setFld x 256 s.cfg.cur) 288 (BitVec.ofNat 32 (0x7F0 * 2 ^ 21 + s.pair * 2 ^ 13))
  match s.lastPeer k with
  | some p => setFld (setFld x 320 (stamp64 (itemStamp p.hbtime))) 384 (stamp64 p.arr)
  | none => x

/-- The version of an image; 0 for none. -/
def imgVersion (t : Tab (Option Img)) (k : Nat) : BitVec 16 := match Tab.get none t k with | some i => i.version | none => 0#16

/-- TFLAGS (Table 12.2). -/
def State.tflags (s : State) : Nat :=
  (if s.sel then 1 else 0) + (if s.tb.split then 2 else 0)
    + (if s.cls false < s.qmin ∧ s.cls true < s.qmin then 4 else 0) + (if s.tb.clkLost then 8 else 0)

/-- HBSTATE with its QCMD bytes (Table 12.2). -/
def State.hbStateItem (s : State) (reasons lease : Byte) : Item :=
  let x : Item := setFld (setFld (0#512 : Item) 0 s.stampNow) 128 (s.sourceId 0)
  let x := setFld (setFld x 256 s.cfg.cur) 288 (BitVec.ofNat 32 (0x7F1 * 2 ^ 21 + s.pair * 2 ^ 13))
  let x := setFld (setFld x 320 s.cfg.cdigest) 384 s.upd.fwver
  let x := setFld (setFld x 400 (imgVersion s.upd.active 0)) 416 (imgVersion s.upd.staged 0)
  let x := setFld (setFld x 432 (imgVersion s.upd.active 1)) 448 (imgVersion s.upd.staged 1)
  let x := setFld (setFld x 464 (BitVec.ofNat 8 (16 * s.cls true + s.cls false))) 472 (BitVec.ofNat 8 s.tflags)
  let x := setFld (setFld x 480 (BitVec.ofNat 8 (s.twn.cp.toNat + if s.tre.quar then 4 else 0))) 488 (BitVec.ofNat 8 s.role)
  setFld (setFld x 496 reasons) 504 lease

/-- Send a heartbeat frame: TRE_ETYPE, from the device address to the group address of a pair; where within an edge it leaves is free
(R268, R282; log entry 48). It leaves where a port that faces its pair is up. -/
def State.hbSend (up : Bool) (idx pair k : Nat) (st : State → Item) (s : State) : State :=
  if up && s.upPort.isNone || !up && !s.ethUp 0 && !s.ethUp 1 then s
  else
    let (sub, s) := s.draw 5
    { s with out := s.out ++ [.heartbeat up idx (BitVec.ofNat 48 (s.groupMac pair)) (BitVec.ofNat 48 (s.deviceMac s.device))
        (fld (s.reg 0x180008) 0 16) (s.hbTimeItem k sub.toNat) (st s)] }

/-- Send a heartbeat up, with the grant of a zone manager to the root (R286, R317). -/
def State.hbUp (s : State) : State :=
  match s.managerPair with
  | none => s
  | some p =>
    let (l, s) := if s.role = 1 then s.grantOut 16 32 else (0#8, s)
    s.hbSend true 0 p 32 (fun s => s.hbStateItem 0#8 l)

/-- Send a heartbeat down to a child pair, with its reasons and its grant. -/
def State.hbDown (c : Nat) (s : State) : State :=
  let (l, s) := s.grantOut c (2 * c)
  let q := (s.peer (2 * c + 1)).reasons ++ (s.peer (2 * c)).reasons
  s.hbSend false c ((s.childPair c).getD 0) (2 * c) (fun s => s.hbStateItem q l)

/-- HEARTBEAT_SEND: every HBPER, up and down (R286, R299). -/
def execHeartbeatSend (s : State) : Answer :=
  let due := match s.tre.hbAt with | some t => s.past t s.hbPeriod | none => true
  if s.treRuns && due then
    let s := { s with tre := { s.tre with
      hbAt := some s.tb.elapsed, hbPer := s.regF 0x180018 22 10, hbMiss := s.regF 0x180018 18 4 } }
    .next (((List.range 16).filter s.childOn).foldl (fun s c => s.hbDown c) s.hbUp)
  else .next s

/-! ## The manager's judgement (R288 to R290, R293) -/

/-- A difference of two 64-bit times, seconds modulo 2^32, in units of 2^-32 s. -/
def time64 (v : Word) : Int := (fld v 0 32).toNat * 2 ^ 32 + (fld v 32 32).toNat
def diff64 (a b : Word) : Int := (BitVec.ofInt 64 (time64 a - time64 b)).toInt

/-- The offset sample of a child's HBTIME that arrived at `arr`, in ns; none without one (R288). -/
def State.thetaSample (arr : Stamp) (hbtime hbstate : Item) (s : State) : Option Int × State :=
  let t1 : Word := fld hbtime 320 64
  let fl := (fld hbstate 472 8).toNat ||| s.tflags
  if t1 = 0#64 ∨ fl &&& 12 ≠ 0 then (none, s)
  else
    let x := diff64 (fld hbtime 384 64) t1 - diff64 (stamp64 arr) (stamp64 (itemStamp hbtime))
    let (v, s) := s.openRound (x * 1000000000) (2 ^ 33)
    (some (clampInt (-2147483647) 2147483647 v), s)

/-- An expectation entry's word in force. -/
def State.xWord (s : State) (c k : Nat) : W32 := Tab.get 0#32 s.tre.xAct (5 * c + k)
def State.xValid (s : State) (c : Nat) : Bool := bit (s.xWord c 0) 31

/-- CONFIG: CDIGEST or EPOCH differs from the entry. -/
def State.configBad (s : State) (c : Nat) (st : Item) : Bool :=
  decide (fld st 320 64 ≠ (s.xWord c 2 ++ s.xWord c 1 : BitVec 64)) || decide (fld st 256 32 ≠ s.xWord c 3)

/-- Active majors of a kind among a group's members (R293). -/
def State.majors (s : State) (g : W32) (f : Peer → BitVec 16) (own : BitVec 16) : List Nat :=
  let ms := (List.range 16).flatMap (fun c => if bit g c then [f (s.peer (2 * c)), f (s.peer (2 * c + 1))] else [])
  ((if bit g 16 then own :: ms else ms).map (fun v => v.toNat / 256)).filter (fun m => decide (m ≠ 0))

/-- A child's major is above the lowest of one of its groups (R293). -/
def State.aboveGroup (s : State) (c : Nat) (hw sw : BitVec 16) : Bool :=
  s.tre.grpAct.any (fun g => bit g.2 c &&
    ((s.majors g.2 Peer.hwact s.hwVersion).any (fun m => decide (m < hw.toNat / 256))
      || (s.majors g.2 Peer.swact (imgVersion s.upd.active 1)).any (fun m => decide (m < sw.toNat / 256))))

/-- VERSION: FWVER, HWACT or SWACT differs from the entry, or R293. -/
def State.versionBad (s : State) (c : Nat) (st : Item) : Bool :=
  decide (fld st 384 16 ≠ fld (s.xWord c 0) 0 16) || decide (fld st 400 16 ≠ fld (s.xWord c 4) 16 16)
    || decide (fld st 432 16 ≠ fld (s.xWord c 4) 0 16) || s.aboveGroup c (fld st 400 16) (fld st 432 16)

/-- STATE: both twins advertise Headstock within one HBPER; a twin advertises it against the lease record; the twins differ in
ROLE (R290). PAIR cannot differ: the pair is what the peer is known by. -/
def State.stateBad (s : State) (c t : Nat) (cp : Nat) (role : BitVec 2) : Bool :=
  let o := s.peer (2 * c + 1 - t)
  let both := decide (cp = 0) && (match o.headAt with | some a => !s.past a s.hbPeriod | none => false)
  let against := decide (cp = 0) && (match (Tab.get {} s.tre.grants c : Grant).holder with | some h => decide (h ≠ decide (t = 1)) | none => false)
  both || against || (s.hears (2 * c + 1 - t) && decide (o.role ≠ role))

/-- A reason bit and its clearing count after one judgement: set at once where `bad`, cleared after QCLR in agreement. -/
def judge (qclr : Nat) (on bad : Bool) (n : Nat) : Bool × Nat :=
  if bad then (true, 0) else let n := min (n + 1) 255
    (on && decide (n < qclr), n)

/-- The reasons of a child device at its heartbeat (R290); a quarantined manager gives no new ones (R292). -/
def State.judgeChild (c t : Nat) (theta : Option Int) (st : Item) (s : State) : State :=
  let k := 2 * c + t
  let p := s.peer k
  let qclr := s.regF 0x180018 10 8
  let lim := (s.reg 0x18001C).toNat * 1000
  let cb := s.xValid c && s.configBad c st
  let since := if cb then some (p.cfgBad.getD s.tb.elapsed) else none
  let late := match since with | some a => s.past a (s.regF 0x180018 0 10 * sCounts) | none => false
  let valid := s.xValid c
  let (r0, n0) := if cb then (bit p.reasons 0 || late, 0)
    else if valid then judge qclr (bit p.reasons 0) false p.clear0 else (bit p.reasons 0, p.clear0)
  let (r1, n1) := if valid then judge qclr (bit p.reasons 1) (s.versionBad c st) p.clear1 else (bit p.reasons 1, p.clear1)
  let (r2, n2, above) : Bool × Nat × Nat := match theta with
    | none => (bit p.reasons 2, p.clear2, p.above)
    | some x =>
      let above := if lim < x.natAbs then min (p.above + 1) 3 else 0
      if above = 3 then (true, 0, above)
      else if 2 * x.natAbs ≤ lim then
        let n := min (p.clear2 + 1) 255
        (bit p.reasons 2 && decide (n < qclr), n, above)
      else (bit p.reasons 2, 0, above)
  let (r3, n3) := judge qclr (bit p.reasons 3) (s.stateBad c t (fld st 480 2).toNat (fld st 488 2)) p.clear3
  let new : BitVec 4 := ofBool 4 r0 ||| (ofBool 4 r1 <<< 1) ||| (ofBool 4 r2 <<< 2) ||| (ofBool 4 r3 <<< 3)
  s.setPeer k { p with
    cfgBad := since, clear0 := n0, clear1 := n1, clear2 := n2, clear3 := n3, above
    reasons := if s.tre.quar then p.reasons else new }

/-! ## Receiving heartbeats (R286, R287, R291) -/

/-- An obeyed QCMD: entering, leaving or changing quarantine (R291). A device that takes the role root leaves it so too: a root is never
quarantined (R290; DESIGN CHOICE, log entry 32). -/
def State.obey (r : BitVec 4) (s : State) : State :=
  let was := s.tre.quar
  let s := { s with tre := { s.tre with quar := decide (r ≠ 0#4), reasons := r } }
  if r ≠ 0#4 ∧ !was then s.event 0x1804 (BitVec.setWidth 32 r)
  else if r = 0#4 ∧ was then s.event 0x1805 0#32
  else s

/-- The peer record after a heartbeat. -/
def State.peerHeard (p : Peer) (arr : Stamp) (hbtime hbstate : Item) (s : State) : Peer :=
  let cp := (fld hbstate 480 2).toNat
  { p with
    seen := some s.tb.elapsed, hbtime, arr, cpstate := cp, lost := false
    headAt := if cp = 0 then some s.tb.elapsed else p.headAt
    hwact := fld hbstate 400 16, hwstg := fld hbstate 416 16, swact := fld hbstate 432 16, swstg := fld hbstate 448 16
    role := fld hbstate 488 2 }

/-- Absorb a heartbeat of a manager twin: MGRLOST ends; from a Headstock or solo twin its QCMD is obeyed and its grant taken
(R287, R291, R319). -/
def State.fromManager (t : Nat) (arr : Stamp) (hbtime hbstate : Item) (s : State) : State :=
  let k := 32 + t
  let s := s.setPeer k (s.peerHeard (s.peer k) arr hbtime hbstate)
  let s := if s.tre.mgrlost then State.event 0x1802 0#32 { s with tre := { s.tre with mgrlost := false } } else s
  let cp := (fld hbstate 480 2).toNat
  if cp = 0 ∨ cp = 2 then
    let q : Byte := fld hbstate 496 8
    let s := s.obey (if s.twinBit = 1 then fld q 4 4 else fld q 0 4)
    if s.twnEn && !s.solo then s.grantIn 0 (fld hbstate 504 8) else s
  else s

/-- Absorb a heartbeat of a child device: the offset sample, the reasons, and a zone manager's grant to a root (R288, R290,
R319, R320). -/
def State.fromChild (c t : Nat) (arr : Stamp) (hbtime hbstate : Item) (s : State) : State :=
  let k := 2 * c + t
  let (th, s) := s.thetaSample arr hbtime hbstate
  let p := s.peerHeard (s.peer k) arr hbtime hbstate
  let s := (s.setPeer k { p with theta := th.getD p.theta }).judgeChild c t th hbstate
  let cp := (fld hbstate 480 2).toNat
  if s.role = 2 ∧ (cp = 0 ∨ cp = 2) ∧ s.twnEn ∧ ¬s.solo then s.grantIn c (fld hbstate 504 8) else s

/-- A heartbeat reaches TRE, its stamp point `sub`/32 of an edge past the last one (R268, R282, R286). -/
def State.hbIn (sub : Nat) (hbtime hbstate : Item) (s : State) : State :=
  let arr := s.stampSub sub 32
  let src := (itemSrc hbtime).toNat
  match s.relOf (src / 256) (src / 128 % 2) with
  | .manager t => s.fromManager t arr hbtime hbstate
  | .child c t => s.fromChild c t arr hbtime hbstate
  | .foreign_ => { s with tre := { s.tre with foreign_ := satInc 0xFFFF s.tre.foreign_ } }

/-- HEARTBEAT_RECEIVE. -/
def execHeartbeatReceive (h : HbRx) (s : State) : Answer :=
  if s.treRuns && s.ethUp h.port.val then .next (s.hbIn h.sub.val h.hbtime h.hbstate) else .next s

/-- MANAGER_LOSS: neither manager twin heard for HBMISS x HBPER: MGRLOST, the epoch of agent 0x085, event 0x1801 (R287). -/
def execManagerLoss (s : State) : Answer :=
  if s.treRuns && s.managerPair.isSome && !s.tre.mgrlost && s.silent 32 && s.silent 33 then
    .next ((State.raiseEpoch agTree { s with tre := { s.tre with mgrlost := true } }).event 0x1801 0#32)
  else .next s

/-- CHILD_LOSS: neither twin of a child heard for HBMISS x HBPER: LOST, event 0x1803 (R287). -/
def execChildLoss (idx : Fin 16) (s : State) : Answer :=
  let c := idx.val
  match s.childPair c with
  | none => .next s
  | some p =>
    if s.treRuns && s.childOn c && s.silent (2 * c) && s.silent (2 * c + 1) && !((s.peer (2 * c)).lost && (s.peer (2 * c + 1)).lost) then
      let s := s.setPeer (2 * c) { s.peer (2 * c) with lost := true }
      let s := s.setPeer (2 * c + 1) { s.peer (2 * c + 1) with lost := true }
      .next (s.event 0x1803 (BitVec.ofNat 32 p))
    else .next s

/-- CONFIG_GRACE_EXPIRY: a CONFIG disagreement has lasted QGRACE (R290, R292). -/
def execConfigGraceExpiry (idx : Fin 16) (twinB : Bool) (s : State) : Answer :=
  let k := 2 * idx.val + (if twinB then 1 else 0)
  let p := s.peer k
  match p.cfgBad with
  | some a =>
    if s.treRuns && s.xValid idx.val && !s.tre.quar && s.past a (s.regF 0x180018 0 10 * sCounts) then
      .next (s.setPeer k { p with reasons := p.reasons ||| 1#4, clear0 := 0 })
    else .next s
  | none => .next s

/-! ## Registers (R280, R282, R289, R299, Table 12.12) -/

/-- The role a variant permits (R1, R6). -/
def roleAllowed (v : Variant) (role : Nat) : Bool := match v with | .w => decide (role = 0) | _ => true
/-- The pair numbers of a role (Table 12.1). -/
def pairOk (role pair : Nat) : Bool :=
  match role with
  | 0 => decide (16 ≤ pair)
  | 1 => decide (1 ≤ pair) && decide (pair ≤ 15)
  | 2 => decide (pair = 0)
  | _ => false

/-- A load of a TRE shadow: refused while PREPARE stands (R296). -/
def State.treShadow (s : State) (f : State → State) : Status × State :=
  if s.cfg.prep then (.retry, s) else (.ok, f { s with tre := { s.tre with xTouched := true } })

/-- At the rise of TRE_CTL.EN the derived measure is chosen by role, and counters 176 to 191 are cleared (R422). -/
def State.pmcChoose (s : State) : State :=
  { s with pmc := { s.pmc with
    bw := decide (s.role ≠ 0) && !s.solo
    bwAt := s.tb.elapsed
    cnt := s.pmc.cnt.filter (fun p => decide (p.1 < 176)) } }

/-- Writes of the TRE window. -/
def writeTre : UnitWrite := fun _ r o v s =>
  if o = 0x180000 then
    if vf v 24 5 < 1 ∨ 23 < vf v 24 5 then refuse .outOfRange s
    else accept r o v (if vf v 31 1 = 1 ∧ ¬ s.treEn then s.pmcChoose else s)
  else if o = 0x180004 then
    if s.treEn then refuse .retry s
    else if !roleAllowed s.sys.variant (vf v 8 2) then refuse .denied s
    else if !pairOk (vf v 8 2) (vf v 0 8) then refuse .outOfRange s
    else accept r o v (if vf v 8 2 = 2 then s.obey 0#4 else s)
  else if o = 0x180010 then if vf v 40 1 = 1 then refuse .outOfRange s else accept r o (v % 2 ^ 48) s
  else if o = 0x180018 then
    if vf v 22 10 < 1 ∨ 1000 < vf v 22 10 ∨ vf v 18 4 < 2 ∨ vf v 10 8 < 1 ∨ vf v 0 10 < 1 then refuse .outOfRange s else accept r o v s
  else if o = 0x18001C then if v < 100 ∨ 1000000 < v then refuse .outOfRange s else accept r o v s
  else if o = 0x180020 ∨ (0x180040 ≤ o ∧ o < 0x180080) then s.treShadow (fun s => s.store r o v)
  else if o = 0x180024 then (.ok, if vf v 0 1 = 1 then { s with tre := { s.tre with foreign_ := 0 } } else s)
  else if 0x18002C ≤ o ∧ o < 0x180040 then
    let c := s.regF 0x180028 0 4
    if !bit (s.reg 0x180020) c then refuse .outOfRange s
    else s.treShadow (fun s => { s with tre := { s.tre with
      xSh := Tab.set 0#32 s.tre.xSh (5 * c + (o - 0x18002C) / 4) (BitVec.ofNat 32 v &&& r.mask) } })
  else accept r o v s

/-- Reads of the TRE window. -/
def readTre (o : Nat) (s : State) : W32 :=
  let f (x : Bool) (k : Nat) : Nat := if x then 2 ^ k else 0
  let p := s.peer (s.regF 0x180080 0 6)
  if o = 0x180024 then
    BitVec.ofNat 32 (f s.tre.quar 31 + f s.tre.mgrlost 30 + s.tre.reasons.toNat * 2 ^ 26 + s.tre.foreign_)
  else if 0x18002C ≤ o ∧ o < 0x180040 then s.xWord (s.regF 0x180028 0 4) ((o - 0x18002C) / 4)
  else if o = 0x180084 then BitVec.ofInt 32 p.theta
  else if o = 0x180088 then BitVec.ofNat 32 (f p.lost 0)
  else if o = 0x18008C then BitVec.setWidth 32 p.reasons
  else s.reg o

end Sys2Proof.Machine
end

