-- ==== Sys2Proof/Machine/Eth.lean ====
section
/-! DEFINITION. The Ethernet ports (12_hierarchy.md, R281 to R285; PTP stamping, R278 and R279): tree frames and raw frames, both
ways, the up-facing port in service, and PAUSE. -/

namespace Sys2Proof.Machine
open Sys2Proof

def ethReg (n o : Nat) : Nat := 0x150000 + 0x40 * n + o
/-- ETHn_PCFG.EN in P0 to P2. -/
def State.ethOn (s : State) (n : Nat) : Bool := s.fieldRuns && bit (s.reg (ethReg n 0)) 31

/-- A big-endian number of `n` octets at `i`. -/
def beAt (bs : List Byte) (i n : Nat) : Nat := natOfBytes ((bs.drop i).take n).reverse
/-- `n` octets of a number, highest first. -/
def beBytes (n v : Nat) : List Byte := (bytesOfNat n v).reverse

/-! ## IEEE 1588 messages (R278, R279) -/

/-- Where the ethertype of a frame lies: after one IEEE 802.1Q tag where the frame carries one. -/
def etypeAt (bs : List Byte) : Nat := if beAt bs 12 2 = 0x8100 then 16 else 12

/-- A PTP message in a frame: its offset, the offset of an IPv4 UDP checksum, whether it is over IPv6. -/
structure Ptp where
  at_  : Nat
  csum : Option Nat
  v6   : Bool
deriving DecidableEq, Repr

/-- The PTP message of a frame: ethertype 0x88F7, or UDP on port 319 or 320 over IPv4 or IPv6 (R278). -/
def ptpOf (bs : List Byte) : Option Ptp :=
  let e := etypeAt bs
  let ty := beAt bs e 2
  let udpOk (u : Nat) : Bool := decide (beAt bs (u + 2) 2 = 319) || decide (beAt bs (u + 2) 2 = 320)
  if ty = 0x88F7 then some ⟨e + 2, none, false⟩
  else if ty = 0x0800 ∧ beAt bs (e + 11) 1 = 17 then
    let u := e + 2 + 4 * (beAt bs (e + 2) 1 % 16)
    if udpOk u then some ⟨u + 8, some (u + 6), false⟩ else none
  else if ty = 0x86DD ∧ beAt bs (e + 8) 1 = 17 then
    if udpOk (e + 42) then some ⟨e + 50, none, true⟩ else none
  else none

/-- An event message: Sync, Delay_Req, Pdelay_Req, Pdelay_Resp. -/
def ptpEvent (bs : List Byte) : Bool := match ptpOf bs with | some p => decide (beAt bs p.at_ 1 % 16 < 4) | none => false

/-- A domain's stamp `n/32` of an edge past the last edge. -/
def State.domStamp (s : State) (b : Bool) (n : Nat) : Stamp := if s.tb.clkLost then 0#96 else stampOf (s.domT32 b n 32)

/-- The 32-byte record that follows an event message in its buffer (R278). -/
def State.ptpRecord (s : State) (sub : Nat) : List Byte :=
  bytesOf 12 (s.domStamp false sub) ++ bytesOf 12 (s.domStamp true sub) ++ List.replicate 8 0#8

/-- The elapsed part `sub`/32 of the edge period as the stamping domain counts it, in units of 2^-16 ns as correctionField holds it (R268,
R279). -/
def State.subNs16 (s : State) (sub : Nat) : Nat := (s.dom s.sel).incr * sub / 32 * 1000000000 * 2 ^ 16 / 2 ^ 64

/-- One-step Sync: originTimestamp from the stamping domain, the sub-edge part in correctionField, the IPv4 UDP checksum cleared
(R279). -/
def State.oneStep (s : State) (bs : List Byte) (sub : Nat) : List Byte :=
  match ptpOf bs with
  | none => bs
  | some p =>
    if beAt bs p.at_ 1 % 16 ≠ 0 then bs
    else
      let t := s.stampSub 0 1
      let ns := (fld t 64 32).toNat * 1000000000 / 2 ^ 32
      let bs := putBytes bs (p.at_ + 34) (beBytes 6 (fld t 0 48).toNat ++ beBytes 4 ns)
      let bs := putBytes bs (p.at_ + 8) (beBytes 8 (beAt bs (p.at_ + 8) 8 + s.subNs16 sub))
      match p.csum with | some c => putBytes bs c [0#8, 0#8] | none => bs

/-! ## Receiving (R282, R285) -/

/-- Deliver octets as an ingress item of the port: a buffer of the pool, the item of R285 on FIFO 12 + n. -/
def State.ethDeliver (n dev k len sub : Nat) (buf : List Byte) (s : State) : State :=
  match s.poolTake (0x150 + n) (s.ethAt n).bufs with
  | (none, s) => s
  | (some b, s) =>
    let addr := s.reg2 (ethReg n 0x10) + 2048 * b
    let s := (s.ramWrite addr buf).2
    let x : Item := setFld (setFld (setFld (setFld (0#512 : Item) 320 (BitVec.ofNat 64 addr)) 384 (BitVec.ofNat 16 len))
      400 (BitVec.ofNat 16 dev)) 416 (BitVec.ofNat 8 k)
    let (ok, s) := s.ingress (12 + n) (s.regF Reg.treCtl 8 3) (s.momentSub sub 32) x
    if ok then s.setEth n { s.ethAt n with bufs := (s.ethAt n).bufs ++ [b] } else s

/-- The kind in an item's point word. -/
def itemKind (x : Item) : Nat := (itemPoint x).toNat / 2 ^ 21

/-- A tree frame: from the manager pair or a child pair, to this device or its pair; heartbeats go to TRE, data items to a
queue, others are counted in FOREIGN (R282, R285, R286). -/
def State.treeIn (n : Nat) (f : EthRx) (s : State) : State :=
  let e := etypeAt f.octets
  let body := f.octets.drop (e + 2)
  let dst := beAt f.octets 0 6
  let src := beAt f.octets 6 6
  let dev := src % 512
  let k := body.length / 64
  let mine := decide (dst = s.deviceMac s.device) || decide (dst = s.groupMac s.pair)
  let known := decide (src = s.deviceMac dev) && decide (s.relOf (dev / 2) (dev % 2) ≠ .foreign_)
  if !(mine && known && decide (1 ≤ k) && decide (k ≤ 23) && decide (body.length % 64 = 0)) then
    { s with tre := { s.tre with foreign_ := satInc 0xFFFF s.tre.foreign_ } }
  else
    let a : Item := BitVec.ofNat 512 (takeBytes body 0 64)
    let b : Item := BitVec.ofNat 512 (takeBytes body 64 64)
    if k = 2 ∧ itemKind a = 0x7F0 ∧ itemKind b = 0x7F1 then s.hbIn f.sub.val a b
    else s.ethDeliver n dev k (64 * k) f.sub.val body

/-- ETH_FRAME_RECEIVE: the tree or the raw path (R278, R282, R285). -/
def execEthFrameReceive (n : Fin 4) (f : EthRx) (s : State) : Answer :=
  if s.ethUp n.val && f.fcsOk then
    if beAt f.octets (etypeAt f.octets) 2 = s.regF 0x180008 0 16 then
      .next (if s.treEn then s.treeIn n.val f else s)
    else
      let rec_ := if ptpEvent f.octets then s.ptpRecord f.sub.val else []
      .next (s.ethDeliver n.val 0 0 f.octets.length f.sub.val (f.octets ++ rec_))
  else .next s

/-! ## Tree frames out (R283, R284, R310) -/

/-- Where an item goes from port `n`: up to the manager's group address; down to the group address of the child pair its point
word names, none where that is no child. -/
def State.treeDst (s : State) (n : Nat) (x : Item) : Option Nat :=
  if 2 ≤ n then s.managerPair.map s.groupMac
  else
    let p := (itemPoint x).toNat / 2 ^ 13 % 256
    match s.childIdx p with
    | some c => if s.childOn c then some (s.groupMac p) else none
    | none => none

/-- Take up to `k` consecutive items with one destination; items for a pair that is no child are discarded with event 0x1806.
True where the frame is full or the next item goes elsewhere. -/
def State.gather (q n : Nat) : Nat → Nat → Option Nat → List Item → State → Bool × Option Nat × List Item × State
  | 0, _, d, acc, s => (true, d, acc, s)
  | fuel + 1, k, d, acc, s =>
    if k = 0 then (true, d, acc, s)
    else match s.hwTake q with
      | (none, s') => (false, d, acc, s')
      | (some x, s') =>
        match s.treeDst n x with
        | none => State.gather q n fuel k d acc (s'.event 0x1806 0#32)
        | some dd =>
          if d = none ∨ d = some dd then State.gather q n fuel (k - 1) (some dd) (acc ++ [x]) s' else (true, d, acc, s)

/-- An item as it leaves: its digest written (R310). -/
def outItem (x : Item) : Item := setFld x 448 (itemDigest x)

/-- The queues a tree port serves, the one whose turn it is first (R283, R284). -/
def State.treeQueues (s : State) (n : Nat) : List Nat :=
  if n = 0 then [0xE002] else if n = 1 then [0xE003] else if (s.ethAt n).turn then [0xE001, 0xE000] else [0xE000, 0xE001]

/-- A port may send tree frames: it is up, the tree and the device are sound, and an up-facing port is the one in service; a
faulty twin, or one whose stores failed, takes nothing from its class-4 queues (R284, R315, R353). -/
def State.treePort (s : State) (n : Nat) : Bool :=
  s.treRuns && s.ethUp n && !s.twn.selfflt && !s.upd.loadfail && (decide (n < 2) || (decide (s.upPort = some n) && s.managerPair.isSome))

/-- A tree frame as it leaves: from the device address, under TRE_ETYPE (R282). -/
def State.treeFrame (s : State) (n : Nat) (d : Option Nat) (items : List Item) : Out :=
  .ethTree n (BitVec.ofNat 48 (d.getD 0)) (BitVec.ofNat 48 (s.deviceMac s.device)) (fld (s.reg 0x180008) 0 16) items

/-- Send what is gathered. -/
def State.treeSend (n q : Nat) (d : Option Nat) (items : List Item) (s : State) : State :=
  let items := items.map outItem
  let e := s.ethAt n
  let keep := e.last4 ++ [items]
  let s := s.setEth n { e with pack := none, last4 := keep.drop (keep.length - 4), turn := decide (q = 0xE000) }
  { s with out := s.out ++ [s.treeFrame n d items] }

/-- Pack a frame and send it, or wait for more where `force` is false (R283). True where its queue gave an item. -/
def State.packFrom (n : Nat) (k : Pack) (force : Bool) (s : State) : Bool × State :=
  let (full, d, items, s') := s.gather k.q n ((s.desc k.q).size + 1) k.max none []
  if items.isEmpty then (false, s')
  else if full || force || decide (k.wait = 0) then (true, s'.treeSend n k.q d items)
  else (true, s.setEth n { s.ethAt n with pack := some k })

/-- Start a frame from the first of the queues that gives an item, under the PACK and PACKWAIT of now (R284, R299). -/
def State.packFirst (n : Nat) : List Nat → State → State
  | [], s => s
  | q :: qs, s =>
    let (got, s) := s.packFrom n ⟨q, s.tb.elapsed, s.regF Reg.treCtl 24 5, s.regF Reg.treCtl 0 8⟩ false
    if got then s else State.packFirst n qs s

/-- Go on with the frame being packed, or start one (R283, R284). -/
def State.treePack (n : Nat) (force : Bool) (s : State) : State :=
  match (s.ethAt n).pack with
  | some k =>
    let (got, s) := s.packFrom n k force
    if got then s else s.setEth n { s.ethAt n with pack := none }
  | none => s.packFirst n (s.treeQueues n)

/-- TREE_FRAME_SEND. -/
def execTreeFrameSend (n : Fin 4) (s : State) : Answer :=
  if s.treePort n.val then .next (s.treePack n.val false) else .next s

/-- PACKWAIT_EXPIRY: PACKWAIT us have passed since the first item (R283). -/
def execPackwaitExpiry (n : Fin 4) (s : State) : Answer :=
  match (s.ethAt n.val).pack with
  | some k =>
    if s.treePort n.val && s.past k.at_ (k.wait * usCounts) then .next (s.treePack n.val true) else .next s
  | none => .next s

/-! ## Links (R284) -/

/-- Port 3 takes over: it first resends the last frames of port 2 (R284). -/
def State.resend (s : State) : State :=
  if s.ethUp 3 && !s.ethUp 2 then
    let fs := (s.ethAt 2).last4
    let s := s.setEth 2 { s.ethAt 2 with last4 := [] }
    { s with out := s.out ++ fs.map (s.treeFrame 3 (s.managerPair.map s.groupMac)) }
  else s

/-- The up-facing port in service may have changed: a frame being packed starts anew on the port that takes over, from the heads of the
queues, which first resends where it is port 3 (R284). -/
def State.upMoved (old s : State) : State :=
  if old.upPort = s.upPort then s
  else State.resend ((s.setEth 2 { s.ethAt 2 with pack := none }).setEth 3 { s.ethAt 3 with pack := none })

/-- ETH_LINK_DOWN. -/
def execEthLinkDown (n : Fin 4) (s : State) : Answer :=
  if s.ethOn n.val then
    .next (s.upMoved (s.setEth n.val { s.ethAt n.val with link := false, pack := none }))
  else .next s

/-- ETH_LINK_UP: port 2 takes over again; port 3 takes over for a port 2 that is down. -/
def execEthLinkUp (n : Fin 4) (s : State) : Answer :=
  if s.ethOn n.val then
    .next (s.upMoved (s.setEth n.val { s.ethAt n.val with link := true }))
  else .next s

/-- ETH_PAUSE_REPEAT: while HOLD stays set (R81). -/
def execEthPauseRepeat (n : Fin 4) (s : State) : Answer :=
  if s.ethUp n.val && (s.fifo (12 + n.val)).hold then .next (s.sendPause (12 + n.val) 0xFFFF#16) else .next s

/-! ## Raw frames out (R283) -/

/-- The completion of a raw item: status in byte 52, stamps where they were asked for (R278; log entry 30). -/
def rawCompletion (reqid : Word) (st : Status) (t : Option (Stamp × Int × Stamp)) : Item :=
  let x : Item := setFld (setFld (0#512 : Item) 192 reqid) 416 (BitVec.ofNat 8 st.code)
  match t with
  | some (own, off, other) => setFld (setFld (setFld x 0 own) 96 (BitVec.ofInt 32 off)) 320 other
  | none => x

/-- Complete a raw item; with no room in the queue the completion waits. -/
def State.rawComplete (n : Nat) (reqid : Word) (st : Status) (t : Option (Stamp × Int × Stamp)) (s : State) : State :=
  let (ok, s) := s.hwPut (s.regF (ethReg n 0x20) 0 16) (rawCompletion reqid st t)
  s.setEth n { s.ethAt n with raw := none, rawDone := if ok then none else some (reqid, st, t) }

/-- ETH_RAW_TX: take a raw item, and send its frame or complete it (R279, R283). -/
def execEthRawTx (n : Fin 4) (s : State) : Answer :=
  let e := s.ethAt n.val
  if s.ethOn n.val && e.raw.isNone && e.rawDone.isNone then
    match s.hwTake (s.regF (ethReg n.val 0x1C) 0 16) with
    | (none, s) => .next s
    | (some x, s) =>
      let len := (fld x 384 16).toNat
      let want := bit x 400
      let one := bit x 401
      if len < 60 ∨ 1514 < len then .next (s.rawComplete n.val (itemReq x) .outOfRange none)
      else match s.unitRead (fld x 320 64).toNat len with
        | (.ok, bs) =>
          if one && (match ptpOf bs with | some p => p.v6 | none => false) then .next (s.rawComplete n.val (itemReq x) .denied none)
          else if !e.link then .next (s.rawComplete n.val (itemReq x) .retry none)
          else
            let (sub, s) := s.draw 5
            let bs := if one then s.oneStep bs sub.toNat else bs
            let own := s.domStamp s.sel sub.toNat
            let other := s.domStamp (!s.sel) sub.toNat
            let s := s.setEth n.val { s.ethAt n.val with raw := some (itemReq x, want, own, s.offsetNs, other) }
            .next { s with out := s.out ++ [.ethRaw n.val bs] }
        | (st, _) => .next (s.rawComplete n.val (itemReq x) st none)
  else .next s

/-- ETH_RAW_TX_DONE: the frame has left, or the link went down under it; a completion that found no room is put (R278, R283). -/
def execEthRawTxDone (n : Fin 4) (s : State) : Answer :=
  let e := s.ethAt n.val
  if s.fieldRuns then
    match e.rawDone, e.raw with
    | some (id, st, t), _ => .next (s.rawComplete n.val id st t)
    | none, some (id, want, own, off, other) =>
      if e.link then .next (s.rawComplete n.val id .ok (if want then some (own, off, other) else none))
      else .next (s.rawComplete n.val id .retry none)
    | none, none => .next s
  else .next s

/-! ## Registers -/

/-- Writes of the ETH window; EN of an up-facing port moves the service as its link does (R281, R284, R285). -/
def writeEth : UnitWrite := fun _ r o v s =>
  let n := (o - 0x150000) / 0x40
  if (o - 0x150000) % 0x40 = 0x18 then
    (.ok, s.setEth n { s.ethAt n with bufs := (s.ethAt n).bufs.filter (fun k => decide (k ≠ v)) })
  else
    let (st, t) := accept r o v s
    (st, s.upMoved t)

/-- Reads of the ETH window. -/
def readEth (o : Nat) (s : State) : W32 :=
  let n := (o - 0x150000) / 0x40
  if (o - 0x150000) % 0x40 = 4 then BitVec.ofNat 32 (if s.ethUp n then 2 ^ 31 else 0) else s.reg o

end Sys2Proof.Machine
end

