-- ==== Sys2Proof/Machine/Wired.lean ====
section
/-! DEFINITION. The wired ports (10_radio_wired.md, R257 to R264). -/

namespace Sys2Proof.Machine
open Sys2Proof

def State.wirAt (s : State) (n : Nat) : Wir := Tab.get {} s.wir n
def State.setWir (s : State) (n : Nat) (x : Wir) : State := { s with wir := Tab.set {} s.wir n x }
/-- A register of port `n`. -/
def wirReg (n o : Nat) : Nat := 0x140000 + n * 0x40 + o
def State.wirOn (s : State) (n : Nat) : Bool := s.fieldRuns && bit (s.reg (wirReg n 0)) 31
/-- Bits of a character: start, eight data, parity, stop (R258). -/
def State.charBits (s : State) (n : Nat) : Nat :=
  9 + (if s.regF (wirReg n 0) 27 2 = 0 then 0 else 1) + (if bit (s.reg (wirReg n 0)) 26 then 2 else 1)
/-- The bit time in 0.5 ns. -/
def State.bitt (s : State) (n : Nat) : Nat := s.regF (wirReg n 0) 0 24
/-- `k` bit times in elapsed counts. -/
def State.wirBits (s : State) (n k : Nat) : Nat := k * s.bitt n / 16

/-- A gap inside a frame is longer than 1.5 character times, or 750 us above 19,200 b/s in Modbus (R259, R260). -/
def State.gapBad (s : State) (n : Nat) (c : WirChar) : Bool :=
  if s.regF (wirReg n 0) 29 2 = 1 ∧ s.bitt n * 19200 < 2000000000 then decide (1500000 < c.gap * s.bitt n)
  else decide (3 * s.charBits n < 2 * c.gap)

/-- A native frame: sync, length, octets and CRC16I over length and octets, low octet first (R259). -/
def State.nativeOk (s : State) (n : Nat) (cs : List WirChar) : Bool :=
  let o := cs.map (·.octet)
  let l := takeBytes o 1 1
  decide (1 ≤ l) && decide (l ≤ 250) && decide (o.length = l + 4) && (cs.drop 1).all (fun c => !s.gapBad n c)
    && cs.all (fun c => !c.parErr)
    && decide (takeBytes o (l + 2) 2 = (crc16i 0xFFFF#16 ((o.drop 1).take (l + 1))).toNat)

/-- A Modbus RTU frame: no long gap, no parity error, CRC16B over all before it (R260). -/
def State.modbusOk (s : State) (n : Nat) (cs : List WirChar) : Bool :=
  let o := cs.map (·.octet)
  let m := o.length
  decide (2 ≤ m) && (cs.drop 1).all (fun c => !s.gapBad n c) && cs.all (fun c => !c.parErr)
    && decide (takeBytes o (m - 2) 2 = (crc16b 0xFFFF#16 (o.take (m - 2))).toNat)

/-! ## Where frames begin and end (R259 to R261, R264) -/

/-- A character with its start bit's place in bit times after the first one. -/
abbrev AtBit := Nat × WirChar

/-- Place characters of `cb` bits one after another, each after its gap; the first one's gap lies before the first start bit. -/
def placeChars (cb : Nat) : Nat → List WirChar → List AtBit
  | _, [] => []
  | o, [c] => [(o, c)]
  | o, c :: d :: cs => (o, c) :: placeChars cb (o + cb + d.gap) (d :: cs)

/-- Cut characters into frames: one ends where `ends` holds of its start and of the silence after it. -/
def splitFrames (ends : Nat → Nat → Bool) : List AtBit → List AtBit → List (List AtBit)
  | cur, [] => if cur.isEmpty then [] else [cur.reverse]
  | cur, x :: xs =>
    match cur.getLast? with
    | none => splitFrames ends [x] xs
    | some f => if ends f.1 x.2.gap then cur.reverse :: splitFrames ends [x] xs else splitFrames ends (x :: cur) xs

/-- Cut characters into native frames: octets before a sync are discarded; a long gap or a length outside 1 to 250 ends a frame early;
a whole one has its length and four octets more. -/
def nativeFrames (bad : WirChar → Bool) : List AtBit → List AtBit → List (List AtBit)
  | cur, [] => if cur.isEmpty then [] else [cur.reverse]
  | cur, x :: xs =>
    let sync : List AtBit := if x.2.octet = 0xA5#8 then [x] else []
    match cur.reverse with
    | [] => nativeFrames bad sync xs
    | [_] =>
      if bad x.2 then cur.reverse :: nativeFrames bad sync xs
      else if x.2.octet.toNat = 0 ∨ 250 < x.2.octet.toNat then (x :: cur).reverse :: nativeFrames bad [] xs
      else nativeFrames bad (x :: cur) xs
    | _ :: l :: _ =>
      if bad x.2 then cur.reverse :: nativeFrames bad sync xs
      else if cur.length + 1 = l.2.octet.toNat + 4 then (x :: cur).reverse :: nativeFrames bad [] xs
      else nativeFrames bad (x :: cur) xs

/-- Silence of `g` bit times ends a Modbus frame: 3.5 character times, or 1,750 us above 19,200 b/s (R260). -/
def State.modbusEnd (s : State) (n g : Nat) : Bool :=
  if s.bitt n * 19200 < 2000000000 then decide (3500000 ≤ g * s.bitt n) else decide (7 * s.charBits n ≤ 2 * g)

/-- WIRn_TIM as a frame that began at elapsed count `t` found it (R264). -/
def State.wirTim (s : State) (n t : Nat) : W32 :=
  match (s.wirAt n).tims.reverse.find? (fun e => decide (t < e.1)) with
  | some e => e.2
  | none => s.reg (wirReg n 4)

/-- The elapsed count at `o` bit times after the first start bit of an arrival. -/
def State.wirTime (s : State) (n : Nat) (f : WirRx) (o : Nat) : Nat := s.tb.elapsed - f.ago + s.wirBits n o

/-- IDLE of a frame that began at bit `o` of an arrival. -/
def State.wirIdle (s : State) (n : Nat) (f : WirRx) (o : Nat) : Nat := (fld (s.wirTim n (s.wirTime n f o)) 24 8).toNat

/-- The frames of an arrival; characters that began while the receiver was blind are not heard (R263). -/
def State.wirFrames (s : State) (n : Nat) (f : WirRx) : List (List AtBit) :=
  let cs := (placeChars (s.charBits n) 0 f.chars).filter (fun c => decide ((s.wirAt n).blind ≤ s.wirTime n f c.1))
  match s.regF (wirReg n 0) 29 2 with
  | 0 => nativeFrames (s.gapBad n) [] cs
  | 1 => splitFrames (fun _ g => s.modbusEnd n g) [] cs
  | _ => splitFrames (fun o g => decide (s.wirIdle n f o ≤ g)) [] cs

/-- The last frame has ended: a native one when it is whole or a gap has broken it, the others by their silence. -/
def State.wirEnded (s : State) (n : Nat) (f : WirRx) (fr : List AtBit) : Bool :=
  match s.regF (wirReg n 0) 29 2 with
  | 0 => (match fr with
      | _ :: l :: _ => decide (l.2.octet.toNat = 0) || decide (250 < l.2.octet.toNat) || decide (l.2.octet.toNat + 4 ≤ fr.length)
      | _ => false) || s.gapBad n ⟨0#8, f.idle, false, false⟩
  | 1 => s.modbusEnd n f.idle
  | _ => match fr with | x :: _ => decide (s.wirIdle n f x.1 ≤ f.idle) | [] => true

/-- Deliver a frame: buffer, flags, item and FIFO (R261, R262). -/
def State.wirDeliver (n : Nat) (cs : List WirChar) (coll : Bool) (prio : Nat) (m : TimeRec) (s : State) : State :=
  let p := s.wirAt n
  let (b, s) := s.poolTake (0x14 * 16 + n) p.bufs
  match b with
  | none => s.setWir n { s.wirAt n with nobuf := true }
  | some k =>
    let o := (cs.map (·.octet)).take 512
    let addr := s.reg2 (wirReg n 0x10) + 512 * k
    let s := (s.ramWrite addr o).2
    let par := cs.any (·.parErr)
    let frm := cs.any (·.frmErr)
    let bad := (cs.filter (fun c => c.parErr || c.frmErr)).length
    let f : Nat := (if coll then 1 else 0) + (if 512 < cs.length then 2 else 0) + (if par then 4 else 0) + (if frm then 8 else 0)
    let x := setFld (setFld (setFld (setFld (setFld (0#512 : Item) 320 (BitVec.ofNat 64 addr)) 384 (BitVec.ofNat 16 o.length))
      400 (BitVec.ofNat 8 f)) 408 (BitVec.ofNat 8 n)) 416 (BitVec.ofNat 16 bad)
    let (ok, s) := s.ingress (4 + n) prio m x
    if ok then s.setWir n { s.wirAt n with bufs := (s.wirAt n).bufs ++ [k] } else s

/-- One frame that has ended is checked and delivered, or counted in BADFRAME (R259 to R262). It is stamped at its first start bit, and
goes by the WIRn_TIM that bit found. -/
def State.wirFrame (n : Nat) (f : WirRx) (space : Bool) (fr : List AtBit) (s : State) : State :=
  let cs := fr.map (·.2)
  let o := match fr with | x :: _ => x.1 | [] => 0
  let m := s.momentAgo (f.ago - s.wirBits n o)
  let prio := (fld (s.wirTim n (s.wirTime n f o)) 0 3).toNat
  let bad (s : State) : State := s.setWir n { s.wirAt n with badframe := satInc 0xFFFF (s.wirAt n).badframe }
  match s.regF (wirReg n 0) 29 2 with
  | 0 => if s.nativeOk n cs then s.wirDeliver n cs false prio m else bad s
  | 1 => if s.modbusOk n cs then s.wirDeliver n cs false prio m else bad s
  | _ =>
    let coll := space || cs.any (fun c => c.parErr || c.frmErr)
    let s := if coll then s.setWir n { s.wirAt n with coll := true } else s
    s.wirDeliver n cs coll prio m

/-- Judge the frames of an arrival in order; a line held at space marks the last one. -/
def State.wirEach (n : Nat) (f : WirRx) : List (List AtBit) → State → State
  | [], s => s
  | [x], s => s.wirFrame n f f.space x
  | x :: xs, s => State.wirEach n f xs (s.wirFrame n f false x)

/-- WIR_FRAME_END: the frames that ended by their framing's rule are checked and delivered (R259 to R262). Nothing has ended while the
last one goes on. -/
def execWirFrameEnd (n : Fin 6) (f : WirRx) (s : State) : Answer :=
  let busy := match (s.wirAt n.val).tx with | some j => j.sending | none => false
  if !s.wirOn n.val || busy then .next s
  else
    let fs := s.wirFrames n.val f
    let fs := if fs.isEmpty && f.space && decide (2 ≤ s.regF (wirReg n.val 0) 29 2) then [[]] else fs
    match fs.getLast? with
    | none => .next s
    | some l => if s.wirEnded n.val f l then .next (State.wirEach n.val f fs s) else .next s

/-! ## Sending (R263) -/

/-- Complete the frame taken; it waits where the completion queue has no room. -/
def State.wirComplete (n : Nat) (j : TxJob) (st : Status) (s : State) : State :=
  let (ok, s) := s.putCompletion (wirReg n 0x20) j.reqid st
  s.setWir n { s.wirAt n with tx := if ok then none else some { j with sending := false, status := some st } }

/-- The octets on the line: the framing's CRC appended where the item asks for it. -/
def State.wirOctets (s : State) (n : Nat) (bs : List Byte) (crc : Bool) : List Byte :=
  if !crc then bs
  else match s.regF (wirReg n 0) 29 2 with
    | 0 => bs ++ bytesOf 2 (crc16i 0xFFFF#16 (bs.drop 1))
    | 1 => bs ++ bytesOf 2 (crc16b 0xFFFF#16 bs)
    | _ => bs

/-- Start the frame taken once the FIFO's HOLD is clear; it ends with RETRY where TXROLE fell first. -/
def State.wirStart (n : Nat) (j : TxJob) (s : State) : State :=
  if !s.txRole then s.wirComplete n j .retry
  else if (s.fifo (4 + n)).hold then s.setWir n { s.wirAt n with tx := some j }
  else
    let s := s.setWir n { s.wirAt n with tx := some { j with sending := true, at_ := s.tb.elapsed }, turn := s.regF (wirReg n 4) 16 8 }
    { s with out := s.out ++ [.wirFrame n j.psdu] }

/-- The line has been idle for the framing's end-of-frame time: a native frame, which its length ends, has only the gap of R259 that no
frame survives (log entry 30). -/
def State.lineFree (s : State) (n idle : Nat) : Bool :=
  match s.regF (wirReg n 0) 29 2 with
  | 0 => s.gapBad n ⟨0#8, idle, false, false⟩
  | 1 => s.modbusEnd n idle
  | _ => decide (s.regF (wirReg n 4) 24 8 ≤ idle)

/-- WIR_TX_START: the line has been idle for some bit times, so nothing is being received: once that is the framing's end-of-frame time,
the port takes an item, or starts the one it has taken. A frame whose TXROLE fell ends at once. -/
def execWirTxStart (c : WirSense) (s : State) : Answer :=
  if s.wirOn c.port.val then
    match (s.wirAt c.port.val).tx with
    | some j =>
      if j.sending || j.status.isSome || (s.txRole && !s.lineFree c.port.val c.idle) then .next s else .next (s.wirStart c.port.val j)
    | none =>
      if !s.txRole || !s.lineFree c.port.val c.idle then .next s
      else match s.hwTake (s.regF (wirReg c.port.val 0x1C) 0 16) with
        | (none, s) => .next s
        | (some x, s) =>
          let m := txLen x
          if m < 1 ∨ 512 < m then .next (s.wirComplete c.port.val { reqid := itemReq x, psdu := [] } .outOfRange)
          else match s.unitRead (txAddr x) m with
            | (.ok, bs) => .next (s.wirStart c.port.val { reqid := itemReq x, psdu := s.wirOctets c.port.val bs (bit x 400) })
            | (st, _) => .next (s.wirComplete c.port.val { reqid := itemReq x, psdu := [] } st)
  else .next s

/-- WIR_TX_DONE: the last stop bit has been sent; the receiver stays blind for the TURN bit times its start found. A completion still waiting for
room is put again. -/
def execWirTxDone (n : Fin 6) (s : State) : Answer :=
  match (s.wirAt n.val).tx with
  | some j =>
    match j.status with
    | some st => if s.pwr.mainOn then .next (s.wirComplete n.val j st) else .next s
    | none =>
      if s.fieldRuns && j.sending && s.past j.at_ (s.wirBits n.val (j.psdu.length * s.charBits n.val)) then
        let s := s.setWir n.val { s.wirAt n.val with blind := s.tb.elapsed + s.wirBits n.val (s.wirAt n.val).turn }
        .next (s.wirComplete n.val j .ok)
      else .next s
  | none => .next s

/-! ## Registers (Tables 10.8 to 10.10, R264) -/

/-- The port of an offset in the WIR window. -/
def wirPort (o : Nat) : Nat := (o - 0x140000) / 0x40

/-- Writes of the WIR window (R257, R262, R264). -/
def writeWir : UnitWrite := fun _ r o v s =>
  let n := wirPort o
  let p := s.wirAt n
  let w := BitVec.ofNat 32 v
  if o = wirReg n 0 then
    let fr := vf v 29 2
    let b := vf v 0 24
    if vf v 27 2 = 3 ∨ (if n < 4 then 1 < fr else fr ≠ 2) then refuse .denied s
    else if (if n < 4 then b < 200 ∨ 1666667 < b else b < 52083 ∨ 6666667 < b) then refuse .outOfRange s
    else if bit (s.reg o) 31 ∧ (s.reg o ^^^ w) &&& 0x7CFFFFFF#32 ≠ 0#32 then refuse .retry s
    else accept r o v s
  else if o = wirReg n 4 then
    if vf v 24 8 < 11 then refuse .outOfRange s
    else
      let old := s.reg o
      (s.setWir n { p with tims := ((s.tb.elapsed, old) :: p.tims).take 16 } |> accept r o v)
  else if o = wirReg n 8 then
    (.ok, s.setWir n { p with
      nobuf := p.nobuf && !bit w 29, coll := p.coll && !bit w 28, badframe := if bit w 0 then 0 else p.badframe })
  else if o = wirReg n 0x18 then (.ok, s.setWir n { p with bufs := p.bufs.filter (fun k => decide (k ≠ v)) })
  else accept r o v s

/-- Reads of the WIR window. -/
def readWir (o : Nat) (s : State) : W32 :=
  let n := wirPort o
  let p := s.wirAt n
  let f (x : Bool) (k : Nat) : Nat := if x then 2 ^ k else 0
  if o = wirReg n 8 then
    BitVec.ofNat 32 (f s.txRole 31 + f (match p.tx with | some j => j.sending | none => false) 30 + f p.nobuf 29 + f p.coll 28 + p.badframe)
  else s.reg o

end Sys2Proof.Machine
end

