-- ==== Sys2Proof/Machine/Pwr.lean ====
section
/-! DEFINITION. Power states (R380 to R387), the backup domain (R388 to R392), and the event recorder's windows: rate limits,
freezes and area copies (R393 to R396, R453). -/

namespace Sys2Proof.Machine
open Sys2Proof

/-! ## Power states -/

/-- PWR_VCFG.LSTC. -/
def State.lstc (s : State) : Nat := s.regF Reg.pwrVcfg 8 2

/-- The clusters present (Table 20.2). -/
def State.clusters (s : State) : BitVec 4 := fld (caps1 s.sys.variant) 16 4

/-- The clusters parked in a state: none, all but cluster 0 and cluster LSTC, all (Table 17.1). -/
def State.parkFor (s : State) (t : Nat) : BitVec 4 :=
  if t < 2 then 0#4
  else if t = 2 then s.clusters &&& ~~~(1#4 ||| BitVec.ofNat 4 (2 ^ s.lstc))
  else s.clusters

/-- CORE_VID[2:0]: VP0, VP1 or code 000, and code 100 out of reset (R380, R383, R436). -/
def State.coreVid (s : State) : BitVec 3 :=
  if !s.pwr.mainOn then 4#3
  else if 3 ≤ s.pwr.state then 0#3
  else if s.pwr.state = 1 then fld (s.reg Reg.pwrVcfg) 0 3
  else fld (s.reg Reg.pwrVcfg) 4 3

/-- Start a transition: the gate closes for the clusters that will park (Table 17.4 step 1). -/
def State.pwrStart (t : Nat) (s : State) : State :=
  { s with pwr := { s.pwr with
    busy := true
    target := t
    gate := s.parkFor t &&& ~~~s.pwr.parked } }

/-- PWR_STAT.STATUS takes the outcome of a write, which is also its response (R384). -/
def State.pwrOut (st : Status) (s : State) : Status × State := (st, { s with pwr := { s.pwr with status := st } })

/-- A write of PWR_CMD (R381, R384). -/
def State.pwrCmd (i : Init) (v : Nat) (s : State) : Status × State :=
  let t := vf v 0 3
  if ¬ (i = .host ∨ i = .spi ∨ i = .i2c) then (.denied, s)
  else if s.pwr.busy then s.pwrOut .retry
  else if 4 < t then s.pwrOut .denied
  else if t = 2 ∧ ¬ bit s.clusters s.lstc then s.pwrOut .absent
  else if t = s.pwr.state then s.pwrOut .ok
  else if s.pwr.state = 4 then s.pwrOut .denied
  else (s.pwrStart t).pwrOut .ok

/-- Writes of the PWR window (R383). -/
def writePwr : UnitWrite := fun i r o v s =>
  if o = 0x010000 then s.pwrCmd i v
  else
    let l := vf v 8 2
    if l = 0 ∨ vf v 4 3 < vf v 0 3 then refuse .outOfRange s
    else if s.pwr.state = 2 ∧ l ≠ s.lstc then refuse .retry s
    else accept r o v s

/-- Reads of the PWR window (Table 17.5). -/
def readPwr (o : Nat) (s : State) : W32 :=
  if o = 0x010004 then
    BitVec.ofNat 32 ((if s.pwr.busy then 2 ^ 31 else 0) + (if s.pwr.offrdy then 2 ^ 30 else 0) + s.pwr.status.code * 65536
      + s.pwr.target * 256 + s.pwr.parked.toNat * 16 + s.pwr.state)
  else if o = 0x010000 then 0#32
  else s.reg o

/-- The PCIe link goes down: the host agent's epoch rises (R116, R382). -/
def State.pcieDown (s : State) : State :=
  if s.hst.link then State.raiseEpoch agHost { s with hst := { s.hst with link := false } } else s

/-- The links that stop with the SERDES (Table 17.4 step 5). -/
def State.serdesDown (s : State) : State :=
  let s := s.pcieDown
  let s := (List.range 4).foldl (fun s n => s.setEth n { s.ethAt n with link := false }) s
  { s with spn := { s.spn with
    link := false
    lane0 := false
    lane1 := false } }

/-- No task runs on the clusters about to park; for P3 and P4 no port sends and no NAND READ runs (Table 17.4 steps 2, 4, 5). -/
def State.pwrDrained (s : State) : Bool :=
  s.ge.threads.all (fun p => decide (128 ≤ p.1) || !bit s.pwr.gate (clusterOf p.1) || decide (p.2.st = .free))
    && (decide (s.pwr.target < 3) || decide (3 ≤ s.pwr.state) ||
        (s.plc.all (fun p => !(p.2.tx.any (·.sending)) && decide (p.2.airEnd ≤ s.tb.elapsed)) && s.rf.all (fun p => !(p.2.tx.any (·.sending)) && decide (p.2.airEnd ≤ s.tb.elapsed))
          && s.wir.all (fun p => !(p.2.tx.any (·.sending))) && s.nft.cmds.all (fun c => decide (nOp c.item ≠ 1))))

/-- A custody point's block in progress is abandoned: the next one starts at a whole second (R385). -/
def State.blockAbandon (p : Nat) (s : State) : State :=
  let x := s.pt p
  let s := s.setPt p { x with
    n := 0
    first := {}
    skip := true
    dp := []
    inval := 0
    settle := 0
    changes := 0
    tempExt := false
    calBlk := false
    theta := 0
    thetaN := 0
    got := 7#3 }
  (List.range 3).foldl (fun s k => s.setChan (3 * p + k) (blockClear (s.chan (3 * p + k)))) s

/-- PWR_TRANSITION_DONE: the drains have ended and the state is in force. Entering P3 or P4 ends running calibrations and clears Chuck's
key cache (R149, R336, R382, R385). -/
def execPwrTransitionDone (s : State) : Answer :=
  if !s.pwr.mainOn || !s.pwr.busy || !s.pwrDrained then .next s
  else
    let old := s.pwr.state
    let t := s.pwr.target
    let s := if 3 ≤ t ∧ old < 3 then s.calAbortAll.closeAll.serdesDown else s
    let s := if 3 ≤ t then { s with sec := { s.sec with cache := [] } } else s
    let s := if t < 3 ∧ 3 ≤ old then (s.afe.points.map (·.1)).foldl (fun s p => s.blockAbandon p) s else s
    let s := if t = 4 then { s with nft := { s.nft with ckAt := s.tb.elapsed } } else s
    let s := { s with pwr := { s.pwr with
      busy := false
      state := t
      status := .ok
      parked := s.parkFor t
      gate := 0#4
      offrdy := decide (t = 4) } }
    .next (s.event 0x0101 (BitVec.ofNat 32 (old * 16 + t)))

/-- Set a PEND bit (R392). -/
def State.pend (k : Nat) (s : State) : State := { s with evr := { s.evr with pend := setFld s.evr.pend k (1#1) } }

/-- BKP_ALERT_N is low while a PEND bit has its EN bit set (R392). -/
def State.alertLow (s : State) : Bool := decide (s.evr.pend &&& fld (s.reg Reg.evrAlert) 16 5 ≠ 0#5)

/-- MAIN_SUPPLY_LOST: the main domains stop where they are, event 0x0102 is written on backup supply, and a freeze ends with
reason 3 (R386, R392, R396). DRAM is lost: COLD_RESET finds it zero-filled. -/
def execMainSupplyLost (below : BitVec 3) (s : State) : Answer :=
  if !s.pwr.mainOn || decide (below = 0#3) then .next s
  else
    let st := s.pwr.state
    let s := { s with
      pwr := { s.pwr with mainOn := false }
      sys := { s.sys with cause := s.sys.cause ||| 4#32 } }
    let s := s.event 0x0102 (BitVec.ofNat 32 (st * 2 ^ 28 + below.toNat))
    .next ((s.freezeEnd 3).pend 4)

/-! ## The backup domain -/

/-- VBAT_LOW: below 2.2 V, at onset (R388). -/
def execVbatLow (mv : BitVec 16) (s : State) : Answer :=
  let s := { s with evr := { s.evr with vbat := mv.toNat } }
  if !s.evr.running then .next s
  else if 2200 ≤ mv.toNat then .next { s with evr := { s.evr with vbatlow := false } }
  else if s.evr.vbatlow then .next s
  else
    let s := State.event 0x0707 (BitVec.setWidth 32 mv) { s with evr := { s.evr with vbatlow := true } }
    .next (s.pend 3)

/-- BACKUP_DOMAIN_STOP: below 2.0 V with main power absent the domain stops; MRAM keeps every record and counter, the RTC loses
time and the inputs' accepted levels are lost (R388, R389, R446, log entry 10). -/
def execBackupDomainStop (s : State) : Answer :=
  if s.pwr.mainOn || !s.evr.running || decide (2000 ≤ s.evr.vbat) then .next s
  else .next { s with evr := { s.evr with
    running := false
    stopped := true
    rtcLost := true
    coverLow := false
    sealLow := false
    magnetLow := false
    rtcv := false } }

/-- BACKUP_SUPPLY_RETURN: a stopped domain resumes with its RTC invalid (R388, R389). -/
def execBackupSupplyReturn (s : State) : Answer :=
  if s.evr.running then .next s
  else .next { s with evr := { s.evr with
    running := true
    rtcv := false
    vbat := max 2000 s.evr.vbat } }

/-- RTC_SET_APPLY: at the stamping domain's next second boundary after the set the RTC takes that second (R389). -/
def execRtcSetApply (s : State) : Answer :=
  if s.pwr.mainOn && s.evr.running && s.evr.rtcPend && !s.tb.clkLost && s.atSecond s.sel && decide (s.evr.rtcAt < s.tb.elapsed) then
    .next { s with evr := { s.evr with
      rtcPend := false
      rtcv := true
      rtcSec := (s.dom s.sel).sec
      rtcSub := 0#15 } }
  else .next s

/-- OPERATING_SECOND: a whole second of backup ticks passes; the RTC counts it, and the operating seconds rise where main power was
present throughout (R389, R390). -/
def execOperatingSecond (mainThroughout : Bool) (s : State) : Answer :=
  if !s.evr.running then .next s
  else .next { s with evr := { s.evr with
    rtcSec := if s.evr.rtcv then s.evr.rtcSec + 1#64 else s.evr.rtcSec
    opsec := if mainThroughout && s.pwr.mainOn then satInc32 s.evr.opsec else s.evr.opsec } }

/-- TAMPER_INPUT_CHANGE: an accepted level; a fall counts and records the onset, a rise records the clearing (R391, R392). -/
def execTamperInputChange (inp : Tamper) (low : Bool) (s : State) : Answer :=
  if !s.evr.running then .next s
  else
    match inp with
    | .cover =>
      if s.evr.coverLow = low then .next s
      else
        let s := { s with evr := { s.evr with coverLow := low, tcnt0 := if low then satInc32 s.evr.tcnt0 else s.evr.tcnt0 } }
        let s := s.event (if low then 0x0701 else 0x0702) s.evr.tcnt0
        .next (if low then s.pend 0 else s)
    | .seal =>
      if s.evr.sealLow = low then .next s
      else
        let s := { s with evr := { s.evr with sealLow := low, tcnt2 := if low then satInc32 s.evr.tcnt2 else s.evr.tcnt2 } }
        let s := s.event (if low then 0x0703 else 0x0704) s.evr.tcnt2
        .next (if low then s.pend 1 else s)
    | .magnet =>
      if s.evr.magnetLow = low then .next s
      else
        let s := { s with evr := { s.evr with magnetLow := low, tcnt1 := if low then satInc32 s.evr.tcnt1 else s.evr.tcnt1 } }
        let s := s.event (if low then 0x0705 else 0x0706) s.evr.tcnt1
        .next (if low then s.pend 2 else s)

/-! ## The recorder's windows -/

/-- TOKEN_REFILL: a code's bucket gains a token, up to BURST, and a pending summary is written (R395). -/
def execTokenRefill (code : BitVec 16) (s : State) : Answer :=
  let c := code.toNat
  match s.evr.buckets.find? (fun b => decide (b.code = c)) with
  | none => .next s
  | some b =>
    if !s.evr.running || decide ((s.rateOf c).1 = 0) then .next s
    else
      let n : Bucket := { b with tokens := min (s.rateOf c).2 (b.tokens + 1), supp := 0 }
      let s := { s with evr := { s.evr with buckets := insBucket n s.evr.buckets } }
      .next (if b.supp = 0 then s else s.evSummary c b.supp)

/-- Clip the bucket of a code to its new BURST (R395). -/
def State.clipBucket (s : State) (c : Nat) : State :=
  { s with evr := { s.evr with buckets := s.evr.buckets.map (fun b =>
      if b.code = c then { b with tokens := min b.tokens (s.rateOf c).2 } else b) } }

/-- A write of EVR_RLDATA (R395). -/
def State.rlWrite (v : Nat) (s : State) : Status × State :=
  let k := s.regF 0x070038 0 6
  let code := vf v 16 16
  let old := (fld (Tab.get 0#32 s.evr.rl k) 16 16).toNat
  let put (s : State) : State := { s with evr := { s.evr with rl := Tab.set 0#32 s.evr.rl k (BitVec.ofNat 32 v) } }
  if v % 2 ^ 32 = 0 then (.ok, (put s).clipBucket old)
  else if s.evr.rl.any (fun p => decide (p.1 ≠ k) && decide ((fld p.2 16 16).toNat = code)) then (.denied, s)
  else if 240 < vf v 8 8 ∨ vf v 0 8 = 0 then (.outOfRange, s)
  else (.ok, ((put s).clipBucket old).clipBucket code)

/-- A write of EVR_FREEZE (R396). -/
def State.freezeWrite (i : Init) (on : Bool) (s : State) : Status × State :=
  let a := i.key
  if ¬ (i = .host ∨ i = .sup) then (.denied, s)
  else
    match s.evr.frozen, on with
    | none, true => (.ok, { s with evr := { s.evr with frozen := some (a, s.epochOf a, s.tb.elapsed) } })
    | none, false => (.ok, s)
    | some (o, _, _), true => if o = a then (.ok, s) else (.retry, s)
    | some (o, _, _), false => if o = a then (.ok, s.freezeEnd 0) else (.denied, s)

/-- A write of EVR_CPYCMD (R453). -/
def State.copyStart (i : Init) (area : Nat) (s : State) : Status × State :=
  let a := s.reg2 0x07002C
  if s.evr.copy.isSome then (.retry, s)
  else if area = 3 then (.denied, s)
  else if a % 64 ≠ 0 then (.outOfRange, s)
  else (.ok, { s with evr := { s.evr with copy := some (area, a, i) } })

/-- Writes of the EVR window. -/
def writeEvr : UnitWrite := fun i r o v s =>
  if o = 0x070000 then (.ok, if vf v 0 1 = 1 then { s with evr := { s.evr with holdovf := 0 } } else s)
  else if o = 0x070008 then
    if ¬ (i = .host ∨ i = .sup) then refuse .denied s
    else
      let (_, s) := accept r o v s
      (.ok, { s with evr := { s.evr with pend := s.evr.pend &&& ~~~(BitVec.ofNat 5 v) } })
  else if o = 0x07000C then
    if i ≠ .sup then refuse .denied s
    else if vf v 0 1 = 0 then (.ok, s)
    else if s.tb.clkLost || s.tinv then refuse .retry s
    else (.ok, { s with evr := { s.evr with rtcPend := true, rtcAt := s.tb.elapsed } })
  else if o = 0x070024 then s.freezeWrite i (decide (vf v 0 1 = 1))
  else if o = 0x070028 then if v < 10 ∨ 60000 < v then refuse .outOfRange s else accept r o v s
  else if o = 0x07002C then if s.evr.copy.isSome then refuse .retry s else accept r o v s
  else if o = 0x070034 then s.copyStart i (vf v 0 2)
  else if o = 0x07003C then s.rlWrite v
  else accept r o v s

/-- Reads of the EVR window (Tables 17.6, 17.7, 17.10). -/
def readEvr (o : Nat) (s : State) : W32 :=
  let e := s.evr
  let f (x : Bool) (k : Nat) : Nat := if x then 2 ^ k else 0
  if o = 0x070000 then
    BitVec.ofNat 32 (f e.frozen.isSome 31 + f e.copy.isSome 30 + f e.legfull 29 + e.hold.length * 2 ^ 22 + e.holdovf)
  else if o = 0x070004 then
    BitVec.ofNat 32 (f e.rtcv 31 + f e.vbatlow 30 + f e.coverLow 29 + f e.magnetLow 28 + f e.sealLow 27)
  else if o = 0x070008 then (s.reg o &&& 0x1F0000#32) ||| BitVec.setWidth 32 e.pend
  else if o = 0x070010 then e.opsec
  else if o = 0x070014 then e.pwrcyc
  else if o = 0x070018 then e.tcnt0
  else if o = 0x07001C then e.tcnt1
  else if o = 0x070020 then e.tcnt2
  else if o = 0x070024 then BitVec.ofNat 32 (f e.frozen.isSome 0)
  else if o = 0x07003C then Tab.get 0#32 e.rl (s.regF 0x070038 0 6)
  else if o = 0x070040 then BitVec.ofNat 32 e.total
  else if o = 0x070044 then BitVec.ofNat 32 (e.cpyStat.code * 65536 + e.cpyArea * 256)
  else if o = 0x070048 then BitVec.ofNat 32 e.legcnt
  else s.reg o

/-- FREEZE_TIMEOUT: EVR_FRZTMO has passed (R396). -/
def execFreezeTimeout (s : State) : Answer :=
  match s.evr.frozen with
  | some (_, _, t) =>
    if s.pwr.mainOn && s.past t ((s.reg 0x070028).toNat * msCounts) then .next (s.freezeEnd 1) else .next s
  | none => .next s

/-- The records of an area, in order. -/
def Evr.area (e : Evr) (k : Nat) : List (BitVec 256) :=
  if k = 0 then (List.range 1024).map (Tab.get 0#256 e.founding)
  else if k = 1 then (List.range 4096).map (Tab.get 0#256 e.circular)
  else (List.range 1024).map (Tab.get 0#256 e.legal)

/-- Write lines until one is refused (R453). -/
def State.copyOut (i : Init) : Nat → List (List Byte) → State → Status × State
  | _, [], s => (.ok, s)
  | a, x :: xs, s =>
    let st := s.ramGate i true a 64
    if st ≠ .ok then (st, s)
    else
      let (st, s) := s.ramWrite a x
      if st ≠ .ok then (st, s) else State.copyOut i (a + 64) xs s

/-- AREA_COPY_DONE: the area is written line by line with the rights of the initiator that asked (R453). -/
def execAreaCopyDone (s : State) : Answer :=
  match s.evr.copy with
  | some (k, a, i) =>
    if !s.dramOn then .next s
    else
      let bs := (s.evr.area k).flatMap (bytesOf 32)
      let (st, s) := State.copyOut i a (parts 64 (bs.length / 64) bs) s
      .next { s with evr := { s.evr with
        copy := none
        cpyStat := st
        cpyArea := k } }
  | none => .next s

end Sys2Proof.Machine
end

