-- ==== Sys2Proof/Machine/Host.lean ====
section
/-! DEFINITION. The host-facing units' registers and events (18_host_fabric.md): the fabric's arbiter (R398 to R403), the host
window, MSI-X and the I2C controller (R404 to R414), mailboxes (R415 to R418), performance counters (R419 to R422). -/

namespace Sys2Proof.Machine
open Sys2Proof

/-! ## The fabric (R398 to R403) -/

def State.tgt (s : State) (k : Nat) : Tgt := Tab.get {} s.fab.tgts k
def State.setTgt (s : State) (k : Nat) (x : Tgt) : State := { s with fab := { s.fab with tgts := Tab.set {} s.fab.tgts k x } }

/-- The one-ahead initiators in their order: stamp writer, cluster 0, Spindle (R400). -/
def oneAheads : List Nat := [5, 0, 6]
/-- The ordinary initiators (Table 18.2). -/
def ordinaries : List Nat := [1, 2, 3, 4, 7, 8, 9, 10, 11, 12, 13]

/-- The next ordinary initiator after `k` in turn among those requesting. -/
def nextOrdinary (reqs : BitVec 14) (k : Nat) : Option Nat :=
  let rot := ordinaries.filter (fun x => decide (k < x)) ++ ordinaries.filter (fun x => decide (x ≤ k))
  rot.find? (fun x => bit reqs x)

/-- The ordinary decision: the initiator whose turn it is while it has transfers left, else the next requesting (R401). -/
def State.ordinary (s : State) (x : Tgt) (reqs : BitVec 14) : Option Nat × Tgt :=
  if bit reqs x.rrp && decide (x.rrp ∈ ordinaries) && decide (x.used < s.regF (0x040000 + 4 * x.rrp) 0 4) then
    (some x.rrp, { x with used := x.used + 1 })
  else
    match nextOrdinary reqs x.rrp with
    | some k => (some k, { x with rrp := k, used := 1 })
    | none => (none, x)

/-- Requests left after the fence: an initiator whose requesting agent is fenced is answered FENCED without a transfer (R402). -/
def State.unfenced (s : State) (reqs : BitVec 14) (agents : List (Fin 512)) : BitVec 14 :=
  (List.range 14).foldl (fun r k =>
    match agents[k]? with
    | some a => if s.fencedAg a.val then setFld r k (0#1) else r
    | none => r) reqs

/-- The initiator an initiator number's counter events belong to. -/
def pmcInit (k : Nat) : PmcTag := { init := some (.hw (Fin.ofNat 14 k)) }

/-- FABRIC_GRANT: in the last beat of a transfer the target takes the grant decided one ahead (R24), or the ordinary winner where that
slot is stale or none, and decides the next one-ahead grant from the requests present (R399, R400). A frozen target only
completes what was already granted (R403). `agents` lists the agent of each initiator's request, by initiator number. -/
def execFabricGrant (tgt : Fin 6) (reqs nextReqs : BitVec 14) (agents : List (Fin 512)) (s : State) : Answer :=
  let t := tgt.val
  let x := s.tgt t
  if !s.pwr.mainOn then .next s
  else if s.frozenTgt t then .next (s.setTgt t { x with cur := x.oneAhead, oneAhead := none })
  else
    let ok := s.unfenced reqs agents
    let dropped := popCount 14 reqs.toNat - popCount 14 ok.toNat
    let s := if dropped = 0 then s else s.count 0x0403 dropped {}
    let held := match x.oneAhead with | some k => bit ok k | none => false
    let stale := x.oneAhead.isSome && !held
    let (win, y) := if held then (x.oneAhead, x) else s.ordinary x ok
    let s := if stale then s.count 0x0402 1 {} else s
    let s := match win with | some k => s.count 0x0400 1 (pmcInit k) | none => s
    let last := (x.last4 ++ [held]).drop ((x.last4.length + 1) - 3)
    let nok := s.unfenced nextReqs agents
    let ordWaits := ordinaries.any (fun k => bit nok k)
    let next := if ordWaits && decide (last = [true, true, true]) then none else oneAheads.find? (fun k => bit nok k)
    .next (s.setTgt t { y with cur := win, oneAhead := next, last4 := last })

/-- Writes of the FAB window: the supervisor's alone (R401, R403). -/
def writeFab : UnitWrite := fun i r o v s =>
  if i ≠ .sup then refuse .denied s
  else if o < 0x040040 ∧ vf v 0 4 = 0 then refuse .outOfRange s
  else accept r o v s

/-- Reads of the FAB window: FAB_DRAINED shows 1 for a frozen target with no transfer in flight. -/
def readFab (o : Nat) (s : State) : W32 :=
  if o = 0x040044 then
    (List.range 6).foldl (fun (w : W32) k =>
      if s.frozenTgt k && (s.tgt k).cur.isNone && (s.tgt k).oneAhead.isNone then w ||| BitVec.ofNat 32 (2 ^ k) else w) 0#32
  else s.reg o

/-! ## The host window (R404 to R414) -/

/-- Raise an MSI-X vector (R408). -/
def State.raiseMsix (k : Nat) (s : State) : State :=
  { s with
    hst := { s.hst with msix := s.hst.msix ||| BitVec.ofNat 64 (2 ^ k) }
    out := s.out ++ [.msix k] }

/-- A write of HST_I2CCMD (R414). -/
def State.i2cCmd (r : RegRow) (v : Nat) (s : State) : Status × State :=
  let wlen := vf v 16 7
  let rlen := vf v 0 7
  let rd := decide (vf v 30 1 = 1)
  if s.hst.i2cBusy then (.retry, s)
  else if vf (s.reg 0x1E0080).toNat 30 1 = 0 then (.denied, s)
  else if 64 < wlen ∨ 64 < rlen ∨ (rd ∧ rlen = 0) ∨ (wlen = 0 ∧ rlen = 0) then (.outOfRange, s)
  else
    let (_, s) := accept r 0x1E0088 v s
    if vf v 31 1 = 0 then (.ok, s)
    else (.ok, { s with hst := { s.hst with
      i2cBusy := true
      i2cTries := 0
      i2cDue := true } })

/-- The bytes a controller transaction writes (R414). -/
def State.i2cData (s : State) : List Byte :=
  let bytes := (List.range 16).flatMap (fun k => bytesOf 4 (s.reg (0x1E00C0 + 4 * k)))
  bytes.take (s.regF 0x1E0088 16 7)

/-- One attempt of the controller transaction and what the bus made of it (R412, R414). -/
def State.i2cAttempt (bus : I2cBus) (s : State) : State :=
  if !s.hst.i2cDue then s
  else
    let n := s.hst.i2cTries + 1
    let s := { s with
      out := s.out ++ [Out.i2cStart (s.regF 0x1E0088 23 7) s.i2cData]
      hst := { s.hst with i2cTries := min 15 n } }
    match bus with
    | .lost b =>
      let above := decide (s.regF 0x1E0080 24 4 < n)
      { s with hst := { s.hst with
        i2cBit := b
        i2cDue := !above
        i2cEnd := if above then some (.arbLost, []) else none } }
    | .nack => { s with hst := { s.hst with i2cDue := false, i2cEnd := some (.retry, []) } }
    | .done rd => { s with hst := { s.hst with i2cDue := false, i2cEnd := some (.ok, rd) } }

/-- I2C_BACKOFF_EXPIRY: the bus is still free after the back-off and the transaction starts again (R412). -/
def execI2cBackoffExpiry (bus : I2cBus) (s : State) : Answer :=
  if s.pwr.mainOn && s.hst.i2cBusy then .next (s.i2cAttempt bus) else .next s

/-- Write bytes into the data registers from byte 0. -/
def State.i2cFill (bs : List Byte) (s : State) : State :=
  (List.range 16).foldl (fun s k =>
    let part := (bs.drop (4 * k)).take 4
    if part.isEmpty then s
    else
      let old := s.reg (0x1E00C0 + 4 * k)
      s.setReg (0x1E00C0 + 4 * k) (BitVec.ofNat 32 (natOfBytes (part ++ (bytesOf 4 old).drop part.length)))) s

/-- I2C_TRANSACTION_DONE: STATUS, BUSY clear, the read bytes, the HST interrupt (R414). -/
def execI2cTransactionDone (s : State) : Answer :=
  match s.hst.i2cEnd with
  | some (st, rd) =>
    if !s.pwr.mainOn then .next s
    else
      let s := if st = .ok ∧ bit (s.reg 0x1E0088) 30 then s.i2cFill (rd.take (s.regF 0x1E0088 0 7)) else s
      let s := { s with hst := { s.hst with
        i2cStat := st
        i2cBusy := false
        i2cEnd := none } }
      .next (s.irq 7)
  | none => .next s

/-- I2C_SCL_TIMEOUT: the port releases the bus and returns to idle; agent 0x083's epoch rises (R411). -/
def execI2cSclTimeout (s : State) : Answer :=
  if s.pwr.mainOn then
    .next (State.raiseEpoch agI2c { s with hst := { s.hst with
      i2cBusy := false
      i2cDue := false
      i2cEnd := none } })
  else .next s

/-- A write to the item port that is none of R406's two ways: discarded, the open item of its port closed, ITEMBAD counted. -/
def State.itemBad (i : Init) (s : State) : State :=
  { s with hst := { s.hst with
    itembad := satInc 0xFFFF s.hst.itembad
    itemSpi := if i = .spi then none else s.hst.itemSpi
    itemI2c := if i = .i2c then none else s.hst.itemI2c } }

/-- The item open at a management port. -/
def State.itemOpen (s : State) (i : Init) : Option ItemBuf := if i = .spi then s.hst.itemSpi else if i = .i2c then s.hst.itemI2c else none
def State.setItem (i : Init) (b : Option ItemBuf) (s : State) : State :=
  if i = .spi then { s with hst := { s.hst with itemSpi := b } } else { s with hst := { s.hst with itemI2c := b } }

/-- An item from outside enters FIFO 17 with bytes 0-23 of the device's own (R406). -/
def State.itemIn (prio : Nat) (body : Item) (s : State) : State := (s.ingress 17 prio s.momentNow body).2

/-- A word at offset `d` of the item port from a management port (R406). -/
def State.itemWord (i : Init) (d : Nat) (v : W32) (s : State) : Status × State :=
  let p := d / 64
  let k := d % 64 / 4
  if ¬ (i = .spi ∨ i = .i2c) then (.ok, s.itemBad i)
  else
    match s.itemOpen i with
    | none => if k = 0 then (.ok, s.setItem i (some ⟨p, [v]⟩)) else (.ok, s.itemBad i)
    | some b =>
      if b.prio ≠ p ∨ b.words.length ≠ k then (.ok, s.itemBad i)
      else if k < 15 then (.ok, s.setItem i (some ⟨p, b.words ++ [v]⟩))
      else if (s.fifo 17).hold then (.retry, s.setItem i none)
      else (.ok, (s.setItem i none).itemIn p (BitVec.ofNat 512 (natOfBytes ((b.words ++ [v]).flatMap (bytesOf 4)))))

/-- ITEM_PORT_TIMEOUT: chip select has stayed high for 1 ms while an item is open (R410). -/
def execItemPortTimeout (s : State) : Answer :=
  match s.hst.itemSpi with
  | some _ => if s.pwr.mainOn then .next ((s.itemBad .spi).raiseEpoch agSpi) else .next s
  | none => .next s

/-- ITEM_PORT_PCIE_WRITE: one 64-byte posted write; while FIFO 17 holds, the credits are withheld and it waits, as it does while the
register windows are frozen (R403, R406). -/
def execItemPortPcieWrite (prio : Fin 8) (body : Item) (s : State) : Answer :=
  if !s.pwr.mainOn || s.frozenTgt 2 || !s.hst.link || s.hst.d3hot || (s.fifo 17).hold then .next s
  else if s.fencedInit .host then .next ((s.hostError (0x400000000 + 0x1E1000 + 64 * prio.val) .fenced agHost).respond .host .fenced)
  else .next ((s.itemIn prio.val body).respond .host .ok)

/-- PCIE_LINK_DOWN (R116). -/
def execPcieLinkDown (s : State) : Answer := if s.pwr.mainOn then .next s.pcieDown else .next s

/-- PCIE_LINK_UP (R418): the SERDES runs in P0 to P2. -/
def execPcieLinkUp (s : State) : Answer :=
  if s.pwr.mainOn && decide (s.pwr.state < 3) then .next { s with hst := { s.hst with link := true, d3hot := false } } else .next s

/-- FUNCTION_LEVEL_RESET (R116). -/
def execFunctionLevelReset (s : State) : Answer := if s.pwr.mainOn then .next (s.raiseEpoch agHost) else .next s

/-- PCIE_POWER_STATE_CHANGE (R404, R418). -/
def execPciePowerStateChange (d3hot : Bool) (s : State) : Answer :=
  if s.pwr.mainOn && s.hst.link then .next { s with hst := { s.hst with d3hot } } else .next s

/-- OUTBOUND_TIMEOUT: a read without completion in 50 ms gets POWERED_DOWN and event 0x1E01 (R407). -/
def execOutboundTimeout (i : Init) (addr : BitVec 34) (s : State) : Answer :=
  if s.pwr.mainOn then .next ((s.event 0x1E01 (fld addr 6 28 |>.setWidth 32)).respond i .poweredDown) else .next s

/-- A write of HST_NORCMD. The command's layout is not given: while SEC_BOOT.FAIL is set the SPI target reaches the NOR, and what one
command does is one of nothing, a program of the 64 data bytes, a read into them, an erase of 4 KiB, at an address that is free
(R410). -/
def State.norCmd (i : Init) (r : RegRow) (v : Nat) (s : State) : Status × State :=
  if i ≠ .spi || !s.sec.fail then (.denied, s)
  else
    let (_, s) := accept r 0x1E0100 v s
    let (op, s) := s.draw 2
    let (a, s) := s.draw 24
    let at_ := a.toNat / 64 * 64
    let data := (List.range 16).flatMap (fun k => bytesOf 4 (s.reg (0x1E0140 + 4 * k)))
    (.ok,
      if op = 1#2 then s.norPut at_ (((s.norBytes at_ 64).zip data).map (fun p => p.1 &&& p.2))
      else if op = 2#2 then
        (List.range 16).foldl (fun s k => s.setReg (0x1E0140 + 4 * k) (BitVec.ofNat 32 (natOfBytes (s.norBytes (at_ + 4 * k) 4)))) s
      else if op = 3#2 then s.norPut (at_ / 4096 * 4096) (List.replicate 4096 0xFF#8)
      else s)

/-- Writes of the HST window. -/
def writeHst : UnitWrite := fun i r o v s =>
  if 0x1E1000 ≤ o then s.itemWord i (o - 0x1E1000) (BitVec.ofNat 32 v)
  else if 0x1E0010 ≤ o ∧ o < 0x1E0050 then if i ≠ .sup then refuse .denied s else accept r o v s
  else if o = 0x1E0060 then
    if i ≠ .sup then refuse .denied s
    else if v < 32 ∨ 63 < v then refuse .outOfRange s
    else (.ok, s.raiseMsix v)
  else if o = 0x1E007C then
    (.ok, if vf v 0 1 = 1 then { s with hst := { s.hst with errlog := s.hst.errlog.drop 1, errOvf := false } } else s)
  else if o = 0x1E0080 then
    if vf v 28 2 = 3 then refuse .denied s
    else if vf v 16 8 = 0 ∨ vf v 0 7 < 8 ∨ 0x77 < vf v 0 7 then refuse .outOfRange s
    else accept r o v s
  else if o = 0x1E0088 then s.i2cCmd r v
  else if 0x1E00C0 ≤ o ∧ o < 0x1E0100 then if s.hst.i2cBusy then refuse .retry s else accept r o v s
  else if o = 0x1E0100 then s.norCmd i r v
  else if 0x1E0140 ≤ o ∧ o < 0x1E0180 then if i ≠ .spi || !s.sec.fail then refuse .denied s else accept r o v s
  else accept r o v s

/-- Reads of the HST window: the log's head entry in ERRA0, ERRA1 and ERRST (log entry 37). -/
def readHst (o : Nat) (s : State) : W32 :=
  let e := s.hst.errlog.head?
  let f (x : Bool) (k : Nat) : Nat := if x then 2 ^ k else 0
  if o = 0x1E0000 then BitVec.ofNat 32 s.hst.itembad
  else if o = 0x1E0070 then match e with | some (a, _, _) => BitVec.ofNat 32 a | none => 0#32
  else if o = 0x1E0074 then match e with | some (a, _, _) => BitVec.ofNat 32 (a / 2 ^ 32) | none => 0#32
  else if o = 0x1E0078 then
    BitVec.ofNat 32 (f s.hst.errOvf 31 + (match e with | some (_, st, a) => 2 ^ 30 + st.code * 65536 + a | none => 0))
  else if o = 0x1E0084 then
    BitVec.ofNat 32 (f s.hst.i2cBusy 31 + s.hst.i2cStat.code * 65536 + s.hst.i2cTries * 4096 + s.hst.i2cBit.toNat)
  else s.reg o

/-! ## Mailboxes (R415 to R418) -/

def State.chn (s : State) (n : Nat) : Chn := Tab.get {} s.mbx.chans n
def State.setChn (s : State) (n : Nat) (x : Chn) : State := { s with mbx := { s.mbx with chans := Tab.set {} s.mbx.chans n x } }
def mbxReg (n o : Nat) : Nat := 0x050000 + 0x40 * n + o
def State.chEn (s : State) (n : Nat) : Bool := bit (s.reg (mbxReg n 0)) 31
def State.chSrc (s : State) (n : Nat) : Nat := s.regF (mbxReg n 0) 28 3
def State.chDst (s : State) (n : Nat) : Nat := s.regF (mbxReg n 0) 25 3
def State.chSq (s : State) (n : Nat) : Nat := s.regF (mbxReg n 4) 16 16
def State.chDq (s : State) (n : Nat) : Nat := s.regF (mbxReg n 4) 0 16

/-- A domain may be named on a secure channel (R415). -/
def State.domSecure (s : State) (d : Nat) : Bool :=
  decide (d = 1 ∨ d = 2) || (decide (d = 0 ∨ d = 4) && decide (s.sec.life = 0))

/-- The mailbox domain of an initiator. -/
def initDomain (i : Init) : Option Nat :=
  match i with
  | .host => some 0
  | .sup => some 1
  | .thread t => some (if t.val < 32 then 2 else 3)
  | .spi => some 4
  | .i2c => some 4
  | .twin => none
  | .tree => none
  | .hw _ => none

/-- An initiator may use channel `n`: any but the secure ones, where its domain must be secure (R415). -/
def State.mbxAllowed (s : State) (i : Init) (n : Nat) : Bool :=
  decide (16 ≤ n) || (match initDomain i with | some d => s.domSecure d | none => false)

/-- A domain is powered down (R418); the owner cluster is that of the channel's DQ. -/
def State.domDown (s : State) (n d : Nat) : Bool :=
  if d = 0 then !s.hst.link || s.hst.d3hot
  else if d = 1 then decide (3 ≤ s.pwr.state)
  else if d = 2 ∨ d = 3 then !s.clusterRuns (s.desc (s.chDq n)).owner
  else false

/-- A record enters a channel's ring; the host gets MSI-X vector n (R408). -/
def State.mbxArrive (n : Nat) (rec_ : BitVec 128) (key : Item) (s : State) : State :=
  let s := s.setChn n { ring := (s.chn n).ring ++ [(rec_, key)] }
  if s.chDst n = 0 then s.raiseMsix n else s

/-- MBX_SENDn read by an initiator: the record of its bank is sent and the status returned (R417). -/
def State.mbxSend (i : Init) (n : Nat) (s : State) : Status × State :=
  if !s.mbxAllowed i n || !s.chEn n || decide (initDomain i ≠ some (s.chSrc n)) then (.denied, s)
  else if s.domDown n (s.chDst n) then (.poweredDown, s)
  else if 16 ≤ (s.chn n).ring.length then (.retry, s)
  else
    let w (k : Nat) : Nat := (Tab.get 0#32 s.mbx.srec (i.key * 4 + k)).toNat
    let rec_ := BitVec.ofNat 128 (w 0 + w 1 * 2 ^ 32 + w 2 * 2 ^ 64 + w 3 * 2 ^ 96)
    let (key, s) := s.stampAs 52 s.momentNow 0#512
    (.ok, s.mbxArrive n rec_ key)

/-- The reply for a powered-down receiver: the same TAG, STATUS POWERED_DOWN, FROM the receiving domain (R417). -/
def downReply (rec_ : BitVec 128) (d : Nat) : BitVec 128 :=
  setFld (setFld (setFld (0#128 : BitVec 128) 96 (fld rec_ 96 16)) 112 (BitVec.ofNat 8 Status.poweredDown.code)) 120 (BitVec.ofNat 8 d)

/-- MBX_TAKE: MBX takes a record item from SQ when the ring has room; a powered-down receiver's is answered on the paired channel
(R417). -/
def execMbxTake (n : Fin 32) (s : State) : Answer :=
  let src := s.chSrc n.val
  let pair := if n.val % 2 = 0 then n.val + 1 else n.val - 1
  let down := s.domDown n.val (s.chDst n.val)
  let room := decide ((s.chn (if down then pair else n.val)).ring.length < 16)
  if !s.pwr.mainOn || !s.chEn n.val || decide (src = 0 ∨ 3 < src) || !room then .next s
  else
    match s.hwTake (s.chSq n.val) with
    | (none, s) => .next s
    | (some x, s) =>
      let rec_ : BitVec 128 := fld x 320 128
      .next (if down then s.mbxArrive pair (downReply rec_ (s.chDst n.val)) x else s.mbxArrive n.val rec_ x)

/-- MBX_DELIVER: a record for a Garnil domain is published on DQ, with the channel number in byte 56 and the key of the sender's
item (R418). -/
def execMbxDeliver (n : Fin 32) (s : State) : Answer :=
  let d := s.chDst n.val
  match (s.chn n.val).ring with
  | [] => .next s
  | (rec_, key) :: rest =>
    if !s.pwr.mainOn || !s.chEn n.val || decide (d = 0 ∨ 3 < d) || s.domDown n.val d then .next s
    else
      let x : Item := setFld (setFld (setFld (0#512 : Item) 0 (fld key 0 320)) 320 rec_) 448 (BitVec.ofNat 8 n.val)
      let (ok, s) := s.hwPut (s.chDq n.val) x
      .next (if ok then s.setChn n.val { ring := rest } else s)

/-- HST_INT_N is low while a ring for the host or the management ports holds a record (Table 19.2). -/
def State.hstIntLow (s : State) : Bool :=
  (List.range 32).any (fun n => decide (s.chDst n = 0 ∨ s.chDst n = 4) && !(s.chn n).ring.isEmpty)

/-- Writes of the MBX window (R415, R417, R418). -/
def writeMbx : UnitWrite := fun i r o v s =>
  if 0x050800 ≤ o then
    (.ok, { s with mbx := { s.mbx with srec := Tab.set 0#32 s.mbx.srec (i.key * 4 + (o - 0x050800) / 4) (BitVec.ofNat 32 v) } })
  else
    let n := (o - 0x050000) / 0x40
    let f := (o - 0x050000) % 0x40
    if !s.mbxAllowed i n then refuse .denied s
    else if f = 0x20 then
      let d := s.chDst n
      (.ok, if vf v 0 1 = 1 && decide (d = 0 ∨ d = 4) then s.setChn n { ring := (s.chn n).ring.drop 1 } else s)
    else if i ≠ .sup then refuse .denied s
    else if f = 0 ∧ n < 16 ∧ ¬ (s.domSecure (vf v 28 3) ∧ s.domSecure (vf v 25 3)) then refuse .denied s
    else if f = 0 ∧ (4 < vf v 28 3 ∨ 4 < vf v 25 3) then refuse .outOfRange s
    else accept r o v s

/-- Reads of the MBX window; MBX_SENDn's read is `mbxSend`. -/
def readMbx (i : Init) (o : Nat) (s : State) : W32 :=
  if 0x050800 ≤ o then Tab.get 0#32 s.mbx.srec (i.key * 4 + (o - 0x050800) / 4)
  else
    let n := (o - 0x050000) / 0x40
    let f := (o - 0x050000) % 0x40
    if f = 0 then (s.reg o &&& 0xFE000000#32) ||| BitVec.ofNat 32 (s.chn n).ring.length
    else if 0x10 ≤ f ∧ f < 0x20 then
      match (s.chn n).ring with
      | (x, _) :: _ => fld x (8 * (f - 0x10)) 32
      | [] => 0#32
    else s.reg o

/-! ## Performance counters (R419 to R422) -/

/-- The assigned event numbers (Table 18.8). -/
def pmcAssigned (e : Nat) : Bool :=
  decide (e = 0) || decide (0x100 ≤ e ∧ e < 0x110) || decide (0x200 ≤ e ∧ e < 0x204) || decide (0x300 ≤ e ∧ e < 0x305)
    || decide (0x400 ≤ e ∧ e < 0x404) || decide (0x500 ≤ e ∧ e < 0x504) || decide (0x600 ≤ e ∧ e < 0x66A)

def State.cnt (s : State) (n : Nat) : BitVec 48 := Tab.get 0#48 s.pmc.cnt n

/-- Writes of the PMC window. -/
def writePmc : UnitWrite := fun _ r o v s =>
  let d := o - 0x060000
  if d < 0x600 then
    let n := d / 8
    let x : BitVec 48 := if d % 8 = 0 then setFld (s.cnt n) 0 (BitVec.ofNat 32 v) else setFld (s.cnt n) 32 (BitVec.ofNat 16 v)
    (.ok, { s with pmc := { s.pmc with cnt := Tab.set 0#48 s.pmc.cnt n x } })
  else if 0x800 ≤ d ∧ d < 0xB00 then
    if !pmcAssigned (vf v 16 16) then refuse .outOfRange s
    else if 0x800 + 4 * 176 ≤ d ∧ bit (s.reg 0x061060) 0 then (.ok, s)
    else accept r o v s
  else if 0x1000 ≤ d ∧ d < 0x1018 then
    let k := (d - 0x1000) / 4 * 32
    (.ok, { s with pmc := { s.pmc with ovf := s.pmc.ovf.filter (fun p =>
      !(decide (k ≤ p.1 ∧ p.1 < k + 32) && decide (v / 2 ^ (p.1 - k) % 2 = 1))) } })
  else if d = 0x1064 then if v ≠ 0 ∧ (v < 10 ∨ 10000000 < v) then refuse .outOfRange s else accept r o v s
  else if d = 0x1068 then acceptAligned 64 r o v s
  else if d = 0x1078 then (.ok, if vf v 0 1 = 1 then { s with pmc := { s.pmc with skip := 0 } } else s)
  else if d = 0x107C then if v < 10 ∨ 1000000 < v then refuse .outOfRange s else accept r o v s
  else if 0x1080 ≤ d then
    let k := (d - 0x1080) / 4
    (.ok, { s with pmc := { s.pmc with peak := Tab.set 0#32 s.pmc.peak k (Tab.get 0#32 s.pmc.peak k &&& ~~~(BitVec.ofNat 32 v)) } })
  else accept r o v s

/-- Reads of the PMC window; a 32-bit read of PMC_CNTL latches the upper bits (`cntlRead`). -/
def readPmc (o : Nat) (s : State) : W32 :=
  let d := o - 0x060000
  if d < 0x600 then
    if d % 8 = 0 then fld (s.cnt (d / 8)) 0 32 else BitVec.setWidth 32 (Tab.get 0#16 s.pmc.hlatch (d / 8))
  else if 0x1000 ≤ d ∧ d < 0x1018 then
    let k := (d - 0x1000) / 4 * 32
    s.pmc.ovf.foldl (fun (w : W32) p => if k ≤ p.1 ∧ p.1 < k + 32 then w ||| BitVec.ofNat 32 (2 ^ (p.1 - k)) else w) 0#32
  else if d = 0x1074 then BitVec.ofNat 32 s.pmc.ringwr
  else if d = 0x1078 then BitVec.ofNat 32 s.pmc.skip
  else if 0x1080 ≤ d then Tab.get 0#32 s.pmc.peak ((d - 0x1080) / 4)
  else s.reg o

/-- The latch a read of PMC_CNTLn makes (R419). -/
def State.cntlLatch (n : Nat) (s : State) : State :=
  { s with pmc := { s.pmc with hlatch := Tab.set 0#16 s.pmc.hlatch n (fld (s.cnt n) 32 16) } }

/-- A record of PMC_CAPTURE (R421). -/
def State.pmcRecord (s : State) : List Byte :=
  bytesOf 12 s.stampNow ++ bytesOfNat 8 s.tb.elapsed ++ bytesOf 4 s.pmc.rseq ++ List.replicate 40 0#8
    ++ (List.range 192).flatMap (fun n => bytesOfNat 8 ((s.cnt n).toNat + (if Tab.get false s.pmc.ovf n then 2 ^ 63 else 0)))

/-- PMC_CAPTURE: due once per PMC_DUMP period; a capture that cannot be written while DRAM is frozen is skipped (R421). -/
def execPmcCapture (s : State) : Answer :=
  let period := (s.reg 0x061064).toNat
  let n := (s.reg 0x061070).toNat
  let a := s.reg2 0x061068 + 1600 * s.pmc.ringwr
  if !s.dramOn || decide (period = 0) || !s.past s.pmc.capAt (period * usCounts) then .next s
  else if n = 0 ∨ s.ramFrozen a 1600 then .next { s with pmc := { s.pmc with capAt := s.tb.elapsed, skip := satInc 0xFFFFFFFF s.pmc.skip } }
  else
    let s' := (State.copyOut (.hw 13) a (parts 64 25 s.pmcRecord) s).2
    .next { s' with pmc := { s'.pmc with
      capAt := s.tb.elapsed
      rseq := s.pmc.rseq + 1#32
      ringwr := if s.pmc.ringwr + 1 < n then s.pmc.ringwr + 1 else 0 } }

/-- PMC_BW_WINDOW: the derived counters take the window's bytes and the peaks the largest (R422). -/
def execPmcBwWindow (bytes : List W32) (s : State) : Answer :=
  let w := (s.reg 0x06107C).toNat
  if !s.pwr.mainOn || !bit (s.reg 0x061060) 0 || !s.pmc.bw || decide (w = 0) || !s.past s.pmc.bwAt (w * usCounts) then .next s
  else
    let s := (List.range 16).foldl (fun s k =>
      let b := bytes.getD k 0#32
      let old := Tab.get 0#32 s.pmc.peak k
      { s with pmc := { s.pmc with
        cnt := Tab.set 0#48 s.pmc.cnt (176 + k) (BitVec.setWidth 48 b)
        peak := Tab.set 0#32 s.pmc.peak k (if old.toNat < b.toNat then b else old) } }) s
    .next { s with pmc := { s.pmc with bwAt := s.tb.elapsed } }

end Sys2Proof.Machine
end

