-- ==== Sys2Proof/Machine/Pin.lean ====
section
/-! DEFINITION. Multiplexed pins and GPIO (R430 to R434), JTAG (R438), and the SYS window (R447). -/

namespace Sys2Proof.Machine
open Sys2Proof

def pinFunc (p : Nat) : Nat := 0x020000 + 8 * p
/-- Whether a pin has a named function (Table 19.2). -/
def pinNamed (p : Nat) : Bool :=
  decide (p < 26) || decide (32 ≤ p ∧ p < 38) || decide (p = 64) || decide (96 ≤ p ∧ p < 120) || decide (128 ≤ p)
/-- The named function is absent: pulse inputs 16 to 63 on the LNS8192-R (Table 19.2). -/
def State.pinAbsent (s : State) (p : Nat) : Bool := decide (s.sys.variant = .r) && decide (144 ≤ p)
def State.pinBusy (s : State) (p : Nat) : Bool := Tab.get false s.pin.busy p

/-- A write of PIN_FUNCp (R431, R432). -/
def State.pinFuncWrite (p v : Nat) (r : RegRow) (s : State) : Status × State :=
  let f := vf v 0 2
  if 2 ≤ f ∨ (f = 1 ∧ ¬ pinNamed p) then (.denied, s)
  else if f = 1 ∧ s.pinAbsent p then (.absent, s)
  else if s.pinBusy p then (.retry, s)
  else if f = s.regF (pinFunc p) 0 2 then (.ok, s)
  else
    let (_, s) := accept r (pinFunc p) v s
    (.ok, { s with pin := { s.pin with busy := Tab.set false s.pin.busy p true } })

/-- The GPIO word of bank `b` a write leaves: the display port's bits stand while the check value is shown (R211). -/
def State.gpioValue (s : State) (o v : Nat) : Nat :=
  if s.ldg.show_.isSome ∧ (o - 0x020800) / 16 = 3 then
    ((BitVec.ofNat 32 v &&& 0xFF3FFFFF#32) ||| (s.reg o &&& 0x00C00000#32)).toNat
  else v

/-- Writes of the PIN window (R211, R431, R433). -/
def writePin : UnitWrite := fun i r o v s =>
  let d := o - 0x020000
  if 0x800 ≤ d then
    if (match i with | .sup => true | .host => true | .thread t => decide (32 ≤ t.val) | _ => false) then accept r o (s.gpioValue o v) s else refuse .denied s
  else if ¬ (i = .sup ∨ i = .host) then refuse .denied s
  else if d % 8 = 0 then s.pinFuncWrite (d / 8) v r
  else if vf v 4 2 = 3 ∨ vf v 0 2 = 3 then refuse .denied s
  else if s.pinBusy (d / 8) then refuse .retry s
  else accept r o v s

/-- The FIFO whose hold a pin's named function carries: RFn_HOLD and WIRn_HOLD (Tables 3.3 and 19.2). -/
def holdPin (p : Nat) : Option Nat :=
  match p with
  | 8 => some 2 | 21 => some 3 | 99 => some 4 | 103 => some 5 | 107 => some 6 | 111 => some 7 | 114 => some 8 | 117 => some 9
  | _ => none

/-- DSP_CLK and DSP_DAT (Table 19.2). -/
def pinDisplay (p : Nat) : Bool := decide (p = 118 ∨ p = 119)

/-- The level the device drives on a pin, where the spec gives it: its PARK value during a switch and in P3; the hold of a FIFO on a pin of
that function (R81); else GPOUT of a function-0 pin whose output is enabled (R432, R433, Table 19.4). LDG drives the display port while
the check value is shown (R211). -/
def State.pinDriven (s : State) (p : Nat) : Option Bool :=
  if s.pinBusy p ∨ 3 ≤ s.pwr.state then
    let k := s.regF (pinFunc p + 4) 0 2
    if k = 0 then some false else if k = 1 then some true else none
  else if s.ldg.show_.isSome ∧ pinDisplay p then none
  else if s.regF (pinFunc p) 0 2 = 1 then (holdPin p).map (fun n => (s.fifo n).hold)
  else if s.regF (pinFunc p) 0 2 = 0 ∧ bit (s.reg (0x020804 + 16 * (p / 32))) (p % 32) then
    some (bit (s.reg (0x020800 + 16 * (p / 32))) (p % 32))
  else none

/-- Reads of the PIN window; the level of a pin the device does not drive as GPIO is the outside world's (free). -/
def readPin (o : Nat) (s : State) : W32 × State :=
  let d := o - 0x020000
  if 0x800 ≤ d ∧ d % 16 = 8 then
    let b := (d - 0x808) / 16
    let (x, s) := s.draw 32
    ((List.range 32).foldl (fun (w : W32) j =>
      match s.pinDriven (32 * b + j) with
      | some l => setFld w j (ofBool 1 l)
      | none => w) x, s)
  else if d < 0x600 ∧ d % 8 = 0 then
    (s.reg o ||| (if s.pinBusy (d / 8) then 0x80000000#32 else 0#32), s)
  else (s.reg o, s)

/-- PIN_SWITCH_DONE: the new function takes the pin and BUSY clears; a switch written during P3 is made on exit (R432, R433). -/
def execPinSwitchDone (p : Fin 192) (s : State) : Answer :=
  if s.pwr.mainOn && decide (s.pwr.state < 3) then .next { s with pin := { s.pin with busy := Tab.set false s.pin.busy p.val false } } else .next s

/-- JTAG_INSTRUCTION: in PROVISION the instructions R438 names act; otherwise every other than BYPASS and IDCODE acts as BYPASS. -/
def execJtagInstruction (j : Jtag) (s : State) : Answer :=
  let acts := decide (j = .idcode) || (decide (s.sec.life = 0) && decide (j ≠ .other))
  .next { s with pin := { s.pin with jtag := if acts then j else .bypass } }

/-- Writes of the SYS window: SYS_RSTCAUSE. -/
def writeSys : UnitWrite := fun _ _ _ v s => (.ok, { s with sys := { s.sys with cause := s.sys.cause &&& ~~~(BitVec.ofNat 32 v) } })

/-- Reads of the SYS window (Tables 20.2 to 20.4). -/
def readSys (o : Nat) (s : State) : W32 :=
  if o = 0 then setFld (0x81920000#32 : W32) 0 s.sys.rev
  else if o = 4 then caps0 s.sys.variant
  else if o = 8 then caps1 s.sys.variant
  else if o = 0xC then caps2 s.sys.variant
  else if 0x10 ≤ o ∧ o < 0x20 then fld s.sys.serial (8 * (o - 0x10)) 32
  else if o = 0x20 then s.sys.cause
  else 0#32

end Sys2Proof.Machine
end

