-- ==== Sys2Proof/Machine/Sched.lean ====
section
/-! DEFINITION. Descriptor commands (R71 to R74, R450), dispatch and the reserve (R67, R69, R75, R76), the watchdog (R89), FIFO
arrival and drain (R80 to R83), queue replay (R87), fault reports (R92), and the QM, GE and SUP windows. -/

namespace Sys2Proof.Machine
open Sys2Proof

/-! ## Descriptors (Table 3.1) -/

def State.ddata (s : State) (k : Nat) : W32 := s.reg (0x080020 + 4 * k)

/-- The eight words of a descriptor. -/
def Desc.words (d : Desc) : List W32 :=
  let f (x : Bool) (k : Nat) : Nat := if x then 2 ^ k else 0
  [BitVec.ofNat 32 (d.base.toNat * 256 + d.mode.toNat * 32 + d.log2n), BitVec.ofNat 32 (d.rsv * 2 ^ 21 + d.head),
   BitVec.ofNat 32 (d.infl * 2 ^ 21 + d.tail), BitVec.ofNat 32 d.headn, BitVec.ofNat 32 d.tailn,
   BitVec.ofNat 32 (d.rdlim * 2 ^ 24 + d.disp),
   BitVec.ofNat 32 (d.entry.toNat * 65536 + d.prio * 8192 + d.owner * 2048 + d.cls * 256 + d.putc.toNat * 16 + f d.puts 3
     + f d.merge 2 + f d.rpl 1 + f d.en 0),
   BitVec.ofNat 32 (d.sideq * 65536 + d.state * 16384 + f d.supown 13)]

/-- The fields a WRITE changes, from words 5, 6 and 7 (R73). -/
def State.ddWrite (s : State) (d : Desc) : Desc :=
  let w6 := s.ddata 6
  { d with
    rdlim := (fld (s.ddata 5) 24 8).toNat
    entry := fld w6 16 16
    prio := (fld w6 13 3).toNat
    putc := fld w6 4 4
    puts := bit w6 3
    merge := bit w6 2
    rpl := bit w6 1
    en := bit w6 0
    sideq := (fld (s.ddata 7) 16 16).toNat }

/-- The descriptor a CREATE installs: words 0, 5, 6 and 7 (R73). A queue made anew records event 0x0B01 anew at its first publication
without a context (DESIGN CHOICE, log entry 49: R100 does not speak of a queue deleted and created again). -/
def State.ddCreate (s : State) (d : Desc) : Desc :=
  let w0 := s.ddata 0
  let w6 := s.ddata 6
  let n := (fld w0 0 5).toNat
  s.ddWrite
    { gen := d.gen
      base := fld w0 8 24
      mode := fld w0 5 3
      log2n := n
      owner := (fld w6 11 2).toNat
      cls := (fld w6 8 3).toNat
      supown := bit (s.ddata 7) 13
      filling := decide (n ≠ 0) }

/-- The DENIED causes of R74, and a class other than 0 on Q0x0000-Q0x01A7 (R72). -/
def createDenied (q : Nat) (d : Desc) : Bool :=
  (d.hasRing && decide (d.ring % (64 * d.size) ≠ 0)) || decide (d.log2n ≠ 0 ∧ (d.log2n < 4 ∨ 20 < d.log2n))
    || decide (2 < d.mode.toNat) || decide (d.cls = 7) || decide (d.cls = 2 ∧ d.owner ≠ 0)
    || decide (d.cls = 0 ∧ 0x1A7 < q) || decide (d.cls ≠ 0 ∧ q ≤ 0x1A7) || (d.hasRing && decide (136 ≤ q ∧ q < 416))

/-- The slots of a queue not yet dispatched, oldest first: what MERGE does not govern before it is set. -/
def Desc.waiting (d : Desc) : List Nat :=
  (List.range ((d.tail + d.modulus - d.disp % d.modulus) % d.modulus)).map (fun k => (d.disp + k) % d.modulus)

/-- A change of MERGE: slots published before keep their order; what a merge context holds is released (R100, R101). -/
def State.mergeChange (q : Nat) (was now : Bool) (s : State) : State :=
  if was = now then s
  else if now then
    let d := s.desc q
    s.setDesc q { d with rel := if d.rel.isEmpty then d.waiting else d.rel }
  else match s.ctxOf q with
    | some c => s.releaseAll c
    | none => s

/-- The outcome of a descriptor command: QM_DSTAT and the response (R74). -/
def State.ddOut (st : Status) (s : State) : Status × State := (st, { s with qm := { s.qm with dstat := st } })

/-- A CREATE (R73, R74). -/
def State.ddCmdCreate (q : Nat) (s : State) : Status × State :=
  let d := s.desc q
  let n := s.ddCreate d
  if d.hasRing then s.ddOut .retry
  else if createDenied q n then s.ddOut .denied
  else if n.rdlim = 0 then s.ddOut .outOfRange
  else ({ s.setDesc q n with qm := { (s.setDesc q n).qm with busyQ := if n.filling then some q else none } }).ddOut .ok

/-- A WRITE (R73); on a halted queue it sets STATE back to normal and must name a SIDEQ that can take the item (R79). -/
def State.ddCmdWrite (q : Nat) (s : State) : Status × State :=
  let d := s.desc q
  let n := s.ddWrite d
  if n.rdlim = 0 then s.ddOut .outOfRange
  else if d.state = 2 ∧ ¬ (n.sideq ≠ q ∧ s.canPut n.sideq) then s.ddOut .retry
  else
    let s := (s.setDesc q { n with state := if d.state = 2 then 0 else d.state }).mergeChange q d.merge n.merge
    (s.setAside q).ddOut .ok

/-- A DELETE (R73). -/
def State.ddCmdDelete (q : Nat) (s : State) : Status × State :=
  let d := s.desc q
  if d.depth ≠ 0 ∨ d.rsv ≠ 0 ∨ d.infl ≠ 0 then s.ddOut .retry
  else (s.setDesc q { d with log2n := 0 }).ddOut .ok

/-- A READ: the words go to QM_DDATA0-7, after the pointer check (R73, R84, R450). A READ that finds the check failed resets the queue,
returns the reset descriptor and reports OK (DESIGN CHOICE, log entry 38). -/
def State.ddCmdRead (q : Nat) (s : State) : Status × State :=
  let (_, s) := s.qmAccess q
  let ws := (s.desc q).words
  (((List.range 8).zip ws).foldl (fun s p => s.setReg (0x080020 + 4 * p.1) p.2) s).ddOut .ok

/-- A write of QM_DCMD (R73): the supervisor's, but for CREATE, WRITE and DELETE on a class-2 descriptor, which are Heartwood's. -/
def State.ddCmd (i : Init) (op : Nat) (s : State) : Status × State :=
  let q := s.regF 0x080000 0 16
  let cls2 := if op = 1 then decide ((s.ddCreate {}).cls = 2) else decide ((s.desc q).cls = 2)
  let may := if op ≠ 0 ∧ cls2 then i.heartwood else decide (i = .sup)
  if !may then (.denied, s)
  else if s.qm.busyQ.isSome then s.ddOut .retry
  else if op = 0 then s.ddCmdRead q
  else if op = 1 then s.ddCmdCreate q
  else if op = 2 then s.ddCmdWrite q
  else s.ddCmdDelete q

/-- CREATE_ZERO_FILL_DONE: the ring is zero and the queue may be used (R73). -/
def execCreateZeroFillDone (s : State) : Answer :=
  match s.qm.busyQ with
  | none => .next s
  | some q =>
    if !s.dramOn then .next s
    else
      let d := s.desc q
      let a := d.ring
      let n := 64 * d.size
      let s := { s with
        mem := { s.mem with
          dram := s.mem.dram.filter (fun p => !(decide (a ≤ p.1) && decide (p.1 < a + n)))
          poison := s.mem.poison.filter (fun p => !(decide (a / 64 ≤ p.1) && decide (p.1 < (a + n) / 64)))
          plog := s.mem.plog.filter (fun p => match p.2 with
            | some (l, _) => !(decide (a / 64 ≤ l) && decide (l < (a + n) / 64))
            | none => false) }
        qm := { s.qm with busyQ := none } }
      .next (s.setDesc q { d with filling := false })

/-! ## Replay (R87) -/

/-- A write of 1 to QM_RPL_GO. -/
def State.rplGo (i : Init) (s : State) : Status × State :=
  let q := s.regF 0x080064 0 16
  let n := (s.reg 0x080060).toNat
  if i ≠ .sup then (.denied, s)
  else if s.qm.replay.isSome then (.retry, s)
  else if (s.desc q).size < n then (.outOfRange, s)
  else if (s.desc q).state ≠ 1 then (.denied, s)
  else (.ok, { s with qm := { s.qm with replay := some ⟨q, s.reg2 0x080058, n⟩ } })

/-- QUEUE_REPLAY_DONE: the items are published in buffer order, the queue is normal again, PEND clears, and event 0x0804 records the
count not replayed: how far the replay's count falls short of the depth the reset emptied (DEDUCED, log entry 38). A queue whose
pointers fail the check (R84) is reset again and takes none of the items. -/
def execQueueReplayDone (s : State) : Answer :=
  match s.qm.replay with
  | none => .next s
  | some r =>
    if !s.dramOn then .next s
    else
      let lost := (s.desc r.q).lost
      let (ok, s) := s.qmAccess r.q
      if !ok then
        let s := { s with qm := { s.qm with replay := none } }
        .next (s.event 0x0804 (BitVec.ofNat 32 (min 0xFFFF (max lost r.cnt) * 65536 + r.q)))
      else
        let s := s.setDesc r.q { s.desc r.q with state := 0 }
        let s := (List.range r.cnt).foldl (fun s k => s.publish r.q 0 (BitVec.ofNat 512 (s.ramNat (r.addr + 64 * k) 64))) s
        let s := { s with qm := { s.qm with replay := none, pend := false } }
        .next (s.event 0x0804 (BitVec.ofNat 32 (min 0xFFFF (lost - r.cnt) * 65536 + r.q)))

/-! ## Dispatch (R67, R69, R75) -/

/-- The items a handover gates: those of the switch's epoch and later for a changing cluster (R352). -/
def State.handGated (s : State) (c : Nat) (x : Item) : Bool :=
  match s.upd.hand with
  | some (e, cl, _, _) => bit cl c && decide (e.toNat ≤ (itemEpoch x).toNat)
  | none => false

/-- The item of queue `q` that a thread of cluster `c` may take; a reserve thread takes only what a fault or expiry returned (R69). -/
def State.dispItem (s : State) (c : Nat) (reserve : Bool) (q : Nat) : Option Ret :=
  let d := s.desc q
  if decide (d.owner = c) && d.en && decide (d.state = 0) && !d.filling
      && (decide (d.mode = 0#3) || (decide (d.mode = 1#3) && decide (d.infl = 0))) then
    match s.headItem q with
    | some r => if s.handGated c r.item || (reserve && !r.fault) then none else some r
    | none => none
  else none

/-- Priority of a queue's next dispatch (R76). -/
def Desc.effPrio (d : Desc) : Nat := if d.starved then 7 else d.prio

/-- The queue to serve: the highest priority, round-robin after the queue last served at it (R75). -/
def State.pickQueue (s : State) (c : Nat) (reserve : Bool) : Option Nat :=
  let qs := (s.qm.descs.map (·.1)).filter (fun q => (s.dispItem c reserve q).isSome)
  let top := qs.foldl (fun n q => max n (s.desc q).effPrio) 0
  let best := qs.filter (fun q => decide ((s.desc q).effPrio = top))
  let last := Tab.get 65536 s.qm.rr (8 * c + top)
  match best.find? (fun q => decide (last < q ∧ last < 65536)) with
  | some q => some q
  | none => best.head?

/-- cw18 as it stands (Table 2.2). -/
def State.pairWord (s : State) : Word :=
  BitVec.ofNat 64 ((if s.solo then 4096 else 0) + s.role * 512 + s.twinBit * 256 + s.pair)

/-- The thread's state at dispatch (R29). -/
def State.taskStart (t q : Nat) (r : Ret) (s : State) : State :=
  let c := clusterOf t
  let d := s.desc q
  let old := s.thread t
  s.setThread t
    { g := Tab.set 0#64 [] 1 (BitVec.ofNat 64 q)
      pc := BitVec.ofNat 24 (d.entry.toNat * 4)
      scratch := ramPutTab old.scratch 0 (bytesOf 64 r.item)
      iepoch := itemEpoch r.item
      pairid := s.pairWord
      st := .running
      q := q
      qgen := d.gen
      ptr := r.ptr
      count := r.count
      item := r.item
      wdStart := s.tb.elapsed
      wdLimit := s.regF (0x090010 + 4 * c) 0 17
      dispSeq := s.ord.cseq }

/-! ### Replays (R313) -/

/-- The record of a pair sequence, whose epoch and Heartwood image are still held. -/
def State.replayOf (s : State) (ps : BitVec 48) : Option ReplayRec :=
  (s.twn.replays.find? (fun r => r.outs.any (fun o => decide (o.1 = ps)))).bind (fun r =>
    if (r.epoch = s.cfg.cur ∨ r.epoch = s.cfg.cur - 1#32) ∧ r.image = s.hwVersion then some r else none)

/-- The restore window closes at cluster 0's first dispatch (R195). -/
def State.restoreClose (s : State) : State :=
  if s.ldg.restore then
    State.event 0x0C07 (BitVec.ofNat 32 (min 0xFFFFFFFF s.ldg.restCnt)) { s with ldg := { s.ldg with restore := false } }
  else s

/-- A freed thread refills the reserve before any ordinary dispatch: fewer than four there, at most two on one engine (R69). -/
def State.refill (t : Nat) (s : State) : State :=
  let c := clusterOf t
  let here := (s.reserveOf c).filter (fun x => decide (engineOf x = engineOf t))
  if t ∈ s.ge.reserve ∨ 4 ≤ (s.reserveOf c).length ∨ 2 ≤ here.length ∨ ¬ s.engineOk (engineOf t) then s
  else State.reserveCheck c { s with ge := { s.ge with reserve := s.ge.reserve ++ [t] } }

/-- A thread may be given a task: free, unfenced, its cluster running and not about to park, no rejoin in progress, and the ROM
has found a boot copy (R67, R90, R327, R343, R385). -/
def State.canTake (s : State) (t : Nat) : Bool :=
  let c := clusterOf t
  s.pwr.mainOn && decide (s.pwr.state < 3) && s.clusterPresent c && s.clusterRuns c && !bit s.pwr.gate c && !s.twn.joining
    && !s.sec.fail && decide ((s.thread t).st = .free) && !s.fencedAg t

/-- A replay starts on a thread as its task did: the item dispatched again, with no item of a queue behind it (R29, R313). -/
def State.replayRun (t : Nat) (ps : BitVec 48) (r : ReplayRec) (s : State) : State :=
  let s := s.taskStart t r.q ⟨0, 0, r.item, false⟩
  s.setThread t { s.thread t with rpl := some (ps, r) }

/-- A request is answered STALE, started on a thread of cluster 0 that may be given a task and is none of the reserve, or waits for
one (R69, R313; which thread is DESIGN CHOICE, log entry 31). -/
def State.replayStart (ps : BitVec 48) (s : State) : State :=
  match s.replayOf ps with
  | none =>
    let first := match s.twn.replays.find? (fun r => r.outs.any (fun o => decide (o.1 = ps))) with | some r => r.first ps | none => 0#64
    s.replayAnswer ps first 0#64 .stale
  | some r =>
    match (List.range 32).find? (fun t => s.canTake t && decide (t ∉ s.ge.reserve)) with
    | some t => s.replayRun t ps r
    | none => { s with twn := { s.twn with rplWait := s.twn.rplWait ++ [ps] } }

/-- Give the thread the head item of a queue. -/
def State.dispatchFrom (t q : Nat) (r : Ret) (s : State) : State :=
  let c := clusterOf t
  let d := s.desc q
  let s := { s with
    qm := { s.qm with rr := Tab.set 65536 s.qm.rr (8 * c + d.effPrio) q }
    ge := { s.ge with reserve := s.ge.reserve.filter (fun x => decide (x ≠ t)) } }
  let s := s.takeHead q
  let d := s.desc q
  let s := s.setDesc q { d with
    infl := d.infl + 1
    starved := false
    waitFrom := some s.tb.elapsed }
  let s := (s.taskStart t q r).count 0x0200 1 { cls := some d.cls }
  if c = 0 then s.restoreClose else s

/-- DISPATCH; a replay that waits goes before the queues of cluster 0 (R313, DESIGN CHOICE, log entry 31). -/
def execDispatch (t : Fin 128) (s : State) : Answer :=
  if !s.canTake t.val then .next s
  else
    let s := s.refill t.val
    let c := clusterOf t.val
    if c = 0 ∧ t.val ∉ s.ge.reserve ∧ s.twn.rplWait ≠ [] then
      .next (State.replayStart (s.twn.rplWait.headD 0#48) { s with twn := { s.twn with rplWait := s.twn.rplWait.tail } })
    else match s.pickQueue c (decide (t.val ∈ s.ge.reserve)) with
    | none => .next s
    | some q =>
      let (ok, s') := s.qmAccess q
      if !ok then .next s'
      else match s'.dispItem c (decide (t.val ∈ s.ge.reserve)) q with
        | some r => .next (s'.dispatchFrom t.val q r)
        | none => .next s'

/-- TASK_WATCHDOG_EXPIRY: the limit in force at dispatch has passed (R89, R90). -/
def execTaskWatchdogExpiry (t : Fin 128) (s : State) : Answer :=
  let x := s.thread t.val
  if s.pwr.mainOn && x.busy && decide (x.st ≠ .waitAck) && s.past x.wdStart (x.wdLimit * usCounts) then .next (s.engineFault t.val .watchdog .ok) else .next s

/-- QM_STARVE_EXPIRY: a nonempty queue has waited QM_STARVE; its next dispatch is made at priority 7 (R76). -/
def execQmStarveExpiry (q : BitVec 16) (s : State) : Answer :=
  let d := s.desc q.toNat
  match d.waitFrom with
  | some w =>
    if s.pwr.mainOn && d.hasRing && decide (d.depth ≠ 0) && s.past w (s.regF Reg.qmStarve 0 17 * usCounts) then
      .next (s.setDesc q.toNat { d with starved := true })
    else .next s
  | none => .next s

/-- The unit a FIFO's source stands in (Table 3.3). -/
def fifoUnit (n : Nat) : Nat :=
  if n < 4 then 0x10 + n else if n < 10 then 0x14 else if n < 12 then 0x0F else if n < 16 then 0x15 else if n = 16 then 0x16 else 0x1E

/-- What TB writes for an arrival at a FIFO, its stamp point `sub`/32 of an edge past the last one: Ethernet measures 1/32 edge, the PLC
correlator and the radios 1/8, the others take the edge that follows (R268). -/
def State.fifoMoment (s : State) (n sub : Nat) : TimeRec :=
  if 12 ≤ n ∧ n < 16 then s.momentSub sub 32 else if n < 4 then s.momentSub (sub / 4) 8 else s.momentNow

/-- INGRESS_FIFO_ARRIVAL: an item is stamped and enters its FIFO, or is dropped at a full one (R17, R82). A Spindle item keeps the stamp
and source the sending twin wrote (Table 1.4). Where Table 3.3 withholds credit (FIFOs 16 and 17) nothing arrives while HOLD is set;
an absent unit's FIFO takes nothing (R3). -/
def execIngressFifoArrival (fifo : Fin 18) (prio : Fin 8) (body : Item) (sub : Fin 32) (s : State) : Answer :=
  if s.fieldRuns && s.present (fifoUnit fifo.val) && !(decide (16 ≤ fifo.val) && (s.fifo fifo.val).hold) then
    if fifo.val = 16 then .next (s.fifoPush 16 prio.val body).2
    else .next (s.ingress fifo.val prio.val (s.fifoMoment fifo.val sub.val) body).2
  else .next s

/-- FIFO_DRAIN: the head item enters its queue; room in the FIFO lets kept custody items in (R80, R304, R308). -/
def execFifoDrain (fifo : Fin 18) (s : State) : Answer :=
  if !s.pwr.mainOn || decide (3 ≤ s.pwr.state) then .next s
  else
    let s := (s.fifoDrain fifo.val).pairNewest
    .next (if (fifo.val = 10 ∨ fifo.val = 11) ∧ s.twn.takeover then s.custodyTakeover else s)

/-! ## The QM, GE and SUP windows -/

/-- Writes of the QM window. -/
def writeQm : UnitWrite := fun i r o v s =>
  if o = 0x080004 then s.ddCmd i (vf v 0 2)
  else if o = Reg.qmStarve then
    if vf v 0 17 < 100 ∨ 100000 < vf v 0 17 then refuse .outOfRange s else accept r o v s
  else if o = 0x080068 then if vf v 0 1 = 1 then s.rplGo i else if i ≠ .sup then refuse .denied s else (.ok, s)
  else if 0x080100 ≤ o then
    if o % 8 = 0 then
      let lo := vf v 0 6
      let hi := vf v 8 6
      if lo = 0 ∨ hi ≤ lo ∨ 32 < hi then refuse .outOfRange s else accept r o v s
    else
      let n := (o - 0x080104) / 8
      (.ok, if vf v 30 1 = 1 then s.setFifo n { s.fifo n with ovf := false, drops := 0 } else s)
  else accept r o v s

/-- Reads of the QM window (Table 3.5, R85). -/
def readQm (o : Nat) (s : State) : W32 :=
  let f (x : Bool) (k : Nat) : Nat := if x then 2 ^ k else 0
  if o = 0x080008 then BitVec.ofNat 32 (f s.qm.busyQ.isSome 31 + s.qm.dstat.code)
  else if o = 0x080050 then BitVec.ofNat 32 s.qm.rstQ
  else if o = 0x080054 then BitVec.ofNat 32 (f s.qm.pend 0)
  else if 0x080100 ≤ o ∧ o % 8 = 4 then
    let x := s.fifo ((o - 0x080104) / 8)
    BitVec.ofNat 32 (f x.hold 31 + f x.ovf 30 + x.items.length * 65536 + x.drops)
  else s.reg o

/-- Writes of the GE window (R89, R92). -/
def writeGe : UnitWrite := fun _ r o v s =>
  if o = 0x090020 then (.ok, if vf v 30 1 = 1 then { s with ge := { s.ge with fltOvf := false } } else s)
  else if o = 0x090030 then (.ok, if vf v 0 1 = 1 then { s with ge := { s.ge with flt := s.ge.flt.drop 1 } } else s)
  else if vf v 0 17 < 10 ∨ 100000 < vf v 0 17 then refuse .outOfRange s
  else accept r o v s

/-- Reads of the GE window (Table 3.7, R70). -/
def readGe (o : Nat) (s : State) : W32 :=
  let ovf := if s.ge.fltOvf then 2 ^ 30 else 0
  let head := s.ge.flt.head?
  if o = 0x090000 then BitVec.setWidth 32 s.ge.rsvlost
  else if o = 0x090020 then
    match head with
    | some r => BitVec.ofNat 32 (2 ^ 31 + ovf + r.status.code * 65536 + r.cls.code * 4096 + r.agent)
    | none => BitVec.ofNat 32 ovf
  else if o = 0x090024 then match head with | some r => BitVec.setWidth 32 r.pc | none => 0#32
  else if o = 0x090028 then match head with | some r => r.word | none => 0#32
  else if o = 0x09002C then match head with | some r => r.qcur | none => 0#32
  else s.reg o

/-- Reads of the SUP window: SUP_SRC shows the pending sources (log entry 7). -/
def readSup (s : State) : W32 := fld s.sup.sipend 0 32

end Sys2Proof.Machine
end

