-- ==== Sys2Proof/Machine/Epoch.lean ====
section
/-! DEFINITION. Configuration epochs, the CFG unit (12_hierarchy.md, R294 to R298): ARM, PREPARE, READY, the switch and its abort. -/

namespace Sys2Proof.Machine
open Sys2Proof

namespace Reg
abbrev cfgNext : Nat := 0x190004
abbrev cfgAt : Nat := 0x190008
abbrev cfgCtl : Nat := 0x190014
abbrev cfgPart : Nat := 0x19001C
end Reg

/-- The unit window of a participant bit (Table 12.6). -/
def partUnit : List Nat := [0x0E, 0x0C, 0x0D, 0x09, 0x0A, 0x18, 0x17]

/-- The participants: CFG_PART's bits of present units; TWN is none when solo (R295, Table 12.6). -/
def State.parts (s : State) : List Nat :=
  (List.range 7).filter (fun k => bit (s.reg Reg.cfgPart) k && s.present (partUnit.getD k 0) && !(decide (k = 6) && s.solo))

/-- CFG_DEADLINE in units of 2^-32 s. -/
def State.deadline32 (s : State) : Nat := s.regF Reg.cfgCtl 0 20 * 2 ^ 32 / 1000

/-- The stamping domain in units of 2^-32 s. -/
def State.now32 (s : State) : Nat := (s.dom s.sel).t32

/-- The next interval start after `t` under a free TAI - UTC. -/
def State.freeStart (t : Nat) (s : State) : Nat × State :=
  let (d, s) := s.draw 32
  ((((t + 2 ^ 32 - 1) / 2 ^ 32 + 899 - d.toNat % 900) / 900 * 900 + d.toNat % 900) * 2 ^ 32, s)

/-- The first interval start at least DEADLINE ahead, with TAI - UTC of the calendar list in force (Table 12.7 step 2). Without a
list the offset is not given, and is free (log entry 39). -/
def State.nextStart (s : State) : Nat × State :=
  let from_ := s.now32 + s.deadline32
  match s.intervalNow with
  | some i =>
    let starts := (List.range 4).filterMap (fun k => (intervalStart s.ldg.calCur (i + k)).map (fun p => p.1 * 2 ^ 32))
    match starts.find? (fun t => decide (from_ ≤ t)) with
    | some t => (t, s)
    | none => s.freeStart from_
  | none => s.freeStart from_
/-- TAI second `t` is an interval start (R297); under no calendar list that is free. -/
def State.isStart (s : State) (t : Nat) : Bool × State :=
  match intervalOf s.ldg.calCur t with
  | some i => (match intervalStart s.ldg.calCur i with | some p => decide (p.1 = t) | none => false, s)
  | none => let (d, s) := s.draw 1; (decide (d = 1#1), s)

/-- What ARM answers, with the instant it fixes (R296 step 2, R297). Quarantine refuses it but after a command under RECON, so that the
manager's switch to a kept image can be armed (R292, R353; DEDUCED, log entry 39). -/
def State.armCheck (when_ : Nat) (s : State) : Status × Nat × State :=
  if s.cfg.armed.isSome then (.retry, 0, s)
  else if s.reg Reg.cfgNext ≠ s.cfg.cur + 1#32 ∨ when_ = 3 then (.outOfRange, 0, s)
  else
    let at_ := s.reg2 Reg.cfgAt
    let (start, s1) := s.isStart at_
    if when_ = 1 ∧ (start = false ∨ at_ * 2 ^ 32 < s.now32 + s.deadline32) then (.outOfRange, 0, if start then s else s1)
    else if s.tre.quar && !s.cfg.recon then (.denied, 0, s)
    else if when_ = 1 then (.ok, at_ * 2 ^ 32, s1)
    else if when_ = 0 then
      let (b, s) := s.nextStart
      (.ok, b, s)
    else (.ok, s.now32 + s.deadline32, s)

/-- The instant as a CFG message carries it: seconds [63:32], fraction [31:0] (log entry 39). -/
def instantWord (b : Nat) : Word := BitVec.ofNat 64 b

/-- CFG_CMD.ARM (R296, R297): the status shows in CFG_STAT when it is refused; TWN passes NEXT and B to the twin. -/
def State.cfgArm (when_ : Nat) (s : State) : Status × State :=
  let (st, b, s) := s.armCheck when_
  if st = .ok then
    let next := s.reg Reg.cfgNext
    let s := { s with cfg := { s.cfg with
      armed := some (next, b)
      prep := false
      ready := 0#7
      digests := []
      refused := none
      twinReady := none } }
    (.ok, s.toTwin (.spnCfg (.arm next (instantWord b))))
  else (st, { s with cfg := { s.cfg with status := st } })

/-- The switch aborts: CUR and every shadow stay, CFG_STAT shows EPOCH_ABORT and the culprit, event 0x1902; the twin is told (R298). -/
def State.cfgAbort (culprit : Nat) (tell : Bool) (s : State) : State :=
  match s.cfg.armed with
  | none => s
  | some (next, _) =>
    let s := if tell then s.toTwin (.spnCfg (.abort next)) else s
    State.event 0x1902 (BitVec.ofNat 32 culprit) { s with cfg := { s.cfg with
      armed := none
      prep := false
      ready := 0#7
      digests := []
      refused := none
      twinReady := none
      status := .epochAbort
      culprit := culprit } }

/-- CFG_CMD.CANCEL (R298). -/
def State.cfgCancel (s : State) : State := s.cfgAbort 0xFF true

/-- SHA-384 over the (bit, digest) pairs in bit order (R296 step 5). -/
def State.pairDigest (s : State) (ks : List Nat) : BitVec 384 :=
  sha384v (ks.flatMap (fun k => BitVec.ofNat 8 k :: bytesOf 48 (Tab.get 0#384 s.cfg.digests k)))

/-- Every participant but TWN is READY. -/
def State.ownReady (s : State) : Bool := (s.parts.filter (fun k => decide (k ≠ 6))).all (fun k => bit s.cfg.ready k)

/-- Tell the twin that every participant but TWN is READY (Table 12.6). -/
def State.tellReady (s : State) : State :=
  match s.cfg.armed with
  | some (next, b) => s.toTwin (.spnCfg (.ready next (instantWord b) (s.pairDigest (s.parts.filter (fun k => decide (k ≠ 6))))))
  | none => s

/-- CFG_PREPARE: at B - DEADLINE, or at ARM if later; a device with no participant but TWN is READY at once (R295, R296 step 3). -/
def execCfgPrepare (s : State) : Answer :=
  match s.cfg.armed with
  | some (_, b) =>
    if s.pwr.mainOn && !s.cfg.prep && decide (b ≤ s.now32 + s.deadline32) then
      let s := { s with cfg := { s.cfg with prep := true } }
      .next (if s.ownReady then s.tellReady else s)
    else .next s
  | none => .next s

/-- A participant answers READY with its shadow digest; once all but TWN have, the twin is told (R296 step 4, Table 12.6). -/
def State.cfgReady (k : Nat) (digest : BitVec 384) (s : State) : State :=
  match s.cfg.armed with
  | none => s
  | some _ =>
    let was := s.ownReady
    let s := { s with cfg := { s.cfg with
      ready := setFld s.cfg.ready k (1#1)
      digests := Tab.set 0#384 s.cfg.digests k digest } }
    if s.ownReady && (!was || decide (k ≠ 6)) then s.tellReady else s

/-- No Heartwood item of epoch CUR - 1 is queued or in flight (Table 12.6). -/
def State.heartClear (s : State) : Bool :=
  s.qm.descs.all (fun p =>
    let d := p.2
    !d.hasRing || decide (d.owner ≠ 0) || s.hwConsumed p.1 ||
      d.slots.all (fun k => decide (itemEpoch (s.slotItem p.1 k) ≠ s.cfg.cur - 1#32)))

/-- The READY condition of a participant that a unit judges by itself (Table 12.6); the supervisor answers for bits 3 and 4. -/
def State.partReady (s : State) (k : Nat) : Bool :=
  if k = 0 then s.heartClear && s.flw.ldBusy.isNone
  else if k = 1 then s.heartClear && !s.ldg.calBusy
  else if k = 2 then s.bal.topBusy.isNone && (decide (s.bal.gens.length < 4) || !s.oldestNeeded)
  else if k = 5 then s.tre.xTouched
  else if k = 6 then
    match s.cfg.twinReady, s.cfg.armed with
    | some (n, b, d), some (next, mine) =>
      s.ownReady && decide (n = next) && decide (instantWord b = instantWord mine)
        && decide (d = s.pairDigest (s.parts.filter (fun k => decide (k ≠ 6))))
    | _, _ => false
  else false

/-- PARTICIPANT_READY: a unit's answer to PREPARE: READY once its condition holds, or a refusal (R296 step 4, R298). -/
def execParticipantReady (p : Fin 7) (a : PartAns) (s : State) : Answer :=
  if s.pwr.mainOn && s.cfg.prep && s.parts.contains p.val && !bit s.cfg.ready p.val && !decide (s.cfg.refused = some p.val) then
    match a with
    | .ready d => .next (if s.partReady p.val then s.cfgReady p.val d else s)
    | .refuse _ => .next (if s.cfg.refused.isNone then { s with cfg := { s.cfg with refused := some p.val } } else s)
  else .next s

/-- The GE participant's digest includes the IMGHASH of every staged image (R351); what else it covers is not given. -/
def State.stagedHashes (s : State) : List Byte :=
  s.upd.staged.flatMap (fun p => match p.2 with | some i => BitVec.ofNat 8 p.1 :: bytesOf 48 i.hash | none => [])

/-- CFG_SWRDY: the supervisor answers READY for GE and SUP (Table 12.6). The digests' further content is free. -/
def State.swReady (v : Nat) (s : State) : State :=
  [3, 4].foldl (fun s k =>
    if vf v k 1 = 1 && s.cfg.prep && s.parts.contains k && !bit s.cfg.ready k then
      let (d, s) := s.draw 384
      s.cfgReady k (if k = 3 then sha384v (bytesOf 48 d ++ s.stagedHashes) else d)
    else s) s

/-- The TRE shadow becomes active (R289, R295). -/
def State.treSwitch (s : State) : State :=
  { s with tre := { s.tre with
    xAct := s.tre.xSh
    xTouched := false
    grpAct := (List.range 16).foldl (fun t k => Tab.set 0#32 t k (s.reg (0x180040 + 4 * k))) []
    childAct := s.reg 0x180020 } }

/-- TWN_CUSTOWN takes effect, and with the twin up the points taken over go back to their owners (R306, R308, R327). -/
def State.custSwitch (s : State) : State :=
  State.custForget { s with twn := { s.twn with
    custown := s.reg 0x17000C
    takeover := s.twn.takeover && !s.twn.twinup
    ceded := s.twn.ceded && !s.twn.twinup } }

/-- The switch at B: CUR rises, every shadow becomes active, CDIGEST, MR6, event 0x1901, and the handover gate (R296 step 5, R342,
R352). -/
def State.cfgSwitch (next : W32) (b : Nat) (s : State) : State :=
  let cd : Word := fld (s.pairDigest s.parts) 0 64
  let s := { s with cfg := { s.cfg with
    cur := next
    lastB := b
    cdigest := cd
    armed := none
    prep := false
    ready := 0#7
    digests := []
    refused := none
    twinReady := none
    recon := false
    status := .ok
    culprit := 0 } }
  let s := ((s.flwSwitch.ldgSwitch).balSwitch b).treSwitch.custSwitch
  let s := s.mrExtend 6 (sha384v (bytesOf 4 next ++ bytesOf 8 cd))
  (s.event 0x1901 0#32).handoverGate

/-- EPOCH_SWITCH: at the first REFCLK edge at or after B the switch is made with every participant READY, or aborts with the one that
refused or is late (R296 step 5, R298). -/
def execEpochSwitch (s : State) : Answer :=
  match s.cfg.armed with
  | none => .next s
  | some (next, b) =>
    if s.pwr.mainOn && decide (b ≤ s.now32) then
      match s.cfg.refused with
      | some p => .next (s.cfgAbort p true)
      | none =>
        match s.parts.find? (fun k => !bit s.cfg.ready k) with
        | some k => .next (s.cfgAbort k true)
        | none => .next (s.cfgSwitch next b)
    else .next s

/-- A CFG message from the twin (Table 13.1, R296 step 2, R298). An ARM this device cannot take is answered with an abort (log
entry 39). -/
def execCfgMessageReceive (m : CfgMsg) (s : State) : Answer :=
  if !s.twinLink then .next s
  else match m with
    | .arm next b =>
      match s.cfg.armed with
      | some (n, c) => .next (if n = next ∧ instantWord c = b then s else s.toTwin (.spnCfg (.abort next)))
      | none =>
        if next ≠ s.cfg.cur + 1#32 ∨ (s.tre.quar && !s.cfg.recon) then .next (s.toTwin (.spnCfg (.abort next)))
        else
          let s := s.setReg Reg.cfgNext next
          .next { s with cfg := { s.cfg with
            armed := some (next, b.toNat)
            prep := false
            ready := 0#7
            digests := []
            refused := none
            twinReady := none } }
    | .ready next b d => .next { s with cfg := { s.cfg with twinReady := some (next, b.toNat, d) } }
    | .abort next =>
      match s.cfg.armed with
      | some (n, _) => .next (if n = next then s.cfgAbort 6 false else s)
      | none => .next s

/-- Writes of the CFG window. -/
def writeCfg : UnitWrite := fun i r o v s =>
  if o = 0x190010 then
    let (st, s) := if vf v 0 1 = 1 then s.cfgArm (vf v 4 2) else (.ok, s)
    (st, if vf v 1 1 = 1 then s.cfgCancel else s)
  else if o = Reg.cfgCtl then if vf v 0 20 < 10 ∨ 600000 < vf v 0 20 then refuse .outOfRange s else accept r o v s
  else if o = 0x190020 then (.ok, if i = .sup then s.swReady v else s)
  else accept r o v s

/-- Reads of the CFG window (Table 12.9). -/
def readCfg (o : Nat) (s : State) : W32 :=
  let f (x : Bool) (k : Nat) : Nat := if x then 2 ^ k else 0
  if o = 0x190000 then s.cfg.cur
  else if o = 0x190018 then
    BitVec.ofNat 32 (f s.cfg.armed.isSome 31 + f s.cfg.prep 30 + s.cfg.ready.toNat * 65536 + s.cfg.status.code * 256 + s.cfg.culprit)
  else if o = 0x190024 then fld s.cfg.cdigest 0 32
  else if o = 0x190028 then fld s.cfg.cdigest 32 32
  else s.reg o

end Sys2Proof.Machine
end

