-- ==== Sys2Proof/Machine/Access.lean ====
section
/-! DEFINITION. Register accesses (R3, R10, R39, R445), the locked sequences' opens and closes (R120 to R123), and the fabric
address map (R68, R397, R407). -/

namespace Sys2Proof.Machine
open Sys2Proof

/-! ## Locked sequences: the close (R123) -/

/-- The part of a list of buffered writes that belongs to unit `u`. -/
def unitPart (u : Nat) (ws : List (Nat × W32)) : List (Nat × W32) := ws.filter (fun p => decide (p.1 / 0x10000 = u))

/-- The parts of sequence 0x0002: every unit takes its writes, or none does; a refusal shows in the refusing unit's status
register (R123, R136, R147, R154, R199). -/
def State.seqApplyLegal (ws : List (Nat × W32)) (s : State) : Status × State :=
  match s.flwClose (unitPart 0x0E ws) with
  | (.ok, s1) =>
    match s1.ldgClose (unitPart 0x0C ws) with
    | (.ok, s2) =>
      match s2.afeClose (unitPart 0x0F ws) with
      | (.ok, s3) => (.ok, s3)
      | (st, _) => (st, s.calRefused st (unitPart 0x0F ws))
    | (st, s2) => (st, { s with ldg := { s.ldg with calStatus := s2.ldg.calStatus } })
  | (st, s1) => (st, { s with flw := { s.flw with
      ldKind := s1.flw.ldKind
      ldStatus := s1.flw.ldStatus
      ldIndex := s1.flw.ldIndex } })

/-- A sequence becomes free; those whose open expired are still to be told. -/
def State.seqFree (n : Nat) (s : State) : State := s.setSeq n { expired := (s.seq n).expired }

/-- Close a sequence: the status, and whether the close goes on until its OTP cells are programmed (R123, R339). -/
def State.seqClose (i : Init) (n : Nat) (apply : Bool) (s : State) : Status × Bool × State :=
  let q := s.seq n
  let done (st : Status) (s : State) : Status × Bool × State := (st, false, (s.seqFree n).seqNote i n st)
  if q.owner ≠ some i then
    if i ∈ q.expired then
      (.stale, false, (s.setSeq n { q with expired := q.expired.filter (fun j => decide (j ≠ i)) }).seqNote i n .stale)
    else (.denied, false, s.seqNote i n .denied)
  else if n = 1 ∧ s.sec.otp.isSome then (.retry, false, s.seqNote i n .retry)
  else if !apply then done .ok s
  else if q.spoiled then done .outOfRange s
  else if n = 1 then
    match seqApplySec i q.writes s with
    | (st, true, s) => (st, true, s)
    | (st, false, s) => done st s
  else if n = 3 then
    let (st, s) := seqApplyTb q.writes s
    done st s
  else
    let (st, s) := s.seqApplyLegal q.writes
    done st s

/-! ## Registers (R10, R445, R448) -/

/-- The writes of each unit's window. -/
def windowWrite (u : Nat) : UnitWrite :=
  match u with
  | 0x00 => writeSys | 0x01 => writePwr | 0x02 => writePin | 0x03 => writeTb | 0x04 => writeFab | 0x05 => writeMbx | 0x06 => writePmc
  | 0x07 => writeEvr | 0x08 => writeQm | 0x09 => writeGe | 0x0B => writeOrd | 0x0C => writeLdg | 0x0D => writeBal | 0x0E => writeFlw
  | 0x0F => writeAfe | 0x10 => writePlc 0 | 0x11 => writePlc 1 | 0x12 => writeRf 0 | 0x13 => writeRf 1 | 0x14 => writeWir
  | 0x15 => writeEth | 0x16 => writeSpn | 0x17 => writeTwn | 0x18 => writeTre | 0x19 => writeCfg | 0x1A => writeSec
  | 0x1B => writeUpd | 0x1C => writeMem | 0x1D => writeNft | 0x1E => writeHst | _ => fun _ r o v s => accept r o v s

/-- The reads of each unit's window; those with an effect of their own stand in `State.regRead`. -/
def windowRead (i : Init) (u o : Nat) (s : State) : W32 :=
  match u with
  | 0x00 => readSys o s | 0x01 => readPwr o s | 0x03 => readTb o s | 0x04 => readFab o s | 0x05 => readMbx i o s | 0x06 => readPmc o s
  | 0x07 => readEvr o s | 0x08 => readQm o s | 0x09 => readGe o s | 0x0A => readSup s | 0x0B => readOrd i o s | 0x0C => readLdg o s
  | 0x0D => readBal o s | 0x0E => readFlw o s | 0x0F => readAfe o s | 0x10 => readPlc 0 o s | 0x11 => readPlc 1 o s
  | 0x12 => readRf 0 o s | 0x13 => readRf 1 o s | 0x14 => readWir o s | 0x15 => readEth o s | 0x16 => readSpn o s | 0x17 => readTwn o s
  | 0x18 => readTre o s | 0x19 => readCfg o s | 0x1A => readSec o s | 0x1B => readUpd o s | 0x1C => readMem o s | 0x1D => readNft o s
  | 0x1E => readHst o s | _ => s.reg o

/-- The key of an initiator's latch for a register (R445). -/
def latchKey (i : Init) (off : Nat) : Nat := i.key * 2 ^ 24 + off

/-- What is judged before a register access reaches its unit: the fence, alignment and offset, presence, H access (R3, R10, R124,
R445). -/
def State.regGate (s : State) (i : Init) (off : Nat) : Except Status RegRow :=
  if s.fencedInit i then .error .fenced
  else if off % 4 ≠ 0 then .error .denied
  else match regRow off with
    | none => .error .denied
    | some r =>
      if !s.present (off / 0x10000) then .error .absent
      else if decide (r.acc = .h) && !i.heartwood then .error .denied
      else .ok r

/-- The low word of a two-word register whose write only some initiators may make is refused as the high word is (R156, R175, R195). -/
def lowDenied (i : Init) (off : Nat) : Bool :=
  if off = Reg.ldgSnapaddr then decide (i ≠ .sup)
  else if off = Reg.balTopaddr then decide (i ≠ .sup ∧ i ≠ .host)
  else if off = 0x0E0010 then (match i with | .thread _ => false | .sup => false | _ => true)
  else false

/-- A 32-bit register write: RO is ignored, SEQ is buffered, the low word of a two-word value waits in the initiator's latch and the
high word applies the whole (R10, R445). -/
def State.regWrite (i : Init) (off : Nat) (v : W32) (s : State) : Status × State :=
  match s.regGate i off with
  | .error st => (st, s)
  | .ok r =>
    let u := off / 0x10000
    if r.acc = .ro then (.ok, s)
    else if r.acc = .seq then s.seqBuffer i off v
    else if r.words = 2 then
      if r.word off = 0 then
        if lowDenied i off then (.denied, s) else (.ok, { s with latch := Tab.set none s.latch (latchKey i off) (some v) })
      else
        let lo := (Tab.get none s.latch (latchKey i (off - 4))).getD (s.reg (off - 4))
        let s := { s with latch := Tab.set none s.latch (latchKey i (off - 4)) none }
        windowWrite u i r (off - 4) (lo.toNat + 2 ^ 32 * v.toNat) s
    else if off = 0x0B0040 then s.seqOpen i (fld v 0 16).toNat
    else if off = 0x0B0044 then
      let (st, _, s) := s.seqClose i (fld v 0 16).toNat (bit v 16)
      (st, s)
    else windowWrite u i r off v.toNat s

/-- A 32-bit register read, with the effects three reads have: MBX_SENDn sends, PMC_CNTLn latches, PIN_GPINb samples. -/
def State.regRead (i : Init) (off : Nat) (s : State) : Status × W32 × State :=
  match s.regGate i off with
  | .error st => (st, 0#32, s)
  | .ok r =>
    let u := off / 0x10000
    if r.acc = .wo then (.ok, 0#32, s)
    else if u = 0x0F ∧ s.afeAbsent off then (.absent, 0#32, s)
    else if u = 0x05 ∧ off < 0x050800 ∧ !s.mbxAllowed i ((off - 0x050000) / 0x40) then (.denied, 0#32, s)
    else if u = 0x05 ∧ off < 0x050800 ∧ off % 0x40 = 8 then
      let (st, s) := s.mbxSend i ((off - 0x050000) / 0x40)
      (.ok, BitVec.ofNat 32 st.code, s)
    else if u = 0x06 ∧ off < 0x060600 ∧ off % 8 = 0 then (.ok, readPmc off s, s.cntlLatch ((off - 0x060000) / 8))
    else if u = 0x02 then
      let (v, s) := readPin off s
      (.ok, v, s)
    else (.ok, windowRead i u off s, s)

/-- What is judged before an 8-byte access: the fence, alignment and both offsets, then what stands before each word (R445). -/
def State.regGate8 (s : State) (i : Init) (off : Nat) : Status :=
  if s.fencedInit i then .fenced
  else if off % 8 ≠ 0 || (regRow off).isNone || (regRow (off + 4)).isNone then .denied
  else match s.regGate i off, s.regGate i (off + 4) with
    | .error st, _ => st
    | .ok _, .error st => st
    | .ok _, .ok _ => .ok

/-- A register write of `n` bytes: 4, or 8 aligned as two words, the lower first (R445). -/
def State.regWriteN (i : Init) (off n : Nat) (v : Word) (s : State) : Status × State :=
  if s.fencedInit i then (.fenced, s)
  else if n = 4 then s.regWrite i off (fld v 0 32)
  else if n = 8 then
    if s.regGate8 i off ≠ .ok then (s.regGate8 i off, s)
    else match s.regWrite i off (fld v 0 32) with
      | (.ok, s) => s.regWrite i (off + 4) (fld v 32 32)
      | r => r
  else (.denied, s)

/-- A register read of `n` bytes. -/
def State.regReadN (i : Init) (off n : Nat) (s : State) : Status × Word × State :=
  if s.fencedInit i then (.fenced, 0#64, s)
  else if n = 4 then
    let (st, v, s) := s.regRead i off
    (st, BitVec.setWidth 64 v, s)
  else if n = 8 then
    if s.regGate8 i off ≠ .ok then (s.regGate8 i off, 0#64, s)
    else match s.regRead i off with
      | (.ok, lo, s) =>
        let (st, hi, s) := s.regRead i (off + 4)
        (st, (hi ++ lo : BitVec 64), s)
      | (st, _, s) => (st, 0#64, s)
  else (.denied, 0#64, s)

/-- Every 32-bit register command: nothing while the main domains are down or the register windows' target is frozen (R403); the
response is recorded, and a host error is logged (R405). -/
def State.regCmd (i : Init) (off : Nat) (v : W32) (s : State) : Answer :=
  if !s.pwr.mainOn || s.frozenTgt 2 then .next s
  else
    let (st, s) := s.regWrite i off v
    let s := if i = .host ∧ st ≠ .ok then s.hostError (0x400000000 + off) st agHost else s
    .next (s.respond i st)

/-! ## The fabric map (Table 18.1) -/

/-- A target of the fabric address map. -/
inductive FabTgt where
  | dram (a : Nat)
  | regs (off : Nat)
  | supMem (a : Nat)
  | store (a : Nat)
  | outbound (a : Nat)
  | hole
deriving DecidableEq, Repr

/-- Where an address leads (R397). -/
def fabTarget (a : Nat) : FabTgt :=
  if a < 0x400000000 then .dram a
  else if a < 0x401000000 then .regs (a - 0x400000000)
  else if a < 0x401100000 then (if 0x401000000 ≤ a then .supMem (a - 0x401000000) else .hole)
  else if a < 0x402000000 then .hole
  else if a < 0x402100000 then .store (a - 0x402000000)
  else if a < 0x800000000 then .hole
  else if a < 0x1000000000 then .outbound (a - 0x800000000)
  else .hole

/-- The access waits: its target is frozen, or DRAM is in self-refresh (R403, Table 17.1). -/
def State.fabWaits (s : State) (a n : Nat) : Bool :=
  !s.pwr.mainOn ||
    (match fabTarget a with
      | .dram b => !s.dramOn || s.ramFrozen b n
      | .regs _ => s.frozenTgt 2
      | .supMem _ => s.frozenTgt 3
      | .store _ => s.frozenTgt 4
      | .outbound _ => s.frozenTgt 5
      | .hole => false)

/-- Cluster 0 makes no outbound access (R407). -/
def clusterZero (i : Init) : Bool := i.heartwood

/-- The response of an outbound access, and the event a lost link leaves (R407). -/
def State.outGate (i : Init) (a : Nat) (s : State) : Status × State :=
  if clusterZero i then (.denied, s)
  else if !s.hst.link || s.hst.d3hot then (.poweredDown, s.event 0x1E01 (BitVec.ofNat 32 (a / 64 % 2 ^ 28)))
  else (.ok, s)

/-- The program-store accesses R68 allows. -/
def State.storeRight (s : State) (i : Init) (write : Bool) (a : Nat) : Bool :=
  let c := a / 0x40000
  if write then decide (i = .sup) && decide (1 ≤ c) && (bit s.pwr.parked c || bit s.upd.parked c)
  else decide (i = .sup) || decide (i = .host)

/-- The rights of a read or write of `n` bytes, without any effect: fence, then the target's own (R68, R124, R397). -/
def State.fabRight (s : State) (i : Init) (write : Bool) (a n : Nat) : Status :=
  if s.fencedInit i then .fenced
  else match fabTarget a with
    | .dram b => if 0x400000000 < b + n then .denied else s.ramGate i write b n
    | .supMem b => if i = .sup ∧ b + n ≤ 0x100000 then .ok else .denied
    | .store b => if s.storeRight i write b && decide (b + n ≤ 0x100000) && decide (b / 0x40000 = (b + n - 1) / 0x40000) then .ok else .denied
    | .hole => .denied
    | _ => .ok

/-- Store bytes at a fabric address of memory: DRAM line by line, supervisor memory, a program store. -/
def State.memStore (a : Nat) (bs : List Byte) (s : State) : Status × State :=
  match fabTarget a with
  | .dram b =>
    let s := (linesOf b bs.length).foldl (fun s l => if decide (64 * l < b) || decide (b + bs.length < 64 * l + 64) then s else s.restoreCount l) s
    s.ramWrite b bs
  | .supMem b => (.ok, { s with sup := { s.sup with mem := ramPutTab s.sup.mem b bs } })
  | .store b => (.ok, { s with ge := { s.ge with store := ramPutTab s.ge.store b bs } })
  | _ => (.denied, s)

/-- The byte at a fabric address of memory. -/
def State.memByte (s : State) (a : Nat) : Byte :=
  match fabTarget a with
  | .dram b => s.ramByte b
  | .supMem b => Tab.get 0#8 s.sup.mem b
  | .store b => Tab.get 0#8 s.ge.store b
  | _ => 0#8

/-- A word access of a management port or the host: one 32-bit write (R409, R411). -/
def State.fabWrite4 (i : Init) (a : Nat) (v : W32) (s : State) : Status × State :=
  match fabTarget a with
  | .regs off => s.regWrite i off v
  | .outbound b =>
    if s.fencedInit i then (.fenced, s)
    else if a % 4 ≠ 0 then (.denied, s)
    else
      let (st, s) := s.outGate i a
      (st, if st = .ok then { s with out := s.out ++ [.outbound b 4 (BitVec.setWidth 64 v)] } else s)
  | _ =>
    if a % 4 ≠ 0 then (if s.fencedInit i then .fenced else .denied, s)
    else match s.fabRight i true a 4 with
      | .ok => s.memStore a (bytesOf 4 v)
      | st => (st, s)

/-- One 32-bit read; what the host's memory holds is free. -/
def State.fabRead4 (i : Init) (a : Nat) (s : State) : Status × W32 × State :=
  match fabTarget a with
  | .regs off => s.regRead i off
  | .outbound _ =>
    if s.fencedInit i then (.fenced, 0#32, s)
    else if a % 4 ≠ 0 then (.denied, 0#32, s)
    else
      let (st, s) := s.outGate i a
      if st = .ok then
        let (v, s) := s.draw 32
        (.ok, v, s)
      else (st, 0#32, s)
  | t =>
    if a % 4 ≠ 0 then (if s.fencedInit i then .fenced else .denied, 0#32, s)
    else match s.fabRight i false a 4 with
      | .ok =>
        let bad := match t with | .dram b => s.poisoned (b / 64) | _ => false
        if bad then (.integrity, 0#32, s)
        else (.ok, BitVec.ofNat 32 (natOfBytes ((List.range 4).map (fun k => s.memByte (a + k)))), s)
      | st => (st, 0#32, s)

end Sys2Proof.Machine
end

