-- ==== Sys2Proof/Machine/Load.lean ====
section
/-! DEFINITION. Garnil's loads, stores and block copies (R37 to R40, Table 2.7) with their staging (R18, R19, R48, R113, R117), and
the control words (R30, Table 2.2). -/

namespace Sys2Proof.Machine
open Sys2Proof

/-! ## The stage as memory accesses see it -/

/-- The 64-byte lines a stage writes, each once (R48). -/
def Stage.lines (g : Stage) : List Nat :=
  g.bytes.foldr (fun p (l : List Nat) => match l with
    | x :: _ => if x = p.1 / 64 then l else p.1 / 64 :: l
    | [] => [p.1 / 64]) []

/-- The stage writes something in line `l`. -/
def Stage.hasLine (g : Stage) (l : Nat) : Bool := g.bytes.any (fun p => decide (p.1 / 64 = l))

/-- The byte a task sees at a fabric address of memory: its own staged one, else the committed one (R19). -/
def State.seenByte (s : State) (g : Stage) (a : Nat) : Byte := (Tab.get none g.bytes a).getD (s.memByte a)

/-- The byte a thread's load reads: in a replay a line the record holds reads as its image (R313). -/
def State.loadByte (s : State) (t : Thread) (a : Nat) : Byte :=
  match t.imaged (a / 64) with
  | some img => (Tab.get none t.stage.bytes a).getD (fld img (8 * (a % 64)) 8)
  | none => s.seenByte t.stage a

/-- Stage bytes at a fabric address. -/
def Stage.put (g : Stage) (a : Nat) (bs : List Byte) : Stage :=
  { g with bytes := (bs.zipIdx).foldl (fun t p => Tab.set none t (a + p.2) (some p.1)) g.bytes }

/-- Note the first read of a line: its image, and, where the stage does not write it yet, its version. The first 128 lines keep the
version of the read; a later one is judged against the dispatch (R113, R114, R312). -/
def Stage.noteRead (g : Stage) (l ver disp : Nat) (img : Item) : Stage :=
  let g := g.noteImage l img
  if g.hasLine l || g.reads.any (fun p => decide (p.1 = l)) then g
  else { g with reads := g.reads ++ [(l, if g.reads.length < 128 then ver else disp)] }

/-- Note the DRAM lines a load touches. -/
def State.noteLines (s : State) (t : Thread) (b n : Nat) : Thread :=
  (linesOf b n).foldl (fun t l => { t with stage := t.stage.noteRead l s.ord.cseq t.dispSeq (s.line l) }) t

/-- What an access of a thread answers: bytes (of a load) or the status of its error response, with the state then. -/
structure AccRes where
  st  : Status
  bs  : List Byte
  s   : State

/-- Read register words one after another; the first refusal ends it. -/
def State.wordsRead (i : Init) : Nat → Nat → State → AccRes
  | _, 0, s => ⟨.ok, [], s⟩
  | off, k + 1, s =>
    match s.regRead i off with
    | (.ok, v, s) =>
      let r := State.wordsRead i (off + 4) k s
      ⟨r.st, bytesOf 4 v ++ r.bs, r.s⟩
    | (st, _, s) => ⟨st, [], s⟩

/-- A load of `n` bytes at fabric address `a` (R19, R40). A load that meets a poisoned line gets INTEGRITY unless the stage holds the
whole line, even where every loaded byte is staged: DESIGN CHOICE (log entry 40), R363 and R19 not saying which comes first. Here `n` is a sized access's 1 to 8, or a block copy's length, which reaches
registers word by word (log entry 40). -/
def State.loadAt (w : Who) (block : Bool) (a n : Nat) (s : State) : AccRes :=
  let i := w.init
  match fabTarget a with
  | .regs off =>
    if block then
      if s.fencedInit i then ⟨.fenced, [], s⟩
      else if a % 4 ≠ 0 ∨ n % 4 ≠ 0 then ⟨.denied, [], s⟩
      else s.wordsRead i off (n / 4)
    else
      let (st, v, s) := s.regReadN i off n
      ⟨st, bytesOf n v, s⟩
  | .outbound _ =>
    if s.fencedInit i then ⟨.fenced, [], s⟩
    else
      let (st, s) := s.outGate i a
      if st = .ok then
        let (v, s) := s.draw (8 * n)
        ⟨.ok, bytesOf n v, s⟩
      else ⟨st, [], s⟩
  | t =>
    let st := s.fabRight i false a n
    let me := s.me w
    if st ≠ .ok then ⟨st, [], s⟩
    else
      let b := match t with | .dram b => b | _ => 0
      let lines := match t with | .dram b => linesOf b n | _ => []
      if lines.any (fun l => s.poisoned l && !me.stage.fullLine l && (me.imaged l).isNone) then ⟨.integrity, [], s⟩
      else
        let bs := (List.range n).map (fun k => s.loadByte me (a + k))
        ⟨.ok, bs, if lines.isEmpty then s else s.putMe w (s.noteLines (s.me w) b n)⟩

/-- The state the units would be in after the register writes already staged, in program order (R39). -/
def State.afterRegw (i : Init) (ws : List RegW) (s : State) : State :=
  ws.foldl (fun s x => (s.regWriteN i x.off (if x.two then 8 else 4) x.val).2) s

/-- Probe one register write and stage it where the unit would take it (R39). -/
def State.stageReg (w : Who) (off n : Nat) (v : Word) (s : State) : Status × State :=
  let t := s.me w
  let (st, _) := (s.afterRegw w.init t.stage.regw).regWriteN w.init off n v
  if st = .ok then
    (.ok, s.putMe w { t with stage := { t.stage with regw := t.stage.regw ++ [⟨off, decide (n = 8), v⟩] } })
  else (st, s)

/-- Stage register words one after another; the first refusal ends it. -/
def State.stageWords (w : Who) : Nat → List Byte → Nat → State → Status × State
  | _, _, 0, s => (.ok, s)
  | off, bs, k + 1, s =>
    match s.stageReg w off 4 (BitVec.ofNat 64 (natOfBytes (bs.take 4))) with
    | (.ok, s) => State.stageWords w (off + 4) (bs.drop 4) k s
    | r => r

/-- What a store answers: staged, over a limit of the stage (R48), or the status of its error response. -/
inductive PutRes where
  | ok (s : State)
  | limit
  | err (st : Status) (s : State)

/-- A store of bytes at fabric address `a`: probed, then staged (R38, R39, R40, R48, R117). The limit of 64 counts lines of memory:
stores to the outbound window and staged register writes do not count, which R48 leaves open (DESIGN CHOICE, log entry 40). -/
def State.storeAt (w : Who) (block : Bool) (a : Nat) (bs : List Byte) (s : State) : PutRes :=
  let i := w.init
  let n := bs.length
  match fabTarget a with
  | .regs off =>
    let (st, s') :=
      if block then
        if s.fencedInit i then (.fenced, s)
        else if a % 4 ≠ 0 ∨ n % 4 ≠ 0 then (.denied, s)
        else s.stageWords w off bs (n / 4)
      else s.stageReg w off n (BitVec.ofNat 64 (natOfBytes bs))
    if st = .ok then .ok s' else .err st s
  | .outbound _ =>
    if s.fencedInit i then .err .fenced s
    else
      let (st, s) := s.outGate i a
      let t := s.me w
      let parts := (List.range ((n + 7) / 8)).map (fun k =>
        let x := (bs.drop (8 * k)).take 8
        (a + 8 * k, x.length, BitVec.ofNat 64 (natOfBytes x)))
      if st = .ok then .ok (s.putMe w { t with stage := { t.stage with outw := t.stage.outw ++ parts } }) else .err st s
  | _ =>
    let st := s.fabRight i true a n
    if st ≠ .ok then .err st s
    else
      let t := s.me w
      let g := t.stage.put a bs
      if 64 < g.lines.length then .limit else .ok (s.putMe w { t with stage := g })

/-- What the task does on an error response (R40). -/
def accFault (st : Status) (s : State) : GRes :=
  match st with
  | .absent | .poweredDown => .faultIn s .absentUnit st
  | .denied => .faultIn s .privilege st
  | .fenced => .faultIn s .fenced st
  | .integrity => .faultIn s .integrity st
  | .retry => .retry
  | _ => .faultIn s .illegal st

/-! ## Addresses (R37) -/

/-- The fabric address of a record-window offset. -/
def Thread.recAddr (t : Thread) (off : Nat) : Nat := t.recbase.toNat + off

/-- A run of `n` bytes of the record window lies inside its 64 KiB. -/
def recOk (off n : Nat) : Bool := decide (off + n ≤ 0x10000)

/-- Where a sized access of a space goes: none where R37 makes it illegal; true for scratch. -/
def Thread.place (t : Thread) (sp : Space) (v : Word) (n : Nat) : Option (Bool × Nat) :=
  let a := v.toNat
  match sp with
  | .scratch => if scrOk a n then some (true, a) else none
  | .record => if a % n = 0 ∧ recOk a n then some (false, t.recAddr a) else none
  | .fabric => if a % n = 0 then some (false, a) else none

/-- An access that waits for its target does not complete: the thread stays at the instruction (R403). -/
def garnilAt (x : Ix) (place : Thread → Option (Bool × Nat)) (n : Nat) (f : State → Bool × Nat → GRes) (s : State) : Answer :=
  let t := s.me x.who
  let waits := match place t with | some (false, a) => s.fabWaits a n | _ => false
  if s.runnable x.who && (t.getP x.psel != x.pneg) && waits then .next s
  else garnil x (fun s => match place (s.me x.who) with | some p => f s p | none => .fault .illegal .ok) s

/-- A load of `n` bytes to gd. -/
def loadG (x : Ix) (sp : Space) (n : Nat) (signed : Bool) (rd : GReg) (addr : Thread → Word) : State → Answer :=
  garnilAt x (fun t => t.place sp (addr t) n) n (fun s p =>
    if p.1 then goG x.who rd (extendN n signed ((s.me x.who).scrNat p.2 n)) s
    else
      let r := s.loadAt x.who false p.2 n
      if r.st = .ok then goG x.who rd (extendN n signed (natOfBytes r.bs)) r.s else accFault r.st r.s)

/-- A store of the low `n` bytes of gd. -/
def storeG (x : Ix) (sp : Space) (n : Nat) (rd : GReg) (addr : Thread → Word) : State → Answer :=
  garnilAt x (fun t => t.place sp (addr t) n) n (fun s p =>
    let t := s.me x.who
    let bs := regBytes (t.getG rd) n
    if p.1 then .go (s.putMe x.who (t.putScr p.2 bs))
    else match s.storeAt x.who false p.2 bs with
      | .ok s => .go s
      | .limit => .fault .illegal .ok
      | .err st s => accFault st s)

/-- ga + sext(imm). -/
def immAddr (ra : GReg) (imm : BitVec 12) (t : Thread) : Word := t.getG ra + sext imm
/-- ga + gb. -/
def sumAddr (ra rb : GReg) (t : Thread) : Word := t.getG ra + t.getG rb

def execLds (x : Ix) (rd ra : GReg) (imm : BitVec 12) (s : State) : Answer := loadG x .scratch 8 false rd (immAddr ra imm) s
def execSts (x : Ix) (rd ra : GReg) (imm : BitVec 12) (s : State) : Answer := storeG x .scratch 8 rd (immAddr ra imm) s
def execLdr (x : Ix) (rd ra : GReg) (imm : BitVec 12) (s : State) : Answer := loadG x .record 8 false rd (immAddr ra imm) s
def execStr (x : Ix) (rd ra : GReg) (imm : BitVec 12) (s : State) : Answer := storeG x .record 8 rd (immAddr ra imm) s
def execLdf (x : Ix) (rd ra : GReg) (imm : BitVec 12) (s : State) : Answer := loadG x .fabric 8 false rd (immAddr ra imm) s
def execStf (x : Ix) (rd ra : GReg) (imm : BitVec 12) (s : State) : Answer := storeG x .fabric 8 rd (immAddr ra imm) s
def execLdx (x : Ix) (sp : Space) (sz : Size) (sext : Bool) (rd ra rb : GReg) (s : State) : Answer :=
  loadG x sp (Size.bytesN sz) sext rd (sumAddr ra rb) s
def execStx (x : Ix) (sp : Space) (sz : Size) (rd ra rb : GReg) (s : State) : Answer := storeG x sp (Size.bytesN sz) rd (sumAddr ra rb) s
/-- LDSX: ga plus the unsigned imm[8:0]. -/
def execLdsx (x : Ix) (ty : LType) (rd ra : GReg) (imm : BitVec 9) (s : State) : Answer :=
  loadG x .scratch (LType.spec ty).1 (LType.spec ty).2 rd (fun t => t.getG ra + BitVec.setWidth 64 imm) s
def execStsx (x : Ix) (ty : SType) (rd ra : GReg) (imm : BitVec 9) (s : State) : Answer :=
  storeG x .scratch (SType.bytesN ty) rd (fun t => t.getG ra + BitVec.setWidth 64 imm) s

/-! ## Block copies -/

/-- The memory end of a block copy: none where the length or an operand breaks R37; an empty copy touches nothing. -/
def Thread.copyPlace (t : Thread) (rec_ : Bool) (mem scr n : Nat) : Option (Bool × Nat) :=
  if 4096 < n then none
  else if n = 0 then some (true, 0)
  else if !scrOk scr n then none
  else if rec_ then (if recOk mem n then some (false, t.recAddr mem) else none)
  else some (false, mem)

/-- BCPY from memory at ga to scratch at gd. -/
def copyIn (x : Ix) (rec_ : Bool) (rd ra rb : GReg) (s : State) : Answer :=
  let n := ((s.me x.who).getG rb).toNat
  garnilAt x (fun t => t.copyPlace rec_ (t.getG ra).toNat (t.getG rd).toNat n) n (fun s p =>
    if p.1 then .go s
    else
      let r := s.loadAt x.who true p.2 n
      if r.st = .ok then
        let t := r.s.me x.who
        .go (r.s.putMe x.who (t.putScr (t.getG rd).toNat r.bs))
      else accFault r.st r.s) s

/-- BCPY from scratch at ga to memory at gd, staged. -/
def copyOutScr (x : Ix) (rec_ : Bool) (rd ra rb : GReg) (s : State) : Answer :=
  let n := ((s.me x.who).getG rb).toNat
  garnilAt x (fun t => t.copyPlace rec_ (t.getG rd).toNat (t.getG ra).toNat n) n (fun s p =>
    if p.1 then .go s
    else
      let t := s.me x.who
      match s.storeAt x.who true p.2 (t.scr (t.getG ra).toNat n) with
      | .ok s => .go s
      | .limit => .fault .illegal .ok
      | .err st s => accFault st s) s

def execBcpyFs (x : Ix) (rd ra rb : GReg) (s : State) : Answer := copyIn x false rd ra rb s
def execBcpySf (x : Ix) (rd ra rb : GReg) (s : State) : Answer := copyOutScr x false rd ra rb s
def execBcpyRs (x : Ix) (rd ra rb : GReg) (s : State) : Answer := copyIn x true rd ra rb s
def execBcpySr (x : Ix) (rd ra rb : GReg) (s : State) : Answer := copyOutScr x true rd ra rb s
/-- BCPY.SS: as if through a temporary buffer. -/
def execBcpySs (x : Ix) (rd ra rb : GReg) (s : State) : Answer :=
  garnil x (fun s =>
    let t := s.me x.who
    let a := (t.getG ra).toNat
    let d := (t.getG rd).toNat
    let n := (t.getG rb).toNat
    if 4096 < n then .fault .illegal .ok
    else if n = 0 then .go s
    else if scrOk a n && scrOk d n then .go (s.putMe x.who (t.putScr d (t.scr a n)))
    else .fault .illegal .ok) s

/-! ## Control words (R30, Table 2.2) -/

/-- cw5: the task time left in us, 0 once the limit has passed. -/
def State.wdogLeft (s : State) (t : Thread) : Nat := t.wdLimit - (s.tb.elapsed - t.wdStart) / usCounts

/-- cw11: locks held, request IDs, events, outputs, lines. -/
def State.stageWord (s : State) (agent : Nat) : Word :=
  let g := (s.thread agent).stage
  BitVec.ofNat 64 ((s.locksOf agent).length * 2 ^ 19 + g.ids.length * 2 ^ 16 + g.events.length * 2 ^ 12 + g.puts.length * 2 ^ 7
    + g.lines.length % 128)

/-- cw12 to cw15: the k-th lock the thread holds, in number order. -/
def State.lockWord (s : State) (agent k : Nat) : Word :=
  match (s.locksOf agent)[k]? with
  | some (l, x) => BitVec.ofNat 64 (2 ^ 31 + (if x.mark then 2 ^ 30 else 0) + l)
  | none => 0#64

/-- cw39: the supervisor's open sequence: the one it named last where that is open, else the lowest. -/
def State.seqWord (s : State) : Word :=
  let last := (Tab.get (0, .ok) s.ord.seqStat agSup).1
  let isOpen (n : Nat) : Bool := decide ((s.seq n).owner = some .sup)
  match (last :: List.range 4).find? isOpen with
  | some n => BitVec.ofNat 64 (2 ^ 31 + n)
  | none => 0#64

/-- Read a control word; a reserved one reads zero. What the supervisor finds in cw0, cw1, cw3, cw5 and cw19 is not given, and is
free. -/
def State.cwRead (w : Who) (k : Nat) (s : State) : Word × State :=
  let a := w.agent
  let t := s.thread a
  let open_ (v : Word) : Word × State := match w with | .thread _ => (v, s) | .sup => s.draw 64
  match k with
  | 0 => open_ (BitVec.ofNat 64 a)
  | 1 => open_ (BitVec.setWidth 64 t.qcur)
  | 2 => (BitVec.setWidth 64 (s.epochOf a), s)
  | 3 => open_ (BitVec.setWidth 64 t.iepoch)
  | 4 => (BitVec.setWidth 64 (caps0 s.sys.variant), s)
  | 5 => open_ (BitVec.ofNat 64 (s.wdogLeft t))
  | 6 => (t.fpctl, s)
  | 7 => (t.fpsr, s)
  | 8 => (t.ustat, s)
  | 9 => (t.lstat, s)
  | 10 => (BitVec.ofNat 64 ((if s.sel then 256 else 0) + s.cls true * 16 + s.cls false), s)
  | 11 => (s.stageWord a, s)
  | 12 => (s.lockWord a 0, s)
  | 13 => (s.lockWord a 1, s)
  | 14 => (s.lockWord a 2, s)
  | 15 => (s.lockWord a 3, s)
  | 17 => (t.recbase, s)
  | 18 => (match w with | .thread _ => t.pairid | .sup => s.pairWord, s)
  | 19 => open_ (BitVec.setWidth 64 (s.sourceId (20 + engineOf a)))
  | 32 => (s.sup.sstatus, s)
  | 33 => (s.sup.sepc, s)
  | 34 => (s.sup.scause, s)
  | 35 => (s.sup.svec, s)
  | 36 => (s.sup.sien, s)
  | 37 => (s.sup.sipend, s)
  | 38 => (s.sup.sscratch, s)
  | 39 => (s.seqWord, s)
  | _ => (0#64, s)

/-- The bits MTC may set in a control word; none where it is RO or reserved (Table 2.2). -/
def cwMask (k : Nat) : Option Word :=
  match k with
  | 6 => some 0x3#64 | 7 => some 0x1F#64 | 8 => some 0xFF0FFF#64 | 9 => some 0xFFF#64 | 17 => some 0xFFFFFFFFFFFFF800#64
  | 32 => some 0x3#64 | 33 => some (BitVec.allOnes 64) | 35 => some 0xFFFFFFFFFFFFFE00#64 | 36 => some 0xFF#64 | 37 => some 0xFF#64
  | 38 => some (BitVec.allOnes 64) | _ => none

/-- Write a control word; cw37 clears where a 1 is written. -/
def State.cwWrite (w : Who) (k : Nat) (v : Word) (s : State) : State :=
  let t := s.me w
  match k with
  | 6 => s.putMe w { t with fpctl := v }
  | 7 => s.putMe w { t with fpsr := v }
  | 8 => s.putMe w { t with ustat := v }
  | 9 => s.putMe w { t with lstat := v }
  | 17 => s.putMe w { t with recbase := v }
  | 32 => { s with sup := { s.sup with sstatus := v } }
  | 33 => { s with sup := { s.sup with sepc := v } }
  | 35 => { s with sup := { s.sup with svec := v } }
  | 36 => { s with sup := { s.sup with sien := v } }
  | 37 => { s with sup := { s.sup with sipend := s.sup.sipend &&& ~~~v } }
  | 38 => { s with sup := { s.sup with sscratch := v } }
  | _ => s

/-- cw32 to cw63 exist on the supervisor alone (R30, R62). -/
def cwPriv (w : Who) (k : Nat) : Bool := decide (32 ≤ k) && decide (w ≠ .sup)

/-- MFC (R30). -/
def execMfc (x : Ix) (rd : GReg) (cw : Fin 64) (s : State) : Answer :=
  garnilPriv x (fun _ => cwPriv x.who cw.val) (fun s =>
    let (v, s) := s.cwRead x.who cw.val
    goG x.who rd v s) s

/-- MTC (R30): an RO or reserved word, or a nonzero reserved field, is illegal. -/
def execMtc (x : Ix) (ra : GReg) (cw : Fin 64) (s : State) : Answer :=
  garnilPriv x (fun _ => cwPriv x.who cw.val) (fun s =>
    let v := (s.me x.who).getG ra
    match cwMask cw.val with
    | some m => if v &&& ~~~m = 0#64 then .go (s.cwWrite x.who cw.val v) else .fault .illegal .ok
    | none => .fault .illegal .ok) s

end Sys2Proof.Machine
end

