-- ==== Sys2Proof/Machine/Tasks.lean ====
section
/-! DEFINITION. Queue and task instructions (R44, R46 to R48, Table 2.10), EVPOST (R61), the SUP class and supervisor interrupts
(R62 to R64, R124 to R126), and unassigned encodings (R33). TCOMMIT stands in Machine/Commit.lean. -/

namespace Sys2Proof.Machine
open Sys2Proof

/-! ## QTAKE, QPUT, QPEEK (R44) -/

/-- The queue number in a register. -/
def queueNo (v : Word) : Nat := (fld v 0 16).toNat
/-- The register names an ingress queue (R44). -/
def namesIngress (w : Who) (rb : GReg) (s : State) : Bool := decide (queueNo ((s.me w).getG rb) < 0x1A8)

/-- QTAKE's right on a queue (R44). -/
def takeRight (w : Who) (d : Desc) : Bool :=
  d.hasRing && decide (d.mode = 2#3) &&
    (match w with
      | .thread t => decide (d.owner = clusterOf t.val) && !d.supown
      | .sup => d.supown)

/-- What QTAKE answers, and the item it would take: RETRY where the queue has nothing to take, is frozen, halted, disabled or being
filled. -/
def State.takeLook (s : State) (w : Who) (q : Nat) : Status × Option Ret :=
  let d := s.desc q
  if !takeRight w d then (.denied, none)
  else if d.filling || decide (d.state ≠ 0) || !d.en then (.retry, none)
  else match s.headItem q with
    | none => (.retry, none)
    | some r => (.ok, some r)

/-- QTAKE: the item goes to scratch and its take is staged; a ninth take is illegal (R44, R48). -/
def execQtake (x : Ix) (rd ra rb : GReg) (s : State) : Answer :=
  garnilPriv x (namesIngress x.who rb) (unlessFenced x.who fun s =>
    let t := s.me x.who
    let a := (t.getG ra).toNat
    let q := queueNo (t.getG rb)
    if !scrOk a 64 then .fault .illegal .ok
    else
      let s := (s.qmAccess q).2
      match s.takeLook x.who q with
      | (.ok, some r) =>
        if 8 ≤ t.stage.takes.length then .fault .illegal .ok
        else
          let k : Take := ⟨q, (s.desc q).gen, r.ptr, r.item⟩
          let t := (t.putScr a (bytesOf 64 r.item)).setG rd 0#64
          .go ((s.takeHead q).putMe x.who { t with stage := { t.stage with takes := t.stage.takes ++ [k] } })
      | (st, _) => goG x.who rd st.word s) s

/-- QPUT's right on a queue: the PUTC bit of the cluster or PUTS; never Sapwood's on the SQ of a secure mailbox channel, nor on a queue
of Heartwood that is no metrology queue (R23, R44, R71, R415). -/
def State.putRight (s : State) (w : Who) (q : Nat) : Bool :=
  let d := s.desc q
  d.hasRing &&
    (match w with
      | .thread t => bit d.putc (clusterOf t.val)
          && !(decide (32 ≤ t.val) && (List.range 16).any (fun n => s.chEn n && decide (s.chSq n = q)))
          && !(decide (32 ≤ t.val) && decide (d.owner = 0) && decide (d.cls ≠ 2) && !d.supown)
      | .sup => d.puts)

/-- What QPUT answers: RETRY where the queue is frozen or being filled, has no free slot, or has all the reservations it can count
(R44, R71, R86); a replay's put reserves nothing and needs no room (R313). -/
def State.putLook (s : State) (w : Who) (q : Nat) : Status :=
  let d := s.desc q
  if !s.putRight w q then .denied
  else if (s.me w).rpl.isSome then .ok
  else if !s.canPut q || decide (2047 ≤ d.rsv) then .retry
  else .ok

/-- QPUT: a slot is reserved and the put staged; a seventeenth output is illegal (R44, R48). -/
def execQput (x : Ix) (rd ra rb : GReg) (s : State) : Answer :=
  garnilPriv x (namesIngress x.who rb) (unlessFenced x.who fun s =>
    let t := s.me x.who
    let a := (t.getG ra).toNat
    let q := queueNo (t.getG rb)
    if !scrOk a 64 then .fault .illegal .ok
    else
      let s := (s.qmAccess q).2
      match s.putLook x.who q with
      | .ok =>
        if 16 ≤ t.stage.puts.length then .fault .illegal .ok
        else
          let d := s.desc q
          let p : Put := ⟨q, d.gen, t.scrItem a⟩
          let t := t.setG rd 0#64
          let s := if t.rpl.isSome then s else s.setDesc q { d with rsv := d.rsv + 1 }
          .go (s.putMe x.who { t with stage := { t.stage with puts := t.stage.puts ++ [p] } })
      | st =>
        let s := s.putMe x.who (t.setG rd st.word)
        .go (if st = .retry then s.count 0x0202 1 { init := some x.who.init, cls := some (s.desc q).cls } else s)) s

/-- QPEEK: any queue, the committed depth, and the committed head item where there is one (R44, Table 2.10). While a zero-fill runs the
depth it answers is 0 (DESIGN CHOICE, log entry 41: R73 gives the access RETRY, and gd of QPEEK is a depth). -/
def execQpeek (x : Ix) (rd ra rb : GReg) (s : State) : Answer :=
  garnil x (unlessFenced x.who fun s =>
    let t := s.me x.who
    let a := (t.getG ra).toNat
    let q := queueNo (t.getG rb)
    let d := s.desc q
    let n := if d.hasRing && !d.filling then d.depth else 0
    if !scrOk a 64 then .fault .illegal .ok
    else if n = 0 then goG x.who rd 0#64 s
    else .go (s.putMe x.who ((t.putScr a (bytesOf 64 (s.slotItem q d.head))).setG rd (BitVec.ofNat 64 n)))) s

/-! ## TABORT, YIELD (R47, R78) -/

/-- TABORT: an engine task ends with its count raised; on the supervisor the stage is discarded and execution goes on (R47, R49,
R78). The status in ga is reported and not kept (log entry 41). -/
def execTabort (x : Ix) (_ra : GReg) (s : State) : Answer :=
  garnil x (fun s =>
    match x.who with
    | .thread t => .stop (s.endTask t.val true false false)
    | .sup => .go ((s.dropLocks agSup).dropStage agSup)) s

/-- End a task by YIELD: the item is republished at the tail with its count and the old slot freed; without a free slot it returns
to the head (R78). -/
def State.yieldTask (agent : Nat) (s : State) : State :=
  match (s.thread agent).rpl with
  | some (ps, r) => s.replayCut agent true ps r
  | none =>
  let s := (s.dropLocks agent).dropStage agent
  let x := s.thread agent
  let (ok, s) := s.qmAccess x.q
  let d := s.desc x.q
  let s :=
    if ok && decide (d.gen = x.qgen) then
      if s.canPut x.q then
        let s := s.publish x.q 0 x.item
        let s := s.setDesc x.q { s.desc x.q with counts := Tab.set 0 (s.desc x.q).counts d.tail x.count }
        s.consume x.q x.qgen x.ptr
      else s.returnItem x.q x.qgen ⟨x.ptr, x.count, x.item, false⟩
    else s
  let s := s.inflDown x.q x.qgen
  let s := (s.classIssued agent 1).count (0x0103 + 4 * clusterOf agent) 1 { init := some (.thread (Fin.ofNat 128 agent)) }
  s.freeThread agent

/-- YIELD; illegal on the supervisor (R49). -/
def execYield (x : Ix) (s : State) : Answer :=
  garnil x (fun s =>
    match x.who with
    | .thread t => .stop (s.yieldTask t.val)
    | .sup => .fault .illegal .ok) s

/-! ## Waits (R46) -/

/-- The elapsed count `ns` ns from now. -/
def State.deadline (s : State) (ns : Nat) : Nat := s.tb.elapsed + (ns + 7) / 8

/-- The queue is not empty: its committed depth is not zero. -/
def State.queueHas (s : State) (q : Nat) : Bool :=
  let d := s.desc q
  d.hasRing && !d.filling && decide (d.depth ≠ 0)

/-- The lock is FREE (Table 4.7). -/
def State.lockFree (s : State) (l : Nat) : Bool := (s.lock l).owner.isNone

/-- A wait of `ns` ns: too long is answered at once, a condition that holds is answered at once, else the thread waits. -/
def waitFor (x : Ix) (rd : GReg) (ns : Word) (now : Bool) (st : Nat → TState) (s : State) : GRes :=
  if 1000000 < ns.toNat then goG x.who rd (Status.outOfRange).word s
  else if now then goG x.who rd 0#64 s
  else .go (s.putMe x.who { s.me x.who with st := st (s.deadline ns.toNat) })

def execWaitt (x : Ix) (rd ra : GReg) (s : State) : Answer :=
  garnil x (fun s => waitFor x rd ((s.me x.who).getG ra) false (.waitTime rd) s) s
def execWaitq (x : Ix) (rd ra rb : GReg) (s : State) : Answer :=
  garnil x (fun s =>
    let q := queueNo ((s.me x.who).getG ra)
    waitFor x rd ((s.me x.who).getG rb) (s.queueHas q) (.waitQueue rd q) s) s
def execWaitl (x : Ix) (rd ra rb : GReg) (s : State) : Answer :=
  garnil x (fun s =>
    let l := (fld ((s.me x.who).getG ra) 0 12).toNat
    waitFor x rd ((s.me x.who).getG rb) (s.lockFree l) (.waitLock rd l) s) s

/-- An enabled interrupt is pending. -/
def State.irqDue (s : State) : Bool := decide (s.sup.sien &&& s.sup.sipend ≠ 0#64)

/-- What a waiting thread wakes with: none while it goes on waiting; no register for WFI. -/
def State.waitDone (s : State) (x : Thread) : Option (Option (GReg × Status)) :=
  match x.st with
  | .waitTime rd d => if d ≤ s.tb.elapsed then some (some (rd, .ok)) else none
  | .waitQueue rd q d =>
    if s.queueHas q then some (some (rd, .ok)) else if d ≤ s.tb.elapsed then some (some (rd, .retry)) else none
  | .waitLock rd l d =>
    if s.lockFree l then some (some (rd, .ok)) else if d ≤ s.tb.elapsed then some (some (rd, .retry)) else none
  | .waitIrq => if s.irqDue then some none else none
  | _ => none

/-- WAIT_END: a wait whose condition holds or whose time has passed ends (R46); a WFI ends at an enabled interrupt. -/
def execWaitEnd (who : Who) (s : State) : Answer :=
  let x := s.me who
  if !s.pwr.mainOn then .next s
  else match s.waitDone x with
    | none => .next s
    | some none => .next (s.putMe who { x with st := .running })
    | some (some (rd, st)) => .next (s.putMe who ({ x with st := .running }.setG rd st.word))

/-! ## EVPOST (R61) -/

/-- EVPOST: stages an event; a ninth is illegal (R48). -/
def execEvpost (x : Ix) (rd ra : GReg) (imm : BitVec 12) (s : State) : Answer :=
  garnil x (fun s =>
    let t := s.me x.who
    let e : BitVec 16 × W32 × Byte := (0x8000#16 ||| BitVec.setWidth 16 imm, fld (t.getG ra) 0 32, fld (t.getG rd) 0 8)
    if 8 ≤ t.stage.events.length then .fault .illegal .ok
    else .go (s.putMe x.who { t with stage := { t.stage with events := t.stage.events ++ [e] } })) s

/-! ## Fences and resets of agents (R116, R124) -/

/-- The agents of Table 4.8. -/
def agentKnown (a : Nat) : Bool := decide (a ≤ agTree)
/-- The agent a register names. -/
def agentNo (v : Word) : Nat := (fld v 0 9).toNat

/-- Fence an agent; an engine one of whose agents is fenced holds no reserve (R70). -/
def State.fence (a : Nat) (s : State) : State :=
  let s := { s with ord := { s.ord with fences := Tab.set false s.ord.fences a true } }
  if a < 128 then
    State.reserveCheck (clusterOf a) { s with ge := { s.ge with
      reserve := s.ge.reserve.filter (fun t => decide (engineOf t ≠ engineOf a)) } }
  else s

/-- Lift a fence. -/
def State.unfence (a : Nat) (s : State) : State :=
  let s := { s with ord := { s.ord with fences := Tab.set false s.ord.fences a false } }
  if a < 128 then s.reserveCheck (clusterOf a) else s

def execFencea (x : Ix) (ra : GReg) (s : State) : Answer :=
  garnilSup x (fun s =>
    let a := agentNo ((s.me x.who).getG ra)
    .go (if agentKnown a then s.fence a else s)) s
def execUnfence (x : Ix) (ra : GReg) (s : State) : Answer :=
  garnilSup x (fun s =>
    let a := agentNo ((s.me x.who).getG ra)
    .go (if agentKnown a then s.unfence a else s)) s

/-- The supervisor restarts its firmware from the start of supervisor memory, which is kept (R116, R437; log entry 7). -/
def State.supRestart (s : State) : State :=
  let s := s.dropStage agSup
  { s.setThread agSup { st := .running } with sup := { mem := s.sup.mem } }

/-- A lost lock discards the stage of the agent's task, whose item goes back to its queue; its count does not rise (R21, R78). A commit
under way is let finish first (R49). -/
def State.loseTask (a : Nat) (s : State) : State :=
  let x := s.thread a
  if x.st = .waitAck then s
  else if a = agSup then s.dropStage a
  else if a < 128 ∧ x.busy then s.endTask a false true false
  else s

/-- Reset an agent and raise its epoch (R116): a thread's task ends as in the fault row without a rise of its count (R47), an
item open at a management port is discarded, the supervisor restarts. A commit under way is let finish first (R49). -/
def State.agentReset (a : Nat) (s : State) : State :=
  if a < 128 then
    let x := s.thread a
    if x.st = .waitAck then s.setThread a { x with resetDue := true }
    else (if x.busy then s.endTask a false true false else s).raiseEpoch a
  else if a = agSup then s.supRestart.raiseEpoch a
  else if a = agSpi then State.raiseEpoch a { s with hst := { s.hst with itemSpi := none } }
  else if a = agI2c then State.raiseEpoch a { s with hst := { s.hst with itemI2c := none } }
  else s.raiseEpoch a

/-- AGRESET; a withdrawn transmit lease is the agent's again (log entry 41). -/
def execAgreset (x : Ix) (ra : GReg) (s : State) : Answer :=
  garnilSup x (fun s =>
    let a := agentNo ((s.me x.who).getG ra)
    let s := { s with spn := { s.spn with revoked := s.spn.revoked.filter (fun b => decide (b ≠ a)) } }
    if !agentKnown a then .go s
    else if a = agSup then .stop (s.agentReset a)
    else .go (s.agentReset a)) s

/-! ## REVOKE (R124 to R126, Table 4.12) -/

/-- The threads, the supervisor among them, that hold something of queue `q`: an item in flight from it, a staged take or put. -/
def State.queueHolders (s : State) (q : Nat) : List Nat :=
  (s.ge.threads.filter (fun p =>
    decide (p.2.st ≠ .waitAck) &&
      (p.2.stage.takes.any (fun k => decide (k.q = q)) || p.2.stage.puts.any (fun k => decide (k.q = q))
        || (decide (p.1 < 128) && p.2.busy && p.2.rpl.isNone && decide (p.2.q = q))))).map (·.1)

/-- The supervisor owns the pull queue. -/
def State.supOwns (s : State) (q : Nat) : Bool := decide ((s.desc q).mode = 2#3) && (s.desc q).supown

/-- Queue ownership: the fenced holders' takes, reservations and in-flight items go back, and a pull queue of a fenced supervisor
passes to its OWNER cluster. -/
def State.revokeQueue (q : Nat) (s : State) : Status × List Nat × State :=
  let hs := s.queueHolders q
  let hs := if s.supOwns q && !decide (agSup ∈ hs) then hs ++ [agSup] else hs
  let bad := hs.filter s.fencedAg
  if hs.isEmpty then (.ok, [], s)
  else if bad.isEmpty then (.denied, [], s)
  else
    let s := bad.foldr (fun a s => if a < 128 then s.endTask a false true false else s.dropStage a) s
    let s := if decide (agSup ∈ bad) && s.supOwns q then s.setDesc q { s.desc q with supown := false } else s
    (.ok, bad, s)

/-- A lock: FREE with its mark set, the loser's task ended (R21, Table 4.12). A lapsed lock of a fenced agent, which an earlier REVOKE
of this agent or its reset left, becomes FREE in the same way; one of an agent that is not fenced is held by nobody. -/
def State.revokeLock (l : Nat) (s : State) : Status × List Nat × State :=
  let x := s.lock l
  match x.owner with
  | none => (.ok, [], s)
  | some (a, e) =>
    if s.fencedAg a then
      let s := if e = s.epochOf a then s.loseTask a else s
      (.ok, [a], (s.setLock l { s.lock l with mark := true }).freeLock l)
    else if e ≠ s.epochOf a then (.ok, [], s)
    else (.denied, [], s)

/-- A NAND channel: the fenced agents' commands on it are aborted (R377). -/
def State.revokeNand (ch : Nat) (s : State) : Status × List Nat × State :=
  let on := s.nft.cmds.filter (fun c => c.agent.isSome && Config.nandOn c.id ch)
  let bad := on.filter (fun c => match c.agent with | some a => s.fencedAg a | none => false)
  if on.isEmpty then (.ok, [], s)
  else if bad.isEmpty then (.denied, [], s)
  else (.ok, (bad.filterMap (·.agent)).eraseDups, s.nandAbort .fenced (fun c => decide (c.id ∈ bad.map (·.id))))

/-- An agent's transmit lease on Spindle: until AGRESET gives it back, what the agent would send there is DENIED (log entry 41). -/
def State.revokeSpindle (a : Nat) (s : State) : Status × List Nat × State :=
  if !agentKnown a || decide (a ∈ s.spn.revoked) then (.ok, [], s)
  else if s.fencedAg a then (.ok, [a], { s with spn := { s.spn with revoked := s.spn.revoked ++ [a] } })
  else (.denied, [], s)

/-- REVOKE by kind and resource. -/
def State.revoke (kind : Nat) (r : Word) (s : State) : Status × List Nat × State :=
  match kind with
  | 0 => s.revokeQueue (queueNo r)
  | 1 => s.revokeLock (fld r 0 12).toNat
  | 2 => s.revokeNand r.toNat
  | 3 => s.revokeSpindle r.toNat
  | _ => (.outOfRange, [], s)

/-- REVOKE: the epochs of the agents a resource is taken from rise (R116, R124), so that their locks lapse and with them the stage of a
task that held one (R21). -/
def execRevoke (x : Ix) (rd ra rb : GReg) (s : State) : Answer :=
  garnilSup x (fun s =>
    let t := s.me x.who
    let (st, as, s) := s.revoke (t.getG ra).toNat (t.getG rb)
    goG x.who rd st.word (as.foldl (fun s a => (if (s.locksOf a).isEmpty then s else s.loseTask a).raiseEpoch a) s)) s

/-! ## Sequences, interrupts, events of the supervisor (Table 2.17, R64, R120 to R123) -/

def execSeqopen (x : Ix) (rd ra : GReg) (s : State) : Answer :=
  garnilSup x (fun s =>
    let (st, s) := s.seqOpen .sup (queueNo ((s.me x.who).getG ra))
    goG x.who rd st.word s) s

/-- SEQCLOSE; a key-write close that programs OTP cells ends when they are programmed, and the supervisor waits for it (R339). -/
def execSeqclose (x : Ix) (rd ra rb : GReg) (s : State) : Answer :=
  garnilSup x (fun s =>
    let t := s.me x.who
    let (st, later, s) := s.seqClose .sup (queueNo (t.getG ra)) (bit (t.getG rb) 0)
    if later then .go (s.putMe x.who { s.me x.who with st := .waitClose rd }) else goG x.who rd st.word s) s

/-- IRET: back to SEPC with interrupts enabled; SEPC is a jump target (R34). -/
def execIret (x : Ix) (s : State) : Answer :=
  garnilSup x (fun s => jumpTo x.who s.sup.sepc.toNat { s with sup := { s.sup with sstatus := setFld s.sup.sstatus 0 (2#2) } }) s

/-- WFI: goes on where an enabled interrupt is pending, else waits. -/
def execWfi (x : Ix) (s : State) : Answer :=
  garnilSup x (fun s => if s.irqDue then .go s else .go (s.putMe x.who { s.me x.who with st := .waitIrq })) s

/-- EVPOSTS: an event recorded at once. -/
def execEvposts (x : Ix) (ra rb : GReg) (s : State) : Answer :=
  garnilSup x (fun s =>
    let t := s.me x.who
    let code := (fld (t.getG ra) 0 16).toNat
    .go (s.eventAs 0x48 (s.evFlags code) code (fld (t.getG rb) 0 32))) s

/-- SUP_INTERRUPT: an enabled interrupt enters the handler at SVEC + 0x1C0 (R64). It is taken while the supervisor runs or waits in WFI,
and held while it waits in WAITT, WAITQ, WAITL, for a close or for a journal acknowledgement: DESIGN CHOICE (log entry 41). -/
def execSupInterrupt (s : State) : Answer :=
  let x := s.thread agSup
  if s.pwr.mainOn && !s.sec.fail && decide (s.pwr.state < 3) && bit s.sup.sstatus 1 && s.irqDue
      && (decide (x.st = .running) || decide (x.st = .waitIrq)) then
    let s := { s with sup := { s.sup with
      sepc := BitVec.setWidth 64 x.pc
      scause := 0xF#64
      sstatus := setFld s.sup.sstatus 0 (1#2) } }
    .next (s.setThread agSup { x with pc := supPc (s.sup.svec.toNat + 0x1C0), st := .running })
  else .next s

/-! ## Unassigned encodings (R33) -/

/-- Which words are assigned encodings: those Tables 2.4 to 2.17 give an instruction, with the sub-fields and zero fields they
mark. -/
def assigned (w : W32) : Bool := (decodeWord .sup w).isSome

/-- UNASSIGNED_ENCODING: an unassigned word raises the illegal fault whether or not its predicate holds (R32, R33). A word that is
assigned is another command's. -/
def execUnassignedEncoding (who : Who) (w : W32) (s : State) : Answer :=
  if s.runnable who && !assigned w then
    let s := s.issue who
    match who with
    | .thread t => .next (s.engineFaultAt w t.val .illegal .ok)
    | .sup => .next (s.supFault .illegal .ok)
  else .next s

end Sys2Proof.Machine
end

