-- ==== Sys2Proof/Machine/Commit.lean ====
section
/-! DEFINITION. TCOMMIT (R18 to R20, R38, R39, R47, R49, R52, R86, R107, R114), the journal's part in it (R323, R324), replay
records (R312), and what releases commits that wait: JOURNAL_ACK and the loss of the twin (R302, R308). -/

namespace Sys2Proof.Machine
open Sys2Proof

/-- The executor an agent number names. -/
def whoOf (agent : Nat) : Who := if agent = agSup then .sup else .thread (Fin.ofNat 128 agent)

/-! ## The checks, in the order of R107's pseudocode -/

/-- What the checks find. -/
inductive CommitLook where
  | fault (c : FaultClass) (st : Status)
  | conflict (st : Status)
  | ready
deriving DecidableEq, Repr

/-- A staged line was read before it was staged, and a commit has written it since (R20, R113, R114). -/
def State.lineConflict (s : State) (g : Stage) : Bool :=
  g.reads.any (fun p => g.hasLine p.1 && decide (p.2 < Tab.get 0 s.ord.lineVer p.1))

/-- The pointer check of the reserved queues, then whether a reservation was voided by a reset since (R84, R86). -/
def State.putsOk : List Put → State → Bool × State
  | [], s => (true, s)
  | p :: ps, s =>
    let s := (s.qmAccess p.q).2
    if (s.desc p.q).gen = p.gen then State.putsOk ps s else (false, s)

/-- A partly written line, or a cache line of a staged completion, does not verify (R38, R107). -/
def State.commitPoisoned (s : State) (g : Stage) : Bool :=
  g.lines.any (fun l => decide (l < 2 ^ 28) && s.poisoned l && !g.fullLine l)
    || g.comps.any (fun c => s.ccPoisoned (s.ccBucket c.id))

/-- Journal writes are handled apart (R323). -/
def RegW.isJput (x : RegW) : Bool := decide (x.off = 0x170030) || decide (x.off = 0x170034)

/-- The units take every staged register write, in program order (R39). -/
def State.regwOk (i : Init) : List RegW → State → Bool
  | [], _ => true
  | x :: xs, s =>
    match s.regWriteN i x.off (if x.two then 8 else 4) x.val with
    | (.ok, s) => State.regwOk i xs s
    | _ => false

/-- The program stores still take the staged lines: a cluster parked at the store may run by now (R68). -/
def State.storesOk (s : State) (w : Who) (g : Stage) : Bool :=
  g.lines.all (fun l => match fabTarget (64 * l) with | .store b => s.storeRight w.init true b | _ => true)

/-- The host link still takes the staged outbound writes; a lost one leaves its event (R407). -/
def State.outsOk (i : Init) : List (Nat × Nat × Word) → State → Bool × State
  | [], s => (true, s)
  | x :: xs, s =>
    match s.outGate i x.1 with
    | (.ok, s) => State.outsOk i xs s
    | (_, s) => (false, s)

/-- The checks of a commit; a waiting commit's journal writes have been made and are not judged again. A line or an outbound write that
its target no longer takes ends as a register write refused at commit does (R18, R39; log entry 40). -/
def State.commitLook (w : Who) (late : Bool) (s : State) : CommitLook × State :=
  let g := (s.me w).stage
  let ws := if late then g.regw.filter (fun x => !x.isJput) else g.regw
  if s.lineConflict g then (.conflict .retry, s)
  else
    let (ok, s) := s.putsOk g.puts
    if !ok then (.conflict .queueReset, s)
    else if s.commitPoisoned g then (.fault .integrity .integrity, s)
    else match s.ladCheck g.ladds with
      | some (c, st) => (.fault c st, s)
      | none =>
        if !s.regwOk w.init ws || !s.storesOk w g then (.conflict .retry, s)
        else
          let (ok, s) := State.outsOk w.init g.outw s
          (if ok then .ready else .conflict .retry, s)

/-! ## The journal writes of a stage (R323) -/

/-- The entry addresses written to TWN_JPUT, in order; `lo` is the low word that waits in the initiator's latch. -/
def jputs : List RegW → W32 → List Nat
  | [], _ => []
  | x :: xs, lo =>
    if x.off = 0x170030 then (if x.two then x.val.toNat :: jputs xs lo else jputs xs (fld x.val 0 32))
    else if x.off = 0x170034 then (lo.toNat + 2 ^ 32 * (fld x.val 0 32).toNat) :: jputs xs lo
    else jputs xs lo

/-- The journal entries of a stage: the 128 bytes at each address as the stage leaves them. -/
def State.stageJournal (s : State) (w : Who) : List JEntry :=
  let g := (s.me w).stage
  let lo := (Tab.get none s.latch (latchKey w.init 0x170030)).getD (s.reg 0x170030)
  (jputs g.regw lo).map (fun a => BitVec.ofNat 1024 (natOfBytes ((List.range 128).map (fun k => s.seenByte g (a + k)))))

/-! ## The application -/

/-- Write one staged line: a whole line carries a fresh tag, a part is merged with the committed line (R38). -/
def State.applyLine (g : Stage) (s : State) (l : Nat) : State :=
  let bs := g.bytes.filter (fun p => decide (p.1 / 64 = l))
  if bs.length = 64 then (s.memStore (64 * l) (bs.map (fun p => p.2.getD 0#8))).2
  else bs.foldl (fun s p => (s.memStore p.1 [p.2.getD 0#8]).2) s

/-- The puts of a stage with their index among its class-4 outputs (R309). -/
def State.putIndex (s : State) : List Put → Nat → List (Put × Nat)
  | [], _ => []
  | p :: ps, k => (p, k) :: s.putIndex ps (if (s.desc p.q).cls = 4 then k + 1 else k)

/-- Publish one reserved output; NFT remembers whose command it is (R45, R77, R125). -/
def State.applyPut (agent : Nat) (s : State) (p : Put × Nat) : State :=
  let d := s.desc p.1.q
  let s := s.setDesc p.1.q { d with rsv := d.rsv - 1 }
  let s := s.publish p.1.q p.2 p.1.item
  if p.1.q = s.regF nftCmdq 0 16 then { s with nft := { s.nft with putBy := s.nft.putBy ++ [(d.tail, agent)] } } else s

/-- Apply one staged register write. -/
def State.applyReg (i : Init) (s : State) (x : RegW) : State := (s.regWriteN i x.off (if x.two then 8 else 4) x.val).2

/-- Send one staged outbound write; the checks have found the link up (R407). -/
def State.applyOut (s : State) (x : Nat × Nat × Word) : State :=
  { s with out := s.out ++ [.outbound (x.1 - 0x800000000) x.2.1 x.2.2] }

/-- Write one completion, and journal it where R324 says so. -/
def State.applyComp (s : State) (c : Comp) : State := (s.ccCommit c).journalComp c

/-- The unit number of a program's events (R393). -/
def postUnit (agent : Nat) : Nat := if agent = agSup then 0x48 else 0x40 + clusterOf agent

/-- Lines this commit writes take its number (R114). -/
def State.noteCommit (ls : List Nat) (s : State) : State :=
  let n := s.ord.cseq + 1
  { s with ord := { s.ord with cseq := n, lineVer := ls.foldl (fun t l => Tab.set 0 t l n) s.ord.lineVer } }

/-- Clear the mark of a lock (R52). -/
def State.unmark (s : State) (l : Nat) : State := s.setLock l { s.lock l with mark := false }

/-- The class-4 outputs of a stage as they are published. -/
def State.uplinkOuts (s : State) (g : Stage) : List Item :=
  ((s.putIndex g.puts 0).filter (fun p => decide ((s.desc p.1.q).cls = 4))).map (fun p => pairSeq p.2 p.1.item)

/-- The replay record of a Heartwood commit that published to a class-4 queue (R312). -/
def State.keepReplay (agent : Nat) (x : Thread) (outs : List Item) (s : State) : State :=
  if bit (s.reg Reg.twnCtl) 29 && decide (agent < 32) && !outs.isEmpty && decide (x.stage.imgs.length ≤ 126) then
    let r : ReplayRec := { item := x.item, q := x.q, lines := x.stage.imgs, ids := x.stage.idAns, epoch := s.cfg.cur, image := s.hwVersion
                           outs := outs.map (fun o => (fld o 400 48, itemDigest o)) }
    let rs := s.twn.replays ++ [r]
    { s with twn := { s.twn with replays := rs.drop (rs.length - Config.rplSize) } }
  else s

/-- Apply the memory lines, takes, puts and register writes of a stage (R107). -/
def State.applyStage (w : Who) (x : Thread) (s : State) : State :=
  let g := x.stage
  let s := (g.lines.foldl (fun s l => s.applyLine g l) s).book g.ladds
  let s := g.posts.foldl (fun s p => s.postCommit p) s
  let s := match w with
    | .thread _ => s.consume x.q x.qgen x.ptr
    | .sup => s
  let s := g.takes.foldl (fun s k => s.consume k.q k.gen k.ptr) s
  let s := (s.putIndex g.puts 0).foldl (fun s p => s.applyPut w.agent p) s
  let s := (g.regw.filter (fun x => !x.isJput)).foldl (fun s r => s.applyReg w.init r) s
  g.outw.foldl (fun s o => s.applyOut o) s

/-- Apply a whole stage (R18, R107): after the checks nothing fails. -/
def State.applyCommit (w : Who) (s : State) : State :=
  let a := w.agent
  let x := s.me w
  let g := x.stage
  let held := (s.locksOf a).map (·.1)
  let outs := s.uplinkOuts g
  let s := (s.applyStage w x).noteCommit (g.lines.filter (fun l => decide (l < 2 ^ 28)) ++ s.ladLines g.ladds)
  let s := (g.comps.foldl (fun s c => s.applyComp c) s).dropPend a
  let s := held.foldl (fun s l => s.unmark l) s
  let s := g.rels.foldl (fun s l => if s.holds a (s.lock l) then s.freeLock l else s) s
  let s := g.events.foldl (fun s e => s.eventAs (postUnit a) e.2.2.toNat e.1.toNat e.2.1) s
  s.keepReplay a x outs

/-- The end of a task by commit (R47, R422). -/
def State.commitEnd (w : Who) (s : State) : State :=
  match w with
  | .thread t =>
    let x := s.thread t.val
    let s := s.inflDown x.q x.qgen
    ((s.classIssued t.val 0).count (0x0102 + 4 * clusterOf t.val) 1 { init := some w.init }).freeThread t.val
  | .sup => s.putMe w { s.me w with stage := {}, dispSeq := s.ord.cseq, jwait := none, st := .running }

/-- The conflict row (R47): the item is redispatched and its count does not rise; on the supervisor the stage is discarded. The status
reported, RETRY or QUEUE_RESET (R20, R86), stands in the model's record of responses. -/
def State.commitConflict (w : Who) (st : Status) (s : State) : State :=
  let s := s.respond w.init st
  match w with
  | .thread t => s.endTask t.val false false false
  | .sup => (s.dropLocks agSup).dropStage agSup

/-- What the executor does next. -/
def commitGo (w : Who) (s : State) : GRes :=
  match w with
  | .thread _ => .stop s
  | .sup => .go s

/-- A commit that waits for its acknowledgement writes one of these lines: commits are indivisible, and one to the same line comes after
it (R49, R323). -/
def State.lineTaken (s : State) (agent : Nat) (ls : List Nat) : Bool :=
  s.ge.threads.any (fun p => decide (p.1 ≠ agent) && decide (p.2.st = .waitAck) && p.2.stage.lines.any (fun l => decide (l ∈ ls)))

/-- A target of the stage is frozen, or a commit under way writes one of its lines, so the commit waits (R49, R403). -/
def State.commitWaits (s : State) (agent : Nat) (g : Stage) : Bool :=
  g.lines.any (fun l => s.fabWaits (64 * l) 64) || (!g.regw.isEmpty && s.frozenTgt 2) || (!g.outw.isEmpty && s.frozenTgt 5)
    || s.lineTaken agent g.lines

/-- TCOMMIT: the watchdog, the fence, a replay's comparison (R313), the checks; journal entries go to the twin first, and the commit waits at its instruction for
their acknowledgement (R49, R65, R107, R323). -/
def commitRun (w : Who) (s : State) : GRes :=
  let x := s.me w
  let out := match w with
    | .thread _ => s.past x.wdStart (x.wdLimit * usCounts)
    | .sup => false
  if out then .fault .watchdog .ok
  else if s.fencedAg w.agent then .fault .fenced .fenced
  else match x.rpl with
  | some (ps, r) =>
    .stop (s.replayEnd w.agent ps r (((s.uplinkOuts x.stage).find? (fun o => decide (fld o 400 48 = ps))).map itemDigest))
  | none =>
  match s.commitLook w false with
    | (.fault c st, s) => .faultIn s c st
    | (.conflict st, s) => commitGo w (s.commitConflict w st)
    | (.ready, s) =>
      let js := s.stageJournal w
      if js.isEmpty || s.solo then commitGo w ((s.applyCommit w).commitEnd w)
      else
        let s := js.foldl (fun s e => s.journalPut e) s
        if s.twn.lost then commitGo w ((s.applyCommit w).commitEnd w)
        else .stop (s.putMe w { s.me w with st := .waitAck, jwait := some s.twn.jpos.toNat, jcnt := js.length })

/-- TCOMMIT. -/
def execTcommit (x : Ix) (s : State) : Answer :=
  if s.runnable x.who && ((s.me x.who).getP x.psel != x.pneg) && s.commitWaits x.who.agent (s.me x.who).stage then .next s
  else garnil x (fun s => commitRun x.who s) s

/-- REPLAY_REQUEST: a tree item, by its point word and its bytes 40-45: kind 0x7F2 names a pair sequence there (the two digests are for its sender), whose record is replayed on a thread of cluster 0, and the
answer, an item of kind 0x7F3, follows when that ends (R313). -/
def execReplayRequest (point : W32) (pseq : BitVec 48) (s : State) : Answer :=
  if s.fieldRuns && decide (point.toNat / 2 ^ 21 = 0x7F2) then .next (s.replayStart pseq) else .next s

/-! ## Commits that wait for the twin (R323) -/

/-- The agents whose commits wait, by journal position. -/
def insWait (p : Nat × Nat) : List (Nat × Nat) → List (Nat × Nat)
  | [] => [p]
  | q :: qs => if p.1 < q.1 then p :: q :: qs else q :: insWait p qs
def State.waiters (s : State) : List (Nat × Nat) :=
  s.ge.threads.foldl (fun l p => match p.2.st, p.2.jwait with
    | .waitAck, some j => insWait (j, p.1) l
    | _, _ => l) []

/-- An AGRESET that arrived during the commit takes effect after it (R49). -/
def State.resetLate (agent : Nat) (s : State) : State :=
  let x := s.thread agent
  if x.resetDue then (s.setThread agent { x with resetDue := false }).raiseEpoch agent else s

/-- Withdraw the entries `n` a failed commit put up to position `j` from this device's ring: none of its stage is applied (R18). -/
def State.journalDrop (j n : Nat) (s : State) : State :=
  { s with twn := { s.twn with journal := s.twn.journal.filter (fun e => !(decide (j < (jPos e).toNat + n) && decide ((jPos e).toNat ≤ j))) } }

/-- Past the TCOMMIT: the supervisor goes on at the next instruction; a task has ended. -/
def State.commitPc (w : Who) (s : State) : State :=
  match w with
  | .thread _ => s
  | .sup => s.setPc w ((s.me w).pc.toNat + 4)

/-- Let a waiting commit go on: the checks again, then the application or its failure. -/
def State.commitLate (agent : Nat) (s : State) : State :=
  let w := whoOf agent
  let x := s.thread agent
  let s := s.setThread agent { x with st := .running, jwait := none, jcnt := 0 }
  match s.commitLook w true with
  | (.fault c st, s) => ((s.journalDrop (x.jwait.getD 0) x.jcnt).fault w c st).resetLate agent
  | (.conflict st, s) => (((s.journalDrop (x.jwait.getD 0) x.jcnt).commitConflict w st).commitPc w).resetLate agent
  | (.ready, s) => (((s.applyCommit w).commitEnd w).commitPc w).resetLate agent

/-- JOURNAL_ACK: the twin holds the journal up to a position (R323). -/
def execJournalAck (pos : Word) (s : State) : Answer :=
  if s.twinLink then
    let s := { s with twn := { s.twn with jack := if s.twn.jack.toNat < pos.toNat then pos else s.twn.jack } }
    .next ((s.waiters.filter (fun p => decide (p.1 ≤ pos.toNat))).foldl (fun s p => s.commitLate p.2) s)
  else .next s

/-- The completion a KIND 1 entry carries (Table 13.6). -/
def jComp (e : JEntry) : Comp := ⟨jReq e, fld e 320 8, fld e 192 128⟩

/-- A stream entry for a completion that comes from the twin (R106). -/
def State.streamFor (id : Word) (s : State) : State :=
  match s.stFind (reqOrigin id) (reqStream id) with
  | some _ => s
  | none => match s.stRoom (reqOrigin id) (reqStream id) with
    | some a => s.stPut a (tentEntry (reqOrigin id) (reqStream id))
    | none => s

/-- One entry arrives: it joins the ring; a tone map joins the neighbour table, and a completion joins the cache unless its ID is
complete there (R222, R323, R324). -/
def State.journalIn (s : State) (e : JEntry) : State :=
  let ring := s.twn.journal ++ [e]
  let s := State.mapFrom e { s with twn := { s.twn with jpos := jPos e, journal := ring.drop (ring.length - 65536) } }
  if jKind e = 1 ∧ (s.ccFind (jReq e)).isNone ∧ ¬ s.ccPoisoned (s.ccBucket (jReq e)) then (s.streamFor (jReq e)).ccCommit (jComp e) else s

/-- JOURNAL_RECEIVE: a twin that is not Headstock keeps the entries and acknowledges the last (R323, R324). -/
def execJournalReceive (es : List JEntry) (s : State) : Answer :=
  if s.twinLink && decide (s.twn.cp ≠ 0#2) then
    match es.getLast? with
    | none => .next s
    | some e => .next ((es.foldl (fun s e => s.journalIn e) s).toTwin (.spnJournalAck (jPos e)))
  else .next s

/-- TWIN_LOSS: three heartbeats missing, 300 us after the last one expected, or the link down. The survivor takes over custody
points, waits for no match and for no acknowledgement (R302, R304, R308, R323). -/
def execTwinLoss (s : State) : Answer :=
  let late := match s.spn.hbAt with | some t => s.past t (300 * usCounts) | none => false
  if s.twinRuns && !s.twn.lost && (late || !s.spn.link) then
    let own := s.spn.own.filter (fun o => !o.settled)
    let s := { s with
      spn := { s.spn with
        link := false
        own := s.spn.own.map (fun (o : OwnItem) => { o with settled := true }) }
      twn := { s.twn with
        lost := true
        twinup := false
        hand := none
        takeover := true
        ceded := false } }
    let s := (s.raiseEpoch agTwin).event 0x1701 0#32
    let s := own.foldl (fun s o => s.settle o.q o.ptr) s
    let s := s.custodyTakeover
    .next (s.waiters.foldl (fun s p => s.commitLate p.2) s)
  else .next s

end Sys2Proof.Machine
end

