-- ==== Sys2Proof/Machine/Int.lean ====
section
/-! DEFINITION. The INT, immediate, compare, predicate and control-flow instructions (R31 to R36, Tables 2.4 to 2.6). -/

namespace Sys2Proof.Machine
open Sys2Proof

/-- gd := f ga gb. -/
def alu2 (x : Ix) (rd ra rb : GReg) (f : Word → Word → Word) : State → Answer :=
  garnil x (fun s => goG x.who rd (f ((s.me x.who).getG ra) ((s.me x.who).getG rb)) s)

/-- gd := f ga. -/
def alu1 (x : Ix) (rd ra : GReg) (f : Word → Word) : State → Answer :=
  garnil x (fun s => goG x.who rd (f ((s.me x.who).getG ra)) s)

/-- gd := f ga gb, with the arithmetic fault on a zero divisor (R35). -/
def aluDiv (x : Ix) (rd ra rb : GReg) (f : Word → Word → Word) : State → Answer :=
  garnil x (fun s =>
    if (s.me x.who).getG rb = 0#64 then .fault .arithmetic .ok
    else goG x.who rd (f ((s.me x.who).getG ra) ((s.me x.who).getG rb)) s)

/-- The shift amount gb[5:0] (R35). -/
def shamt (v : Word) : Nat := (fld v 0 6).toNat
/-- The high 64 bits of a signed product. -/
def mulHi (a b : Word) : Word := BitVec.ofInt 64 (a.toInt * b.toInt / 2 ^ 64)
/-- The high 64 bits of an unsigned product. -/
def mulHiU (a b : Word) : Word := BitVec.ofNat 64 (a.toNat * b.toNat / 2 ^ 64)
/-- The signed quotient rounded toward zero; -2^63 by -1 gives -2^63 (R35). -/
def divS (a b : Word) : Word := BitVec.ofInt 64 (Int.tdiv a.toInt b.toInt)
/-- The remainder with the sign of the dividend (R35). -/
def remS (a b : Word) : Word := BitVec.ofInt 64 (Int.tmod a.toInt b.toInt)
/-- Leading zeros below bit `n`. -/
def clzFrom (v : Word) : Nat → Nat
  | 0 => 0
  | n + 1 => if v.getLsbD n then 0 else 1 + clzFrom v n
/-- Trailing zeros from bit `64 - n`. -/
def ctzFrom (v : Word) : Nat → Nat
  | 0 => 0
  | n + 1 => if v.getLsbD (63 - n) then 0 else 1 + ctzFrom v n
/-- Set bits below bit `n`. -/
def popFrom (v : Word) : Nat → Nat
  | 0 => 0
  | n + 1 => (if v.getLsbD n then 1 else 0) + popFrom v n
/-- The bytes in reverse order. -/
def bswap64 (v : Word) : Word := BitVec.ofNat 64 (natOfBytes (bytesOf 8 v).reverse)
/-- The bit field of BFX: width gb[11:6], 0 meaning 64, from bit gb[5:0] (Table 2.5). -/
def bfxOf (a b : Word) : Word :=
  let w := (fld b 6 6).toNat
  let v := a >>> shamt b
  if w = 0 then v else v &&& BitVec.ofNat 64 (2 ^ w - 1)

def execAdd (x : Ix) (rd ra rb : GReg) (s : State) : Answer := alu2 x rd ra rb (fun a b => a + b) s
def execSub (x : Ix) (rd ra rb : GReg) (s : State) : Answer := alu2 x rd ra rb (fun a b => a - b) s
def execAnd (x : Ix) (rd ra rb : GReg) (s : State) : Answer := alu2 x rd ra rb (fun a b => a &&& b) s
def execOr (x : Ix) (rd ra rb : GReg) (s : State) : Answer := alu2 x rd ra rb (fun a b => a ||| b) s
def execXor (x : Ix) (rd ra rb : GReg) (s : State) : Answer := alu2 x rd ra rb (fun a b => a ^^^ b) s
def execAndn (x : Ix) (rd ra rb : GReg) (s : State) : Answer := alu2 x rd ra rb (fun a b => a &&& ~~~b) s
def execSll (x : Ix) (rd ra rb : GReg) (s : State) : Answer := alu2 x rd ra rb (fun a b => a <<< shamt b) s
def execSrl (x : Ix) (rd ra rb : GReg) (s : State) : Answer := alu2 x rd ra rb (fun a b => a >>> shamt b) s
def execSra (x : Ix) (rd ra rb : GReg) (s : State) : Answer := alu2 x rd ra rb (fun a b => BitVec.sshiftRight a (shamt b)) s
def execRor (x : Ix) (rd ra rb : GReg) (s : State) : Answer := alu2 x rd ra rb (fun a b => a.rotateRight (shamt b)) s
def execMul (x : Ix) (rd ra rb : GReg) (s : State) : Answer := alu2 x rd ra rb (fun a b => a * b) s
def execMulh (x : Ix) (rd ra rb : GReg) (s : State) : Answer := alu2 x rd ra rb mulHi s
def execMulhu (x : Ix) (rd ra rb : GReg) (s : State) : Answer := alu2 x rd ra rb mulHiU s
def execDiv (x : Ix) (rd ra rb : GReg) (s : State) : Answer := aluDiv x rd ra rb divS s
def execDivu (x : Ix) (rd ra rb : GReg) (s : State) : Answer := aluDiv x rd ra rb (fun a b => a / b) s
def execRem (x : Ix) (rd ra rb : GReg) (s : State) : Answer := aluDiv x rd ra rb remS s
def execRemu (x : Ix) (rd ra rb : GReg) (s : State) : Answer := aluDiv x rd ra rb (fun a b => a % b) s
def execMin (x : Ix) (rd ra rb : GReg) (s : State) : Answer := alu2 x rd ra rb (fun a b => if a.toInt ≤ b.toInt then a else b) s
def execMax (x : Ix) (rd ra rb : GReg) (s : State) : Answer := alu2 x rd ra rb (fun a b => if a.toInt ≤ b.toInt then b else a) s
def execMinu (x : Ix) (rd ra rb : GReg) (s : State) : Answer := alu2 x rd ra rb (fun a b => if a.toNat ≤ b.toNat then a else b) s
def execMaxu (x : Ix) (rd ra rb : GReg) (s : State) : Answer := alu2 x rd ra rb (fun a b => if a.toNat ≤ b.toNat then b else a) s
def execClz (x : Ix) (rd ra : GReg) (s : State) : Answer := alu1 x rd ra (fun a => BitVec.ofNat 64 (clzFrom a 64)) s
def execCtz (x : Ix) (rd ra : GReg) (s : State) : Answer := alu1 x rd ra (fun a => BitVec.ofNat 64 (ctzFrom a 64)) s
def execPopc (x : Ix) (rd ra : GReg) (s : State) : Answer := alu1 x rd ra (fun a => BitVec.ofNat 64 (popFrom a 64)) s
def execBswap (x : Ix) (rd ra : GReg) (s : State) : Answer := alu1 x rd ra bswap64 s
def execSxb (x : Ix) (rd ra : GReg) (s : State) : Answer := alu1 x rd ra (fun a => sext (fld a 0 8)) s
def execSxh (x : Ix) (rd ra : GReg) (s : State) : Answer := alu1 x rd ra (fun a => sext (fld a 0 16)) s
def execSxw (x : Ix) (rd ra : GReg) (s : State) : Answer := alu1 x rd ra (fun a => sext (fld a 0 32)) s
def execZxw (x : Ix) (rd ra : GReg) (s : State) : Answer := alu1 x rd ra (fun a => a &&& 0xFFFFFFFF#64) s
def execBfx (x : Ix) (rd ra rb : GReg) (s : State) : Answer := alu2 x rd ra rb bfxOf s

/-! Immediates (Table 2.4). -/

def execAddi (x : Ix) (rd ra : GReg) (imm : BitVec 12) (s : State) : Answer := alu1 x rd ra (fun a => a + sext imm) s
def execAndi (x : Ix) (rd ra : GReg) (imm : BitVec 12) (s : State) : Answer := alu1 x rd ra (fun a => a &&& sext imm) s
def execOri (x : Ix) (rd ra : GReg) (imm : BitVec 12) (s : State) : Answer := alu1 x rd ra (fun a => a ||| sext imm) s
def execXori (x : Ix) (rd ra : GReg) (imm : BitVec 12) (s : State) : Answer := alu1 x rd ra (fun a => a ^^^ sext imm) s
def execSlli (x : Ix) (rd ra : GReg) (sh : BitVec 6) (s : State) : Answer := alu1 x rd ra (fun a => a <<< sh.toNat) s
def execSrli (x : Ix) (rd ra : GReg) (sh : BitVec 6) (s : State) : Answer := alu1 x rd ra (fun a => a >>> sh.toNat) s
def execSrai (x : Ix) (rd ra : GReg) (sh : BitVec 6) (s : State) : Answer := alu1 x rd ra (fun a => BitVec.sshiftRight a sh.toNat) s
def execRori (x : Ix) (rd ra : GReg) (sh : BitVec 6) (s : State) : Answer := alu1 x rd ra (fun a => a.rotateRight sh.toNat) s
def execLui (x : Ix) (rd : GReg) (imm : BitVec 17) (s : State) : Answer :=
  garnil x (fun s => goG x.who rd (sext imm <<< 12) s) s
/-- LDL: 8 bytes of the store at pc + 4 x sext(imm17); the address is a multiple of 8 inside the store (R34, R37, R68). -/
def execLdl (x : Ix) (rd : GReg) (imm : BitVec 17) (s : State) : Answer :=
  garnil x (fun s =>
    let a := branchTarget (s.me x.who).pc.toNat imm
    if 0 ≤ a ∧ a + 8 ≤ codeSize x.who.agent ∧ a % 8 = 0 then
      goG x.who rd (BitVec.ofNat 64 (s.codeNat x.who.agent a.toNat 8)) s
    else .fault .illegal .ok) s

/-! Compares and predicates (R36, Table 2.6). -/

/-- A CMP minor: c from ga and gb, combined into pd. -/
def cmp2 (x : Ix) (k : Comb) (pd : PReg) (ra rb : GReg) (f : Word → Word → Bool) : State → Answer :=
  garnil x (fun s => goCmp x.who k pd (f ((s.me x.who).getG ra) ((s.me x.who).getG rb)) s)

/-- CMPI's condition against the extended immediate (R36, Table 2.4). -/
def cmpiCond (c : CmpiCond) (a b : Word) : Bool :=
  match c with
  | .eq => decide (a = b)
  | .ne => decide (a ≠ b)
  | .lt => decide (a.toInt < b.toInt)
  | .ltu => decide (a.toNat < b.toNat)

def execCmpi (x : Ix) (c : CmpiCond) (pd : PReg) (ra : GReg) (imm : BitVec 12) (s : State) : Answer :=
  garnil x (fun s => goP x.who pd (cmpiCond c ((s.me x.who).getG ra) (sext imm)) s) s
def execCmpEq (x : Ix) (k : Comb) (pd : PReg) (ra rb : GReg) (s : State) : Answer := cmp2 x k pd ra rb (fun a b => decide (a = b)) s
def execCmpNe (x : Ix) (k : Comb) (pd : PReg) (ra rb : GReg) (s : State) : Answer := cmp2 x k pd ra rb (fun a b => decide (a ≠ b)) s
def execCmpLt (x : Ix) (k : Comb) (pd : PReg) (ra rb : GReg) (s : State) : Answer :=
  cmp2 x k pd ra rb (fun a b => decide (a.toInt < b.toInt)) s
def execCmpGe (x : Ix) (k : Comb) (pd : PReg) (ra rb : GReg) (s : State) : Answer :=
  cmp2 x k pd ra rb (fun a b => decide (b.toInt ≤ a.toInt)) s
def execCmpLtu (x : Ix) (k : Comb) (pd : PReg) (ra rb : GReg) (s : State) : Answer :=
  cmp2 x k pd ra rb (fun a b => decide (a.toNat < b.toNat)) s
def execCmpGeu (x : Ix) (k : Comb) (pd : PReg) (ra rb : GReg) (s : State) : Answer :=
  cmp2 x k pd ra rb (fun a b => decide (b.toNat ≤ a.toNat)) s
def execCmpTst (x : Ix) (k : Comb) (pd : PReg) (ra rb : GReg) (s : State) : Answer :=
  cmp2 x k pd ra rb (fun a b => decide (a &&& b ≠ 0#64)) s

/-- A PRED minor: pd from two predicates. -/
def pred2 (x : Ix) (pd pa pb : PReg) (f : Bool → Bool → Bool) : State → Answer :=
  garnil x (fun s => goP x.who pd (f ((s.me x.who).getP pa) ((s.me x.who).getP pb)) s)

def execPmov (x : Ix) (pd pa : PReg) (s : State) : Answer := pred2 x pd pa pa (fun a _ => a) s
def execPand (x : Ix) (pd pa pb : PReg) (s : State) : Answer := pred2 x pd pa pb (fun a b => a && b) s
def execPor (x : Ix) (pd pa pb : PReg) (s : State) : Answer := pred2 x pd pa pb (fun a b => a || b) s
def execPxor (x : Ix) (pd pa pb : PReg) (s : State) : Answer := pred2 x pd pa pb (fun a b => a ^^ b) s
def execPnot (x : Ix) (pd pa : PReg) (s : State) : Answer := pred2 x pd pa pa (fun a _ => !a) s
/-- PGET: p7 to p0 as bits [7:0]; p0 reads 1. -/
def execPget (x : Ix) (rd : GReg) (s : State) : Answer :=
  garnil x (fun s => goG x.who rd (BitVec.setWidth 64 ((s.me x.who).p ||| 1#8)) s) s
/-- PPUT: p7 to p1 := ga[7:1]. -/
def execPput (x : Ix) (ra : GReg) (s : State) : Answer :=
  garnil x (fun s => let t := s.me x.who; .go (s.putMe x.who { t with p := fld (t.getG ra) 0 8 ||| 1#8 })) s

/-! Control flow (R34). -/

def execBr (x : Ix) (imm : BitVec 17) (s : State) : Answer :=
  garnil x (fun s => jumpTo x.who (branchTarget (s.me x.who).pc.toNat imm) s) s
/-- gd := pc + 4, then branch; a target that faults writes nothing (R34, R65). -/
def linkTo (w : Who) (rd : GReg) (t : Int) (s : State) : GRes :=
  jumpTo w t (s.putMe w ((s.me w).setG rd (BitVec.ofNat 64 ((s.me w).pc.toNat + 4))))
def execCall (x : Ix) (rd : GReg) (imm : BitVec 17) (s : State) : Answer :=
  garnil x (fun s => linkTo x.who rd (branchTarget (s.me x.who).pc.toNat imm) s) s
def execJr (x : Ix) (ra : GReg) (s : State) : Answer :=
  garnil x (fun s => jumpTo x.who ((s.me x.who).getG ra).toNat s) s
def execJalr (x : Ix) (rd ra : GReg) (s : State) : Answer :=
  garnil x (fun s => linkTo x.who rd ((s.me x.who).getG ra).toNat s) s

end Sys2Proof.Machine
end

