-- ==== Sys2Proof/Machine/Manage.lean ====
section
/-! DEFINITION. The management ports' transfers (R409, R411), item port words (R406), the I2C controller's start (R414), and the
register reads that are commands of their own: MBX_SEND (R417) and PMC_CNTL_READ (R419). -/

namespace Sys2Proof.Machine
open Sys2Proof

/-- The words a read command returned. -/
def State.returned (ws : List W32) (s : State) : State := { s with hst := { s.hst with rdata := ws } }

/-- The outcome of a port's access: its response, and the status the port keeps. -/
def State.portStatus (i : Init) (st : Status) (s : State) : State :=
  State.respond { s with hst := if i = .i2c then { s.hst with i2cStat := st } else { s.hst with spiStat := st } } i st

/-! ## SPI target (R409) -/

/-- The address of word `k` of a transfer. -/
def spiAddr (a : BitVec 40) (k : Nat) : Nat := (a.toNat + 4 * k) % 2 ^ 40

/-- A word of a transfer would wait for its target, and so the transfer does (R403). -/
def State.spiWaits (s : State) (a : BitVec 40) (n : Nat) : Bool := (List.range n).any (fun k => s.fabWaits (spiAddr a k) 4)

/-- Fetch words `k` and up; what an access that was refused shifts out is not given, and is free. -/
def State.spiFetch (a : BitVec 40) : Nat → Nat → State → List W32 × State
  | 0, _, s => ([], s)
  | n + 1, k, s =>
    let (st, v, s) := s.fabRead4 .spi (spiAddr a k)
    let (v, s) := if st = .ok then (v, s) else s.draw 32
    let (ws, s) := State.spiFetch a n (k + 1) (s.portStatus .spi st)
    (v :: ws, s)

/-- SPI_READ: up to 64 words, each one 32-bit access. -/
def execSpiRead (addr : BitVec 40) (words : Fin 65) (s : State) : Answer :=
  if !s.pwr.mainOn || s.spiWaits addr words.val then .next s
  else
    let (ws, s) := s.spiFetch addr words.val 0
    .next (s.returned ws)

/-- Apply words `k` and up. -/
def State.spiStore (a : BitVec 40) : List W32 → Nat → State → State
  | [], _, s => s
  | v :: vs, k, s =>
    let (st, s) := s.fabWrite4 .spi (spiAddr a k) v
    State.spiStore a vs (k + 1) (s.portStatus .spi st)

/-- SPI_WRITE: at most 256 data bytes. -/
def execSpiWrite (addr : BitVec 40) (data : List W32) (s : State) : Answer :=
  let vs := data.take 64
  if !s.pwr.mainOn || s.spiWaits addr vs.length then .next s else .next (s.spiStore addr vs 0)

/-- SPI_STATUS: the status of the last access. -/
def execSpiStatus (s : State) : Answer :=
  if !s.pwr.mainOn then .next s else .next (s.returned [BitVec.ofNat 32 s.hst.spiStat.code])

/-! ## I2C target (R411) -/

/-- HST_I2CCFG.EN, and the register windows' target answers. -/
def State.i2cOn (s : State) : Bool := s.pwr.mainOn && bit (s.reg 0x1E0080) 31 && !s.frozenTgt 2

/-- The register offset of word `k` within the 16 MiB window. -/
def i2cOff (off : BitVec 24) (k : Nat) : Nat := (off.toNat + 4 * k) % 2 ^ 24

/-- Apply words `k` and up; the port NACKs after an access that is refused. -/
def State.i2cStore (off : BitVec 24) : List W32 → Nat → State → State
  | [], _, s => s
  | v :: vs, k, s =>
    match s.regWrite .i2c (i2cOff off k) v with
    | (.ok, s) => State.i2cStore off vs (k + 1) (s.portStatus .i2c .ok)
    | (st, s) => s.portStatus .i2c st

def execI2cTargetWrite (off : BitVec 24) (data : List W32) (s : State) : Answer :=
  if s.i2cOn then .next (s.i2cStore off data 0) else .next s

/-- Fetch words `k` and up, until an access is refused. -/
def State.i2cFetch (off : BitVec 24) : Nat → Nat → State → List W32 × State
  | 0, _, s => ([], s)
  | n + 1, k, s =>
    match s.regRead .i2c (i2cOff off k) with
    | (.ok, v, s) =>
      let (ws, s) := State.i2cFetch off n (k + 1) (s.portStatus .i2c .ok)
      (v :: ws, s)
    | (st, _, s) => ([], s.portStatus .i2c st)

def execI2cTargetRead (off : BitVec 24) (words : Nat) (s : State) : Answer :=
  if s.i2cOn then
    let (ws, s) := s.i2cFetch off words 0
    .next (s.returned ws)
  else .next s

/-! ## Commands through one register -/

/-- ITEM_PORT_WORD_WRITE: a word at offset `off` of the item port (R406). -/
def execItemPortWordWrite (viaI2c : Bool) (off : BitVec 9) (v : W32) (s : State) : Answer :=
  let i : Init := if viaI2c then .i2c else .spi
  if !s.pwr.mainOn || s.frozenTgt 2 || (viaI2c && !s.i2cOn) then .next s
  else
    let (st, s) := s.regWrite i (0x1E1000 + off.toNat) v
    .next (s.portStatus i st)

/-- GO: HST_I2CCMD is written, and with GO set the first attempt is made on the bus (R412, R414). -/
def execGo (i : Init) (v : W32) (bus : I2cBus) (s : State) : Answer :=
  match s.regCmd i 0x1E0088 v with
  | .next t => .next (if t.hst.i2cBusy && !s.hst.i2cBusy then t.i2cAttempt bus else t)
  | r => r

/-- A 32-bit register read as a command: its response, and the word it returned. -/
def State.readCmd (i : Init) (off : Nat) (s : State) : Answer :=
  if !s.pwr.mainOn || s.frozenTgt 2 then .next s
  else
    let (st, v, s) := s.regRead i off
    let s := if i = .host ∧ st ≠ .ok then s.hostError (0x400000000 + off) st agHost else s
    .next ((if st = .ok then s.returned [v] else s).respond i st)

/-- MBX_SEND: the read of MBX_SENDn sends the record and returns its status (R417). -/
def execMbxSend (i : Init) (n : Fin 32) (s : State) : Answer := s.readCmd i (0x050008 + 0x40 * n.val)

/-- PMC_CNTL_READ: the read latches the counter's upper bits (R419). -/
def execPmcCntlRead (i : Init) (n : Fin 192) (s : State) : Answer := s.readCmd i (0x060000 + 8 * n.val)

end Sys2Proof.Machine
end

