-- ==== Sys2Proof/Machine/RegCmds.lean ====
section
/-! DEFINITION. The commands that are a 32-bit write of one register: each names its register by BAR0 offset (Table 20.4); the access
is judged and applied by `State.regCmd`, and the effect is the unit's own write operation. -/

namespace Sys2Proof.Machine
open Sys2Proof

/-! ## Descriptor commands (R73, R74): QM_DCMD -/

/-- DESCRIPTOR_READ. -/
def execDescriptorRead (i : Init) (s : State) : Answer := s.regCmd i 0x080004 0#32
/-- DESCRIPTOR_CREATE. -/
def execDescriptorCreate (i : Init) (s : State) : Answer := s.regCmd i 0x080004 1#32
/-- DESCRIPTOR_WRITE. -/
def execDescriptorWrite (i : Init) (s : State) : Answer := s.regCmd i 0x080004 2#32
/-- DESCRIPTOR_DELETE. -/
def execDescriptorDelete (i : Init) (s : State) : Answer := s.regCmd i 0x080004 3#32

/-! ## Queues, faults and ordering (R87, R92, R99 to R101, R110, R120 to R123) -/

/-- QM_RPL_GO. -/
def execQmRplGo (i : Init) (v : W32) (s : State) : Answer := s.regCmd i 0x080068 v
/-- GE_FLT_POP. -/
def execGeFltPop (i : Init) (v : W32) (s : State) : Answer := s.regCmd i 0x090030 v
/-- ORD_MCFG. -/
def execOrdMcfgWrite (i : Init) (v : W32) (s : State) : Answer := s.regCmd i 0x0B0008 v
/-- ORD_MQ. -/
def execOrdMqWrite (i : Init) (v : W32) (s : State) : Answer := s.regCmd i 0x0B0004 v
/-- ORD_CC_REPAIR. -/
def execOrdCcRepair (i : Init) (v : W32) (s : State) : Answer := s.regCmd i 0x0B0018 v
/-- ORD_SEQ_OPEN. -/
def execOrdSeqOpen (i : Init) (v : W32) (s : State) : Answer := s.regCmd i 0x0B0040 v
/-- ORD_SEQ_CLOSE. -/
def execOrdSeqClose (i : Init) (v : W32) (s : State) : Answer := s.regCmd i 0x0B0044 v
/-- A write of a SEQ register (R10, R122). -/
def execSeqWrite (i : Init) (off : BitVec 24) (v : W32) (s : State) : Answer :=
  match regRow off.toNat with
  | some r => if r.acc = .seq then s.regCmd i off.toNat v else .next s
  | none => .next s

/-! ## Custody inputs, flow loads, balance, ledger (R128, R156, R175, R183, R195) -/

/-- AFE_CHCFG. -/
def execAfeChcfgWrite (i : Init) (v : W32) (s : State) : Answer := s.regCmd i 0x0F0004 v
/-- FLW_SLDCMD. -/
def execFlwSldcmd (i : Init) (v : W32) (s : State) : Answer := s.regCmd i 0x0E0018 v
/-- BAL_TOPCMD. -/
def execBalTopcmd (i : Init) (v : W32) (s : State) : Answer := s.regCmd i 0x0D0008 v
/-- BAL_CUSRST. -/
def execBalCusrst (i : Init) (v : W32) (s : State) : Answer := s.regCmd i 0x0D0014 v
/-- LDG_SNAPCMD. -/
def execLdgSnapcmd (i : Init) (v : W32) (s : State) : Answer := s.regCmd i 0x0C0058 v

/-! ## Timebase (R267, R271, R272, R277) -/

/-- TB_CTL. -/
def execTbSelWrite (i : Init) (v : W32) (s : State) : Answer := s.regCmd i 0x030000 v
/-- TB_SNAP. -/
def execTbSnap (i : Init) (v : W32) (s : State) : Answer := s.regCmd i 0x030048 v
/-- TB_INCRH_A or TB_INCRH_B: with the low word this initiator wrote last (R267, R445). -/
def execTbIncrWrite (i : Init) (domB : Bool) (v : W32) (s : State) : Answer := s.regCmd i (if domB then 0x03001C else 0x030014) v
/-- TB_QUAL_A or TB_QUAL_B. -/
def execTbQualWrite (i : Init) (domB : Bool) (v : W32) (s : State) : Answer := s.regCmd i (if domB then 0x03000C else 0x030008) v

/-! ## Tree and configuration epochs (R280, R295, R297, R298) -/

/-- TRE_ROLE. -/
def execTreRoleWrite (i : Init) (v : W32) (s : State) : Answer := s.regCmd i 0x180004 v
/-- CFG_CMD.CANCEL. -/
def execCancel (i : Init) (s : State) : Answer := s.regCmd i 0x190010 2#32
/-- CFG_SWRDY. -/
def execCfgSwrdy (i : Init) (v : W32) (s : State) : Answer := s.regCmd i 0x190020 v
/-- CFG_CMD.ARM with WHEN. -/
def execArm (i : Init) (whenSel : BitVec 2) (s : State) : Answer := s.regCmd i 0x190010 (BitVec.ofNat 32 (1 + 16 * whenSel.toNat))
/-- TRE_XDATAk. -/
def execTreXdataWrite (i : Init) (k : Fin 5) (v : W32) (s : State) : Answer := s.regCmd i (0x18002C + 4 * k.val) v

/-! ## Twin (R320, R321) -/

/-- TWN_HLEASE. -/
def execTwnHlease (i : Init) (v : W32) (s : State) : Answer := s.regCmd i 0x170040 v
/-- TWN_CMD.HANDOVER. -/
def execHandover (i : Init) (s : State) : Answer := s.regCmd i 0x170008 1#32
/-- TWN_CMD.CKPT. -/
def execCkpt (i : Init) (s : State) : Answer := s.regCmd i 0x170008 2#32

/-! ## Vault and updates (R342, R344, R348, R350) -/

/-- SEC_MREXT. -/
def execSecMrext (i : Init) (v : W32) (s : State) : Answer := s.regCmd i 0x1A00B0 v
/-- SEC_ATCMD. -/
def execSecAtcmd (i : Init) (v : W32) (s : State) : Answer := s.regCmd i 0x1A0180 v
/-- UPD_CMD OP 1. -/
def execHuskVerify (i : Init) (recon : Bool) (s : State) : Answer :=
  s.regCmd i 0x1B0008 (BitVec.ofNat 32 (2 ^ 28 + if recon then 2 ^ 27 else 0))
/-- UPD_CMD OP 2. -/
def execDiscard (i : Init) (kind : Byte) (clusters : BitVec 4) (s : State) : Answer :=
  s.regCmd i 0x1B0008 (BitVec.ofNat 32 (2 * 2 ^ 28 + 256 * kind.toNat + clusters.toNat))
/-- UPD_CMD OP 3. -/
def execRevert (i : Init) (kind : Byte) (clusters : BitVec 4) (recon : Bool) (s : State) : Answer :=
  s.regCmd i 0x1B0008 (BitVec.ofNat 32 (3 * 2 ^ 28 + (if recon then 2 ^ 27 else 0) + 256 * kind.toNat + clusters.toNat))

/-! ## Storage (R366, R370) -/

/-- NFT_GEOM. -/
def execNftFormat (i : Init) (v : W32) (s : State) : Answer := s.regCmd i 0x1D0000 v
/-- MEM_SCRUB. -/
def execMemScrubWrite (i : Init) (v : W32) (s : State) : Answer := s.regCmd i 0x1C0008 v

/-! ## Power (R380, R384): PWR_CMD -/

/-- state P0. -/
def execRun (i : Init) (s : State) : Answer := s.regCmd i 0x010000 0#32
/-- state P1. -/
def execEconomy (i : Init) (s : State) : Answer := s.regCmd i 0x010000 1#32
/-- state P2. -/
def execListen (i : Init) (s : State) : Answer := s.regCmd i 0x010000 2#32
/-- state P3. -/
def execRetention (i : Init) (s : State) : Answer := s.regCmd i 0x010000 3#32
/-- state P4. -/
def execOffWithBackup (i : Init) (s : State) : Answer := s.regCmd i 0x010000 4#32

/-! ## Event recorder (R389, R392, R395, R396, R453) -/

/-- EVR_RTCSET. -/
def execEvrRtcset (i : Init) (v : W32) (s : State) : Answer := s.regCmd i 0x07000C v
/-- EVR_ALERT. -/
def execEvrAlertWrite (i : Init) (v : W32) (s : State) : Answer := s.regCmd i 0x070008 v
/-- EVR_RLDATA. -/
def execEvrRldataWrite (i : Init) (v : W32) (s : State) : Answer := s.regCmd i 0x07003C v
/-- EVR_FREEZE. -/
def execEvrFreeze (i : Init) (s : State) : Answer := s.regCmd i 0x070024 1#32
/-- EVR_FREEZE. -/
def execEvrRelease (i : Init) (s : State) : Answer := s.regCmd i 0x070024 0#32
/-- EVR_CPYCMD. -/
def execEvrCpycmd (i : Init) (v : W32) (s : State) : Answer := s.regCmd i 0x070034 v

/-! ## Host, mailboxes, fabric (R403, R405) -/

/-- HST_ERRPOP. -/
def execHstErrpop (i : Init) (v : W32) (s : State) : Answer := s.regCmd i 0x1E007C v
/-- FAB_FREEZE. -/
def execFabFreezeWrite (i : Init) (v : W32) (s : State) : Answer := s.regCmd i 0x040040 v
/-- MBX_POPn (R418). -/
def execMbxPop (i : Init) (n : Fin 32) (v : W32) (s : State) : Answer := s.regCmd i (0x050020 + 0x40 * n.val) v
/-- PIN_FUNCp (R431, R432). -/
def execPinFuncWrite (i : Init) (p : Fin 192) (v : W32) (s : State) : Answer := s.regCmd i (0x020000 + 8 * p.val) v

/-! ## Field ports (R232, R243) -/

/-- PLCn_NBDATA0. -/
def execPlcNeighbourWrite (n : Fin 2) (i : Init) (v : W32) (s : State) : Answer := s.regCmd i (0x100044 + 0x10000 * n.val) v
/-- RFn_FESPI. -/
def execRfFespi (n : Fin 2) (i : Init) (v : W32) (s : State) : Answer := s.regCmd i (0x120010 + 0x10000 * n.val) v

/-! ## Any register (R10, R445) -/

/-- REGISTER_WRITE: a write of any size at any offset of the register space; all but 4 bytes, and 8 aligned to 8, are refused. -/
def execRegisterWrite (i : Init) (addr : BitVec 24) (bytes : Fin 65) (v : Word) (s : State) : Answer :=
  if !s.pwr.mainOn || s.frozenTgt 2 then .next s
  else
    let (st, s) := s.regWriteN i addr.toNat bytes.val v
    let s := if i = .host ∧ st ≠ .ok then s.hostError (0x400000000 + addr.toNat) st agHost else s
    .next (s.respond i st)

end Sys2Proof.Machine
end

