-- ==== Sys2Proof/Machine/Resets.lean ====
section
/-! DEFINITION. The reset pins (R387, R437, R446) with the cold boot (R332, R343, R361, R389), and the end of OTP programming
(R339). -/

namespace Sys2Proof.Machine
open Sys2Proof

/-! ## Cold reset -/

/-- The backup domain's registers and records after a main boot: kept while the domain runs; where it has stopped its RW fields
take their reset values and MRAM keeps records and counters (R446). -/
def Evr.mainBoot (e : Evr) : Evr :=
  let e := { e with
    running := true
    stopped := false
    rtcPend := false
    frozen := none
    hold := []
    dropped := 0
    copy := none
    pwrcyc := satInc32 e.pwrcyc }
  e

/-- A stopped domain's overrides are reset with its other RW fields; the buckets are MRAM's and keep their counts, clipped to the
BURST of 8 that then holds (R394, R395, R446). -/
def Evr.rwReset (e : Evr) : Evr := { e with
  rl := []
  buckets := e.buckets.map (fun b => { b with tokens := min 8 b.tokens }) }

/-- What a cold reset leaves before the ROM runs: everything at its reset value but the backup domain, MRAM, OTP, SPI NOR, the NAND
store and the images kept there (R18, R330, R386 to R394, R446). -/
def State.coldBase (s : State) : State :=
  { State.reset with
    pending := s.pending
    freeCtr := s.freeCtr
    out := s.out
    resp := s.resp
    regs := if s.evr.stopped then [] else s.regs.filter (fun p => decide (p.1 / 0x10000 = 7))
    sys := { s.sys with
      cause := if s.pwr.mainOn then 1#32 else 5#32 }
    evr := if s.evr.stopped then s.evr.mainBoot.rwReset else s.evr.mainBoot
    sec := {
      huk := s.sec.huk
      slots := s.sec.slots
      life := s.sec.life }
    upd := {
      active := s.upd.active
      staged := s.upd.staged
      kept := s.upd.kept
      nor := s.upd.nor
      setlog := s.upd.setlog }
    nft := {
      sectors := s.nft.sectors
      geom := s.nft.geom
      vsize := s.nft.vsize
      dies := s.nft.dies
      lifeEv := s.nft.lifeEv }
    ldg := {
      profiles := s.ldg.profiles
      tdev0 := s.evr.tcnt0
      tdev1 := s.evr.tcnt1
      tdev2 := s.ldg.tdev2 } }

/-- A boot copy that holds, and whose part verifies against slot 0; while the part's fate is the ROM's to judge, PROVISION takes any
signature (R343, R354). -/
def State.bootGood (s : State) (fw : Bool) : Option Boot → Bool
  | some b => decide (s.sec.life = 0) || Config.bootSigned fw (s.sec.slot 0).key b.image
  | none => false

/-- Try the copies in order; event 0x1A05 for each that fails (R343). -/
def State.bootTry (fw : Bool) : List (Nat × Option Boot) → State → Option Boot × State
  | [], s => (none, s)
  | (k, c) :: cs, s =>
    if s.bootGood fw c then (c, s)
    else State.bootTry fw cs (s.event 0x1A05 (BitVec.ofNat 32 (k + if fw then 256 else 0)))

/-- Neither copy verifies: FAIL, and no code runs (R343). -/
def State.bootFail (s : State) : State := { s with sec := { s.sec with fail := true } }

/-- The active images run after a boot: each store loaded and measured, the check value formed (R342, R353). -/
def State.bootImages (s : State) : State :=
  let s := (List.range 4).foldl (fun s c => match s.activeImg c with | some i => s.loadStore c i.bytes | none => s) s
  let s := match s.activeImg 4 with | some i => s.mrExtend 4 (sha384v i.bytes) | none => s
  match s.activeImg 0 with
  | some i => s.heartLoaded i.bytes ((s.activeImg 4).map Img.bytes |>.getD [])
  | none => s

/-- The measured boot: the ROM measures stage 1 into MR0 and sets STAGE to 1; stage 1 verifies the supervisor firmware in the same
way (R342, R343, Table 14.6). Stage 1's own register writes (MR1, STAGE 2) are its program's. -/
def State.measuredBoot (s : State) : State :=
  let order := s.bootOrder
  match s.bootTry false order with
  | (none, s) => s.bootFail
  | (some b, s) =>
    let s := s.mrExtend 0 (sha384v (b.image.take (Config.stage1Len b.image)))
    let s := { s with sec := { s.sec with stage := 1 } }
    match s.bootTry true order with
    | (none, s) => s.bootFail
    | (some f, s) => State.bootImages { s with upd := { s.upd with fwver := BitVec.ofNat 16 f.version } }

/-- COLD_RESET: the main domains cold-boot into P0; the power-cycle count rises with event 0x0103; event 0x0708 follows where the
RTC lost time; every slot is checked; ORD draws its key; the ROM runs (R103, R116, R209, R332, R343, R361, R387, R389, R446). -/
def execColdReset (s : State) : Answer :=
  let s := if s.pwr.mainOn then s.otpLost.freezeEnd 2 else s.otpLost
  let (key, s) := s.draw 64
  let s := s.coldBase
  let s := { s with ord := { s.ord with key := key } }
  let s := s.event 0x0103 s.evr.pwrcyc
  let s := if s.evr.rtcLost then State.event 0x0708 0#32 { s with evr := { s.evr with rtcLost := false } } else s
  let s := (List.range 64).foldl (fun s k => s.slotCheck k) s
  .next s.measuredBoot

/-! ## Warm reset -/

/-- Every task ends as in the fault row of Table 2.11, its count not raised; threads in descending order, so that items of one queue
return in the order of their agents, lowest first. -/
def State.endAllTasks (s : State) : State :=
  (List.range 128).foldr (fun a s => if (s.thread a).busy then s.endTask a false true false else s) s

/-- The merge contexts release what they hold and return to reset (R98, R100). -/
def State.mergesReset (s : State) : State :=
  let s := (s.ord.merges.map (·.1)).foldl (fun s c => (s.ctxBound c).ctxClear c) s
  { s with ord := { s.ord with
    merges := []
    poolfull := false } }

/-- A W-domain participant that has answered READY is reset before B: the switch will abort with it (R298). -/
def State.readyReset (s : State) : State :=
  match s.cfg.armed, s.parts.find? (fun k => decide (3 ≤ k) && bit s.cfg.ready k) with
  | some _, some k => if s.cfg.refused.isNone then { s with cfg := { s.cfg with refused := some k } } else s
  | _, _ => s

/-- The queue manager keeps descriptors and FIFOs (SRAM); its registers, a zero-fill and a replay under way end; with the twin's
exchange restarted no item waits for a match (R304, R437). -/
def Qm.warm (q : Qm) : Qm :=
  { q with
    descs := Tab.mapVal {} (fun (d : Desc) => { d with
      filling := false
      unsettled := [] }) q.descs
    fifos := Tab.mapVal {} (fun (f : Fifo) => { f with
      ovf := false
      drops := 0 }) q.fifos
    busyQ := none
    dstat := .ok
    rstQ := 0
    pend := false
    replay := none }

/-- The ordering unit keeps epochs, fences, lock owners and marks; its registers return to reset (R124, R437, R446). -/
def Ord.warm (o : Ord) : Ord :=
  { o with
    early := 0
    eovf := false
    sfull := false
    locks := Tab.mapVal {} (fun (l : Lock) => { l with
      prot := false
      base := 0
      count := 0 }) o.locks
    seqStat := [] }

/-- The W-domain units' state after a warm reset; SELFFLT clears only at cold reset (R315, R437, R446, Table 20.1). -/
def State.unitsWarm (s : State) : State :=
  { s with
    regs := s.regs.filter (fun p => !domainW (p.1 / 0x10000))
    latch := []
    fab := {}
    mbx := {}
    pmc := {}
    qm := s.qm.warm
    ge := { s.ge with
      flt := []
      fltOvf := false }
    ord := s.ord.warm
    plc := []
    rf := []
    wir := []
    eth := []
    spn := {}
    twn := { selfflt := s.twn.selfflt }
    tre := {}
    upd := {
      active := s.upd.active
      staged := s.upd.staged
      kept := s.upd.kept
      nor := s.upd.nor
      setlog := s.upd.setlog
      fwver := s.upd.fwver }
    nft := {
      sectors := s.nft.sectors
      geom := s.nft.geom
      vsize := s.nft.vsize
      dies := s.nft.dies
      lifeEv := s.nft.lifeEv }
    hst := {
      link := s.hst.link
      d3hot := s.hst.d3hot
      rdata := s.hst.rdata }
    sys := { s.sys with cause := s.sys.cause ||| 2#32 } }

/-- WARM_RESET (R437): every stage is discarded and every task ends, every agent's epoch rises, the supervisor restarts, and the W
windows return to reset. A supply that is absent leaves the main domains in reset already. -/
def execWarmReset (s : State) : Answer :=
  if !s.pwr.mainOn then .next s
  else
    let s := s.endAllTasks.readyReset.supRestart
    let s := (List.range 0x86).foldl (fun s a => s.raiseEpoch a) s
    .next s.mergesReset.unitsWarm

/-! ## PCIe reset and OTP -/

/-- PCIE_RESET: PERST_N resets the PCIe function only: the host agent's epoch rises and the link trains again (R116, R437). -/
def execPcieReset (s : State) : Answer :=
  if s.pwr.mainOn then
    .next (State.raiseEpoch agHost { s with hst := { s.hst with
      link := false
      d3hot := false } })
  else .next s

/-- The task that waits for its SEQCLOSE gets the close's status and goes on (R60, R339). -/
def State.closeDone (i : Init) (st : Status) (s : State) : State :=
  let x := s.thread i.key
  match x.st with
  | .waitClose rd => s.setThread i.key { x.setG rd st.word with st := .running }
  | _ => s

/-- OTP_PROGRAMMING_DONE: every command of the close applies, in order, and the close completes with OK (R123, R339). -/
def execOtpProgrammingDone (s : State) : Answer :=
  match s.sec.otp with
  | none => .next s
  | some (i, _) =>
    if !s.pwr.mainOn then .next s
    else .next (((s.otpApply.seqFree 1).seqNote i 1 .ok).closeDone i .ok)

end Sys2Proof.Machine
end

