-- ==== Sys2Proof/Machine/Tim.lean ====
section
/-! DEFINITION. Time stamps and keys (R50), request IDs (R51, R103 to R110), locks (R52, R115) and the CRC instructions (R55). -/

namespace Sys2Proof.Machine
open Sys2Proof

/-- A counter filter of an instruction's thread (R420). -/
def whoTag (w : Who) : PmcTag := { init := some w.init }

/-! ## Time -/

/-- The domain a TSTAMP names: 0 the stamping domain, 1 TB-A, 2 TB-B (Table 2.12). -/
def State.domOf (s : State) (d : Nat) : Domain := if d = 1 then s.tb.a else if d = 2 then s.tb.b else s.dom s.sel

/-- TSTAMP: seconds to gd and the fraction to g(d+1), both zero for every domain while REFCLK is lost (R277); an odd d or a domain above
2 is illegal (R50). -/
def execTstamp (x : Ix) (rd : GReg) (dom : Fin 32) (s : State) : Answer :=
  garnil x (fun s =>
    if rd.val % 2 = 1 ∨ 2 < dom.val then .fault .illegal .ok
    else
      let d : Domain := if s.tb.clkLost then {} else s.domOf dom.val
      setMe x.who (fun t => (t.setG rd d.sec).setG (rd + 1) (BitVec.setWidth 64 (fld d.frac 32 32))) s) s
where
  /-- A change of the executing thread alone. -/
  setMe (w : Who) (f : Thread → Thread) (s : State) : GRes := .go (s.putMe w (f (s.me w)))

/-- TSCMP: the ordering keys of two items in scratch (R50). -/
def execTscmp (x : Ix) (rd ra rb : GReg) (s : State) : Answer :=
  garnil x (fun s =>
    let t := s.me x.who
    let a := (t.getG ra).toNat
    let b := (t.getG rb).toNat
    if scrOk a 64 && scrOk b 64 then
      let ka := itemKey (t.scrItem a)
      let kb := itemKey (t.scrItem b)
      goG x.who rd (if ka < kb then BitVec.allOnes 64 else if ka = kb then 0#64 else 1#64) s
    else .fault .illegal .ok) s

/-- The difference of two stamps in ns, truncated toward zero and saturating at +-(2^63 - 1) (Table 2.12). -/
def stampDiffNs (a b : Stamp) : Int := clampInt (-(2 ^ 63 - 1)) (2 ^ 63 - 1) (nsOf ((stampT32 a : Int) - stampT32 b))

/-- TSSUB. -/
def execTssub (x : Ix) (rd ra rb : GReg) (s : State) : Answer :=
  garnil x (fun s =>
    let t := s.me x.who
    let a := (t.getG ra).toNat
    let b := (t.getG rb).toNat
    if scrOk a 12 && scrOk b 12 then
      goG x.who rd (BitVec.ofInt 64 (stampDiffNs (BitVec.ofNat 96 (t.scrNat a 12)) (BitVec.ofNat 96 (t.scrNat b 12)))) s
    else .fault .illegal .ok) s

/-! ## Request IDs -/

/-- The request IDs of a stage with one more, each counted once (R48). -/
def addId (ids : List Word) (id : Word) : List Word := if id ∈ ids then ids else ids ++ [id]

/-- Keep an answer of IDCHK for the replay record; RETRY is none a result may depend on (R66, R312). -/
def Thread.noteId (t : Thread) (a : IdAns) : Thread :=
  { t with stage := { t.stage with idAns := t.stage.idAns.filter (fun b => decide (b.id ≠ a.id)) ++ [a] } }

/-- IDCHK in a replay answers what it answered the task, and OK for an ID the task did not check; nothing is marked (R66, R313; DEDUCED,
log entry 31). -/
def Thread.idReplay (t : Thread) (r : ReplayRec) (rd : GReg) (p : Nat) (id : Word) : Thread :=
  let a : IdAns := (r.ids.find? (fun a => decide (a.id = id))).getD ⟨id, 0#64, 0, 0#128⟩
  let t := if a.st = Status.duplicate.word then t.ustatStatus a.ust else t
  (if a.st = Status.stale.word then t else t.putScr p (bytesOf 16 a.res)).setG rd a.st

/-- IDCHK in the order of R107's pseudocode; a fifth distinct ID of the task is illegal (R48). -/
def execIdchk (x : Ix) (rd ra rb : GReg) (s : State) : Answer :=
  garnil x (unlessFenced x.who fun s =>
    let t := s.me x.who
    let id := t.getG ra
    let p := (t.getG rb).toNat
    let ids := addId t.stage.ids id
    if !scrOk p 16 || decide (4 < ids.length) then .fault .illegal .ok
    else
      let s := State.count 0x0300 1 (whoTag x.who) { s with ord := { s.ord with idchkSeen := true } }
      let t := { s.me x.who with stage := { (s.me x.who).stage with ids := ids } }
      match t.rpl with
      | some (_, r) => .go (s.putMe x.who (t.idReplay r rd p id))
      | none =>
      match s.idLook x.who.agent id with
      | .fault => .faultIn s .integrity .integrity
      | .duplicate res st =>
        let t := ((t.putScr p (bytesOf 16 res)).ustatStatus st.toNat).noteId ⟨id, (Status.duplicate).word, st.toNat, res⟩
        .go ((s.putMe x.who (t.setG rd (Status.duplicate).word)).count 0x0301 1 (whoTag x.who))
      | .stale => .go ((s.putMe x.who ((t.noteId ⟨id, (Status.stale).word, 0, 0#128⟩).setG rd (Status.stale).word)).count 0x0302 1 (whoTag x.who))
      | .retry => .go (s.putMe x.who (t.setG rd (Status.retry).word))
      | .full =>
        let s := s.putMe x.who (t.setG rd (Status.retry).word)
        .go (State.event 0x0B02 ((reqOrigin id) ++ (reqStream id)) { s with ord := { s.ord with sfull := true } })
      | .ok =>
        let s := s.putMe x.who (((t.putScr p (List.replicate 16 0#8)).noteId ⟨id, 0#64, 0, 0#128⟩).setG rd 0#64)
        .go (s.idMark x.who.agent id)) s

/-- IDDONE: stages the completion of an ID this task checked OK; a second one for an ID replaces the first (R51). -/
def execIddone (x : Ix) (rd ra rb : GReg) (s : State) : Answer :=
  garnil x (unlessFenced x.who fun s =>
    let t := s.me x.who
    let id := t.getG ra
    let p := (t.getG rb).toNat
    if !scrOk p 16 then .fault .illegal .ok
    else if s.ord.pend.any (fun q => decide (q.id = id ∧ q.agent = x.who.agent)) || (t.rpl.isSome && decide (id ∈ t.stage.ids)) then
      let c : Comp := ⟨id, fld (t.getG rd) 0 8, BitVec.ofNat 128 (t.scrNat p 16)⟩
      let cs := t.stage.comps.filter (fun d => decide (d.id ≠ id)) ++ [c]
      .go (s.putMe x.who { t with stage := { t.stage with comps := cs } })
    else .fault .illegal .ok) s

/-! ## Locks (Table 4.7) -/

/-- The lock number in a register. -/
def lockNo (v : Word) : Nat := (fld v 0 12).toNat

/-- The outcome of LKACQ by agent `a` on a lock it does not hold, and the lock then. A hold ends when the lock becomes FREE or another
agent acquires it (R119): an agent that acquires its own lapsed lock again goes on in the hold it began (DEDUCED, log entry 49). -/
def State.lkTry (s : State) (a : Nat) (k : Lock) : Status × Lock :=
  let again (m : Bool) : Lock := { k with owner := some (a, s.epochOf a), mark := m }
  let grant (m : Bool) : Lock := { again m with since := s.tb.elapsed, warnMs := s.regF Reg.ordLkwarn 0 14, warned := false }
  match k.owner with
  | none => (if k.mark then .orphaned else .ok, grant k.mark)
  | some (o, e) => if e ≠ s.epochOf o then (.orphaned, if o = a then again true else grant true) else (.retry, k)

/-- LKACQ (R52, R115); a fifth lock held is illegal (R48). -/
def execLkacq (x : Ix) (rd ra : GReg) (s : State) : Answer :=
  garnil x (unlessFenced x.who fun s =>
    let t := s.me x.who
    let l := lockNo (t.getG ra)
    let a := x.who.agent
    if s.holds a (s.lock l) then goG x.who rd 0#64 s
    else
      let (st, k) := s.lkTry a (s.lock l)
      if st = .retry then .go ((s.putMe x.who (t.setG rd st.word)).count 0x0303 1 (whoTag x.who))
      else if 4 ≤ (s.locksOf a).length then .fault .illegal .ok
      else
        let t := { t.setG rd st.word with stage := { t.stage with acqs := t.stage.acqs ++ [l] } }
        .go ((s.setLock l k).putMe x.who t)) s

/-- LKREL stages the release; without effect on a lock the thread does not hold (R52). -/
def execLkrel (x : Ix) (ra : GReg) (s : State) : Answer :=
  garnil x (unlessFenced x.who fun s =>
    let t := s.me x.who
    let l := lockNo (t.getG ra)
    if s.holds x.who.agent (s.lock l) then .go (s.putMe x.who { t with stage := { t.stage with rels := t.stage.rels ++ [l] } })
    else .go s) s

/-! ## CRCs (R55, Table 2.14) -/

/-- gd := f gd over the gb bytes at scratch ga. -/
def crcOp (x : Ix) (rd ra rb : GReg) (f : Word → List Byte → Word) : State → Answer :=
  garnil x (fun s =>
    let t := s.me x.who
    let a := (t.getG ra).toNat
    let n := (t.getG rb).toNat
    if scrOk a n then goG x.who rd (f (t.getG rd) (t.scr a n)) s else .fault .illegal .ok)

def execCrc16i (x : Ix) (rd ra rb : GReg) (s : State) : Answer := crcOp x rd ra rb (fun r bs => BitVec.setWidth 64 (crc16i (fld r 0 16) bs)) s
def execCrc16m (x : Ix) (rd ra rb : GReg) (s : State) : Answer := crcOp x rd ra rb (fun r bs => BitVec.setWidth 64 (crc16m (fld r 0 16) bs)) s
def execCrc16b (x : Ix) (rd ra rb : GReg) (s : State) : Answer := crcOp x rd ra rb (fun r bs => BitVec.setWidth 64 (crc16b (fld r 0 16) bs)) s
def execCrc32e (x : Ix) (rd ra rb : GReg) (s : State) : Answer := crcOp x rd ra rb (fun r bs => BitVec.setWidth 64 (crc32e (fld r 0 32) bs)) s
def execCrc32c (x : Ix) (rd ra rb : GReg) (s : State) : Answer := crcOp x rd ra rb (fun r bs => BitVec.setWidth 64 (crc32c (fld r 0 32) bs)) s

end Sys2Proof.Machine
end

