-- ==== Sys2Proof/Machine/Dispatch.lean ====
section
/-! DEFINITION. The dispatch: one arm per command, each one call of its meaning. -/

namespace Sys2Proof.Machine
open Sys2Proof

/-- The effect of a command on everything but the queue of waiting commands. -/
def exec (i : Instr) (s : State) : Host.Outcome State Fault Refusal :=
  match i with
  | .add x rd ra rb => Sys2Proof.Machine.execAdd x rd ra rb s
  | .sub x rd ra rb => Sys2Proof.Machine.execSub x rd ra rb s
  | .and x rd ra rb => Sys2Proof.Machine.execAnd x rd ra rb s
  | .or x rd ra rb => Sys2Proof.Machine.execOr x rd ra rb s
  | .xor x rd ra rb => Sys2Proof.Machine.execXor x rd ra rb s
  | .andn x rd ra rb => Sys2Proof.Machine.execAndn x rd ra rb s
  | .sll x rd ra rb => Sys2Proof.Machine.execSll x rd ra rb s
  | .srl x rd ra rb => Sys2Proof.Machine.execSrl x rd ra rb s
  | .sra x rd ra rb => Sys2Proof.Machine.execSra x rd ra rb s
  | .ror x rd ra rb => Sys2Proof.Machine.execRor x rd ra rb s
  | .mul x rd ra rb => Sys2Proof.Machine.execMul x rd ra rb s
  | .mulh x rd ra rb => Sys2Proof.Machine.execMulh x rd ra rb s
  | .mulhu x rd ra rb => Sys2Proof.Machine.execMulhu x rd ra rb s
  | .div x rd ra rb => Sys2Proof.Machine.execDiv x rd ra rb s
  | .divu x rd ra rb => Sys2Proof.Machine.execDivu x rd ra rb s
  | .rem x rd ra rb => Sys2Proof.Machine.execRem x rd ra rb s
  | .remu x rd ra rb => Sys2Proof.Machine.execRemu x rd ra rb s
  | .min x rd ra rb => Sys2Proof.Machine.execMin x rd ra rb s
  | .max x rd ra rb => Sys2Proof.Machine.execMax x rd ra rb s
  | .minu x rd ra rb => Sys2Proof.Machine.execMinu x rd ra rb s
  | .maxu x rd ra rb => Sys2Proof.Machine.execMaxu x rd ra rb s
  | .clz x rd ra => Sys2Proof.Machine.execClz x rd ra s
  | .ctz x rd ra => Sys2Proof.Machine.execCtz x rd ra s
  | .popc x rd ra => Sys2Proof.Machine.execPopc x rd ra s
  | .bswap x rd ra => Sys2Proof.Machine.execBswap x rd ra s
  | .sxb x rd ra => Sys2Proof.Machine.execSxb x rd ra s
  | .sxh x rd ra => Sys2Proof.Machine.execSxh x rd ra s
  | .sxw x rd ra => Sys2Proof.Machine.execSxw x rd ra s
  | .zxw x rd ra => Sys2Proof.Machine.execZxw x rd ra s
  | .bfx x rd ra rb => Sys2Proof.Machine.execBfx x rd ra rb s
  | .addi x rd ra imm => Sys2Proof.Machine.execAddi x rd ra imm s
  | .andi x rd ra imm => Sys2Proof.Machine.execAndi x rd ra imm s
  | .ori x rd ra imm => Sys2Proof.Machine.execOri x rd ra imm s
  | .xori x rd ra imm => Sys2Proof.Machine.execXori x rd ra imm s
  | .slli x rd ra sh => Sys2Proof.Machine.execSlli x rd ra sh s
  | .srli x rd ra sh => Sys2Proof.Machine.execSrli x rd ra sh s
  | .srai x rd ra sh => Sys2Proof.Machine.execSrai x rd ra sh s
  | .rori x rd ra sh => Sys2Proof.Machine.execRori x rd ra sh s
  | .cmpi x c pd ra imm => Sys2Proof.Machine.execCmpi x c pd ra imm s
  | .cmpEq x k pd ra rb => Sys2Proof.Machine.execCmpEq x k pd ra rb s
  | .cmpNe x k pd ra rb => Sys2Proof.Machine.execCmpNe x k pd ra rb s
  | .cmpLt x k pd ra rb => Sys2Proof.Machine.execCmpLt x k pd ra rb s
  | .cmpGe x k pd ra rb => Sys2Proof.Machine.execCmpGe x k pd ra rb s
  | .cmpLtu x k pd ra rb => Sys2Proof.Machine.execCmpLtu x k pd ra rb s
  | .cmpGeu x k pd ra rb => Sys2Proof.Machine.execCmpGeu x k pd ra rb s
  | .cmpTst x k pd ra rb => Sys2Proof.Machine.execCmpTst x k pd ra rb s
  | .lui x rd imm => Sys2Proof.Machine.execLui x rd imm s
  | .ldl x rd imm => Sys2Proof.Machine.execLdl x rd imm s
  | .mfc x rd cw => Sys2Proof.Machine.execMfc x rd cw s
  | .mtc x ra cw => Sys2Proof.Machine.execMtc x ra cw s
  | .pmov x pd pa => Sys2Proof.Machine.execPmov x pd pa s
  | .pand x pd pa pb => Sys2Proof.Machine.execPand x pd pa pb s
  | .por x pd pa pb => Sys2Proof.Machine.execPor x pd pa pb s
  | .pxor x pd pa pb => Sys2Proof.Machine.execPxor x pd pa pb s
  | .pnot x pd pa => Sys2Proof.Machine.execPnot x pd pa s
  | .pget x rd => Sys2Proof.Machine.execPget x rd s
  | .pput x ra => Sys2Proof.Machine.execPput x ra s
  | .br x imm => Sys2Proof.Machine.execBr x imm s
  | .call x rd imm => Sys2Proof.Machine.execCall x rd imm s
  | .jr x ra => Sys2Proof.Machine.execJr x ra s
  | .jalr x rd ra => Sys2Proof.Machine.execJalr x rd ra s
  | .lds x rd ra imm => Sys2Proof.Machine.execLds x rd ra imm s
  | .sts x rd ra imm => Sys2Proof.Machine.execSts x rd ra imm s
  | .ldr x rd ra imm => Sys2Proof.Machine.execLdr x rd ra imm s
  | .str x rd ra imm => Sys2Proof.Machine.execStr x rd ra imm s
  | .ldf x rd ra imm => Sys2Proof.Machine.execLdf x rd ra imm s
  | .stf x rd ra imm => Sys2Proof.Machine.execStf x rd ra imm s
  | .ldx x sp sz sext rd ra rb => Sys2Proof.Machine.execLdx x sp sz sext rd ra rb s
  | .stx x sp sz rd ra rb => Sys2Proof.Machine.execStx x sp sz rd ra rb s
  | .ldsx x ty rd ra imm => Sys2Proof.Machine.execLdsx x ty rd ra imm s
  | .stsx x ty rd ra imm => Sys2Proof.Machine.execStsx x ty rd ra imm s
  | .bcpyFs x rd ra rb => Sys2Proof.Machine.execBcpyFs x rd ra rb s
  | .bcpySf x rd ra rb => Sys2Proof.Machine.execBcpySf x rd ra rb s
  | .bcpyRs x rd ra rb => Sys2Proof.Machine.execBcpyRs x rd ra rb s
  | .bcpySr x rd ra rb => Sys2Proof.Machine.execBcpySr x rd ra rb s
  | .bcpySs x rd ra rb => Sys2Proof.Machine.execBcpySs x rd ra rb s
  | .aclr x ad => Sys2Proof.Machine.execAclr x ad s
  | .amov x ad ra => Sys2Proof.Machine.execAmov x ad ra s
  | .aadd x ad ra => Sys2Proof.Machine.execAadd x ad ra s
  | .asub x ad ra => Sys2Proof.Machine.execAsub x ad ra s
  | .amac x ad ra rb => Sys2Proof.Machine.execAmac x ad ra rb s
  | .amacu x ad ra rb => Sys2Proof.Machine.execAmacu x ad ra rb s
  | .aadda x ad as => Sys2Proof.Machine.execAadda x ad as s
  | .asuba x ad as => Sys2Proof.Machine.execAsuba x ad as s
  | .aglo x rd as => Sys2Proof.Machine.execAglo x rd as s
  | .aghi x rd as => Sys2Proof.Machine.execAghi x rd as s
  | .aslo x ad ra => Sys2Proof.Machine.execAslo x ad ra s
  | .ashi x ad ra => Sys2Proof.Machine.execAshi x ad ra s
  | .ald x ad ra => Sys2Proof.Machine.execAld x ad ra s
  | .ast x ad ra => Sys2Proof.Machine.execAst x ad ra s
  | .asra x ad k => Sys2Proof.Machine.execAsra x ad k s
  | .ftoa x ad ra k => Sys2Proof.Machine.execFtoa x ad ra k s
  | .atof x rd as k => Sys2Proof.Machine.execAtof x rd as k s
  | .fadd x rd ra rb => Sys2Proof.Machine.execFadd x rd ra rb s
  | .fsub x rd ra rb => Sys2Proof.Machine.execFsub x rd ra rb s
  | .fmul x rd ra rb => Sys2Proof.Machine.execFmul x rd ra rb s
  | .fdiv x rd ra rb => Sys2Proof.Machine.execFdiv x rd ra rb s
  | .fsqrt x rd ra => Sys2Proof.Machine.execFsqrt x rd ra s
  | .fma x rd ra rb => Sys2Proof.Machine.execFma x rd ra rb s
  | .fmin x rd ra rb => Sys2Proof.Machine.execFmin x rd ra rb s
  | .fmax x rd ra rb => Sys2Proof.Machine.execFmax x rd ra rb s
  | .fabs x rd ra => Sys2Proof.Machine.execFabs x rd ra s
  | .fneg x rd ra => Sys2Proof.Machine.execFneg x rd ra s
  | .fcvtif x rd ra => Sys2Proof.Machine.execFcvtif x rd ra s
  | .fcvtfi x rd ra => Sys2Proof.Machine.execFcvtfi x rd ra s
  | .fceq x k pd ra rb => Sys2Proof.Machine.execFceq x k pd ra rb s
  | .fclt x k pd ra rb => Sys2Proof.Machine.execFclt x k pd ra rb s
  | .fcle x k pd ra rb => Sys2Proof.Machine.execFcle x k pd ra rb s
  | .fcun x k pd ra rb => Sys2Proof.Machine.execFcun x k pd ra rb s
  | .qtake x rd ra rb => Sys2Proof.Machine.execQtake x rd ra rb s
  | .qput x rd ra rb => Sys2Proof.Machine.execQput x rd ra rb s
  | .qpeek x rd ra rb => Sys2Proof.Machine.execQpeek x rd ra rb s
  | .tcommit x => Sys2Proof.Machine.execTcommit x s
  | .tabort x ra => Sys2Proof.Machine.execTabort x ra s
  | .yield x => Sys2Proof.Machine.execYield x s
  | .waitt x rd ra => Sys2Proof.Machine.execWaitt x rd ra s
  | .waitq x rd ra rb => Sys2Proof.Machine.execWaitq x rd ra rb s
  | .waitl x rd ra rb => Sys2Proof.Machine.execWaitl x rd ra rb s
  | .waitEnd who => Sys2Proof.Machine.execWaitEnd who s
  | .tstamp x rd dom => Sys2Proof.Machine.execTstamp x rd dom s
  | .tscmp x rd ra rb => Sys2Proof.Machine.execTscmp x rd ra rb s
  | .tssub x rd ra rb => Sys2Proof.Machine.execTssub x rd ra rb s
  | .idchk x rd ra rb => Sys2Proof.Machine.execIdchk x rd ra rb s
  | .iddone x rd ra rb => Sys2Proof.Machine.execIddone x rd ra rb s
  | .lkacq x rd ra => Sys2Proof.Machine.execLkacq x rd ra s
  | .lkrel x ra => Sys2Proof.Machine.execLkrel x ra s
  | .ccmopen x rd ra => Sys2Proof.Machine.execCcmopen x rd ra s
  | .ccmseal x rd ra => Sys2Proof.Machine.execCcmseal x rd ra s
  | .gcmopen x rd ra => Sys2Proof.Machine.execGcmopen x rd ra s
  | .hash x rd ra => Sys2Proof.Machine.execHash x rd ra s
  | .crc16i x rd ra rb => Sys2Proof.Machine.execCrc16i x rd ra rb s
  | .crc16m x rd ra rb => Sys2Proof.Machine.execCrc16m x rd ra rb s
  | .crc16b x rd ra rb => Sys2Proof.Machine.execCrc16b x rd ra rb s
  | .crc32e x rd ra rb => Sys2Proof.Machine.execCrc32e x rd ra rb s
  | .crc32c x rd ra rb => Sys2Proof.Machine.execCrc32c x rd ra rb s
  | .if97VPt x rd ra rb => Sys2Proof.Machine.execIf97VPt x rd ra rb s
  | .if97HPt x rd ra rb => Sys2Proof.Machine.execIf97HPt x rd ra rb s
  | .if97SPt x rd ra rb => Sys2Proof.Machine.execIf97SPt x rd ra rb s
  | .if97CpPt x rd ra rb => Sys2Proof.Machine.execIf97CpPt x rd ra rb s
  | .if97KappaPt x rd ra rb => Sys2Proof.Machine.execIf97KappaPt x rd ra rb s
  | .if97WPt x rd ra rb => Sys2Proof.Machine.execIf97WPt x rd ra rb s
  | .if97TsatP x rd ra => Sys2Proof.Machine.execIf97TsatP x rd ra s
  | .if97PsatT x rd ra => Sys2Proof.Machine.execIf97PsatT x rd ra s
  | .if97VgP x rd ra => Sys2Proof.Machine.execIf97VgP x rd ra s
  | .if97HgP x rd ra => Sys2Proof.Machine.execIf97HgP x rd ra s
  | .if97VfP x rd ra => Sys2Proof.Machine.execIf97VfP x rd ra s
  | .if97HfP x rd ra => Sys2Proof.Machine.execIf97HfP x rd ra s
  | .isocd x rd ra rb => Sys2Proof.Machine.execIsocd x rd ra rb s
  | .tbli x rd ra rb => Sys2Proof.Machine.execTbli x rd ra rb s
  | .sqacc x ad ra rb => Sys2Proof.Machine.execSqacc x ad ra rb s
  | .ladd x k ad ra rb => Sys2Proof.Machine.execLadd x k ad ra rb s
  | .lread x ad ra rb => Sys2Proof.Machine.execLread x ad ra rb s
  | .balpost x rd ra rb => Sys2Proof.Machine.execBalpost x rd ra rb s
  | .evpost x rd ra imm => Sys2Proof.Machine.execEvpost x rd ra imm s
  | .fencea x ra => Sys2Proof.Machine.execFencea x ra s
  | .unfence x ra => Sys2Proof.Machine.execUnfence x ra s
  | .revoke x rd ra rb => Sys2Proof.Machine.execRevoke x rd ra rb s
  | .seqopen x rd ra => Sys2Proof.Machine.execSeqopen x rd ra s
  | .seqclose x rd ra rb => Sys2Proof.Machine.execSeqclose x rd ra rb s
  | .agreset x ra => Sys2Proof.Machine.execAgreset x ra s
  | .iret x => Sys2Proof.Machine.execIret x s
  | .wfi x => Sys2Proof.Machine.execWfi x s
  | .evposts x ra rb => Sys2Proof.Machine.execEvposts x ra rb s
  | .unassignedEncoding who w => Sys2Proof.Machine.execUnassignedEncoding who w s
  | .supInterrupt => Sys2Proof.Machine.execSupInterrupt s
  | .dispatch t => Sys2Proof.Machine.execDispatch t s
  | .taskWatchdogExpiry t => Sys2Proof.Machine.execTaskWatchdogExpiry t s
  | .qmStarveExpiry q => Sys2Proof.Machine.execQmStarveExpiry q s
  | .ingressFifoArrival fifo prio body sub => Sys2Proof.Machine.execIngressFifoArrival fifo prio body sub s
  | .fifoDrain fifo => Sys2Proof.Machine.execFifoDrain fifo s
  | .descriptorRead ini => Sys2Proof.Machine.execDescriptorRead ini s
  | .descriptorCreate ini => Sys2Proof.Machine.execDescriptorCreate ini s
  | .descriptorWrite ini => Sys2Proof.Machine.execDescriptorWrite ini s
  | .descriptorDelete ini => Sys2Proof.Machine.execDescriptorDelete ini s
  | .createZeroFillDone => Sys2Proof.Machine.execCreateZeroFillDone s
  | .qmRplGo ini v => Sys2Proof.Machine.execQmRplGo ini v s
  | .queueReplayDone => Sys2Proof.Machine.execQueueReplayDone s
  | .geFltPop ini v => Sys2Proof.Machine.execGeFltPop ini v s
  | .mergeWindowExpiry ctx => Sys2Proof.Machine.execMergeWindowExpiry ctx s
  | .ordMcfgWrite ini v => Sys2Proof.Machine.execOrdMcfgWrite ini v s
  | .ordMqWrite ini v => Sys2Proof.Machine.execOrdMqWrite ini v s
  | .ccSweep => Sys2Proof.Machine.execCcSweep s
  | .ordCcRepair ini v => Sys2Proof.Machine.execOrdCcRepair ini v s
  | .quarantineExpiry => Sys2Proof.Machine.execQuarantineExpiry s
  | .lockHoldWarning l => Sys2Proof.Machine.execLockHoldWarning l s
  | .ordSeqOpen ini v => Sys2Proof.Machine.execOrdSeqOpen ini v s
  | .ordSeqClose ini v => Sys2Proof.Machine.execOrdSeqClose ini v s
  | .seqWrite ini off v => Sys2Proof.Machine.execSeqWrite ini off v s
  | .sequenceTimeout n => Sys2Proof.Machine.execSequenceTimeout n s
  | .dieBridgeTransfer load crcOk => Sys2Proof.Machine.execDieBridgeTransfer load crcOk s
  | .decimatedSample ch x theta openLead => Sys2Proof.Machine.execDecimatedSample ch x theta openLead s
  | .blockClose point => Sys2Proof.Machine.execBlockClose point s
  | .afeChcfgWrite ini v => Sys2Proof.Machine.execAfeChcfgWrite ini v s
  | .calibrationVerdict point => Sys2Proof.Machine.execCalibrationVerdict point s
  | .rtdLowPointExpiry ch => Sys2Proof.Machine.execRtdLowPointExpiry ch s
  | .pulseEdge inp rising => Sys2Proof.Machine.execPulseEdge inp rising s
  | .pulseSecondItem inp => Sys2Proof.Machine.execPulseSecondItem inp s
  | .flwSldcmd ini v => Sys2Proof.Machine.execFlwSldcmd ini v s
  | .flwSapwoodLoadDone => Sys2Proof.Machine.execFlwSapwoodLoadDone s
  | .balTopcmd ini v => Sys2Proof.Machine.execBalTopcmd ini v s
  | .balTopologyLoadDone => Sys2Proof.Machine.execBalTopologyLoadDone s
  | .balIntervalClose => Sys2Proof.Machine.execBalIntervalClose s
  | .balDeferredClose => Sys2Proof.Machine.execBalDeferredClose s
  | .balRevisionBoundary => Sys2Proof.Machine.execBalRevisionBoundary s
  | .balIntervalFinal => Sys2Proof.Machine.execBalIntervalFinal s
  | .balCusrst ini v => Sys2Proof.Machine.execBalCusrst ini v s
  | .balOutputRetry => Sys2Proof.Machine.execBalOutputRetry s
  | .ldgSnapcmd ini v => Sys2Proof.Machine.execLdgSnapcmd ini v s
  | .snapshotDone => Sys2Proof.Machine.execSnapshotDone s
  | .profileRecordForm => Sys2Proof.Machine.execProfileRecordForm s
  | .profileRetentionDiscard => Sys2Proof.Machine.execProfileRetentionDiscard s
  | .legalShowAssert => Sys2Proof.Machine.execLegalShowAssert s
  | .legalShowPage => Sys2Proof.Machine.execLegalShowPage s
  | .legalShowEnd => Sys2Proof.Machine.execLegalShowEnd s
  | .plcFrameReceive n f => Sys2Proof.Machine.execPlcFrameReceive n f s
  | .plcAckSend n => Sys2Proof.Machine.execPlcAckSend n s
  | .plcTxTake c => Sys2Proof.Machine.execPlcTxTake c s
  | .plcAckTimeout c => Sys2Proof.Machine.execPlcAckTimeout c s
  | .plcTxEnd n => Sys2Proof.Machine.execPlcTxEnd n s
  | .toneMapRefresh c entry => Sys2Proof.Machine.execToneMapRefresh c entry s
  | .zeroCrossing n phase rising => Sys2Proof.Machine.execZeroCrossing n phase rising s
  | .zeroCrossingLoss n => Sys2Proof.Machine.execZeroCrossingLoss n s
  | .superframeStart n => Sys2Proof.Machine.execSuperframeStart n s
  | .beaconArm n => Sys2Proof.Machine.execBeaconArm n s
  | .beaconCover n energy => Sys2Proof.Machine.execBeaconCover n energy s
  | .neutralMissing n v1 v2 v3 => Sys2Proof.Machine.execNeutralMissing n v1 v2 v3 s
  | .neutralClear n v1 v2 v3 => Sys2Proof.Machine.execNeutralClear n v1 v2 v3 s
  | .plcNeighbourWrite n ini v => Sys2Proof.Machine.execPlcNeighbourWrite n ini v s
  | .rfFrameReceive n f => Sys2Proof.Machine.execRfFrameReceive n f s
  | .rfAckSend n => Sys2Proof.Machine.execRfAckSend n s
  | .rfTxTake n => Sys2Proof.Machine.execRfTxTake n s
  | .rfCcaDone n powerDbfs => Sys2Proof.Machine.execRfCcaDone n powerDbfs s
  | .rfBackoffExpiry n => Sys2Proof.Machine.execRfBackoffExpiry n s
  | .rfTrainCopy n => Sys2Proof.Machine.execRfTrainCopy n s
  | .rfAckTimeout n => Sys2Proof.Machine.execRfAckTimeout n s
  | .rfTxEnd n => Sys2Proof.Machine.execRfTxEnd n s
  | .rfFespi n ini v => Sys2Proof.Machine.execRfFespi n ini v s
  | .rfFespiDone n rdata => Sys2Proof.Machine.execRfFespiDone n rdata s
  | .rfIqStall n => Sys2Proof.Machine.execRfIqStall n s
  | .wirFrameEnd n f => Sys2Proof.Machine.execWirFrameEnd n f s
  | .wirTxStart c => Sys2Proof.Machine.execWirTxStart c s
  | .wirTxDone n => Sys2Proof.Machine.execWirTxDone n s
  | .tbIncrWrite ini domB v => Sys2Proof.Machine.execTbIncrWrite ini domB v s
  | .tbStepApply domB => Sys2Proof.Machine.execTbStepApply domB s
  | .tbSelWrite ini v => Sys2Proof.Machine.execTbSelWrite ini v s
  | .tbAutoSwitch => Sys2Proof.Machine.execTbAutoSwitch s
  | .tbQualWrite ini domB v => Sys2Proof.Machine.execTbQualWrite ini domB v s
  | .qualityDecay domB => Sys2Proof.Machine.execQualityDecay domB s
  | .refclkLoss => Sys2Proof.Machine.execRefclkLoss s
  | .refclkReturn => Sys2Proof.Machine.execRefclkReturn s
  | .tbSnap ini v => Sys2Proof.Machine.execTbSnap ini v s
  | .ethFrameReceive n f => Sys2Proof.Machine.execEthFrameReceive n f s
  | .treeFrameSend n => Sys2Proof.Machine.execTreeFrameSend n s
  | .packwaitExpiry n => Sys2Proof.Machine.execPackwaitExpiry n s
  | .ethRawTx n => Sys2Proof.Machine.execEthRawTx n s
  | .ethRawTxDone n => Sys2Proof.Machine.execEthRawTxDone n s
  | .ethLinkDown n => Sys2Proof.Machine.execEthLinkDown n s
  | .ethLinkUp n => Sys2Proof.Machine.execEthLinkUp n s
  | .heartbeatSend => Sys2Proof.Machine.execHeartbeatSend s
  | .heartbeatReceive h => Sys2Proof.Machine.execHeartbeatReceive h s
  | .managerLoss => Sys2Proof.Machine.execManagerLoss s
  | .childLoss idx => Sys2Proof.Machine.execChildLoss idx s
  | .configGraceExpiry idx twinB => Sys2Proof.Machine.execConfigGraceExpiry idx twinB s
  | .treRoleWrite ini v => Sys2Proof.Machine.execTreRoleWrite ini v s
  | .treXdataWrite ini k v => Sys2Proof.Machine.execTreXdataWrite ini k v s
  | .arm ini whenSel => Sys2Proof.Machine.execArm ini whenSel s
  | .cancel ini => Sys2Proof.Machine.execCancel ini s
  | .cfgPrepare => Sys2Proof.Machine.execCfgPrepare s
  | .participantReady p a => Sys2Proof.Machine.execParticipantReady p a s
  | .cfgSwrdy ini v => Sys2Proof.Machine.execCfgSwrdy ini v s
  | .epochSwitch => Sys2Proof.Machine.execEpochSwitch s
  | .spindleHbSend => Sys2Proof.Machine.execSpindleHbSend s
  | .spindleHbReceive m => Sys2Proof.Machine.execSpindleHbReceive m s
  | .twinLoss => Sys2Proof.Machine.execTwinLoss s
  | .spindleLinkTrained => Sys2Proof.Machine.execSpindleLinkTrained s
  | .spindleLaneDown lane1 => Sys2Proof.Machine.execSpindleLaneDown lane1 s
  | .spnFrameReceive m => Sys2Proof.Machine.execSpnFrameReceive m s
  | .pairwinExpiry => Sys2Proof.Machine.execPairwinExpiry s
  | .blockMessageReceive m => Sys2Proof.Machine.execBlockMessageReceive m s
  | .beaconMessageReceive n sfn psdu => Sys2Proof.Machine.execBeaconMessageReceive n sfn psdu s
  | .begunReceive n sfn => Sys2Proof.Machine.execBegunReceive n sfn s
  | .cfgMessageReceive m => Sys2Proof.Machine.execCfgMessageReceive m s
  | .replayRequest point pseq => Sys2Proof.Machine.execReplayRequest point pseq s
  | .leaseExpiry => Sys2Proof.Machine.execLeaseExpiry s
  | .twnHlease ini v => Sys2Proof.Machine.execTwnHlease ini v s
  | .handover ini => Sys2Proof.Machine.execHandover ini s
  | .ckpt ini => Sys2Proof.Machine.execCkpt ini s
  | .checkpointCapture => Sys2Proof.Machine.execCheckpointCapture s
  | .checkpointReceive hdr body => Sys2Proof.Machine.execCheckpointReceive hdr body s
  | .ckackReceive num => Sys2Proof.Machine.execCkackReceive num s
  | .journalReceive es => Sys2Proof.Machine.execJournalReceive es s
  | .journalAck pos => Sys2Proof.Machine.execJournalAck pos s
  | .promotion => Sys2Proof.Machine.execPromotion s
  | .streamReceive m => Sys2Proof.Machine.execStreamReceive m s
  | .streamEndMarker => Sys2Proof.Machine.execStreamEndMarker s
  | .streamTimeout => Sys2Proof.Machine.execStreamTimeout s
  | .secMrext ini v => Sys2Proof.Machine.execSecMrext ini v s
  | .secAtcmd ini v => Sys2Proof.Machine.execSecAtcmd ini v s
  | .attestationDone => Sys2Proof.Machine.execAttestationDone s
  | .huskVerify ini recon => Sys2Proof.Machine.execHuskVerify ini recon s
  | .huskVerifyDone => Sys2Proof.Machine.execHuskVerifyDone s
  | .discard ini kind clusters => Sys2Proof.Machine.execDiscard ini kind clusters s
  | .revert ini kind clusters recon => Sys2Proof.Machine.execRevert ini kind clusters recon s
  | .handoverDrainEnd bad => Sys2Proof.Machine.execHandoverDrainEnd bad s
  | .drainwarnExpiry => Sys2Proof.Machine.execDrainwarnExpiry s
  | .nandRead => Sys2Proof.Machine.execNandRead s
  | .nandReadDone bad rebuilt => Sys2Proof.Machine.execNandReadDone bad rebuilt s
  | .nandWrite => Sys2Proof.Machine.execNandWrite s
  | .trim => Sys2Proof.Machine.execTrim s
  | .flush => Sys2Proof.Machine.execFlush s
  | .stripeClose grp => Sys2Proof.Machine.execStripeClose grp s
  | .dieFailure die => Sys2Proof.Machine.execDieFailure die s
  | .rebuildDone => Sys2Proof.Machine.execRebuildDone s
  | .mapCheckpoint => Sys2Proof.Machine.execMapCheckpoint s
  | .nftMapLoaded => Sys2Proof.Machine.execNftMapLoaded s
  | .nftFormat ini v => Sys2Proof.Machine.execNftFormat ini v s
  | .dramLineRead ini line c => Sys2Proof.Machine.execDramLineRead ini line c s
  | .dramLineWrite ini line v => Sys2Proof.Machine.execDramLineWrite ini line v s
  | .dramPartialWrite ini line first data c => Sys2Proof.Machine.execDramPartialWrite ini line first data c s
  | .scrubLine line c written => Sys2Proof.Machine.execScrubLine line c written s
  | .memScrubWrite ini v => Sys2Proof.Machine.execMemScrubWrite ini v s
  | .run ini => Sys2Proof.Machine.execRun ini s
  | .economy ini => Sys2Proof.Machine.execEconomy ini s
  | .listen ini => Sys2Proof.Machine.execListen ini s
  | .retention ini => Sys2Proof.Machine.execRetention ini s
  | .offWithBackup ini => Sys2Proof.Machine.execOffWithBackup ini s
  | .pwrTransitionDone => Sys2Proof.Machine.execPwrTransitionDone s
  | .mainSupplyLost below => Sys2Proof.Machine.execMainSupplyLost below s
  | .coldReset => Sys2Proof.Machine.execColdReset s
  | .warmReset => Sys2Proof.Machine.execWarmReset s
  | .pcieReset => Sys2Proof.Machine.execPcieReset s
  | .vbatLow mv => Sys2Proof.Machine.execVbatLow mv s
  | .backupDomainStop => Sys2Proof.Machine.execBackupDomainStop s
  | .evrRtcset ini v => Sys2Proof.Machine.execEvrRtcset ini v s
  | .rtcSetApply => Sys2Proof.Machine.execRtcSetApply s
  | .operatingSecond mainThroughout => Sys2Proof.Machine.execOperatingSecond mainThroughout s
  | .tamperInputChange inp low => Sys2Proof.Machine.execTamperInputChange inp low s
  | .evrAlertWrite ini v => Sys2Proof.Machine.execEvrAlertWrite ini v s
  | .tokenRefill code => Sys2Proof.Machine.execTokenRefill code s
  | .evrRldataWrite ini v => Sys2Proof.Machine.execEvrRldataWrite ini v s
  | .evrFreeze ini => Sys2Proof.Machine.execEvrFreeze ini s
  | .evrRelease ini => Sys2Proof.Machine.execEvrRelease ini s
  | .freezeTimeout => Sys2Proof.Machine.execFreezeTimeout s
  | .evrCpycmd ini v => Sys2Proof.Machine.execEvrCpycmd ini v s
  | .areaCopyDone => Sys2Proof.Machine.execAreaCopyDone s
  | .itemPortPcieWrite prio body => Sys2Proof.Machine.execItemPortPcieWrite prio body s
  | .itemPortWordWrite viaI2c off v => Sys2Proof.Machine.execItemPortWordWrite viaI2c off v s
  | .itemPortTimeout => Sys2Proof.Machine.execItemPortTimeout s
  | .outboundTimeout ini addr => Sys2Proof.Machine.execOutboundTimeout ini addr s
  | .hstErrpop ini v => Sys2Proof.Machine.execHstErrpop ini v s
  | .spiRead addr words => Sys2Proof.Machine.execSpiRead addr words s
  | .spiWrite addr data => Sys2Proof.Machine.execSpiWrite addr data s
  | .spiStatus => Sys2Proof.Machine.execSpiStatus s
  | .i2cTargetWrite off data => Sys2Proof.Machine.execI2cTargetWrite off data s
  | .i2cTargetRead off words => Sys2Proof.Machine.execI2cTargetRead off words s
  | .i2cSclTimeout => Sys2Proof.Machine.execI2cSclTimeout s
  | .go ini v bus => Sys2Proof.Machine.execGo ini v bus s
  | .i2cBackoffExpiry bus => Sys2Proof.Machine.execI2cBackoffExpiry bus s
  | .i2cTransactionDone => Sys2Proof.Machine.execI2cTransactionDone s
  | .mbxSend ini n => Sys2Proof.Machine.execMbxSend ini n s
  | .mbxTake n => Sys2Proof.Machine.execMbxTake n s
  | .mbxDeliver n => Sys2Proof.Machine.execMbxDeliver n s
  | .mbxPop ini n v => Sys2Proof.Machine.execMbxPop ini n v s
  | .fabricGrant tgt reqs nextReqs agents => Sys2Proof.Machine.execFabricGrant tgt reqs nextReqs agents s
  | .fabFreezeWrite ini v => Sys2Proof.Machine.execFabFreezeWrite ini v s
  | .pmcCntlRead ini n => Sys2Proof.Machine.execPmcCntlRead ini n s
  | .pmcCapture => Sys2Proof.Machine.execPmcCapture s
  | .pmcBwWindow bytes => Sys2Proof.Machine.execPmcBwWindow bytes s
  | .pinFuncWrite ini p v => Sys2Proof.Machine.execPinFuncWrite ini p v s
  | .pinSwitchDone p => Sys2Proof.Machine.execPinSwitchDone p s
  | .registerWrite ini addr bytes v => Sys2Proof.Machine.execRegisterWrite ini addr bytes v s
  | .tsplitConditionChange => Sys2Proof.Machine.execTsplitConditionChange s
  | .pcieLinkDown => Sys2Proof.Machine.execPcieLinkDown s
  | .pcieLinkUp => Sys2Proof.Machine.execPcieLinkUp s
  | .functionLevelReset => Sys2Proof.Machine.execFunctionLevelReset s
  | .pciePowerStateChange d3hot => Sys2Proof.Machine.execPciePowerStateChange d3hot s
  | .backupSupplyReturn => Sys2Proof.Machine.execBackupSupplyReturn s
  | .plcBackoffExpiry n busy => Sys2Proof.Machine.execPlcBackoffExpiry n busy s
  | .ethPauseRepeat n => Sys2Proof.Machine.execEthPauseRepeat n s
  | .otpProgrammingDone => Sys2Proof.Machine.execOtpProgrammingDone s
  | .flwLoadDone => Sys2Proof.Machine.execFlwLoadDone s
  | .calendarLoadDone => Sys2Proof.Machine.execCalendarLoadDone s
  | .jtagInstruction j => Sys2Proof.Machine.execJtagInstruction j s

end Sys2Proof.Machine
end

