-- ==== Sys2Proof/WellFormed.lean ====
section
/-! DEFINITION. Which commands are well formed: the bounds the rules set on what the outside world can deliver and the types of
the operands do not already keep. Every constructor has its own line. -/

namespace Sys2Proof


/-- What an I2C attempt brings back fits the data registers (R414). -/
def I2cBus.wf : I2cBus → Bool
  | .done rd => decide (rd.length ≤ 64)
  | _ => true

/-- The operands lie within the bounds of the row's rule. A command the rule bounds no further is always well formed. -/
def Instr.wf (i : Instr) : Bool :=
  match i with
  | .add _ _ _ _ => true
  | .sub _ _ _ _ => true
  | .and _ _ _ _ => true
  | .or _ _ _ _ => true
  | .xor _ _ _ _ => true
  | .andn _ _ _ _ => true
  | .sll _ _ _ _ => true
  | .srl _ _ _ _ => true
  | .sra _ _ _ _ => true
  | .ror _ _ _ _ => true
  | .mul _ _ _ _ => true
  | .mulh _ _ _ _ => true
  | .mulhu _ _ _ _ => true
  | .div _ _ _ _ => true
  | .divu _ _ _ _ => true
  | .rem _ _ _ _ => true
  | .remu _ _ _ _ => true
  | .min _ _ _ _ => true
  | .max _ _ _ _ => true
  | .minu _ _ _ _ => true
  | .maxu _ _ _ _ => true
  | .clz _ _ _ => true
  | .ctz _ _ _ => true
  | .popc _ _ _ => true
  | .bswap _ _ _ => true
  | .sxb _ _ _ => true
  | .sxh _ _ _ => true
  | .sxw _ _ _ => true
  | .zxw _ _ _ => true
  | .bfx _ _ _ _ => true
  | .addi _ _ _ _ => true
  | .andi _ _ _ _ => true
  | .ori _ _ _ _ => true
  | .xori _ _ _ _ => true
  | .slli _ _ _ _ => true
  | .srli _ _ _ _ => true
  | .srai _ _ _ _ => true
  | .rori _ _ _ _ => true
  | .cmpi _ _ _ _ _ => true
  | .cmpEq _ _ _ _ _ => true
  | .cmpNe _ _ _ _ _ => true
  | .cmpLt _ _ _ _ _ => true
  | .cmpGe _ _ _ _ _ => true
  | .cmpLtu _ _ _ _ _ => true
  | .cmpGeu _ _ _ _ _ => true
  | .cmpTst _ _ _ _ _ => true
  | .lui _ _ _ => true
  | .ldl _ _ _ => true
  | .mfc _ _ _ => true
  | .mtc _ _ _ => true
  | .pmov _ _ _ => true
  | .pand _ _ _ _ => true
  | .por _ _ _ _ => true
  | .pxor _ _ _ _ => true
  | .pnot _ _ _ => true
  | .pget _ _ => true
  | .pput _ _ => true
  | .br _ _ => true
  | .call _ _ _ => true
  | .jr _ _ => true
  | .jalr _ _ _ => true
  | .lds _ _ _ _ => true
  | .sts _ _ _ _ => true
  | .ldr _ _ _ _ => true
  | .str _ _ _ _ => true
  | .ldf _ _ _ _ => true
  | .stf _ _ _ _ => true
  | .ldx _ _ _ _ _ _ _ => true
  | .stx _ _ _ _ _ _ => true
  | .ldsx _ _ _ _ _ => true
  | .stsx _ _ _ _ _ => true
  | .bcpyFs _ _ _ _ => true
  | .bcpySf _ _ _ _ => true
  | .bcpyRs _ _ _ _ => true
  | .bcpySr _ _ _ _ => true
  | .bcpySs _ _ _ _ => true
  | .aclr _ _ => true
  | .amov _ _ _ => true
  | .aadd _ _ _ => true
  | .asub _ _ _ => true
  | .amac _ _ _ _ => true
  | .amacu _ _ _ _ => true
  | .aadda _ _ _ => true
  | .asuba _ _ _ => true
  | .aglo _ _ _ => true
  | .aghi _ _ _ => true
  | .aslo _ _ _ => true
  | .ashi _ _ _ => true
  | .ald _ _ _ => true
  | .ast _ _ _ => true
  | .asra _ _ _ => true
  | .ftoa _ _ _ _ => true
  | .atof _ _ _ _ => true
  | .fadd _ _ _ _ => true
  | .fsub _ _ _ _ => true
  | .fmul _ _ _ _ => true
  | .fdiv _ _ _ _ => true
  | .fsqrt _ _ _ => true
  | .fma _ _ _ _ => true
  | .fmin _ _ _ _ => true
  | .fmax _ _ _ _ => true
  | .fabs _ _ _ => true
  | .fneg _ _ _ => true
  | .fcvtif _ _ _ => true
  | .fcvtfi _ _ _ => true
  | .fceq _ _ _ _ _ => true
  | .fclt _ _ _ _ _ => true
  | .fcle _ _ _ _ _ => true
  | .fcun _ _ _ _ _ => true
  | .qtake _ _ _ _ => true
  | .qput _ _ _ _ => true
  | .qpeek _ _ _ _ => true
  | .tcommit _ => true
  | .tabort _ _ => true
  | .yield _ => true
  | .waitt _ _ _ => true
  | .waitq _ _ _ _ => true
  | .waitl _ _ _ _ => true
  | .waitEnd _ => true
  | .tstamp _ _ _ => true
  | .tscmp _ _ _ _ => true
  | .tssub _ _ _ _ => true
  | .idchk _ _ _ _ => true
  | .iddone _ _ _ _ => true
  | .lkacq _ _ _ => true
  | .lkrel _ _ => true
  | .ccmopen _ _ _ => true
  | .ccmseal _ _ _ => true
  | .gcmopen _ _ _ => true
  | .hash _ _ _ => true
  | .crc16i _ _ _ _ => true
  | .crc16m _ _ _ _ => true
  | .crc16b _ _ _ _ => true
  | .crc32e _ _ _ _ => true
  | .crc32c _ _ _ _ => true
  | .if97VPt _ _ _ _ => true
  | .if97HPt _ _ _ _ => true
  | .if97SPt _ _ _ _ => true
  | .if97CpPt _ _ _ _ => true
  | .if97KappaPt _ _ _ _ => true
  | .if97WPt _ _ _ _ => true
  | .if97TsatP _ _ _ => true
  | .if97PsatT _ _ _ => true
  | .if97VgP _ _ _ => true
  | .if97HgP _ _ _ => true
  | .if97VfP _ _ _ => true
  | .if97HfP _ _ _ => true
  | .isocd _ _ _ _ => true
  | .tbli _ _ _ _ => true
  | .sqacc _ _ _ _ => true
  | .ladd _ _ _ _ _ => true
  | .lread _ _ _ _ => true
  | .balpost _ _ _ _ => true
  | .evpost _ _ _ _ => true
  | .fencea _ _ => true
  | .unfence _ _ => true
  | .revoke _ _ _ _ => true
  | .seqopen _ _ _ => true
  | .seqclose _ _ _ _ => true
  | .agreset _ _ => true
  | .iret _ => true
  | .wfi _ => true
  | .evposts _ _ _ => true
  | .unassignedEncoding _ _ => true
  | .supInterrupt => true
  | .dispatch _ => true
  | .taskWatchdogExpiry _ => true
  | .qmStarveExpiry _ => true
  | .ingressFifoArrival _ _ _ _ => true
  | .fifoDrain _ => true
  | .descriptorRead _ => true
  | .descriptorCreate _ => true
  | .descriptorWrite _ => true
  | .descriptorDelete _ => true
  | .createZeroFillDone => true
  | .qmRplGo _ _ => true
  | .queueReplayDone => true
  | .geFltPop _ _ => true
  | .mergeWindowExpiry _ => true
  | .ordMcfgWrite _ _ => true
  | .ordMqWrite _ _ => true
  | .ccSweep => true
  | .ordCcRepair _ _ => true
  | .quarantineExpiry => true
  | .lockHoldWarning _ => true
  | .ordSeqOpen _ _ => true
  | .ordSeqClose _ _ => true
  | .seqWrite _ _ _ => true
  | .sequenceTimeout n => decide (1 ≤ n.toNat) && decide (n.toNat ≤ 3)
  | .dieBridgeTransfer _ _ => true
  | .decimatedSample _ x _ _ => decide (-(2 ^ 31) ≤ x) && decide (x < 2 ^ 31)
  | .blockClose _ => true
  | .afeChcfgWrite _ _ => true
  | .calibrationVerdict _ => true
  | .rtdLowPointExpiry _ => true
  | .pulseEdge _ _ => true
  | .pulseSecondItem _ => true
  | .flwSldcmd _ _ => true
  | .flwSapwoodLoadDone => true
  | .balTopcmd _ _ => true
  | .balTopologyLoadDone => true
  | .balIntervalClose => true
  | .balDeferredClose => true
  | .balRevisionBoundary => true
  | .balIntervalFinal => true
  | .balCusrst _ _ => true
  | .balOutputRetry => true
  | .ldgSnapcmd _ _ => true
  | .snapshotDone => true
  | .profileRecordForm => true
  | .profileRetentionDiscard => true
  | .legalShowAssert => true
  | .legalShowPage => true
  | .legalShowEnd => true
  | .plcFrameReceive _ f => decide (f.psdu.length ≤ 1024) && decide (f.tones.length ≤ 216)
  | .plcAckSend _ => true
  | .plcTxTake _ => true
  | .plcAckTimeout _ => true
  | .plcTxEnd _ => true
  | .toneMapRefresh _ _ => true
  | .zeroCrossing _ _ _ => true
  | .zeroCrossingLoss _ => true
  | .superframeStart _ => true
  | .beaconArm _ => true
  | .beaconCover _ _ => true
  | .neutralMissing _ _ _ _ => true
  | .neutralClear _ _ _ _ => true
  | .plcNeighbourWrite _ _ _ => true
  | .rfFrameReceive _ f => decide (f.psdu.length ≤ 2047)
  | .rfAckSend _ => true
  | .rfTxTake _ => true
  | .rfCcaDone _ _ => true
  | .rfBackoffExpiry _ => true
  | .rfTrainCopy _ => true
  | .rfAckTimeout _ => true
  | .rfTxEnd _ => true
  | .rfFespi _ _ _ => true
  | .rfFespiDone _ _ => true
  | .rfIqStall _ => true
  | .wirFrameEnd _ _ => true
  | .wirTxStart _ => true
  | .wirTxDone _ => true
  | .tbIncrWrite _ _ _ => true
  | .tbStepApply _ => true
  | .tbSelWrite _ _ => true
  | .tbAutoSwitch => true
  | .tbQualWrite _ _ _ => true
  | .qualityDecay _ => true
  | .refclkLoss => true
  | .refclkReturn => true
  | .tbSnap _ _ => true
  | .ethFrameReceive _ f => decide (f.octets.length ≤ 1514)
  | .treeFrameSend _ => true
  | .packwaitExpiry _ => true
  | .ethRawTx _ => true
  | .ethRawTxDone _ => true
  | .ethLinkDown _ => true
  | .ethLinkUp _ => true
  | .heartbeatSend => true
  | .heartbeatReceive _ => true
  | .managerLoss => true
  | .childLoss _ => true
  | .configGraceExpiry _ _ => true
  | .treRoleWrite _ _ => true
  | .treXdataWrite _ _ _ => true
  | .arm _ _ => true
  | .cancel _ => true
  | .cfgPrepare => true
  | .participantReady _ _ => true
  | .cfgSwrdy _ _ => true
  | .epochSwitch => true
  | .spindleHbSend => true
  | .spindleHbReceive _ => true
  | .twinLoss => true
  | .spindleLinkTrained => true
  | .spindleLaneDown _ => true
  | .spnFrameReceive m => decide (m.psdu.length ≤ 1024)
  | .pairwinExpiry => true
  | .blockMessageReceive _ => true
  | .beaconMessageReceive _ _ psdu => decide (psdu.length = 96)
  | .begunReceive _ _ => true
  | .cfgMessageReceive _ => true
  | .replayRequest _ _ => true
  | .leaseExpiry => true
  | .twnHlease _ _ => true
  | .handover _ => true
  | .ckpt _ => true
  | .checkpointCapture => true
  | .checkpointReceive _ _ => true
  | .ckackReceive _ => true
  | .journalReceive _ => true
  | .journalAck _ => true
  | .promotion => true
  | .streamReceive _ => true
  | .streamEndMarker => true
  | .streamTimeout => true
  | .secMrext _ _ => true
  | .secAtcmd _ _ => true
  | .attestationDone => true
  | .huskVerify _ _ => true
  | .huskVerifyDone => true
  | .discard _ _ _ => true
  | .revert _ _ _ _ => true
  | .handoverDrainEnd _ => true
  | .drainwarnExpiry => true
  | .nandRead => true
  | .nandReadDone _ _ => true
  | .nandWrite => true
  | .trim => true
  | .flush => true
  | .stripeClose _ => true
  | .dieFailure _ => true
  | .rebuildDone => true
  | .mapCheckpoint => true
  | .nftMapLoaded => true
  | .nftFormat _ _ => true
  | .dramLineRead _ _ _ => true
  | .dramLineWrite _ _ _ => true
  | .dramPartialWrite _ _ first data _ => decide (1 ≤ data.length) && decide (first.val + data.length ≤ 64)
  | .scrubLine _ _ _ => true
  | .memScrubWrite _ _ => true
  | .run _ => true
  | .economy _ => true
  | .listen _ => true
  | .retention _ => true
  | .offWithBackup _ => true
  | .pwrTransitionDone => true
  | .mainSupplyLost _ => true
  | .coldReset => true
  | .warmReset => true
  | .pcieReset => true
  | .vbatLow _ => true
  | .backupDomainStop => true
  | .evrRtcset _ _ => true
  | .rtcSetApply => true
  | .operatingSecond _ => true
  | .tamperInputChange _ _ => true
  | .evrAlertWrite _ _ => true
  | .tokenRefill _ => true
  | .evrRldataWrite _ _ => true
  | .evrFreeze _ => true
  | .evrRelease _ => true
  | .freezeTimeout => true
  | .evrCpycmd _ _ => true
  | .areaCopyDone => true
  | .itemPortPcieWrite _ _ => true
  | .itemPortWordWrite _ _ _ => true
  | .itemPortTimeout => true
  | .outboundTimeout _ _ => true
  | .hstErrpop _ _ => true
  | .spiRead _ _ => true
  | .spiWrite _ data => decide (1 ≤ data.length) && decide (data.length ≤ 64)
  | .spiStatus => true
  | .i2cTargetWrite _ _ => true
  | .i2cTargetRead _ _ => true
  | .i2cSclTimeout => true
  | .go _ _ bus => bus.wf
  | .i2cBackoffExpiry bus => bus.wf
  | .i2cTransactionDone => true
  | .mbxSend _ _ => true
  | .mbxTake _ => true
  | .mbxDeliver _ => true
  | .mbxPop _ _ _ => true
  | .fabricGrant _ _ _ agents => decide (agents.length = 14)
  | .fabFreezeWrite _ _ => true
  | .pmcCntlRead _ _ => true
  | .pmcCapture => true
  | .pmcBwWindow bytes => decide (bytes.length = 16)
  | .pinFuncWrite _ _ _ => true
  | .pinSwitchDone _ => true
  | .registerWrite _ _ _ _ => true
  | .tsplitConditionChange => true
  | .pcieLinkDown => true
  | .pcieLinkUp => true
  | .functionLevelReset => true
  | .pciePowerStateChange _ => true
  | .backupSupplyReturn => true
  | .plcBackoffExpiry _ _ => true
  | .ethPauseRepeat _ => true
  | .otpProgrammingDone => true
  | .flwLoadDone => true
  | .calendarLoadDone => true
  | .jtagInstruction _ => true

end Sys2Proof
end

