-- ==== Sys2Proof/Safety.lean ====
section
/-! DEFINITION. The terms claims are stated in: what it means that a command completes with a given effect, that a Garnil
instruction executes, that a step changes one thread alone, and the invariants of the machine. -/

namespace Sys2Proof.Machine
open Sys2Proof

/-- The command is answered with a next state, of which `P` holds. -/
def Gives (c : Instr) (s : State) (P : State → Prop) : Prop := ∃ t, exec c s = .next t ∧ P t

/-- The instruction executes: its thread runs, its pc lies in its code space, and its predicate holds (R32, R34). -/
abbrev Runs (x : Ix) (s : State) : Prop :=
  s.runnable x.who = true ∧ (s.me x.who).pc.toNat < codeSize x.who.agent ∧ (s.me x.who).getP x.psel ≠ x.pneg

/-- General register `r` of the thread that executes. -/
abbrev Reads (x : Ix) (s : State) (r : GReg) : Word := (s.me x.who).getG r

/-- The address of the instruction that executes. -/
abbrev PcOf (x : Ix) (s : State) : Nat := (s.me x.who).pc.toNat

/-- From `s` to `t` the executing thread alone has changed: `f` of its registers, scratch, control words and stage, its pc at `pc`;
the performance counters may have counted, and its count of issued instructions has moved. -/
def ThreadStep (x : Ix) (f : Thread → Thread) (pc : Nat) (s t : State) : Prop :=
  t = { s with
    ge := { s.ge with threads := t.ge.threads }
    pmc := t.pmc } ∧
  (∀ a, a ≠ x.who.agent → t.thread a = s.thread a) ∧
  t.me x.who = { f (s.me x.who) with
    pc := BitVec.ofNat 24 pc
    issued := (t.me x.who).issued }

/-- The instruction completes: the thread alone changes, by `f`, and goes on at the next instruction. -/
def Does (c : Instr) (x : Ix) (f : Thread → Thread) (s : State) : Prop := Gives c s (ThreadStep x f (PcOf x s + 4) s)

/-- The instruction completes with `v` in gd. -/
def Sets (c : Instr) (x : Ix) (rd : GReg) (v : Word) (s : State) : Prop := Does c x (fun t => t.setG rd v) s

/-- The instruction completes with `b` in pd. -/
def SetsP (c : Instr) (x : Ix) (pd : PReg) (b : Bool) (s : State) : Prop := Does c x (fun t => t.setP pd b) s

/-- The instruction raises a fault: the fault's entry of R64 or R90 is the next state. -/
def Faults (c : Instr) (x : Ix) (cls : FaultClass) (st : Status) (s : State) : Prop :=
  exec c s = .next ((s.issue x.who).fault x.who cls st)

/-- The thread may read `n` bytes of DRAM at `a` now: the range lies in DRAM, its target does not make the access wait, the rights
allow it, and no line of it is poisoned. -/
abbrev Readable (x : Ix) (s : State) (a n : Nat) : Prop :=
  a + n ≤ 0x400000000 ∧ s.fabWaits a n = false ∧ s.fabRight x.who.init false a n = .ok ∧
  (linesOf a n).all (fun l => !s.poisoned l) = true

/-- The thread may write `n` bytes of DRAM at `a` now. -/
abbrev Writable (x : Ix) (s : State) (a n : Nat) : Prop :=
  a + n ≤ 0x400000000 ∧ s.fabWaits a n = false ∧ s.fabRight x.who.init true a n = .ok

/-- A 32-bit register access by `i` at `off` reaches its unit: the main domains run, the register windows are not frozen, `i` is not
fenced, and the unit is present (R3, R10, R124, R403). -/
abbrev Reaches (i : Init) (off : Nat) (s : State) : Prop :=
  s.pwr.mainOn = true ∧ s.frozenTgt 2 = false ∧ s.fencedInit i = false ∧ s.present (off / 0x10000) = true

/-- The access is answered `st`, and of the next state `P` holds. -/
def Responds (c : Instr) (i : Init) (st : Status) (s : State) (P : State → Prop) : Prop :=
  Gives c s (fun t => Tab.get .ok t.resp i.key = st ∧ P t)

/-- The state once an IDCHK has been seen (R451). -/
def State.markIdchk (s : State) : State := { s with ord := { s.ord with idchkSeen := true } }

/-- The model's canonical memory: addresses strictly rising and no byte equal to what an unlisted address reads as, in DRAM, supervisor
memory and the program stores (R361, R68, Table 18.1). -/
abbrev MemoryForm (s : State) : Prop :=
  Tab.wf 0#8 s.mem.dram = true ∧ Tab.wf 0#8 s.sup.mem = true ∧ Tab.wf 0#8 s.ge.store = true

end Sys2Proof.Machine
end

