-- ==== Sys2Proof/Certificates/Slice0/Obligations.lean ====
section
/-! DEFINITION. The statements about the block: one for each family of commands and kind of state, the invariants of every step, and
what reset leaves. -/

open Sys2Proof Sys2Proof.Machine

/-! ## Garnil (02_garnil_isa.md) -/

/-- R28: g0 and p0 discard writes and read zero and true; every other register reads back what was written, and a write to one
register leaves the others. -/
def Obligations.RegisterFileReadsBack : Prop :=
  ∀ (t : Thread) (r q : GReg) (v : Word) (i j : PReg) (b : Bool),
    t.getG 0 = 0#64 ∧ t.getP 0 = true ∧
    (t.setG r v).getG q = (if q = r ∧ r ≠ 0 then v else t.getG q) ∧
    (t.setP i b).getP j = (if j = i ∧ i ≠ 0 then b else t.getP j) ∧
    (t.setG r v).p = t.p ∧ (t.setP i b).g = t.g

/-- R35, Table 2.5: every INT minor without a divisor writes its result to gd and changes nothing else. R35: with a nonzero divisor
DIV, DIVU, REM and REMU write quotient and remainder (rounded toward zero, the sign of the dividend; -2^63 by -1 gives -2^63 and
0); a zero divisor is the arithmetic fault. R31, Table 2.4: the immediate forms use the sign-extended 12-bit immediate, SHI the
6-bit amount, LUI the 17-bit immediate shifted by 12, and LDL loads the 8 bytes of the code space at pc + 4 x imm where that is a
multiple of 8 inside it. -/
def Obligations.IntegerResults : Prop :=
  (∀ (x : Ix) (rd ra rb : GReg) (s : State), Runs x s →
      let a := Reads x s ra
      let b := Reads x s rb
      let n := (b &&& 63#64).toNat
      let w := (b.extractLsb' 6 6).toNat
      Sets (.add x rd ra rb) x rd (a + b) s ∧ Sets (.sub x rd ra rb) x rd (a - b) s ∧
      Sets (.and x rd ra rb) x rd (a &&& b) s ∧ Sets (.or x rd ra rb) x rd (a ||| b) s ∧
      Sets (.xor x rd ra rb) x rd (a ^^^ b) s ∧ Sets (.andn x rd ra rb) x rd (a &&& ~~~b) s ∧
      Sets (.sll x rd ra rb) x rd (a <<< n) s ∧ Sets (.srl x rd ra rb) x rd (a >>> n) s ∧
      Sets (.sra x rd ra rb) x rd (a.sshiftRight n) s ∧ Sets (.ror x rd ra rb) x rd (a.rotateRight n) s ∧
      Sets (.mul x rd ra rb) x rd (a * b) s ∧
      Sets (.mulh x rd ra rb) x rd ((a.signExtend 128 * b.signExtend 128).extractLsb' 64 64) s ∧
      Sets (.mulhu x rd ra rb) x rd ((a.setWidth 128 * b.setWidth 128).extractLsb' 64 64) s ∧
      Sets (.min x rd ra rb) x rd (if a.toInt ≤ b.toInt then a else b) s ∧
      Sets (.max x rd ra rb) x rd (if a.toInt ≤ b.toInt then b else a) s ∧
      Sets (.minu x rd ra rb) x rd (if a ≤ b then a else b) s ∧ Sets (.maxu x rd ra rb) x rd (if a ≤ b then b else a) s ∧
      Sets (.clz x rd ra) x rd a.clz s ∧ Sets (.ctz x rd ra) x rd a.ctz s ∧
      (∃ v, v.toNat = ((List.range 64).filter (fun k => a.getLsbD k)).length ∧ Sets (.popc x rd ra) x rd v s) ∧
      (∃ v, (∀ k, k < 8 → v.extractLsb' (8 * k) 8 = a.extractLsb' (8 * (7 - k)) 8) ∧ Sets (.bswap x rd ra) x rd v s) ∧
      Sets (.sxb x rd ra) x rd ((a.setWidth 8).signExtend 64) s ∧ Sets (.sxh x rd ra) x rd ((a.setWidth 16).signExtend 64) s ∧
      Sets (.sxw x rd ra) x rd ((a.setWidth 32).signExtend 64) s ∧ Sets (.zxw x rd ra) x rd ((a.setWidth 32).setWidth 64) s ∧
      Sets (.bfx x rd ra rb) x rd ((a >>> n) &&& (if w = 0 then BitVec.allOnes 64 else BitVec.ofNat 64 (2 ^ w - 1))) s) ∧
  (∀ (x : Ix) (rd ra rb : GReg) (s : State), Runs x s →
      let a := Reads x s ra
      let b := Reads x s rb
      (b ≠ 0#64 →
        Sets (.div x rd ra rb) x rd (a.sdiv b) s ∧ Sets (.divu x rd ra rb) x rd (a / b) s ∧
        Sets (.rem x rd ra rb) x rd (a.srem b) s ∧ Sets (.remu x rd ra rb) x rd (a % b) s) ∧
      (b = 0#64 →
        Faults (.div x rd ra rb) x .arithmetic .ok s ∧ Faults (.divu x rd ra rb) x .arithmetic .ok s ∧
        Faults (.rem x rd ra rb) x .arithmetic .ok s ∧ Faults (.remu x rd ra rb) x .arithmetic .ok s)) ∧
  (∀ (x : Ix) (rd ra : GReg) (imm : BitVec 12) (sh : BitVec 6) (wide : BitVec 17) (s : State), Runs x s →
      let a := Reads x s ra
      let i := imm.signExtend 64
      let p := (PcOf x s : Int) + 4 * wide.toInt
      Sets (.addi x rd ra imm) x rd (a + i) s ∧ Sets (.andi x rd ra imm) x rd (a &&& i) s ∧
      Sets (.ori x rd ra imm) x rd (a ||| i) s ∧ Sets (.xori x rd ra imm) x rd (a ^^^ i) s ∧
      Sets (.slli x rd ra sh) x rd (a <<< sh.toNat) s ∧ Sets (.srli x rd ra sh) x rd (a >>> sh.toNat) s ∧
      Sets (.srai x rd ra sh) x rd (a.sshiftRight sh.toNat) s ∧ Sets (.rori x rd ra sh) x rd (a.rotateRight sh.toNat) s ∧
      Sets (.lui x rd wide) x rd (wide.signExtend 64 <<< 12) s ∧
      (if 0 ≤ p ∧ p + 8 ≤ codeSize x.who.agent ∧ p % 8 = 0 then
        Sets (.ldl x rd wide) x rd (BitVec.ofNat 64 (s.codeNat x.who.agent p.toNat 8)) s
      else Faults (.ldl x rd wide) x .illegal .ok s))

/-- R36: a compare combines its condition into pd; the PRED minors compute on predicates; PGET reads p7 to p0 and PPUT writes p7 to
p1. Nothing else changes. R32: an instruction whose predicate does not hold changes no register, scratch, stage or unit state and
goes on; the privilege fault of the SUP class and of cw32 to cw63 on an engine comes all the same. -/
def Obligations.PredicateResults : Prop :=
  (∀ (x : Ix) (k : Comb) (pd pa pb : PReg) (rd ra rb : GReg) (imm : BitVec 12) (s : State), Runs x s →
      let a := Reads x s ra
      let b := Reads x s rb
      let i := imm.signExtend 64
      let p := (s.me x.who).getP
      let into (c : Bool) : Bool := match k with | .set => c | .and => p pd && c | .or => p pd || c
      SetsP (.cmpEq x k pd ra rb) x pd (into (a == b)) s ∧ SetsP (.cmpNe x k pd ra rb) x pd (into (a != b)) s ∧
      SetsP (.cmpLt x k pd ra rb) x pd (into (a.slt b)) s ∧ SetsP (.cmpGe x k pd ra rb) x pd (into (b.sle a)) s ∧
      SetsP (.cmpLtu x k pd ra rb) x pd (into (a.ult b)) s ∧ SetsP (.cmpGeu x k pd ra rb) x pd (into (b.ule a)) s ∧
      SetsP (.cmpTst x k pd ra rb) x pd (into (a &&& b != 0#64)) s ∧
      SetsP (.cmpi x .eq pd ra imm) x pd (a == i) s ∧ SetsP (.cmpi x .ne pd ra imm) x pd (a != i) s ∧
      SetsP (.cmpi x .lt pd ra imm) x pd (a.slt i) s ∧ SetsP (.cmpi x .ltu pd ra imm) x pd (a.ult i) s ∧
      SetsP (.pmov x pd pa) x pd (p pa) s ∧ SetsP (.pnot x pd pa) x pd (!p pa) s ∧
      SetsP (.pand x pd pa pb) x pd (p pa && p pb) s ∧ SetsP (.por x pd pa pb) x pd (p pa || p pb) s ∧
      SetsP (.pxor x pd pa pb) x pd (p pa ^^ p pb) s ∧
      (∃ v : Word, v.toNat < 256 ∧ (∀ q : PReg, v.getLsbD q.val = p q) ∧ Sets (.pget x rd) x rd v s) ∧
      (∃ v : BitVec 8, (∀ q : PReg, q ≠ 0 → v.getLsbD q.val = a.getLsbD q.val) ∧ Does (.pput x ra) x (fun t => { t with p := v }) s)) ∧
  (∀ (x : Ix) (rd ra rb : GReg) (ad : AReg) (pd : PReg) (k : Comb) (imm : BitVec 12) (off : BitVec 17) (cw : Fin 64) (s : State),
      s.runnable x.who = true → PcOf x s < codeSize x.who.agent → (s.me x.who).getP x.psel = x.pneg →
      (∀ c ∈ [Instr.add x rd ra rb, .div x rd ra rb, .cmpEq x k pd ra rb, .pput x ra, .br x off, .jr x ra, .lds x rd ra imm,
          .sts x rd ra imm, .bcpySs x rd ra rb, .amac x ad ra rb, .fadd x rd ra rb, .tcommit x, .tabort x ra, .waitt x rd ra,
          .tscmp x rd ra rb, .lkacq x rd ra, .idchk x rd ra rb, .crc32c x rd ra rb, .hash x rd ra, .evpost x rd ra imm],
        Does c x (fun t => t) s) ∧
      (∀ t : Fin 128, x.who = .thread t →
        (∀ c ∈ [Instr.fencea x ra, .unfence x ra, .revoke x rd ra rb, .seqopen x rd ra, .seqclose x rd ra rb, .agreset x ra, .iret x,
            .wfi x, .evposts x ra rb], Faults c x .privilege .ok s) ∧
        (32 ≤ cw.val → Faults (.mfc x rd cw) x .privilege .ok s ∧ Faults (.mtc x ra cw) x .privilege .ok s)))

/-- R34: a branch, call or jump goes to its target where that is a multiple of 4 inside the code space, CALL and JALR with pc + 4
in gd; any other target is the illegal fault at the branch. -/
def Obligations.ControlFlowLandsOrFaults : Prop :=
  ∀ (x : Ix) (rd ra : GReg) (imm : BitVec 17) (s : State), Runs x s →
    let a := Reads x s ra
    let p := (PcOf x s : Int) + 4 * imm.toInt
    let link (t : Thread) : Thread := t.setG rd (BitVec.ofNat 64 (PcOf x s + 4))
    (if 0 ≤ p ∧ p < codeSize x.who.agent ∧ p % 4 = 0 then
      Gives (.br x imm) s (ThreadStep x (fun t => t) p.toNat s) ∧ Gives (.call x rd imm) s (ThreadStep x link p.toNat s)
    else Faults (.br x imm) x .illegal .ok s ∧ Faults (.call x rd imm) x .illegal .ok s) ∧
    (if a.toNat < codeSize x.who.agent ∧ a.toNat % 4 = 0 then
      Gives (.jr x ra) s (ThreadStep x (fun t => t) a.toNat s) ∧ Gives (.jalr x rd ra) s (ThreadStep x link a.toNat s)
    else Faults (.jr x ra) x .illegal .ok s ∧ Faults (.jalr x rd ra) x .illegal .ok s)

/-- R28, R37, R38, Table 2.7: scratch accesses inside 0x0000 to 0x3FFF take any byte address and act at once on the thread's
scratch alone; any other operand is the illegal fault; a block copy of more than 4,096 bytes is illegal and one of 0 bytes does
nothing. R37, R38: bytes stored to scratch read back lowest first, and every other byte of scratch keeps its value. -/
def Obligations.ScratchAccesses : Prop :=
  (∀ (x : Ix) (rd ra rb : GReg) (ad : AReg) (imm : BitVec 12) (off : BitVec 9) (ty : LType) (sty : SType) (sz : Size) (sx : Bool)
      (s : State), Runs x s →
      let t := s.me x.who
      let d := Reads x s rd
      let at8 := (Reads x s ra + imm.signExtend 64).toNat
      let atS := (Reads x s ra + off.setWidth 64).toNat
      let atX := (Reads x s ra + Reads x s rb).toNat
      let a := (Reads x s ra).toNat
      let n := (Reads x s rb).toNat
      (if at8 + 8 ≤ 0x4000 then
        Sets (.lds x rd ra imm) x rd (BitVec.ofNat 64 (t.scrNat at8 8)) s ∧
        Does (.sts x rd ra imm) x (fun t => t.putScr at8 (bytesOf 8 d)) s
      else Faults (.lds x rd ra imm) x .illegal .ok s ∧ Faults (.sts x rd ra imm) x .illegal .ok s) ∧
      (if atS + (LType.spec ty).1 ≤ 0x4000 then
        Sets (.ldsx x ty rd ra off) x rd (extendN (LType.spec ty).1 (LType.spec ty).2 (t.scrNat atS (LType.spec ty).1)) s
      else Faults (.ldsx x ty rd ra off) x .illegal .ok s) ∧
      (if atS + (SType.bytesN sty) ≤ 0x4000 then Does (.stsx x sty rd ra off) x (fun t => t.putScr atS (bytesOf (SType.bytesN sty) d)) s
      else Faults (.stsx x sty rd ra off) x .illegal .ok s) ∧
      (if atX + (Size.bytesN sz) ≤ 0x4000 then
        Sets (.ldx x .scratch sz sx rd ra rb) x rd (extendN (Size.bytesN sz) sx (t.scrNat atX (Size.bytesN sz))) s ∧
        Does (.stx x .scratch sz rd ra rb) x (fun t => t.putScr atX (bytesOf (Size.bytesN sz) d)) s
      else Faults (.ldx x .scratch sz sx rd ra rb) x .illegal .ok s ∧ Faults (.stx x .scratch sz rd ra rb) x .illegal .ok s) ∧
      (if a + 16 ≤ 0x4000 then
        Does (.ald x ad ra) x (fun t => t.setAccBits ad (BitVec.ofNat 128 (t.scrNat a 16))) s ∧
        Does (.ast x ad ra) x (fun t => t.putScr a (bytesOf 16 (t.accBits ad))) s
      else Faults (.ald x ad ra) x .illegal .ok s ∧ Faults (.ast x ad ra) x .illegal .ok s) ∧
      (if n = 0 then Does (.bcpySs x rd ra rb) x (fun t => t) s
      else if n ≤ 4096 ∧ a + n ≤ 0x4000 ∧ d.toNat + n ≤ 0x4000 then
        Does (.bcpySs x rd ra rb) x (fun t => t.putScr d.toNat (t.scr a n)) s
      else Faults (.bcpySs x rd ra rb) x .illegal .ok s)) ∧
  (∀ (t : Thread) (a b : Nat) (bs : List Byte),
      (t.putScr a bs).scr a bs.length = bs ∧
      (b < a ∨ a + bs.length ≤ b → Tab.get 0#8 (t.putScr a bs).scratch b = Tab.get 0#8 t.scratch b) ∧
      (t.putScr a bs).g = t.g ∧ (t.putScr a bs).stage = t.stage)

/-- R41, R42, Table 2.8: an accumulator operation writes its result where it lies in the signed 128-bit range and raises the
arithmetic fault, changing nothing, where it does not; FTOA of a NaN or an infinity is that fault; the other ACC minors write their
register and change nothing else. -/
def Obligations.AccumulatorResults : Prop :=
  ∀ (x : Ix) (ad as : AReg) (rd ra rb : GReg) (k : Fin 32) (s : State), Runs x s →
    let t := s.me x.who
    let d := t.getA ad
    let e := t.getA as
    let a := Reads x s ra
    let b := Reads x s rb
    let fits (c : Instr) (v : Int) : Prop :=
      if -(2 ^ 127) ≤ v ∧ v < 2 ^ 127 then Does c x (fun t => t.setA ad v) s else Faults c x .arithmetic .ok s
    Does (.aclr x ad) x (fun t => t.setA ad 0) s ∧ Does (.amov x ad ra) x (fun t => t.setA ad a.toInt) s ∧
    fits (.aadd x ad ra) (d + a.toInt) ∧ fits (.asub x ad ra) (d - a.toInt) ∧
    fits (.amac x ad ra rb) (d + a.toInt * b.toInt) ∧ fits (.amacu x ad ra rb) (d + a.toNat * b.toNat) ∧
    fits (.aadda x ad as) (d + e) ∧ fits (.asuba x ad as) (d - e) ∧
    Does (.asra x ad k) x (fun t => t.setA ad (d / 2 ^ k.val)) s ∧
    Sets (.aglo x rd as) x rd ((t.accBits as).extractLsb' 0 64) s ∧ Sets (.aghi x rd as) x rd ((t.accBits as).extractLsb' 64 64) s ∧
    Does (.aslo x ad ra) x (fun t => t.setAccBits ad ((t.accBits ad).extractLsb' 64 64 ++ a)) s ∧
    Does (.ashi x ad ra) x (fun t => t.setAccBits ad (a ++ (t.accBits ad).extractLsb' 0 64)) s ∧
    (if fNan a || fInf a then Faults (.ftoa x ad ra k) x .arithmetic .ok s
      else fits (.ftoa x ad ra k) (divHalfEven (fUnits a * 10 ^ k.val) (2 ^ 1074))) ∧
    Sets (.atof x rd as k) x rd (roundInt false e (10 ^ k.val)).1 s

/-- R43, Table 2.9: where FPCTL traps none of the flags an operation sets, it writes its rounded result (or combines its condition)
and its sticky flags; with TRAPINV and an invalid operation, or TRAPDZ and a division by zero, it sets the flags and raises the
arithmetic fault. R43, Table 2.9: FCVTFI of a NaN is 0, out-of-range values saturate, both invalid; FMIN and FMAX give NaN for a
NaN operand and order -0 below +0; the compares are false on unordered operands; a finite value divided by zero is an infinity with
its flag; an addition's exact result is returned without the inexact flag (operands that are whole numbers). -/
def Obligations.BinarySixtyFourResults : Prop :=
  (∀ (x : Ix) (k : Comb) (pd : PReg) (rd ra rb : GReg) (s : State), Runs x s →
      let a := Reads x s ra
      let b := Reads x s rb
      let d := Reads x s rd
      let old := (s.me x.who).getP pd
      let into (c : Bool) : Bool := match k with | .set => c | .and => old && c | .or => old || c
      let flags (n : Nat) (t : Thread) : Thread := { t with fpsr := t.fpsr ||| BitVec.ofNat 64 n }
      let traps (n : Nat) : Bool := (n.testBit 4 && (s.me x.who).fpctl.getLsbD 0) || (n.testBit 3 && (s.me x.who).fpctl.getLsbD 1)
      let is (c : Instr) (n : Nat) (f : Thread → Thread) : Prop :=
        if traps n then exec c s = .next (((s.issue x.who).putMe x.who (flags n ((s.issue x.who).me x.who))).fault x.who .arithmetic .ok)
        else Does c x (fun t => f (flags n t)) s
      let value (c : Instr) (r : Word × Nat) : Prop := is c r.2 (fun t => t.setG rd r.1)
      let cond (c : Instr) (r : Bool) (n : Nat) : Prop := is c n (fun t => t.setP pd (into r))
      value (.fadd x rd ra rb) (fAdd a b) ∧ value (.fsub x rd ra rb) (fSub a b) ∧ value (.fmul x rd ra rb) (fMul a b) ∧
      value (.fdiv x rd ra rb) (fDiv a b) ∧ value (.fsqrt x rd ra) (fSqrt a) ∧ value (.fma x rd ra rb) (fMa d a b) ∧
      value (.fmin x rd ra rb) (fMin a b) ∧ value (.fmax x rd ra rb) (fMax a b) ∧
      Sets (.fabs x rd ra) x rd (a &&& 0x7FFFFFFFFFFFFFFF#64) s ∧ Sets (.fneg x rd ra) x rd (a ^^^ 0x8000000000000000#64) s ∧
      value (.fcvtif x rd ra) (roundInt false a.toInt 1) ∧ value (.fcvtfi x rd ra) (fToInt a) ∧
      cond (.fceq x k pd ra rb) (fEqual a b) (fQuietFlags a b) ∧ cond (.fclt x k pd ra rb) (fLess a b) (fSignalFlags a b) ∧
      cond (.fcle x k pd ra rb) (fLess a b || fEqual a b) (fSignalFlags a b) ∧ cond (.fcun x k pd ra rb) (fUnord a b) (fQuietFlags a b)) ∧
  ((∀ a, fNan a = true → fToInt a = (0#64, 16)) ∧
    (∀ a, fNan a = false → fInf a = false → 2 ^ 63 * 2 ^ 1074 ≤ fUnits a → fToInt a = (0x7FFFFFFFFFFFFFFF#64, 16)) ∧
    (∀ a, fNan a = false → fInf a = false → fUnits a < -((2 ^ 63 + 1) * 2 ^ 1074) → fToInt a = (0x8000000000000000#64, 16)) ∧
    (∀ a b, (fNan a || fNan b) = true → fNan (fMin a b).1 = true ∧ fNan (fMax a b).1 = true) ∧
    (∀ a b, (fNan a || fNan b) = true → fEqual a b = false ∧ fLess a b = false ∧ fUnord a b = true) ∧
    (fMin 0x8000000000000000#64 0#64).1 = 0x8000000000000000#64 ∧ (fMin 0#64 0x8000000000000000#64).1 = 0x8000000000000000#64 ∧
    (fMax 0x8000000000000000#64 0#64).1 = 0#64 ∧ (fMax 0#64 0x8000000000000000#64).1 = 0#64 ∧
    (∀ a b, fNan a = false → fInf a = false → fZero a = false → fZero b = true →
      fDiv a b = ((if fNeg a = fNeg b then 0x7FF0000000000000#64 else 0xFFF0000000000000#64), 8)) ∧
    (∀ n : Int, -(2 ^ 53) < n → n < 2 ^ 53 → n ≠ 0 → (roundInt false n 1).2 = 0 ∧ fUnits (roundInt false n 1).1 = n * 2 ^ 1074))

/-- R19, R37, R40, Table 2.7: an aligned load from DRAM the thread may read gives the bytes the task sees (its own staged ones
first), zero- or sign-extended; a block copy brings them to scratch; a misaligned access, or a record-window offset past 0xFFFF, is
the illegal fault. Nothing outside the thread changes. R40: an error response to a load is the fault its status names: DENIED
privilege, FENCED fenced, INTEGRITY (a poisoned line) integrity, each with the status involved; an address no unit holds answers
DENIED. -/
def Obligations.MemoryLoads : Prop :=
  (∀ (x : Ix) (rd ra rb : GReg) (imm : BitVec 12) (sp : Space) (sz : Size) (sx : Bool) (s : State), Runs x s →
      let t := s.me x.who
      let off := (Reads x s ra + imm.signExtend 64).toNat
      let sum := (Reads x s ra + Reads x s rb).toNat
      let base (p : Space) (a : Nat) : Nat := if p = .record then t.recbase.toNat + a else a
      let seen (a n : Nat) : List Byte := (List.range n).map (fun k => s.loadByte t (a + k))
      let load (c : Instr) (p : Space) (a n : Nat) (signed : Bool) : Prop :=
        (a % n = 0 → (p = .record → a + n ≤ 0x10000) → Readable x s (base p a) n →
          Does c x (fun t => (s.noteLines t (base p a) n).setG rd (extendN n signed (natOfBytes (seen (base p a) n)))) s) ∧
        ((a % n ≠ 0 ∨ p = .record ∧ 0x10000 < a + n) → Faults c x .illegal .ok s)
      let copy (c : Instr) (p : Space) : Prop :=
        let a := (Reads x s ra).toNat
        let n := (Reads x s rb).toNat
        let d := (Reads x s rd).toNat
        (0 < n → n ≤ 4096 → d + n ≤ 0x4000 → (p = .record → a + n ≤ 0x10000) → Readable x s (base p a) n →
          Does c x (fun t => (s.noteLines t (base p a) n).putScr d (seen (base p a) n)) s) ∧
        (n = 0 → Does c x (fun t => t) s) ∧ (4096 < n → Faults c x .illegal .ok s)
      load (.ldr x rd ra imm) .record off 8 false ∧ load (.ldf x rd ra imm) .fabric off 8 false ∧
      (sp ≠ .scratch → load (.ldx x sp sz sx rd ra rb) sp sum (Size.bytesN sz) sx) ∧
      copy (.bcpyRs x rd ra rb) .record ∧ copy (.bcpyFs x rd ra rb) .fabric) ∧
  (∀ (x : Ix) (rd ra : GReg) (imm : BitVec 12) (s : State), Runs x s →
      let a := (Reads x s ra + imm.signExtend 64).toNat
      let c := Instr.ldf x rd ra imm
      a % 8 = 0 → s.fabWaits a 8 = false →
      (a < 0x400000000 ∨ 0x1000000000 ≤ a) →
        (s.fabRight x.who.init false a 8 = .fenced → Faults c x .fenced .fenced s) ∧
        (s.fabRight x.who.init false a 8 = .denied → Faults c x .privilege .denied s) ∧
        (s.fabRight x.who.init false a 8 = .ok → s.poisoned (a / 64) = true → (s.me x.who).stage.fullLine (a / 64) = false →
          (s.me x.who).imaged (a / 64) = none →
          Faults c x .integrity .integrity s) ∧
        (0x1000000000 ≤ a → s.fencedInit x.who.init = false → Faults c x .privilege .denied s))

/-- R38, R48, Table 2.7: an aligned store to DRAM the thread may write is staged, and memory keeps its bytes until the commit; a
65th staged line is the illegal fault; a misaligned store, or one past the record window, is the illegal fault. R18, R19, R313: a
task sees its own staged bytes at once, and every other byte as it was committed; in a replay a line the record holds reads as its
image where the replay has staged nothing. -/
def Obligations.MemoryStoresAreStaged : Prop :=
  (∀ (x : Ix) (rd ra rb : GReg) (imm : BitVec 12) (sp : Space) (sz : Size) (s : State), Runs x s →
      let t := s.me x.who
      let off := (Reads x s ra + imm.signExtend 64).toNat
      let sum := (Reads x s ra + Reads x s rb).toNat
      let base (p : Space) (a : Nat) : Nat := if p = .record then t.recbase.toNat + a else a
      let staged (c : Instr) (a : Nat) (bs : List Byte) : Prop :=
        if (t.stage.put a bs).lines.length ≤ 64 then Does c x (fun t => { t with stage := t.stage.put a bs }) s
        else Faults c x .illegal .ok s
      let store (c : Instr) (p : Space) (a n : Nat) : Prop :=
        (a % n = 0 → (p = .record → a + n ≤ 0x10000) → Writable x s (base p a) n →
          staged c (base p a) (bytesOf n (Reads x s rd))) ∧
        ((a % n ≠ 0 ∨ p = .record ∧ 0x10000 < a + n) → Faults c x .illegal .ok s)
      let copy (c : Instr) (p : Space) : Prop :=
        let a := (Reads x s ra).toNat
        let n := (Reads x s rb).toNat
        let d := (Reads x s rd).toNat
        (0 < n → n ≤ 4096 → a + n ≤ 0x4000 → (p = .record → d + n ≤ 0x10000) → Writable x s (base p d) n →
          staged c (base p d) (t.scr a n)) ∧
        (n = 0 → Does c x (fun t => t) s) ∧ (4096 < n → Faults c x .illegal .ok s)
      store (.str x rd ra imm) .record off 8 ∧ store (.stf x rd ra imm) .fabric off 8 ∧
      (sp ≠ .scratch → store (.stx x sp sz rd ra rb) sp sum (Size.bytesN sz)) ∧
      copy (.bcpySr x rd ra rb) .record ∧ copy (.bcpySf x rd ra rb) .fabric) ∧
  (∀ (s : State) (g : Stage) (a b : Nat) (bs : List Byte),
      (∀ k v, bs[k]? = some v → s.seenByte (g.put a bs) (a + k) = v) ∧
      (b < a ∨ a + bs.length ≤ b → s.seenByte (g.put a bs) b = s.seenByte g b) ∧
      s.seenByte {} b = s.memByte b ∧
      (∀ t : Thread, (t.rpl = none → s.loadByte t b = s.seenByte t.stage b) ∧
        (∀ img, t.imaged (b / 64) = some img → Tab.get none t.stage.bytes b = none → s.loadByte t b = img.extractLsb' (8 * (b % 64)) 8)))

/-- R30, Table 2.2: MFC reads every control word of an engine thread, and MTC writes the RW ones where no reserved bit is set; an
MTC to an RO or reserved word, or of a reserved bit, is the illegal fault. -/
def Obligations.ControlWords : Prop :=
  ∀ (x : Ix) (t : Fin 128) (rd ra : GReg) (s : State), x.who = .thread t → Runs x s →
    let h := s.thread t.val
    let v := Reads x s ra
    let reads (k : Fin 64) (w : Word) : Prop := Sets (.mfc x rd k) x rd w s
    let writes (k : Fin 64) (m : Word) (f : Thread → Thread) : Prop :=
      if v &&& ~~~m = 0#64 then Does (.mtc x ra k) x f s else Faults (.mtc x ra k) x .illegal .ok s
    reads 0 (BitVec.ofNat 64 t.val) ∧ reads 1 (BitVec.ofNat 64 (h.count % 65536 * 65536 + h.q % 65536)) ∧
    reads 2 ((s.epochOf t.val).setWidth 64) ∧ reads 3 (h.iepoch.setWidth 64) ∧ reads 4 ((caps0 s.sys.variant).setWidth 64) ∧
    reads 5 (BitVec.ofNat 64 (s.wdogLeft h)) ∧ reads 6 h.fpctl ∧ reads 7 h.fpsr ∧ reads 8 h.ustat ∧ reads 9 h.lstat ∧
    reads 10 (BitVec.ofNat 64 ((if s.sel then 256 else 0) + s.cls true * 16 + s.cls false)) ∧
    reads 11 (s.stageWord t.val) ∧ reads 12 (s.lockWord t.val 0) ∧ reads 13 (s.lockWord t.val 1) ∧
    reads 14 (s.lockWord t.val 2) ∧ reads 15 (s.lockWord t.val 3) ∧ reads 16 0#64 ∧ reads 17 h.recbase ∧ reads 18 h.pairid ∧
    reads 19 ((s.sourceId (20 + t.val / 4)).setWidth 64) ∧
    writes 6 0x3#64 (fun h => { h with fpctl := v }) ∧ writes 7 0x1F#64 (fun h => { h with fpsr := v }) ∧
    writes 8 0xFF0FFF#64 (fun h => { h with ustat := v }) ∧ writes 9 0xFFF#64 (fun h => { h with lstat := v }) ∧
    writes 17 0xFFFFFFFFFFFFF800#64 (fun h => { h with recbase := v }) ∧
    (∀ k : Fin 64, k.val < 32 → k ≠ 6 → k ≠ 7 → k ≠ 8 → k ≠ 9 → k ≠ 17 → Faults (.mtc x ra k) x .illegal .ok s)

/-- R44, R48, Table 2.10: QTAKE with the right brings the head item to scratch and stages the take; QPUT with the right and a free
slot reserves the slot and stages the item; QPEEK copies the committed head item and answers the committed depth. Without the right
both answer DENIED, with nothing to take or no free slot RETRY, and stage nothing. A replay's put reserves nothing (R313). A
seventeenth put is the illegal fault. R44: an engine instruction that takes from or puts to an ingress queue raises the privilege
fault, whatever its predicate. -/
def Obligations.QueueInstructions : Prop :=
  (∀ (x : Ix) (rd ra rb : GReg) (s : State), Runs x s → s.fencedAg x.who.agent = false →
      let t := s.me x.who
      let a := (Reads x s ra).toNat
      let q := ((Reads x s rb).extractLsb' 0 16).toNat
      let d := s.desc q
      a + 64 ≤ 0x4000 →
      (0x1A8 ≤ q → s.qmAccess q = (true, s) →
        (∀ r, s.takeLook x.who q = (.ok, some r) → t.stage.takes.length < 8 →
          Gives (.qtake x rd ra rb) s (ThreadStep x (fun t =>
            let t := (t.putScr a (bytesOf 64 r.item)).setG rd 0#64
            { t with stage := { t.stage with takes := t.stage.takes ++ [⟨q, d.gen, r.ptr, r.item⟩] } }) (PcOf x s + 4) (s.takeHead q))) ∧
        (∀ st, s.takeLook x.who q = (st, none) → st ≠ .ok → Sets (.qtake x rd ra rb) x rd (BitVec.ofNat 64 st.code) s) ∧
        (t.rpl = none → s.putLook x.who q = .ok → t.stage.puts.length < 16 →
          Gives (.qput x rd ra rb) s (ThreadStep x (fun t =>
            let p := t.scrItem a
            let t := t.setG rd 0#64
            { t with stage := { t.stage with puts := t.stage.puts ++ [⟨q, d.gen, p⟩] } }) (PcOf x s + 4)
            (s.setDesc q { d with rsv := d.rsv + 1 }))) ∧
        (t.rpl ≠ none → s.putLook x.who q = .ok → t.stage.puts.length < 16 → Does (.qput x rd ra rb) x (fun t =>
            let p := t.scrItem a
            let t := t.setG rd 0#64
            { t with stage := { t.stage with puts := t.stage.puts ++ [⟨q, d.gen, p⟩] } }) s) ∧
        (s.putLook x.who q = .ok → 16 ≤ t.stage.puts.length → Faults (.qput x rd ra rb) x .illegal .ok s) ∧
        (s.putLook x.who q ≠ .ok → Sets (.qput x rd ra rb) x rd (BitVec.ofNat 64 (s.putLook x.who q).code) s)) ∧
      (d.hasRing = true → d.filling = false → d.depth ≠ 0 →
        Does (.qpeek x rd ra rb) x (fun t => (t.putScr a (bytesOf 64 (s.slotItem q d.head))).setG rd (BitVec.ofNat 64 d.depth)) s) ∧
      (d.hasRing = false ∨ d.filling = true ∨ d.depth = 0 → Sets (.qpeek x rd ra rb) x rd 0#64 s)) ∧
  (∀ (x : Ix) (rd ra rb : GReg) (s : State), s.runnable x.who = true → PcOf x s < codeSize x.who.agent →
      ((Reads x s rb).extractLsb' 0 16).toNat < 0x1A8 →
      Faults (.qtake x rd ra rb) x .privilege .ok s ∧ Faults (.qput x rd ra rb) x .privilege .ok s)

/-- R46: a wait longer than 1,000,000 ns answers OUT_OF_RANGE at once; a shorter WAITT waits, its stage kept; WAITQ and WAITL
answer OK at once where the queue is not empty or the lock free, and wait otherwise; a wait ends with OK when its condition holds
or WAITT's time has passed, and with RETRY when WAITQ's or WAITL's time has passed. R47, R49, R78, Table 2.11: TABORT and YIELD end
the engine task: the thread is free and its stage empty; on the supervisor TABORT discards the stage and goes on, and YIELD is the
illegal fault. -/
def Obligations.WaitsAndTaskEndings : Prop :=
  ((∀ (x : Ix) (rd ra rb : GReg) (s : State), Runs x s →
      let a := Reads x s ra
      let b := Reads x s rb
      let until_ (n : Nat) : Nat := s.tb.elapsed + (n + 7) / 8
      (1000000 < a.toNat → Sets (.waitt x rd ra) x rd 0x13#64 s) ∧
      (a.toNat ≤ 1000000 → Does (.waitt x rd ra) x (fun t => { t with st := .waitTime rd (until_ a.toNat) }) s) ∧
      (1000000 < b.toNat → Sets (.waitq x rd ra rb) x rd 0x13#64 s ∧ Sets (.waitl x rd ra rb) x rd 0x13#64 s) ∧
      (b.toNat ≤ 1000000 →
        (if s.queueHas (a.extractLsb' 0 16).toNat then Sets (.waitq x rd ra rb) x rd 0#64 s
          else Does (.waitq x rd ra rb) x (fun t => { t with st := .waitQueue rd (a.extractLsb' 0 16).toNat (until_ b.toNat) }) s) ∧
        (if s.lockFree (a.extractLsb' 0 12).toNat then Sets (.waitl x rd ra rb) x rd 0#64 s
          else Does (.waitl x rd ra rb) x (fun t => { t with st := .waitLock rd (a.extractLsb' 0 12).toNat (until_ b.toNat) }) s))) ∧
    (∀ (w : Who) (rd : GReg) (q l d : Nat) (s : State), s.pwr.mainOn = true →
      let wakes (st : Status) : Prop :=
        exec (.waitEnd w) s = .next (s.putMe w ({ s.me w with st := .running }.setG rd (BitVec.ofNat 64 st.code)))
      ((s.me w).st = .waitTime rd d → d ≤ s.tb.elapsed → wakes .ok) ∧
      ((s.me w).st = .waitQueue rd q d → s.queueHas q = true → wakes .ok) ∧
      ((s.me w).st = .waitQueue rd q d → s.queueHas q = false → d ≤ s.tb.elapsed → wakes .retry) ∧
      ((s.me w).st = .waitLock rd l d → s.lockFree l = true → wakes .ok) ∧
      ((s.me w).st = .waitLock rd l d → s.lockFree l = false → d ≤ s.tb.elapsed → wakes .retry))) ∧
  (∀ (x : Ix) (ra : GReg) (s : State), Runs x s →
      (∀ t : Fin 128, x.who = .thread t →
        let ended (u : State) : Prop := (u.thread t.val).st = .free ∧ (u.thread t.val).stage = {}
        Gives (.tabort x ra) s (fun u => u = (s.issue x.who).endTask t.val true false false ∧ ended u) ∧
        Gives (.yield x) s (fun u => u = (s.issue x.who).yieldTask t.val ∧ ended u)) ∧
      (x.who = .sup →
        Gives (.tabort x ra) s (fun u => (u.me .sup).stage = {} ∧ (u.me .sup).pc = BitVec.ofNat 24 (PcOf x s + 4)) ∧
        Faults (.yield x) x .illegal .ok s))

/-- R18, R19, R20, R47, R49, R86, R107, R323, Table 2.11: a commit that passes its checks and writes no journal entry applies the
whole stage at once and ends the task; on the supervisor execution goes on. The staged bytes are then the bytes of memory and no
other byte has changed, the marks of the locks held are cleared and the released ones free. A line it staged after reading it that
a commit has written since is a conflict, as is a put to a queue reset since: the stage is discarded and the item redispatched, its
count not raised. A commit with journal entries waits for the twin; a task whose time has run out takes the fault row; a fenced
agent's commit is the fenced fault. -/
def Obligations.CommitAppliesOrEnds : Prop :=
  ∀ (x : Ix) (s : State), Runs x s →
    let a := x.who.agent
    let h := s.me x.who
    let u := s.issue x.who
    let late : Prop := x.who ≠ .sup ∧ s.past h.wdStart (h.wdLimit * usCounts) = true
    let over_ (v : State) : Prop := (v.me x.who).stage = {} ∧ (∀ t, x.who = .thread t → (v.me x.who).st = .free) ∧
      (x.who = .sup → (v.me x.who).pc = BitVec.ofNat 24 (PcOf x s + 4))
    s.commitWaits a h.stage = false →
    (late → Faults (.tcommit x) x .watchdog .ok s) ∧
    (¬late → s.fencedAg a = true → Faults (.tcommit x) x .fenced .fenced s) ∧
    (¬late → s.fencedAg a = false → h.rpl = none →
      (s.lineConflict h.stage = true → Gives (.tcommit x) s (fun v => over_ v ∧ Tab.get .ok v.resp x.who.init.key = .retry ∧
        ∀ t, x.who = .thread t → v = (u.respond x.who.init .retry).endTask t.val false false false)) ∧
      (s.lineConflict h.stage = false → (∀ p ∈ h.stage.puts, s.qmAccess p.q = (true, s)) →
        (∃ p ∈ h.stage.puts, (s.desc p.q).gen ≠ p.gen) → Gives (.tcommit x) s (fun v => over_ v ∧
          Tab.get .ok v.resp x.who.init.key = .queueReset ∧
          ∀ t, x.who = .thread t → v = (u.respond x.who.init .queueReset).endTask t.val false false false)) ∧
      (∀ v, u.commitLook x.who false = (.ready, v) →
        (v.stageJournal x.who = [] → Gives (.tcommit x) s over_) ∧
        (v.stageJournal x.who ≠ [] → v.solo = false → v.twn.lost = false → Gives (.tcommit x) s (fun w =>
          (w.me x.who).st = .waitAck ∧ (w.me x.who).pc = h.pc ∧ (w.me x.who).stage = (v.me x.who).stage))) ∧
      (s.lineConflict h.stage = false → Tab.wf none h.stage.bytes = true →
        (∀ l ∈ h.stage.lines, l < 2 ^ 28 ∧ s.poisoned l = false) → h.stage.takes = [] → h.stage.puts = [] → h.stage.comps = [] →
        h.stage.ladds = [] → h.stage.posts = [] → h.stage.regw = [] → h.stage.outw = [] → (∀ k ∈ s.ord.pend, k.agent ≠ a) →
        Gives (.tcommit x) s (fun w => over_ w ∧
          (∀ b, b < 2 ^ 34 → w.ramByte b = (Tab.get none h.stage.bytes b).getD (s.ramByte b)) ∧
          (∀ l, (s.lock l).owner = some (a, s.epochOf a) → (w.lock l).mark = false ∧
            (w.lock l).owner = if l ∈ h.stage.rels then none else (s.lock l).owner) ∧
          (∀ l, (s.lock l).owner ≠ some (a, s.epochOf a) → (w.lock l).owner = (s.lock l).owner)))) ∧
    (¬late → s.fencedAg a = false → ∀ ps r t, x.who = .thread t → h.rpl = some (ps, r) → Gives (.tcommit x) s (fun w => over_ w ∧
      ∃ d st, (st = .ok ∨ st = .integrity) ∧ w.out = s.out ++ [.replayAnswer ps (r.first ps) d st]))

/-- R50, Table 2.12: TSTAMP writes the domain's seconds and the top 32 bits of its fraction to an even pair of registers, and is
illegal for an odd register or a domain above 2, and writes zero while REFCLK is lost (R277); TSCMP compares the keys of two items
in the order seconds, fraction, source, sequence; TSSUB gives the difference of two stamps. R52, R119, Table 4.7: LKACQ grants a
free lock with OK, one whose owner's epoch has lapsed (or that is free with its mark set) with ORPHANED, answers RETRY for a lock
another live agent holds and OK for one the agent holds already; an agent that acquires its own lapsed lock goes on in the hold it
began (a reading, log entry 49). LKREL stages the release of a lock the agent holds and has no effect on another. -/
def Obligations.TimeAndLockInstructions : Prop :=
  (∀ (x : Ix) (rd ra rb : GReg) (dom : Fin 32) (s : State), Runs x s →
      let t := s.me x.who
      let a := (Reads x s ra).toNat
      let b := (Reads x s rb).toNat
      let d := if dom.val = 1 then s.tb.a else if dom.val = 2 then s.tb.b else if s.sel then s.tb.b else s.tb.a
      let key (p : Nat) : List Nat := [t.scrNat p 8, t.scrNat (p + 8) 4, t.scrNat (p + 16) 2, t.scrNat (p + 20) 4]
      (if rd.val % 2 = 0 ∧ dom.val ≤ 2 then
        Does (.tstamp x rd dom) x (fun t => if s.tb.clkLost then (t.setG rd 0#64).setG (rd + 1) 0#64 else
          (t.setG rd d.sec).setG (rd + 1) ((d.frac.extractLsb' 32 32).setWidth 64)) s
      else Faults (.tstamp x rd dom) x .illegal .ok s) ∧
      (if a + 64 ≤ 0x4000 ∧ b + 64 ≤ 0x4000 then
        Sets (.tscmp x rd ra rb) x rd (if key a < key b then -1#64 else if key a = key b then 0#64 else 1#64) s
      else Faults (.tscmp x rd ra rb) x .illegal .ok s) ∧
      (if a + 12 ≤ 0x4000 ∧ b + 12 ≤ 0x4000 then
        Sets (.tssub x rd ra rb) x rd
          (BitVec.ofInt 64 (stampDiffNs (BitVec.ofNat 96 (t.scrNat a 12)) (BitVec.ofNat 96 (t.scrNat b 12)))) s
      else Faults (.tssub x rd ra rb) x .illegal .ok s)) ∧
  (∀ (x : Ix) (rd ra : GReg) (s : State), Runs x s → s.fencedAg x.who.agent = false →
      let l := ((Reads x s ra).extractLsb' 0 12).toNat
      let k := s.lock l
      let g := x.who.agent
      let granted (m : Bool) : Lock := { k with owner := some (g, s.epochOf g), mark := m, since := s.tb.elapsed
                                                warnMs := s.regF Reg.ordLkwarn 0 14, warned := false }
      let grants (st : Word) (k : Lock) : Prop :=
        Gives (.lkacq x rd ra) s (ThreadStep x (fun t =>
          { t.setG rd st with stage := { t.stage with acqs := t.stage.acqs ++ [l] } }) (PcOf x s + 4) (s.setLock l k))
      (k.owner = some (g, s.epochOf g) → Sets (.lkacq x rd ra) x rd 0#64 s ∧
        Does (.lkrel x ra) x (fun t => { t with stage := { t.stage with rels := t.stage.rels ++ [l] } }) s) ∧
      (k.owner ≠ some (g, s.epochOf g) → Does (.lkrel x ra) x (fun t => t) s) ∧
      ((s.locksOf g).length < 4 →
        (k.owner = none → grants (if k.mark then 3#64 else 0#64) (granted k.mark)) ∧
        (∀ a e, k.owner = some (a, e) → e ≠ s.epochOf a →
          grants 3#64 (if a = g then { k with owner := some (g, s.epochOf g), mark := true } else granted true))) ∧
      (4 ≤ (s.locksOf g).length → (k.owner = none ∨ ∃ a e, k.owner = some (a, e) ∧ e ≠ s.epochOf a) →
        Faults (.lkacq x rd ra) x .illegal .ok s) ∧
      (∀ a, a ≠ g → k.owner = some (a, s.epochOf a) → Sets (.lkacq x rd ra) x rd 0x10#64 s))

/-- R51, R106, R107: IDCHK of a new ID marks it pending for its task, zero-fills the result and answers OK; of a complete ID it
answers DUPLICATE with the original result and status; of one below its stream's floor STALE; of one another live task holds RETRY,
and of one whose stream finds no room RETRY with SFULL. IDDONE stages the completion of an ID the task checked OK, and is illegal
for any other. A replay is answered as its record says and marks nothing (R313; a reading, log entry 31). -/
def Obligations.RequestIdInstructions : Prop :=
  ∀ (x : Ix) (rd ra rb : GReg) (s : State), Runs x s → s.fencedAg x.who.agent = false →
    let t := s.me x.who
    let id := Reads x s ra
    let p := (Reads x s rb).toNat
    let g := x.who.agent
    p + 16 ≤ 0x4000 →
    ((addId t.stage.ids id).length ≤ 4 →
      let u : State := { s with ord := { s.ord with idchkSeen := true } }
      let noted (t : Thread) : Thread := { t with stage := { t.stage with ids := addId t.stage.ids id } }
      let answers (f : Thread → Thread) : Prop := Gives (.idchk x rd ra rb) s (ThreadStep x (fun t => f (noted t)) (PcOf x s + 4) u)
      (∀ ps r, t.rpl = some (ps, r) → answers (fun t => t.idReplay r rd p id)) ∧
      (t.rpl = none →
        (∀ res st, u.idLook g id = .duplicate res st → answers (fun t =>
          (((t.putScr p (bytesOf 16 res)).ustatStatus st.toNat).noteId ⟨id, 1#64, st.toNat, res⟩).setG rd 1#64)) ∧
        (u.idLook g id = .stale → answers (fun t => (t.noteId ⟨id, 2#64, 0, 0#128⟩).setG rd 2#64)) ∧
        (u.idLook g id = .retry → answers (fun t => t.setG rd 0x10#64)) ∧
        (u.idLook g id = .full → Gives (.idchk x rd ra rb) s (fun v => (rd ≠ 0 → (v.me x.who).getG rd = 0x10#64) ∧
          (v.me x.who).pc = BitVec.ofNat 24 (PcOf x s + 4) ∧ v.ord.sfull = true ∧ v.ord.pend = s.ord.pend ∧ v.mem = s.mem)) ∧
        (u.idLook g id = .fault → exec (.idchk x rd ra rb) s =
          .next (((State.count 0x0300 1 (whoTag x.who) ((s.issue x.who).markIdchk)).fault x.who .integrity .integrity))) ∧
        (u.idLook g id = .ok → Gives (.idchk x rd ra rb) s (fun v =>
          (v.me x.who).getG rd = 0#64 ∧ (v.me x.who).scr p 16 = List.replicate 16 0#8 ∧
          (v.me x.who).pc = BitVec.ofNat 24 (PcOf x s + 4) ∧ (∃ k ∈ v.ord.pend, k.id = id ∧ k.agent = g) ∧
          v.regs = s.regs ∧ v.ord.locks = s.ord.locks)))) ∧
    (4 < (addId t.stage.ids id).length → Faults (.idchk x rd ra rb) x .illegal .ok s) ∧
    (let mine : Prop := (∃ k ∈ s.ord.pend, k.id = id ∧ k.agent = g) ∨ (t.rpl ≠ none ∧ id ∈ t.stage.ids);
      (mine → Does (.iddone x rd ra rb) x (fun t => { t with stage := { t.stage with
        comps := t.stage.comps.filter (fun c => c.id != id) ++ [⟨id, (t.getG rd).setWidth 8, BitVec.ofNat 128 (t.scrNat p 16)⟩] } }) s) ∧
      (¬mine → Faults (.iddone x rd ra rb) x .illegal .ok s))

/-- R53, R54, Table 2.13: with a parameter block, lengths and areas in range and an active payload slot that opens to the caller,
CCMOPEN, CCMSEAL and GCMOPEN write their result and OK, or zero the output area and answer INTEGRITY where the tag does not verify;
HASH, which ignores the handle, writes the SHA-384. A handle above 0x7FFF is DENIED and a bad length OUT_OF_RANGE, the output area
unchanged (nonzero reserved bytes answer OUT_OF_RANGE too: DESIGN CHOICE, log entry 25). A parameter block past scratch is the
illegal fault. R55, Table 2.14: a CRC instruction advances the register in gd (its low 16 or 32 bits, zero-extended) over the
bytes, with no initial value and no final XOR of its own, so a checksum may be taken piece by piece; operands past scratch are the
illegal fault. -/
def Obligations.CryptoAndChecksums : Prop :=
  (∀ (x : Ix) (t : Fin 128) (rd ra : GReg) (s : State), x.who = .thread t → Runs x s →
      let h := s.thread t.val
      let a := (Reads x s ra).toNat
      let k := h.cryptBlk a
      let v := s.sec.slot k.handle
      let key := bytesOf 32 v.key
      let aad := h.scr k.aad k.al
      let dat := h.scr k.dat k.dl
      let tag := h.scr (k.dat + k.dl) k.tl
      let done (st : Status) (h : Thread) : Thread := ((h.ustatStatus st.code).ustatGen 0#8).setG rd (BitVec.ofNat 64 st.code)
      let wiped (h : Thread) : Thread := h.putScr k.out (List.replicate k.dl 0#8)
      let lens : Prop := k.al ≤ 1024 ∧ k.dl ≤ 4096 ∧ k.rsv = 0
      let ccm : Prop := 7 ≤ k.nl ∧ k.nl ≤ 13 ∧ k.tl ∈ [4, 8, 12, 16]
      let gcm : Prop := k.nl = 12 ∧ k.tl ∈ [12, 16]
      let areas (i o : Nat) : Prop := k.aad + k.al ≤ 0x4000 ∧ k.dat + k.dl + i ≤ 0x4000 ∧ k.out + k.dl + o ≤ 0x4000
      let usable (b : Nat) : Prop := k.handle < 64 ∧ s.sec.life ≠ 2 ∧ s.sec.slotState k.handle = .active ∧
        v.policy.extractLsb' 28 4 = 0#4 ∧ v.policy.getLsbD (23 + t.val / 32) = true ∧ v.policy.getLsbD b = true
      (a + 32 ≤ 0x4000 →
        (lens → ccm → areas k.tl 0 → usable 22 → Does (.ccmopen x rd ra) x (fun h =>
          match ccmOpen key k.nonce aad dat tag with
          | some o => done .ok (h.putScr k.out o)
          | none => done .integrity (wiped h)) s) ∧
        (lens → gcm → areas k.tl 0 → usable 22 → Does (.gcmopen x rd ra) x (fun h =>
          match gcmOpen key k.nonce aad dat tag with
          | some o => done .ok (h.putScr k.out o)
          | none => done .integrity (wiped h)) s) ∧
        (lens → ccm → areas 0 k.tl → usable 21 →
          Does (.ccmseal x rd ra) x (fun h => done .ok (h.putScr k.out (ccmSeal key k.nonce aad dat k.tl))) s) ∧
        (lens → k.dat + k.dl ≤ 0x4000 → k.out + 48 ≤ 0x4000 →
          Does (.hash x rd ra) x (fun h => done .ok (h.putScr k.out (sha384 dat))) s) ∧
        (lens → (0x4000 < k.dat + k.dl ∨ 0x4000 < k.out + 48) → Faults (.hash x rd ra) x .illegal .ok s) ∧
        (¬lens → Does (.hash x rd ra) x (done .outOfRange) s) ∧
        (0x8000 ≤ k.handle → ¬lens →
          Does (.ccmopen x rd ra) x (done .outOfRange) s ∧ Does (.ccmseal x rd ra) x (done .outOfRange) s ∧
          Does (.gcmopen x rd ra) x (done .outOfRange) s) ∧
        (0x8000 ≤ k.handle → lens → areas k.tl k.tl →
          (ccm → Does (.ccmopen x rd ra) x (done .denied) s ∧ Does (.ccmseal x rd ra) x (done .denied) s) ∧
          (gcm → Does (.gcmopen x rd ra) x (done .denied) s))) ∧
      (0x4000 < a + 32 → ∀ c ∈ [Instr.ccmopen x rd ra, .ccmseal x rd ra, .gcmopen x rd ra, .hash x rd ra], Faults c x .illegal .ok s)) ∧
  ((∀ (x : Ix) (rd ra rb : GReg) (s : State), Runs x s →
      let t := s.me x.who
      let a := (Reads x s ra).toNat
      let n := (Reads x s rb).toNat
      let r := Reads x s rd
      if a + n ≤ 0x4000 then
        Sets (.crc16i x rd ra rb) x rd ((crcRefl 0x8408#16 (r.setWidth 16) (t.scr a n)).setWidth 64) s ∧
        Sets (.crc16b x rd ra rb) x rd ((crcRefl 0xA001#16 (r.setWidth 16) (t.scr a n)).setWidth 64) s ∧
        Sets (.crc16m x rd ra rb) x rd ((crcFwd 0x3D65#16 (r.setWidth 16) (t.scr a n)).setWidth 64) s ∧
        Sets (.crc32e x rd ra rb) x rd ((crcRefl 0xEDB88320#32 (r.setWidth 32) (t.scr a n)).setWidth 64) s ∧
        Sets (.crc32c x rd ra rb) x rd ((crcRefl 0x82F63B78#32 (r.setWidth 32) (t.scr a n)).setWidth 64) s
      else ∀ c ∈ [Instr.crc16i x rd ra rb, .crc16m x rd ra rb, .crc16b x rd ra rb, .crc32e x rd ra rb, .crc32c x rd ra rb],
        Faults c x .illegal .ok s) ∧
    (∀ (w : Nat) (p r : BitVec w) (a b : List Byte), crcRefl p r (a ++ b) = crcRefl p (crcRefl p r a) b) ∧
    (∀ (p r : BitVec 16) (a b : List Byte), crcFwd p r (a ++ b) = crcFwd p (crcFwd p r a) b) ∧
    (∀ (w : Nat) (p r : BitVec w), crcRefl p r [] = r))

/-- R56 to R58, Table 2.15: an IF97 minor writes the value with USTAT OK and the region where its input lies in a region it serves,
and a quiet NaN with OUT_OF_RANGE elsewhere; ISOCD in cluster 0 writes the coefficient of the point's bank of the item's epoch,
with OK inside ISO 5167's limits and OUT_OF_RANGE outside them, and faults for a point the device lacks; TBLI of a loaded table
interpolates; SQACC adds the samples and the scaled roots of the positive ones. -/
def Obligations.MetrologyInstructions : Prop :=
  ∀ (x : Ix) (rd ra rb : GReg) (ad : AReg) (s : State), Runs x s →
    let t := s.me x.who
    let a := Reads x s ra
    let b := Reads x s rb
    let value (c : Instr) (op r : Nat) (q : Word) : Prop := Does c x (fun t => (t.ustatUnit .ok r).setG rd (Config.if97 op a q)) s
    let none_ (c : Instr) : Prop := ∃ v, fNan v = true ∧ Does c x (fun t => (t.ustatUnit .outOfRange 0).setG rd v) s
    let pt (c : Instr) (op : Nat) : Prop := match if97Pt a b with | some r => value c op r b | none => none_ c
    let sat (c : Instr) (op : Nat) (lo hi : Word) (q : Word) : Prop := if fLe lo a && fLe a hi then value c op 4 q else none_ c
    let z := Reads x s 0
    pt (.if97VPt x rd ra rb) 0 ∧ pt (.if97HPt x rd ra rb) 1 ∧ pt (.if97SPt x rd ra rb) 2 ∧ pt (.if97CpPt x rd ra rb) 3 ∧
    pt (.if97KappaPt x rd ra rb) 4 ∧ pt (.if97WPt x rd ra rb) 5 ∧
    sat (.if97TsatP x rd ra) 8 0x408319B439581062#64 0x41750AB800000000#64 z ∧
    sat (.if97PsatT x rd ra) 9 0x4071126666666666#64 0x408438C49BA5E354#64 z ∧
    sat (.if97VgP x rd ra) 10 0x408319B439581062#64 0x416F86E600000000#64 z ∧
    sat (.if97HgP x rd ra) 11 0x408319B439581062#64 0x416F86E600000000#64 z ∧
    sat (.if97VfP x rd ra) 12 0x408319B439581062#64 0x416F86E600000000#64 z ∧
    sat (.if97HfP x rd ra) 13 0x408319B439581062#64 0x416F86E600000000#64 z ∧
    (∀ n : Fin 32, x.who = .thread ⟨n.val, by omega⟩ →
      (∀ g, a.toNat < 32 → s.custPresent a.toNat = true → s.genFor t.iepoch = some g →
        let bank := s.bank g a.toNat
        Does (.isocd x rd ra rb) x (fun t => (t.ustatStatus (if isoInLimits bank b then 0 else 0x13)).setG rd (isoCoef bank b)) s) ∧
      (32 ≤ a.toNat ∨ s.custPresent a.toNat = false → Faults (.isocd x rd ra rb) x .absentUnit .absent s)) ∧
    (∀ n : Fin 128, x.who = .thread n → 32 ≤ n.val → Faults (.isocd x rd ra rb) x .privilege .ok s ∧
      (b.getLsbD 7 = false → Faults (.tbli x rd ra rb) x .privilege .ok s)) ∧
    (x.who.init.heartwood = true ∨ b.getLsbD 7 = true → ∀ p n bs,
      s.tblFor (b.setWidth 8).toNat t.iepoch = some p → tableLen (s.ramBytes p 16) = some n → s.ramRead p n = (.ok, bs) →
      match interpolate bs a (Reads x s rd) with
      | some v => Does (.tbli x rd ra rb) x (fun t => (t.ustatStatus 0).setG rd v) s
      | none => ∃ v, fNan v = true ∧ Does (.tbli x rd ra rb) x (fun t => (t.ustatStatus 0x13).setG rd v) s) ∧
    (let n := b.toNat
      let p := a.toNat
      let v := (List.range n).map (fun k => (BitVec.ofNat 32 (t.scrNat (p + 4 * k) 4)).toInt)
      let s1 := t.getA ad + v.sum
      let s2 := t.getA (ad + 1) + (((v.map (fun k => Nat.sqrt (k.toNat * 2 ^ 32))).sum : Nat) : Int)
      if ad.val % 2 = 0 ∧ 0 < n ∧ n ≤ 4096 ∧ p + 4 * n ≤ 0x4000 then
        if -(2 ^ 127) ≤ s1 ∧ s1 < 2 ^ 127 ∧ s2 < 2 ^ 127 then Does (.sqacc x ad ra rb) x (fun t => (t.setA ad s1).setA (ad + 1) s2) s
        else Faults (.sqacc x ad ra rb) x .arithmetic .ok s
      else Faults (.sqacc x ad ra rb) x .illegal .ok s)

/-- R48, R59 to R61, R201, Table 2.16: LADD in cluster 0 stages the booking at the rate its item's stamp and flags give, writing
LSTAT; a point of another pair stages nothing; LREAD brings the committed register and notes its line as read (a replay reads the
record's image); BALPOST stages a posting the engine would take and answers its status; EVPOST stages its event, a ninth being
illegal; all but EVPOST are privileged outside cluster 0. -/
def Obligations.LedgerInstructions : Prop :=
  ∀ (x : Ix) (k : LKind) (ad : AReg) (rd ra rb : GReg) (imm : BitVec 12) (s : State), Runs x s →
    let t := s.me x.who
    let pw : W32 := (Reads x s ra).setWidth 32
    let b := Reads x s rb
    let a := b.toNat
    let kind : Nat := match k with | .mass => 0 | .volume => 1 | .energy => 2 | .aux => 3
    let stamp : Stamp := BitVec.ofNat 96 (t.scrNat a 12)
    let fl := t.scrNat (a + 18) 2
    let sec := (stamp.extractLsb' 0 64).toNat
    let list := s.calList t.iepoch
    let bad := decide (fl % 2 = 1) || decide (stamp = 0#96)
    let late := !bad && (s.ldg.calCur ++ s.ldg.calShadow.getD []).any (fun g => decide (g ∉ list) && decide (calActivate g.image ≤ sec))
    let entry (r : Nat) (d : Bool) : LAdd := ⟨wordLocal pw, kind, r, d, decide (fl / 2 % 2 = 1), t.getA ad, stamp,
      if stamp = 0#96 then none else intervalOf list sec, late⟩
    (x.who.init.heartwood = true → s.fencedAg x.who.agent = false →
      (a + 20 ≤ 0x4000 → wordPair pw = s.pair → s.pointAbsent pw = false → ∀ r d, rateFor list sec bad = some (r, d) →
        let after := s.lreg (wordLocal pw) r kind + staged (t.stage.ladds ++ [entry r d]) (wordLocal pw) r kind
        if -(2 ^ 127) ≤ after ∧ after < 2 ^ 127 then
          Does (.ladd x k ad ra rb) x (fun t => { t.lstatSet d r (if d then .timeInvalid else .ok) with
            stage := { t.stage with ladds := t.stage.ladds ++ [entry r d] } }) s
        else Faults (.ladd x k ad ra rb) x .arithmetic .ok s) ∧
      (a + 20 ≤ 0x4000 → wordPair pw ≠ s.pair → Does (.ladd x k ad ra rb) x (fun t => { t with lstat := 0x13#64 }) s) ∧
      (s.pointAbsent pw = true → wordPair pw = s.pair → Faults (.lread x ad ra rb) x .absentUnit .absent s) ∧
      (wordPair pw ≠ s.pair → Gives (.lread x ad ra rb) s (fun u => u.mem = s.mem ∧ u.regs = s.regs ∧
        (u.me x.who).pc = BitVec.ofNat 24 (PcOf x s + 4) ∧ (u.me x.who).stage = t.stage ∧ (u.me x.who).g = t.g)) ∧
      (s.pointAbsent pw = false → wordPair pw = s.pair →
        let p := s.reg2 0x0C0000 + wordLocal pw * 0x800 + 0x400 + 16 * (4 * (b.setWidth 3).toNat + (b.extractLsb' 3 2).toNat)
        (t.imaged (p / 64) = none → (linesOf p 16).all (fun l => !s.poisoned l) = true →
          Does (.lread x ad ra rb) x (fun t => ({ t with stage := t.stage.noteImage (p / 64) (s.line (p / 64)) } : Thread).setAccBits ad
            (BitVec.ofNat 128 (s.ramNat p 16))) s) ∧
        (t.imaged (p / 64) = none → (linesOf p 16).all (fun l => !s.poisoned l) = false → Faults (.lread x ad ra rb) x .integrity .integrity s) ∧
        (∀ img, t.imaged (p / 64) = some img →
          Does (.lread x ad ra rb) x (fun t => t.setAccBits ad (img.extractLsb' (8 * (p % 64)) 128)) s)) ∧
      (s.present 0x0D = true → s.pointAbsent pw = false → a + 32 ≤ 0x4000 →
        let p : BitVec 256 := BitVec.ofNat 256 (t.scrNat a 32)
        let st := s.postStatus pw p t.stage.posts
        Does (.balpost x rd ra rb) x (fun t =>
          ({ t with stage := { t.stage with posts := if st = .ok then t.stage.posts ++ [⟨pw, p⟩] else t.stage.posts } } : Thread).setG rd
            (BitVec.ofNat 64 st.code)) s) ∧
      (s.present 0x0D = false → Faults (.balpost x rd ra rb) x .absentUnit .absent s)) ∧
    (x.who.init.heartwood = false →
      Faults (.ladd x k ad ra rb) x .privilege .ok s ∧ Faults (.lread x ad ra rb) x .privilege .ok s ∧
      Faults (.balpost x rd ra rb) x .privilege .ok s) ∧
    (if t.stage.events.length < 8 then
      Does (.evpost x rd ra imm) x (fun t => { t with stage := { t.stage with
        events := t.stage.events ++ [(0x8000#16 ||| imm.setWidth 16, (Reads x s ra).setWidth 32, (Reads x s rd).setWidth 8)] } }) s
    else Faults (.evpost x rd ra imm) x .illegal .ok s)

/-- R62, R116, R120 to R124, Table 2.17: on the supervisor FENCEA and UNFENCE set and lift the fence of one agent; AGRESET raises
the epoch of one agent; REVOKE frees and marks a lock whose holder is fenced, or withdraws a fenced agent's transmit lease, and
raises the agent's epoch; it is DENIED where the holder is not fenced, and OUT_OF_RANGE for a kind above 3; SEQOPEN and SEQCLOSE
open and discard a sequence; IRET returns to SEPC with interrupts on; WFI waits where none is due; EVPOSTS records at once. -/
def Obligations.SupervisorInstructions : Prop :=
  ∀ (x : Ix) (rd ra rb : GReg) (s : State), x.who = .sup → Runs x s →
    let a := ((Reads x s ra).extractLsb' 0 9).toNat
    let n := ((Reads x s ra).extractLsb' 0 16).toNat
    let l := ((Reads x s rb).extractLsb' 0 12).toNat
    let goes (t : State) : Prop := (t.thread agSup).pc = BitVec.ofNat 24 (PcOf x s + 4)
    (a ≤ 0x85 →
      Gives (.fencea x ra) s (fun t => t.fencedAg a = true ∧ (∀ b, b ≠ a → t.fencedAg b = s.fencedAg b) ∧ goes t) ∧
      Gives (.unfence x ra) s (fun t => t.fencedAg a = false ∧ (∀ b, b ≠ a → t.fencedAg b = s.fencedAg b) ∧ goes t)) ∧
    (a ≤ 0x85 → (s.thread a).st ≠ .waitAck →
      Gives (.agreset x ra) s (fun t => a ∉ t.spn.revoked ∧ t.epochOf a = s.epochOf a + 1#32 ∧ (∀ b, b ≠ a → t.epochOf b = s.epochOf b) ∧
        (t.thread agSup).pc = BitVec.ofNat 24 (if a = agSup then 0 else PcOf x s + 4))) ∧
    (Reads x s ra = 1#64 → ∀ o, (s.lock l).owner = some (o, s.epochOf o) →
      (s.fencedAg o = true → Gives (.revoke x rd ra rb) s (fun t =>
        (t.lock l).owner = none ∧ (t.lock l).mark = true ∧ t.epochOf o = s.epochOf o + 1#32 ∧
        (t.thread agSup).getG rd = 0#64 ∧ goes t)) ∧
      (s.fencedAg o = false → Sets (.revoke x rd ra rb) x rd 0x0B#64 s)) ∧
    (Reads x s ra = 3#64 → (Reads x s rb).toNat ≤ 0x85 → (Reads x s rb).toNat ∉ s.spn.revoked →
      let o := (Reads x s rb).toNat
      (s.fencedAg o = true → Gives (.revoke x rd ra rb) s (fun t => o ∈ t.spn.revoked ∧ t.epochOf o = s.epochOf o + 1#32 ∧
        (t.thread agSup).getG rd = 0#64 ∧ goes t)) ∧
      (s.fencedAg o = false → Sets (.revoke x rd ra rb) x rd 0x0B#64 s)) ∧
    (3 < (Reads x s ra).toNat → Sets (.revoke x rd ra rb) x rd 0x13#64 s) ∧
    (seqMayOpen n .sup = true → (s.seq n).owner = none → Gives (.seqopen x rd ra) s (fun t =>
      (t.seq n).owner = some .sup ∧ (t.seq n).writes = [] ∧ (t.seq n).opened = s.tb.elapsed ∧ (t.thread agSup).getG rd = 0#64 ∧ goes t)) ∧
    (∀ o, o ≠ .sup → seqMayOpen n .sup = true → (s.seq n).owner = some o →
      Gives (.seqopen x rd ra) s (fun t => t.seq n = s.seq n ∧ (rd ≠ 0 → (t.thread agSup).getG rd = 0x10#64) ∧ goes t)) ∧
    ((s.seq n).owner = some .sup → (Reads x s rb).getLsbD 0 = false → s.sec.otp = none →
      Gives (.seqclose x rd ra rb) s (fun t => (t.seq n).owner = none ∧ (t.seq n).writes = [] ∧ t.regs = s.regs ∧
        (t.thread agSup).getG rd = 0#64 ∧ goes t)) ∧
    (s.sup.sepc.toNat < 2 ^ 20 → s.sup.sepc.toNat % 4 = 0 → Gives (.iret x) s (fun t =>
      (t.thread agSup).pc = s.sup.sepc.setWidth 24 ∧ t.sup.sstatus.getLsbD 0 = false ∧ t.sup.sstatus.getLsbD 1 = true)) ∧
    (if s.sup.sien &&& s.sup.sipend = 0#64 then Does (.wfi x) x (fun t => { t with st := .waitIrq }) s else Does (.wfi x) x (fun t => t) s) ∧
    Gives (.evposts x ra rb) s (fun t =>
      t = (s.eventAs 0x48 (s.evFlags n) n ((Reads x s rb).setWidth 32)).setPc .sup (PcOf x s + 4))

/-- R30, R62, R64, R90, R116: a fault on the supervisor writes SEPC and SCAUSE, sets SSTATUS[0], clears SSTATUS[1] and goes on at
SVEC + 0x40 x class (within supervisor memory), its stage discarded; an enabled interrupt goes on at SVEC + 0x1C0. A fault on an
engine fences its four agents, frees its threads and reports the class, the address, the word and QCUR. An unassigned word is the
illegal fault. The forms R, I and W lie in a word as Table 2.3 shows (R31), and a word no table assigns spells the unassigned
encoding (R33). -/
def Obligations.FaultEntries : Prop :=
  (∀ (s : State) (c : FaultClass) (st : Status),
    let t := s.supFault c st
    t.sup.sepc = (s.thread agSup).pc.setWidth 64 ∧ t.sup.scause = BitVec.ofNat 64 (256 * st.code + c.code) ∧
    t.sup.sstatus.getLsbD 0 = true ∧ t.sup.sstatus.getLsbD 1 = false ∧ (t.thread agSup).stage = {} ∧
    (t.thread agSup).pc = BitVec.ofNat 24 (min (s.sup.svec.toNat + 0x40 * c.code) (2 ^ 20))) ∧
  (∀ (s : State) (g : Nat) (c : FaultClass) (st : Status), g < 128 → (s.thread g).st = .running →
    let t := s.engineFault g c st
    (∀ k, k < 4 → t.fencedAg (4 * (g / 4) + k) = true) ∧ (t.thread g).st = .free ∧ (t.thread g).stage = {} ∧
    (s.ge.flt.length < 16 → t.ge.flt = s.ge.flt ++ [⟨st, c, g, (s.thread g).pc.setWidth 18,
      BitVec.ofNat 32 (s.codeNat g (s.thread g).pc.toNat 4), (s.thread g).qcur⟩]) ∧
    (16 ≤ s.ge.flt.length → t.ge.fltOvf = true) ∧ t.sup.sipend.getLsbD 0 = true) ∧
  (∀ (w : Who) (i : W32) (s : State), s.runnable w = true → assigned i = false →
    (∀ n, w = .thread n → exec (.unassignedEncoding w i) s = .next ((s.issue w).engineFaultAt i n.val .illegal .ok)) ∧
    (w = .sup → exec (.unassignedEncoding w i) s = .next (s.supFault .illegal .ok))) ∧
  (∀ s : State, s.pwr.mainOn = true → s.sec.fail = false → s.pwr.state < 3 → s.sup.sstatus.getLsbD 1 = true →
    s.sup.sien &&& s.sup.sipend ≠ 0#64 → ((s.thread agSup).st = .running ∨ (s.thread agSup).st = .waitIrq) →
    Gives .supInterrupt s (fun t =>
      t.sup.sepc = (s.thread agSup).pc.setWidth 64 ∧ t.sup.scause = 0xF#64 ∧ t.sup.sstatus.getLsbD 0 = true ∧
      t.sup.sstatus.getLsbD 1 = false ∧ (t.thread agSup).st = .running ∧
      (t.thread agSup).pc = BitVec.ofNat 24 (min (s.sup.svec.toNat + 0x1C0) (2 ^ 20)))) ∧
  (assigned 0xFC000000#32 = false ∧ assigned 0x34000000#32 = false) ∧
  (∀ (w : Who) (p : BitVec 3) (n : Bool) (d a b : BitVec 5) (imm : BitVec 12) (wide : BitVec 17),
    let x : Ix := ⟨w, p.toFin, n⟩
    let word (major : BitVec 6) (low : BitVec 17) : W32 := major ++ p ++ BitVec.ofBool n ++ d ++ low
    decodeGarnil w (word 0x00#6 (a ++ b ++ 0x00#7)) = .add x d.toFin a.toFin b.toFin ∧
    decodeGarnil w (word 0x00#6 (a ++ b ++ 0x28#7)) = .bfx x d.toFin a.toFin b.toFin ∧
    decodeGarnil w (word 0x01#6 (a ++ imm)) = .addi x d.toFin a.toFin imm ∧
    decodeGarnil w (word 0x18#6 (a ++ imm)) = .ldf x d.toFin a.toFin imm ∧
    decodeGarnil w (word 0x08#6 wide) = .lui x d.toFin wide ∧
    decodeGarnil w (word 0x11#6 wide) = .call x d.toFin wide ∧
    (∀ i : W32, assigned i = false → decodeGarnil w i = .unassignedEncoding w i))

/-! ## Engines, queues and ordering (03_tasks_queues.md, 04_order_once.md) -/

/-- R72 to R74, R87, R92, R450: a descriptor command the QM accepts reads the eight words, installs or changes the descriptor, or
takes its ring away, and answers OK; a created ring is zero when its fill is done; QM_RPL_GO begins a replay of a reset queue and
its end publishes the items; GE_FLT_POP drops the head fault report. -/
def Obligations.DescriptorCommands : Prop :=
  ∀ (i : Init) (v : W32) (s : State),
    let q := ((s.reg 0x080000).extractLsb' 0 16).toNat
    let d := s.desc q
    (Reaches i 0x080004 s → s.qm.busyQ = none →
      (i = .sup → (d.hasRing = false ∨ d.sound = true) → Responds (.descriptorRead i) i .ok s (fun t =>
        (List.range 8).map (fun k => t.reg (0x080020 + 4 * k)) = d.words ∧ t.qm.descs = s.qm.descs)) ∧
      (let n := s.ddCreate d;
        (if n.cls = 2 then i.heartwood = true else i = .sup) →
        (d.hasRing = false → createDenied q n = false → n.rdlim ≠ 0 → Responds (.descriptorCreate i) i .ok s (fun t =>
          t.desc q = n ∧ t.qm.busyQ = (if n.filling then some q else none) ∧ t.qm.dstat = .ok)) ∧
        (d.hasRing = true → Responds (.descriptorCreate i) i .retry s (fun t => t.qm.descs = s.qm.descs))) ∧
      ((if d.cls = 2 then i.heartwood = true else i = .sup) →
        (let n := s.ddWrite d;
          n.rdlim ≠ 0 → d.state ≠ 2 → n.merge = d.merge → d.rets = [] →
          Responds (.descriptorWrite i) i .ok s (fun t => t.desc q = n ∧ t.qm.dstat = .ok)) ∧
        (d.depth = 0 → d.rsv = 0 → d.infl = 0 → Responds (.descriptorDelete i) i .ok s (fun t => t.desc q = { d with log2n := 0 })) ∧
        ((d.depth ≠ 0 ∨ d.rsv ≠ 0 ∨ d.infl ≠ 0) →
          Responds (.descriptorDelete i) i .retry s (fun t => t.qm.descs = s.qm.descs)))) ∧
    (∀ k, s.qm.busyQ = some k → s.dramOn = true →
      let r := (s.desc k).ring
      let n := 64 * (s.desc k).size
      Gives .createZeroFillDone s (fun t => t.qm.busyQ = none ∧ t.desc k = { s.desc k with filling := false } ∧
        (∀ b, t.ramByte b = if r ≤ b ∧ b < r + n then 0#8 else s.ramByte b) ∧
        (∀ l, t.poisoned l = if r / 64 ≤ l ∧ l < (r + n) / 64 then false else s.poisoned l))) ∧
    (let q := ((s.reg 0x080064).extractLsb' 0 16).toNat
      let n := (s.reg 0x080060).toNat
      Reaches .sup 0x080068 s → v.getLsbD 0 = true → s.qm.replay = none → n ≤ (s.desc q).size → (s.desc q).state = 1 →
      Responds (.qmRplGo .sup v) .sup .ok s (fun t => t.qm.replay = some ⟨q, s.reg2 0x080058, n⟩)) ∧
    (∀ r, s.qm.replay = some r → s.dramOn = true → 0 < r.cnt → s.qmAccess r.q = (true, s) → Gives .queueReplayDone s (fun t =>
      t.qm.replay = none ∧ t.qm.pend = false ∧ (t.desc r.q).state = 0 ∧
      (t.desc r.q).tail = ((s.desc r.q).tail + r.cnt) % (s.desc r.q).modulus)) ∧
    (Reaches i 0x090030 s → v.getLsbD 0 = true → Responds (.geFltPop i v) i .ok s (fun t => t.ge.flt = s.ge.flt.drop 1))

/-- R3, R17, R29, R67, R69, R75, R76, R80 to R82, R89, R90, R268: DISPATCH gives a free thread the head item of the queue in turn,
with its registers cleared but g1, the pc at the queue's entry and the item in scratch; an expired watchdog is the fault row; a
starved queue is served at priority 7; an arriving item is stamped (one from Spindle keeps the sending twin's stamp) and enters its
FIFO or is counted as dropped, and none arrives on FIFO 16 or 17 while it holds; a FIFO's head item enters its queue. -/
def Obligations.DispatchAndIngress : Prop :=
  (∀ (t : Fin 128) (q : Nat) (r : Ret) (s : State), s.canTake t.val = true →
    let u := s.refill t.val
    let rsv := decide (t.val ∈ u.ge.reserve)
    (32 ≤ t.val ∨ rsv = true ∨ s.twn.rplWait = []) →
    u.pickQueue (clusterOf t.val) rsv = some q → u.qmAccess q = (true, u) → u.dispItem (clusterOf t.val) rsv q = some r →
    Gives (.dispatch t) s (fun v =>
      let h := v.thread t.val
      h.st = .running ∧ (∀ g : GReg, h.getG g = if g = 1 then BitVec.ofNat 64 q else 0#64) ∧ (∀ p : PReg, h.getP p = decide (p = 0)) ∧
      h.pc = BitVec.ofNat 24 ((s.desc q).entry.toNat * 4) ∧ h.scr 0 64 = bytesOf 64 r.item ∧ h.stage = {} ∧
      h.q = q ∧ h.count = r.count ∧ h.iepoch = r.item.extractLsb' 256 32 ∧ h.wdStart = s.tb.elapsed ∧
      (v.desc q).infl = (s.desc q).infl + 1 ∧ t.val ∉ v.ge.reserve)) ∧
  (∀ (t : Fin 128) (s : State),
    let h := s.thread t.val
    s.pwr.mainOn = true → h.st ≠ .free → h.st ≠ .waitAck → h.wdStart + 125 * h.wdLimit ≤ s.tb.elapsed →
    Gives (.taskWatchdogExpiry t) s (fun v => v = s.engineFault t.val .watchdog .ok ∧ (v.thread t.val).st = .free ∧
      v.fencedAg t.val = true)) ∧
  (∀ (q : BitVec 16) (w : Nat) (s : State),
    let d := s.desc q.toNat
    s.pwr.mainOn = true → d.hasRing = true → d.depth ≠ 0 → d.waitFrom = some w →
    w + 125 * ((s.reg 0x080040).extractLsb' 0 17).toNat ≤ s.tb.elapsed →
    Gives (.qmStarveExpiry q) s (fun t => t.desc q.toNat = { d with starved := true } ∧ (t.desc q.toNat).effPrio = 7)) ∧
  (∀ (f : Fin 18) (p : Fin 8) (body : Item) (sub : Fin 32) (s : State), s.fieldRuns = true → s.present (fifoUnit f.val) = true →
    (16 ≤ f.val → (s.fifo f.val).hold = false) →
    let src := if f.val = 17 then 52 else f.val
    let m := s.fifoMoment f.val sub.val
    let x := if f.val = 16 then body else
      stampItem body m.st m.off (s.sourceId src) m.fl (Tab.get 0#32 s.qm.seq src) (s.epochAt (stampT32 m.st))
    let old := s.fifo f.val
    Gives (.ingressFifoArrival f p body sub) s (fun t =>
      (f.val ≠ 16 → Tab.get 0#32 t.qm.seq src = Tab.get 0#32 s.qm.seq src + 1#32) ∧
      (if old.items.length < 32 then (t.fifo f.val).items = old.items ++ [(p.val, x)] ∧ (t.fifo f.val).drops = old.drops
      else (t.fifo f.val).items = old.items ∧ (t.fifo f.val).ovf = true ∧
        (t.fifo f.val).drops = if old.drops < 0xFFFF then old.drops + 1 else 0xFFFF))) ∧
  (∀ (f : Fin 18) (p : Fin 8) (body : Item) (sub : Fin 32) (s : State), 16 ≤ f.val → (s.fifo f.val).hold = true →
    exec (.ingressFifoArrival f p body sub) s = .next s) ∧
  (∀ (f : Fin 18) (p : Nat) (x : Item) (rest : List (Nat × Item)) (s : State), f.val ≠ 10 → f.val ≠ 11 →
    s.pwr.mainOn = true → s.pwr.state < 3 → (s.fifo f.val).items = (p, x) :: rest →
    let q := (if f.val = 17 then 52 else f.val) * 8 + p
    let d := s.desc q
    s.qmAccess q = (true, s) → s.canPut q = true → d.state = 0 →
    Gives (.fifoDrain f) s (fun t => (t.fifo f.val).items = rest ∧ (t.desc q).tail = (d.tail + 1) % d.modulus ∧
      (12 ≤ f.val → s.spn.own = [] → d.merge = false → d.cls ≠ 4 →
        t.slotItem q d.tail = x ||| (1#512 <<< 159))))

/-- R71, R77, R84 to R86: a queue whose pointers fail a check is reset at the next access: pointers 0, state reset, nothing held,
its number and PEND recorded; a queue that passes is left alone; a descriptor's depth and free count never exceed its ring. -/
def Obligations.PointerChecks : Prop :=
  ∀ (q : Nat) (s : State),
    let d := s.desc q
    (d.hasRing = true → d.sound = false → ∃ t, s.qmAccess q = (false, t) ∧
      (t.desc q).head = 0 ∧ (t.desc q).tail = 0 ∧ (t.desc q).disp = 0 ∧ (t.desc q).rsv = 0 ∧ (t.desc q).infl = 0 ∧
      (t.desc q).headn = 0x1FFFFF ∧ (t.desc q).tailn = 0x1FFFFF ∧ (t.desc q).state = 1 ∧ (t.desc q).gen = d.gen + 1 ∧
      (t.desc q).sound = true ∧ t.qm.rstQ = q ∧ t.qm.pend = true ∧ t.sup.sipend.getLsbD 1 = true ∧
      (∀ p, p ≠ q → t.desc p = s.desc p) ∧ t.mem = s.mem) ∧
    (d.sound = true → s.qmAccess q = (true, s) ∧ d.depth ≤ d.size ∧ d.freeSlots + d.depth + d.rsv = d.size) ∧
    (d.hasRing = false → s.qmAccess q = (true, s)) ∧ d.depth < d.modulus

/-- R96 to R102: once a window has run out the first item due is released with every held item ordered before it, in key order, and
the held list stays in key order as an item is taken in; writing ORD_MCFG or ORD_MQ sets the context, and one disabled, or bound to
another queue, releases what it holds and forgets its last key; a queue bound by another enabled context is DENIED, a window above
500,000 us OUT_OF_RANGE. R105, R110, R119: a sweep retires every completion entry older than its retention, leaves every other one
and writes nothing outside the tables; a repair zeroes its bucket and puts it in quarantine, for the supervisor alone, and is RETRY
where 256 buckets are there; the quarantine ends after the longer retention; a lock held longer than its warning time records
0x0B03 once. -/
def Obligations.OrderingUnit : Prop :=
  ((∀ (c : Fin 1024) (l r : List Held) (h : Held) (s : State),
      let m := s.merge c.val
      s.pwr.mainOn = true → m.held = l ++ h :: r → m.held.Pairwise (fun a b => a.key ≤ b.key) → h.due < s.tb.elapsed →
      (∀ g ∈ l ++ r, g.ptr ≠ h.ptr ∧ h.due < g.due) →
      Gives (.mergeWindowExpiry c) s (fun t =>
        (t.merge c.val).held = r ∧ (∀ g ∈ r, h.key ≤ g.key) ∧ (t.merge c.val).last = some h.key ∧
        (t.desc m.mq).rel = (s.desc m.mq).rel ++ (l ++ [h]).map (·.ptr) ∧
        (∀ e : Fin 1024, e ≠ c → t.merge e.val = s.merge e.val))) ∧
    (∀ (c : Fin 1024) (s : State), (∀ g ∈ (s.merge c.val).held, s.tb.elapsed ≤ g.due) → exec (.mergeWindowExpiry c) s = .next s) ∧
    (∀ (h : Held) (l : List Held), l.Pairwise (fun a b => a.key ≤ b.key) →
      (insHeld h l).Pairwise (fun a b => a.key ≤ b.key) ∧ (insHeld h l).Perm (h :: l)) ∧
    (∀ (i : Init) (v : W32) (s : State),
      let c := ((s.reg 0x0B0000).extractLsb' 0 10).toNat
      let q := (v.extractLsb' 0 16).toNat
      let m := s.merge c
      let released (t : State) : Prop := (t.desc m.mq).rel = (s.desc m.mq).rel ++ m.held.map (·.ptr)
      (Reaches i 0x0B0008 s → (v.extractLsb' 0 20).toNat ≤ 500000 →
        (v.getLsbD 31 = true → s.boundElsewhere c m.mq = false → Responds (.ordMcfgWrite i v) i .ok s (fun t =>
          t.merge c = { m with mcfg := v } ∧ t.mem = s.mem)) ∧
        (v.getLsbD 31 = false → Responds (.ordMcfgWrite i v) i .ok s (fun t =>
          t.merge c = { m with mcfg := v, held := [], last := none } ∧ released t)) ∧
        (v.getLsbD 31 = true → s.boundElsewhere c m.mq = true → Responds (.ordMcfgWrite i v) i .denied s (fun t =>
          t.ord = s.ord ∧ t.qm = s.qm))) ∧
      (Reaches i 0x0B0008 s → 500000 < (v.extractLsb' 0 20).toNat →
        Responds (.ordMcfgWrite i v) i .outOfRange s (fun t => t.ord = s.ord ∧ t.qm = s.qm)) ∧
      (Reaches i 0x0B0004 s → s.boundElsewhere c q = false →
        (m.mq = q → Responds (.ordMqWrite i v) i .ok s (fun t => t.merge c = { m with last := none })) ∧
        (m.mq ≠ q → Responds (.ordMqWrite i v) i .ok s (fun t =>
          t.merge c = { m with mq := q, held := [], last := none } ∧ released t))) ∧
      (Reaches i 0x0B0004 s → s.boundElsewhere c q = true → Responds (.ordMqWrite i v) i .denied s (fun t => t.ord = s.ord ∧ t.qm = s.qm)))) ∧
  ((∀ s : State, s.pwr.mainOn = true → Gives .ccSweep s (fun t =>
      (∀ a ∈ s.ccLive, s.retention (ccReq (s.ccAt a)) < s.age (ccTime (s.ccAt a)) → ccValid (t.ccAt a) = false) ∧
      (∀ a ∈ s.ccLive, s.age (ccTime (s.ccAt a)) ≤ s.retention (ccReq (s.ccAt a)) → t.ccAt a = s.ccAt a) ∧
      (∀ b, b < s.ccBase ∨ s.ccBase + 192 * 2 ^ 20 ≤ b → t.ramByte b = s.ramByte b) ∧
      t.ord = s.ord ∧ t.regs = s.regs ∧ t.qm = s.qm)) ∧
    (∀ (i : Init) (v : W32) (s : State), Reaches i 0x0B0018 s →
      (i = .sup → v.toNat < 524288 → s.ord.quar.length < 256 →
        Responds (.ordCcRepair i v) i .ok s (fun t =>
          t.quarantined v.toNat = true ∧ (∀ k, k < 256 → t.ramByte (s.ccAddr v.toNat 0 + k) = 0#8) ∧
          (∀ b, b < s.ccAddr v.toNat 0 ∨ s.ccAddr v.toNat 0 + 256 ≤ b → t.ramByte b = s.ramByte b) ∧
          (∀ l ∈ linesOf (s.ccAddr v.toNat 0) 256, t.poisoned l = false))) ∧
      (i = .sup → v.toNat < 524288 → 256 ≤ s.ord.quar.length → Responds (.ordCcRepair i v) i .retry s (fun t => t.ord = s.ord ∧ t.mem = s.mem)) ∧
      (i = .sup → 524288 ≤ v.toNat → Responds (.ordCcRepair i v) i .outOfRange s (fun t => t.ord = s.ord ∧ t.mem = s.mem)) ∧
      (i ≠ .sup → Responds (.ordCcRepair i v) i .denied s (fun t => t.ord = s.ord ∧ t.mem = s.mem))) ∧
    (∀ s : State, s.pwr.mainOn = true →
      let n := max (s.regF 0x0B0010 1 10) (s.regF 0x0B0010 11 10) * 3600 * 125000000
      Gives .quarantineExpiry s (fun t => t = { s with ord := { s.ord with
        quar := s.ord.quar.filter (fun p => !decide (p.2 + n ≤ s.tb.elapsed)) } })) ∧
    (∀ (l : Fin 4096) (a : Nat) (e : W32) (s : State),
      let k := s.lock l.val
      s.pwr.mainOn = true → k.owner = some (a, e) → k.warned = false → k.since + k.warnMs * 125000 < s.tb.elapsed →
      Gives (.lockHoldWarning l) s (fun t => t.lock l.val = { k with warned := true } ∧
        t = (s.setLock l.val { k with warned := true }).event 0x0B03 (BitVec.ofNat 32 (l.val + a * 4096)))))

/-- R10, R120 to R123: a free sequence opens to those Table 4.10 allows, is RETRY to a second owner and DENIED to others; a SEQ
write of the owner is buffered without its reserved bits, up to 32, and a 33rd spoils the sequence; a close without apply discards
it, one by another is DENIED, one after an expiry is told STALE; a timeout frees it. -/
def Obligations.LockedSequences : Prop :=
  (∀ (i : Init) (v : W32) (s : State),
    let n := (v.extractLsb' 0 16).toNat
    let q := s.seq n
    (Reaches i 0x0B0040 s →
      (seqMayOpen n i = true → q.owner = none → Responds (.ordSeqOpen i v) i .ok s (fun t =>
        (t.seq n).owner = some i ∧ (t.seq n).writes = [] ∧ (t.seq n).spoiled = false ∧ (t.seq n).opened = s.tb.elapsed)) ∧
      (∀ o, o ≠ i → seqMayOpen n i = true → q.owner = some o → Responds (.ordSeqOpen i v) i .retry s (fun t => t.seq n = q)) ∧
      (seqMayOpen n i = false → Responds (.ordSeqOpen i v) i .denied s (fun t => t.ord.seqs = s.ord.seqs))) ∧
    (Reaches i 0x0B0044 s →
      (q.owner = some i → v.getLsbD 16 = false → s.sec.otp = none → Responds (.ordSeqClose i v) i .ok s (fun t =>
        (t.seq n).owner = none ∧ (t.seq n).writes = [] ∧ t.regs = s.regs ∧ t.sec = s.sec)) ∧
      (q.owner ≠ some i → i ∉ q.expired → Responds (.ordSeqClose i v) i .denied s (fun t => t.ord.seqs = s.ord.seqs)) ∧
      (q.owner ≠ some i → i ∈ q.expired → Responds (.ordSeqClose i v) i .stale s (fun t => i ∉ (t.seq n).expired))) ∧
    (seqMayOpen 1 i = true ↔ i = .sup ∨ i = .host) ∧ (seqMayOpen 2 i = true ↔ i.heartwood = true) ∧ (seqMayOpen 3 i = true ↔ i = .sup)) ∧
  (∀ (i : Init) (off : BitVec 24) (v : W32) (s : State) (r : RegRow), Reaches i off.toNat s → off.toNat % 4 = 0 →
    regRow off.toNat = some r → r.acc = .seq → s.sec.otp = none →
    let n := seqOfUnit (off.toNat / 0x10000)
    let q := s.seq n
    (q.owner = some i → q.writes.length < 32 → Responds (.seqWrite i off v) i .ok s (fun t =>
      t.seq n = { q with writes := q.writes ++ [(off.toNat, v &&& r.mask)] } ∧ t.regs = s.regs)) ∧
    (q.owner = some i → 32 ≤ q.writes.length → Responds (.seqWrite i off v) i .outOfRange s (fun t => t.seq n = { q with spoiled := true })) ∧
    (q.owner ≠ some i → Responds (.seqWrite i off v) i .denied s (fun t => t.ord = s.ord ∧ t.regs = s.regs))) ∧
  (∀ (n : BitVec 16) (i : Init) (s : State),
    let q := s.seq n.toNat
    s.pwr.mainOn = true → q.owner = some i → s.sec.otp = none → q.opened + q.tmo * 125000 ≤ s.tb.elapsed →
    Gives (.sequenceTimeout n) s (fun t => (t.seq n.toNat).owner = none ∧ i ∈ (t.seq n.toNat).expired))

/-! ## Custody, quantities, balance, ledger (05 to 08) -/

/-- R13, R128 to R135, R137: the first transfer of samples at a window centre opens a sample instant of its point, invalid until
its samples come; one that fails its CRC makes the instant invalid on the three channels, and ends a calibration past its half;
none opens while no centre passes, and a dropped transfer of edges or converter samples marks them invalid. A decimated sample
joins the instant of its centre, or opens it, compensated, calibrated and clipped, and a DP sample past DN halves the gain; a
boundary that is due runs before it. A write of AFE_CHCFG waits for the next block boundary and ends a calibration of its channel;
a bad mode is DENIED, bad bounds OUT_OF_RANGE, an absent channel ABSENT; a held low point is dropped after 600 s. R131, R138 to
R140, R146, R148: at a boundary that is due the block's instants and sums begin anew, BSEQ advances where the block held a sample,
and a waiting configuration takes effect; a block with a free slot and room in FIFO 10 marks its slot busy and its item enters the
FIFO with the block's stamp, one without is counted as lost, its samples invalid where the FIFO is full; a boundary not due does
nothing. A calibration whose ten blocks pass every check ends OK, one that fails ends CAL_REJECTED with a failed check's reason,
and one whose blocks are not done goes on. -/
def Obligations.SampleChain : Prop :=
  ((∀ (p c : Nat) (s : State),
      (s.tb.clkLost = true → s.sampleState p = none) ∧
      (s.centre = some c → 125 ≤ s.usNow % 1000000 → s.boundaryDue p = false → s.sampleState p = some (c, s)) ∧
      (s.centre = some c → 125 ≤ s.usNow % 1000000 → s.boundaryDue p = true → s.sampleState p = some (c, s.boundary p)) ∧
      (s.centre = some c → c % 250 = 125 ∧ c ≤ s.usNow ∧ s.usNow < c + 250)) ∧
    (∀ (p : Fin 32) (ok : Bool) (s : State), s.fieldRuns = true → s.custPresent p.val = true →
      (s.sampleState p.val = none → exec (.dieBridgeTransfer (.point p) ok) s = .next s) ∧
      (∀ c u, s.sampleState p.val = some (c, u) → u.ptActive p.val = true → u.instantFree p.val c = true →
        Gives (.dieBridgeTransfer (.point p) true) s (fun t =>
          (t.pt p.val).n = (u.pt p.val).n + 1 ∧ (t.pt p.val).dp = 0x80000000#32 :: (u.pt p.val).dp ∧ (t.pt p.val).got = 0#3 ∧
          (t.pt p.val).ctr = some c ∧ (t.pt p.val).inval = (u.pt p.val).inval ∧ t.mem = u.mem) ∧
        Gives (.dieBridgeTransfer (.point p) false) s (fun t =>
          (t.pt p.val).n = (u.pt p.val).n + 1 ∧ (t.pt p.val).dp = 0x80000000#32 :: (u.pt p.val).dp ∧ (t.pt p.val).got = 7#3 ∧
          (t.pt p.val).inval = (u.pt p.val).inval + 1 ∧
          (∀ k, (u.pt p.val).cal = some k → k.started = true → k.blocks < 10 →
            (t.chan (3 * p.val)).calBad = true ∧ (t.chan (3 * p.val + 1)).calBad = true ∧ (t.chan (3 * p.val + 2)).calBad = true ∧
            (5 ≤ k.blocks → (t.pt p.val).cal = none ∧ t.afe.calStatus = .calRejected ∧ t.afe.calReason = 9) ∧
            (k.blocks < 5 → (t.pt p.val).cal = some k))))) ∧
    (∀ (i : Fin 64) (n : Fin 2) (s : State), s.fieldRuns = true →
      (s.custPresent (i.val / 2) = true → Gives (.dieBridgeTransfer (.edges i) false) s (fun t =>
        t.pulse i.val = { s.pulse i.val with badE := (s.pulse i.val).badE + 1 } ∧ t.qm.fifos = s.qm.fifos ∧ t.mem = s.mem)) ∧
      (s.present (0x10 + n.val) = true → Gives (.dieBridgeTransfer (.converter n) false) s (fun t =>
        (Tab.get {} t.plc n.val).badSamp = (Tab.get {} s.plc n.val).badSamp + 1 ∧ t.qm.fifos = s.qm.fifos ∧ t.mem = s.mem))) ∧
    (∀ (ch : Fin 96) (x : Int) (theta : BitVec 16) (o : Bool) (m : Nat) (s u : State),
      let p := ch.val / 3
      let k := ch.val % 3
      let c := u.chan ch.val
      let q := u.pt p
      s.fieldRuns = true → s.custPresent p = true → s.sampleState p = some (m, u) → chActive c.cfg = true →
      ((q.ctr = some m ∧ q.got.getLsbD k = false) ∨ (q.ctr ≠ some m ∧ u.instantFree p m = true)) →
      let joins := decide (q.ctr = some m)
      let dp0 := if joins then q.dp else 0x80000000#32 :: q.dp
      let low := decide (c.gain = 0 ∨ c.gain = chGmin c.cfg)
      let sat := low && !underF c.cfg x c.gain 100
      let x' : Int := if sat then (if chVolts c.cfg x < 0 then -1342177280 else 1342177280) else x
      let y := calibrate c (compensate c theta.toInt x')
      Gives (.decimatedSample ch x theta o) s (fun t =>
        (t.chan ch.val).sum = c.sum + y ∧ (t.chan ch.val).raw = c.raw + x' ∧ (t.chan ch.val).valid = c.valid + 1 ∧
        (sat = true → (t.chan ch.val).clipped = c.clipped + 1) ∧
        (t.pt p).got.getLsbD k = true ∧ (t.pt p).ctr = some m ∧ (t.pt p).n = (if joins then q.n else q.n + 1) ∧
        (t.pt p).dp = (if k = 0 then listSet dp0 0 (BitVec.ofInt 32 y) else dp0) ∧
        (t.pt p).thetaN = q.thetaN + 1 ∧ (t.pt p).theta = q.theta + theta.toInt ∧ -0x7FFFFFFF ≤ y ∧ y ≤ 0x7FFFFFFF ∧
        (k = 0 → c.cfg.getLsbD 20 = true → overF c.cfg x c.gain ((u.reg 0x0F0008).extractLsb' 24 8).toNat = true → chGmin c.cfg < c.gain →
          (t.chan ch.val).gain = c.gain - 1 ∧ (t.chan ch.val).settle = 2) ∧
        (∀ d, d ≠ ch.val → t.chan d = u.chan d))) ∧
    (∀ (i : Init) (v : W32) (s : State),
      let ch := ((s.reg 0x0F0000).extractLsb' 0 7).toNat
      Reaches i 0x0F0004 s → i.heartwood = true →
      (s.chAbsent ch = true → Responds (.afeChcfgWrite i v) i .absent s (fun t => t.afe = s.afe)) ∧
      (s.chAbsent ch = false →
        (chcfgCheck ch v.toNat = .ok → Responds (.afeChcfgWrite i v) i .ok s (fun t =>
          (t.chan ch).cfgNew = some (v &&& 0xFFF73FFF#32) ∧ (t.chan ch).cfg = (s.chan ch).cfg ∧
          (∀ c, (s.pt (ch / 3)).cal = some c → c.chan = ch →
            (t.pt (ch / 3)).cal = none ∧ t.afe.calStatus = .calRejected ∧ t.afe.calReason = 9))) ∧
        (5 ≤ (v.extractLsb' 28 3).toNat → Responds (.afeChcfgWrite i v) i .denied s (fun t => t.afe = s.afe)) ∧
        ((v.extractLsb' 28 3).toNat < 5 → (v.extractLsb' 0 14).toNat < 1000 ∨ 10000 < (v.extractLsb' 0 14).toNat →
          Responds (.afeChcfgWrite i v) i .outOfRange s (fun t => t.afe = s.afe)))) ∧
    (∀ (i : Init) (v : W32) (s : State), Reaches i 0x0F0004 s → i.heartwood = false →
      Responds (.afeChcfgWrite i v) i .denied s (fun t => t.afe = s.afe)) ∧
    (∀ (ch : Fin 96) (a : Int) (b : Nat) (r : Int) (at_ : Nat) (s : State), s.pwr.mainOn = true →
      (s.chan ch.val).low = some (a, b, r, at_) →
      (at_ + 600 * 125000000 ≤ s.tb.elapsed →
        exec (.rtdLowPointExpiry ch) s = .next (s.setChan ch.val { s.chan ch.val with low := none })) ∧
      (s.tb.elapsed < at_ + 600 * 125000000 → exec (.rtdLowPointExpiry ch) s = .next s))) ∧
  ((∀ (p : Fin 32) (s : State), s.fieldRuns = true → s.custPresent p.val = true →
      (s.boundaryDue p.val = false → exec (.blockClose p) s = .next s) ∧
      (s.boundaryDue p.val = true →
        let q := s.pt p.val
        Gives (.blockClose p) s (fun t =>
          let r := t.pt p.val
          r.n = 0 ∧ r.dp = [] ∧ r.inval = 0 ∧ r.thetaN = 0 ∧ r.cut = false ∧ r.per = some (s.sel, (s.dom s.sel).sec.toNat) ∧
          r.bseq = (if q.n = 0 then q.bseq else q.bseq + 1#32) ∧
          (∀ k, k < 3 → (t.chan (3 * p.val + k)).sum = 0 ∧ (t.chan (3 * p.val + k)).valid = 0 ∧ (t.chan (3 * p.val + k)).cfgNew = none ∧
            (t.chan (3 * p.val + k)).cfg = ((s.chan (3 * p.val + k)).cfgNew).getD (s.chan (3 * p.val + k)).cfg) ∧
          (q.n = 0 → t.fifo 10 = s.fifo 10 ∧ t.mem = s.mem ∧ r.busy = q.busy ∧ r.lost = q.lost) ∧
          (q.n ≠ 0 → s.ownsPoint p.val = false → t.fifo 10 = s.fifo 10 ∧ r.busy = q.busy ∧ r.lost = q.lost) ∧
          (q.n ≠ 0 → s.ownsPoint p.val = true →
            let slot := q.bseq.toNat % 8
            (q.busy.getLsbD slot = false → (s.fifo 10).items.length < 32 →
              r.busy = q.busy ||| BitVec.ofNat 8 (2 ^ slot) ∧ r.gap = false ∧ r.lost = q.lost ∧
              (∃ it, (t.fifo 10).items = (s.fifo 10).items ++ [(s.afePrio, it)] ∧ it.extractLsb' 0 96 = q.first.st ∧
                it.extractLsb' 288 32 = s.custWord p.val ∧ it.extractLsb' 384 16 = BitVec.ofNat 16 q.n ∧ it.extractLsb' 416 32 = q.bseq)) ∧
            (q.busy.getLsbD slot = true ∨ 32 ≤ (s.fifo 10).items.length →
              r.lost = q.lost + 1#32 ∧ r.gap = true ∧ r.busy = q.busy ∧ t.fifo 10 = s.fifo 10 ∧ t.mem = s.mem ∧
              (q.busy.getLsbD slot = false → s.calOpen p.val = true → ∀ k, k < 3 → (t.chan (3 * p.val + k)).calBad = true)))))) ∧
    (∀ (p : Fin 32) (c : Calib) (s : State), s.fieldRuns = true → (s.pt p.val).cal = some c → c.started = true → 10 ≤ c.blocks →
      (s.calReasons p.val c = [] → Gives (.calibrationVerdict p) s (fun t =>
        (t.pt p.val).cal = none ∧ t.afe.calStatus = .ok ∧ t.afe.calReason = 0 ∧ t.afe.calChan = c.chan ∧
        (∃ z q, (t.chan c.chan).calNew = some (c.kind, z, q)) ∧ (t.chan c.chan).cz = (s.chan c.chan).cz ∧
        (t.chan c.chan).cs = (s.chan c.chan).cs)) ∧
      (s.calReasons p.val c ≠ [] → Gives (.calibrationVerdict p) s (fun t =>
        (t.pt p.val).cal = none ∧ t.afe.calStatus = .calRejected ∧ t.afe.calReason ∈ s.calReasons p.val c ∧ t.afe.calChan = c.chan ∧
        t.afe.chans = s.afe.chans))) ∧
    (∀ (p : Fin 32) (c : Calib) (s : State), (s.pt p.val).cal = some c → c.started = false ∨ c.blocks < 10 →
      exec (.calibrationVerdict p) s = .next s))

/-- R141 to R144: an edge waits for the pulse length; an edge less than GLITCH after the last rejects both and is counted; one that
has lasted counts in the second it fell in, in quadrature up or down by the other line's level; a second with counted edges issues
one item, at its first count after or at its end, and begins anew; the second waits while an edge of it is still under GLITCH old. -/
def Obligations.PulseInputs : Prop :=
  (∀ (i : Fin 64) (up : Bool) (s : State),
    let x := s.pulse i.val
    let lasts (d : PEdge) : Prop := d.at_ + (x.cfg.extractLsb' 0 10).toNat ≤ s.tb.elapsed
    let fresh : PEdge := ⟨s.tb.elapsed, up, s.secOfNow, s.momentNow⟩
    s.fieldRuns = true → s.custPresent (i.val / 2) = true → pMode (s.pulse (i.val / 2 * 2)).cfg ≠ 4 → pActive x.cfg = true →
    (x.pendE = none → Gives (.pulseEdge i up) s (fun t =>
      t.pulse i.val = { x with pendE := some fresh } ∧ (∀ j, j ≠ i.val → t.pulse j = s.pulse j) ∧ t.qm.fifos = s.qm.fifos)) ∧
    (∀ d, x.pendE = some d → ¬lasts d → Gives (.pulseEdge i up) s (fun t =>
      (t.pulse i.val).pendE = none ∧ (t.pulse i.val).count = x.count ∧ (t.pulse i.val).level = x.level ∧
      (x.sec = some s.secOfNow → (t.pulse i.val).glitch = x.glitch + 1 ∧ (t.pulse i.val).edges = x.edges ∧ t.qm.fifos = s.qm.fifos) ∧
      (x.sec ≠ some s.secOfNow → (t.pulse i.val).glitch = 1 ∧ (t.pulse i.val).edges = 0))) ∧
    (∀ d, x.pendE = some d → lasts d →
      let counts := decide (pMode x.cfg = 3 ∨ (pMode x.cfg = 1 ∧ d.up = true) ∨ (pMode x.cfg = 2 ∧ d.up = false))
      Gives (.pulseEdge i up) s (fun t =>
        (t.pulse i.val).level = d.up ∧ (t.pulse i.val).pendE = some fresh ∧ (t.pulse i.val).sec = some d.sec ∧
        (t.pulse i.val).count = (if counts then BitVec.ofInt 32 (x.count.toInt + 1) else x.count) ∧
        (t.pulse i.val).edges = (if x.sec = some d.sec then x.edges else 0) + (if counts then 1 else 0) ∧
        (counts = true → (t.pulse i.val).last = d.at_ ∧ (t.pulse i.val).stamp = d.st)))) ∧
  (∀ (o : Fin 64) (b up : Bool) (d : PEdge) (s : State), o.val % 2 = 0 →
    let i := o.val + (if b then 1 else 0)
    let j := o.val + (if b then 0 else 1)
    let x := s.pulse o.val
    s.fieldRuns = true → s.custPresent (o.val / 2) = true → pMode x.cfg = 4 → pActive x.cfg = true →
    (s.pulse i).pendE = some d → (s.pulse j).pendE = none → d.at_ + ((s.pulse i).cfg.extractLsb' 0 10).toNat ≤ s.tb.elapsed →
    x.sec = some d.sec →
    let n : Int := if b then (if d.up = (s.pulse j).level then 1 else -1) else (if d.up = (s.pulse j).level then -1 else 1)
    Gives (.pulseEdge (Fin.ofNat 64 i) up) s (fun t => (t.pulse o.val).count = BitVec.ofInt 32 (x.count.toInt + n) ∧
      (t.pulse o.val).net = x.net + n ∧ (t.pulse o.val).edges = x.edges + 1 ∧ (t.pulse i).level = d.up)) ∧
  (∀ (i : Fin 64) (s : State),
    let x := s.pulse i.val
    s.fieldRuns = true → s.custPresent (i.val / 2) = true → pMode (s.pulse (i.val / 2 * 2)).cfg ≠ 4 →
    (x.pendE = none → x.sec = some s.secOfNow → exec (.pulseSecondItem i) s = .next s) ∧
    (∀ d, x.pendE = some d → s.tb.elapsed < d.at_ + (x.cfg.extractLsb' 0 10).toNat → d.sec ≠ s.secOfNow →
      exec (.pulseSecondItem i) s = .next s) ∧
    (x.pendE = none → x.sec ≠ some s.secOfNow → Gives (.pulseSecondItem i) s (fun t =>
      let z := t.pulse i.val
      z.edges = 0 ∧ z.net = 0 ∧ z.glitch = 0 ∧ z.fast = false ∧ z.sec = some s.secOfNow ∧ z.count = x.count ∧
      (x.edges = 0 → t.qm.fifos = s.qm.fifos ∧ z.kept = x.kept) ∧
      (x.edges ≠ 0 → s.ownsPoint (x.cfg.extractLsb' 22 5).toNat = true → (s.fifo 11).items.length < 32 →
        ∃ it, (t.fifo 11).items = (s.fifo 11).items ++ [(s.afePrio, it)] ∧ it.extractLsb' 0 96 = x.stamp.st ∧
          it.extractLsb' 288 32 = s.custWord (x.cfg.extractLsb' 22 5).toNat ∧ it.extractLsb' 320 8 = BitVec.ofNat 8 i.val ∧
          it.extractLsb' 352 32 = x.count ∧ it.extractLsb' 384 32 = BitVec.ofNat 32 x.edges) ∧
      (x.edges ≠ 0 → s.ownsPoint (x.cfg.extractLsb' 22 5).toNat = false → t.qm.fifos = s.qm.fifos ∧ z.kept.length ≤ 8))))

/-- R154, R156, Table 6.4: FLW_SLDCMD from a thread or the supervisor starts the load of a table handle from 128 up, and is
OUT_OF_RANGE below, RETRY while one runs and DENIED to others; when a load ends BUSY clears and its status is reported, and a table
that passes its checks is loaded. R175, R178, R183, R185 to R190: a topology load is started by the supervisor or the host and
takes effect in the shadow where it passes its checks; an interval closes once its delay is over and time is good, else the close
is deferred and runs later; the first close is of the latest interval whose due second it is, or the next one's to wait for (log
entry 28); a revision boundary is taken once, and with room for its items every dirty closed pair is judged anew; final intervals
are forgotten; a CUSUM restart is noted; held verdict items go out while the queue takes them. -/
def Obligations.FlowAndBalance : Prop :=
  ((∀ (i : Init) (v : W32) (s : State), Reaches i 0x0E0018 s →
      let h := (v.setWidth 8).toNat
      let own : Prop := i = .sup ∨ ∃ t, i = .thread t
      (own → s.flw.sldBusy = none → 128 ≤ h → Responds (.flwSldcmd i v) i .ok s (fun t =>
        t.flw.sldBusy = some (h, s.reg2 0x0E0010) ∧ t.flw.sldIndex = h ∧ t.flw.loaded = s.flw.loaded)) ∧
      (own → s.flw.sldBusy = none → h < 128 → Responds (.flwSldcmd i v) i .outOfRange s (fun t => t.flw = s.flw)) ∧
      (own → s.flw.sldBusy ≠ none → Responds (.flwSldcmd i v) i .retry s (fun t => t.flw = s.flw)) ∧
      (¬own → Responds (.flwSldcmd i v) i .denied s (fun t => t.flw = s.flw))) ∧
    (∀ (h a : Nat) (s : State), s.pwr.mainOn = true → s.flw.sldBusy = some (h, a) →
      Gives .flwSapwoodLoadDone s (fun t => t.flw.sldBusy = none ∧ t.flw.sldStatus = (s.tableRead a).1 ∧ t.flw.sldIndex = h ∧
        ((s.tableRead a).1 = .ok → t.tblLoaded 0 h = true) ∧ ((s.tableRead a).1 ≠ .ok → t.flw.loaded = s.flw.loaded ∧ t.mem = s.mem))) ∧
    (∀ (k n m : Nat) (s : State), s.pwr.mainOn = true → s.flw.ldBusy = some (k, n, m) →
      Gives .flwLoadDone s (fun t => t = { s with flw := { s.flw with ldBusy := none, ldKind := k, ldIndex := n, ldStatus := .ok } }))) ∧
  ((∀ (i : Init) (v : W32) (s : State), Reaches i 0x0D0008 s →
      ((i = .sup ∨ i = .host) → s.bal.topBusy = none → s.cfg.prep = false → s.bal.gens.length < 4 →
        Responds (.balTopcmd i v) i .ok s (fun t => t.bal.topBusy = some (s.reg2 0x0D0000) ∧ t.bal.gens = s.bal.gens)) ∧
      ((i = .sup ∨ i = .host) → s.bal.topBusy ≠ none → Responds (.balTopcmd i v) i .retry s (fun t => t.bal = s.bal)) ∧
      (i ≠ .sup → i ≠ .host → Responds (.balTopcmd i v) i .denied s (fun t => t.bal = s.bal))) ∧
    (∀ (a : Nat) (s : State), s.pwr.mainOn = true → s.bal.topBusy = some a → Gives .balTopologyLoadDone s (fun t =>
      t.bal.topBusy = none ∧ t.bal.topStatus = (s.topoRead a).1 ∧ t.bal.gens = s.bal.gens ∧
      t.bal.shadow = (match (s.topoRead a).2 with | some x => some x | none => s.bal.shadow))) ∧
    (∀ (n : Nat) (s : State), s.balRuns = true → s.bal.nextClose = some n →
      ((n : Int) + 1) * 900 + ((s.reg 0x0D0018).extractLsb' 12 12).toNat ≤ s.balUtc →
      let fits : Prop := match s.topoOf n with | some x => s.bal.held.length + x.nodes.length ≤ 4096 | none => True
      (s.timeGood = true → fits → Gives .balIntervalClose s (fun t => t.bal.nextClose = some (n + 1) ∧ t.bal.nextNode = none ∧
        s.bal.held <+: t.bal.held ∧ t.bal.gens = s.bal.gens)) ∧
      (s.timeGood = false → Gives .balIntervalClose s (fun t => t = { s with bal := { s.bal with defer := true } })) ∧
      (s.timeGood = true → fits → s.bal.defer = true → Gives .balDeferredClose s (fun t =>
        t.bal.nextClose = some (n + 1) ∧ t.bal.defer = s.closeDue (n + 1)))) ∧
    (∀ (i : Nat) (s : State), s.balRuns = true → s.bal.nextClose = some i → s.closeDue i = false → exec .balIntervalClose s = .next s) ∧
    (∀ s : State, s.balRuns = true → s.bal.nextClose = none →
      (s.lastDue = none → Gives .balIntervalClose s (fun t => t.bal.nextClose = some 0)) ∧
      (∀ j, s.lastDue = some j →
        let due := ((j : Int) + 1) * 900 + ((s.reg 0x0D0018).extractLsb' 12 12).toNat
        due ≤ s.balUtc ∧ s.balUtc < due + 900 ∧
        (due < s.balUtc → Gives .balIntervalClose s (fun t => t.bal.nextClose = some (j + 1) ∧ t.bal.held = s.bal.held ∧ t.mem = s.mem)) ∧
        (due = s.balUtc → s.timeGood = false → Gives .balIntervalClose s (fun t =>
          t.bal.nextClose = some j ∧ t.bal.defer = true ∧ t.bal.held = s.bal.held ∧ t.mem = s.mem)))) ∧
    (∀ s : State, s.balRuns = true →
      let per := max ((s.reg 0x0D0018).extractLsb' 0 12).toNat 1
      let b := s.balUtc.toNat / per * per
      (s.bal.lastRev = some b → exec .balRevisionBoundary s = .next s) ∧
      (s.bal.lastRev ≠ some b → Gives .balRevisionBoundary s (fun t =>
        t.bal.lastRev = some b ∧ b % per = 0 ∧ b ≤ s.balUtc.toNat ∧ (∀ d ∈ t.bal.dirty, s.balFinal ≤ d.2) ∧
        (t.bal.held.length < 4096 → ∀ f c n i, s.bal.firstClose = some f → s.bal.nextClose = some c → f ≤ i → i < c →
          (n, i) ∉ t.bal.dirty)))) ∧
    (∀ s : State, s.balRuns = true → Gives .balIntervalFinal s (fun t => t.bal.finalBelow = s.balFinal ∧
      (∀ d, d ∈ t.bal.dirty ↔ d ∈ s.bal.dirty ∧ s.balFinal ≤ d.2) ∧ (∀ p, p ∈ t.bal.finals ↔ p ∈ s.bal.finals ∧ s.balFinal ≤ p.2) ∧
      (∀ i n, s.balFinal ≤ i → n < 65536 → t.acc i n = s.acc i n))) ∧
    (∀ (i : Init) (v : W32) (s : State), Reaches i 0x0D0014 s →
      let n := (v.setWidth 16).toNat
      let j := (s.reg 0x0D0030).toNat
      (s.balFinal ≤ j → j ≤ s.balNow + 1 → Responds (.balCusrst i v) i .ok s (fun t => t.cusReset n j = true)) ∧
      (j < s.balFinal ∨ s.balNow + 1 < j → Responds (.balCusrst i v) i .outOfRange s (fun t => t.bal = s.bal))) ∧
    (∀ (x : Item) (xs : List Item) (s : State), s.balRuns = true → s.bal.held = x :: xs →
      let q := ((s.reg 0x0D0028).extractLsb' 0 16).toNat
      s.qmAccess q = (true, s) → s.canPut q = true → s.bal.nextNode = none → s.bal.work = [] →
        Gives .balOutputRetry s (fun t => t.bal.held <:+ xs)))

/-- R193, R201 to R203: a booking at its commit adds its amount to the register of its rate and kind and to no other register, and
the point's LCOUNT rises by one; a register read back gives what was written. R195, R199, R204, R206, R210, R211, Table 8.10: a
snapshot is the supervisor's to start and copies every line that verifies; the records of an interval are formed PKEEP intervals
after it, one for each point that has none, and discarded after RETD days; a smaller PKEEP acts from the next interval on; a
calendar load ends; LEGAL_SHOW shows page 0, then each page in turn at its time, and ends blank with SHOWEND. -/
def Obligations.Ledger : Prop :=
  ((∀ (x : LAdd) (s : State), x.interval = none → x.local_ < 8192 → x.rate < 8 → x.kind < 4 →
      -(2 ^ 127) ≤ s.lreg x.local_ x.rate x.kind + x.amount → s.lreg x.local_ x.rate x.kind + x.amount < 2 ^ 127 →
      (s.bookOne x).lreg x.local_ x.rate x.kind = s.lreg x.local_ x.rate x.kind + x.amount ∧
      (∀ l r k, l < 8192 → r < 8 → k < 4 → (l, r, k) ≠ (x.local_, x.rate, x.kind) → (s.bookOne x).lreg l r k = s.lreg l r k)) ∧
    (∀ (l : Nat) (st : Stamp) (s : State), l < 8192 →
      let a := s.ptAddr l
      (s.bookPoint l st).ramNat (a + 0x648) 8 = (s.ramNat (a + 0x648) 8 + 1) % 2 ^ 64 ∧
      (s.bookPoint l st).ramNat (a + 0x650) 12 = (if stampLt (BitVec.ofNat 96 (s.ramNat (a + 0x650) 12)) st then st.toNat
        else s.ramNat (a + 0x650) 12))) ∧
  ((∀ (i : Init) (v : W32) (s : State), Reaches i 0x0C0058 s →
      let f := (v.extractLsb' 0 13).toNat
      let n := (v.extractLsb' 16 14).toNat
      let a := s.reg2 0x0C0050
      (i = .sup → s.ldg.snap = none → 0 < n → f + n ≤ 8192 → a % 64 = 0 →
        Responds (.ldgSnapcmd i v) i .ok s (fun t => t.ldg.snap = some (a, f, n))) ∧
      (i = .sup → s.ldg.snap ≠ none → Responds (.ldgSnapcmd i v) i .retry s (fun t => t.ldg = s.ldg)) ∧
      (i = .sup → s.ldg.snap = none → (n = 0 ∨ 8192 < f + n) → Responds (.ldgSnapcmd i v) i .outOfRange s (fun t => t.ldg = s.ldg)) ∧
      (i ≠ .sup → Responds (.ldgSnapcmd i v) i .denied s (fun t => t.ldg = s.ldg))) ∧
    (∀ (a f n : Nat) (s : State), s.pwr.mainOn = true → s.ldg.snap = some (a, f, n) → a % 64 = 0 → s.ptAddr f % 64 = 0 →
      (a + 2048 * n ≤ s.ptAddr f ∨ s.ptAddr f + 2048 * n ≤ a) → Gives .snapshotDone s (fun t => t.ldg.snap = none ∧
        (∀ k, k < 2048 * n → s.poisoned ((s.ptAddr f + k) / 64) = false → t.ramByte (a + k) = s.ramByte (s.ptAddr f + k)) ∧
        (∀ k, k < 2048 * n → t.ramByte (s.ptAddr f + k) = s.ramByte (s.ptAddr f + k)))) ∧
    (∀ (n : Nat) (s : State), s.pwr.mainOn = true → s.intervalNow = some n →
      let now := ((s.reg 0x0C0020).extractLsb' 16 7).toNat
      let keep := s.pkeep
      let i := s.ldg.formNext.getD (n - keep)
      (s.ldg.pkOld = none → keep = now) ∧ (∀ o, s.ldg.pkOld = some (n, o) → keep = max now o) ∧
      (∀ m o, s.ldg.pkOld = some (m, o) → m ≠ n → keep = now) ∧
      (n < i + keep → exec .profileRecordForm s = .next s) ∧
      (i + keep ≤ n → Gives .profileRecordForm s (fun t => t.ldg.formNext = some (i + 1) ∧
        s.ldg.profiles <+: t.ldg.profiles ∧ (t.ldg.profiles.drop s.ldg.profiles.length).map (fun p => (p.local_, p.interval)) =
          ((List.range 8192).filter (fun l => (s.profOf l i).isNone)).map (fun l => (l, i)) ∧
        (∀ p ∈ t.ldg.profiles.drop s.ldg.profiles.length, p.rec_.extractLsb' 0 32 = BitVec.ofNat 32 i))) ∧
      Gives .profileRetentionDiscard s (fun t => t = { s with ldg := { s.ldg with
        profiles := s.ldg.profiles.filter (fun p => decide (n ≤ p.interval + ((s.reg 0x0C0020).extractLsb' 23 9).toNat * 96)) } })) ∧
    (∀ s : State, s.pwr.mainOn = true → s.ldg.calBusy = true →
      Gives .calendarLoadDone s (fun t => t = { s with ldg := { s.ldg with calBusy := false, calStatus := .ok } })) ∧
    (∀ s : State, s.pwr.mainOn = true →
      (s.ldg.show_ = none → Gives .legalShowAssert s (fun t => t.ldg.show_ = some (s.tb.elapsed, 0, s.tb.elapsed) ∧
        t.out = s.out ++ [.display (s.showGroups 0) false])) ∧
      (∀ a p b, s.ldg.show_ = some (a, p, b) →
        Gives .legalShowAssert s (fun t => t.ldg.show_ = some (s.tb.elapsed, p, b) ∧ t.out = s.out) ∧
        (let n := ((s.reg 0x0C0024).extractLsb' 0 4).toNat * 62500000;
          b + n ≤ s.tb.elapsed → Gives .legalShowPage s (fun t =>
            t.ldg.show_ = some (a, (p + 1) % s.showPages, b + n) ∧ t.out = s.out ++ [.display (s.showGroups ((p + 1) % s.showPages)) false])) ∧
        (let n := ((s.reg 0x0C0024).extractLsb' 0 4).toNat * 62500000; s.tb.elapsed < b + n → exec .legalShowPage s = .next s) ∧
        (s.tb.elapsed < a + ((s.reg 0x0C0024).extractLsb' 8 8).toNat * 125000000 → exec .legalShowEnd s = .next s) ∧
        (a + ((s.reg 0x0C0024).extractLsb' 8 8).toNat * 125000000 ≤ s.tb.elapsed → Gives .legalShowEnd s (fun t =>
          t.ldg.show_ = none ∧ t.ldg.showend = true ∧ t.out = s.out ++ [.display [] true])))))

/-! ## Field ports (09_powerline.md, 10_radio_wired.md) -/

/-- R218, R222, R223, R229, R234 to R236: the transmit-role port takes the head item, frames its payload with FC, SEQ, PANID, DST
and CRC, and starts it on its phases where the slots permit; one that does not fit completes with OUT_OF_RANGE; a busy channel of
the contention period holds it for a deferral of whole symbols within its exponent, which rises (the exponent before its rise is a
reading, log entry 30); a frame that ends completes, or waits for its acknowledgement, is sent again up to the limit and then
completes with RETRY; an acknowledgement of its SEQ completes it with OK; a due acknowledgement is sent, a late one never. A
completion goes to the port's completion queue. -/
def Obligations.PowerLineSending : Prop :=
  (∀ (n : Fin 2) (busy : Bool) (s : State),
    let o := 0x100000 + n.val * 0x10000
    (s.plcOn n.val = false ∨ s.txRole = false ∨ (s.plcAt n.val).tx ≠ none → exec (.plcTxTake ⟨n, busy⟩) s = .next s) ∧
    (∀ u, s.plcOn n.val = true → s.txRole = true → (s.plcAt n.val).tx = none →
      s.hwTake ((s.reg (o + 0x2C)).extractLsb' 0 16).toNat = (none, u) → exec (.plcTxTake ⟨n, busy⟩) s = .next u)) ∧
  (∀ (n : Fin 2) (busy : Bool) (x : Item) (pay : List Byte) (s u : State),
    let o := 0x100000 + n.val * 0x10000
    let dst : BitVec 16 := x.extractLsb' 400 16
    let seq := Tab.get 0#8 (s.plcAt n.val).txseq dst.toNat
    let fc : Byte := x.extractLsb' 416 8
    let head := [fc &&& 0x3F#8, seq] ++ bytesOf 2 ((u.reg o).extractLsb' 0 16) ++ bytesOf 2 dst ++ [0#8, 0#8] ++ pay
    let j : TxJob := { reqid := x.extractLsb' 192 64, psdu := head ++ bytesOf 4 (crcE head), dst, seq, ackreq := fc.getLsbD 0,
                       be := ((u.reg (o + 4)).extractLsb' 24 4).toNat, robust := x.getLsbD 424, cfp := x.getLsbD 425 }
    let fits : Prop := j.psdu.length ≤ 1024 ∧ u.jobSyms n.val j ≤ 511
    let q := ((u.reg (o + 0x30)).extractLsb' 0 16).toNat
    s.plcOn n.val = true → s.txRole = true → (s.plcAt n.val).tx = none →
    s.hwTake ((s.reg (o + 0x2C)).extractLsb' 0 16).toNat = (some x, u) →
    (u.unitRead (x.extractLsb' 320 64).toNat (x.extractLsb' 384 16).toNat = (.ok, pay) →
      (fits → u.mayStart n.val j = true → busy = false ∨ j.cfp = true → Gives (.plcTxTake ⟨n, busy⟩) s (fun t =>
        Tab.get 0#8 (t.plcAt n.val).txseq dst.toNat = seq + 1#8 ∧
        (t.plcAt n.val).tx = some { j with sending := true, at_ := u.tb.elapsed, ended := none, syms := u.jobSyms n.val j } ∧
        (t.plcAt n.val).airEnd = u.tb.elapsed + u.plcAir n.val (u.jobSyms n.val j) * 1250 ∧
        ∃ h : BitVec 48, h.extractLsb' 46 2 = 0#2 ∧ t.out = u.out ++ [.plcFrame n.val (u.txPhases n.val) h j.psdu])) ∧
      (fits → u.mayStart n.val j = true → busy = true → j.cfp = false → Gives (.plcTxTake ⟨n, busy⟩) s (fun t =>
        t.out = u.out ∧ ∃ d, d < 2 ^ j.be ∧ (t.plcAt n.val).tx = some { j with
          hold := u.tb.elapsed + d * 90000, be := min ((u.reg (o + 4)).extractLsb' 20 4).toNat (j.be + 1) })) ∧
      (fits → u.mayStart n.val j = false → Gives (.plcTxTake ⟨n, busy⟩) s (fun t => t.out = u.out ∧ (t.plcAt n.val).tx = some j)) ∧
      (¬fits → u.qmAccess q = (true, u) → u.canPut q = true → Gives (.plcTxTake ⟨n, busy⟩) s (fun t =>
        t.out = u.out ∧ (t.plcAt n.val).tx = none ∧ (t.plcAt n.val).txseq = (u.plcAt n.val).txseq ∧
        (t.desc q).tail = ((u.desc q).tail + 1) % (u.desc q).modulus))) ∧
    ((u.unitRead (x.extractLsb' 320 64).toNat (x.extractLsb' 384 16).toNat).1 ≠ .ok → u.qmAccess q = (true, u) → u.canPut q = true →
      Gives (.plcTxTake ⟨n, busy⟩) s (fun t => t.out = u.out ∧ (t.plcAt n.val).tx = none ∧
        (t.desc q).tail = ((u.desc q).tail + 1) % (u.desc q).modulus))) ∧
  (∀ (n : Fin 2) (j : TxJob) (s : State),
    let o := 0x100000 + n.val * 0x10000
    let p := s.plcAt n.val
    let q := ((s.reg (o + 0x30)).extractLsb' 0 16).toNat
    let completes (c : Instr) : Prop := s.qmAccess q = (true, s) → s.canPut q = true → Gives c s (fun t =>
      (t.plcAt n.val).tx = none ∧ (t.desc q).tail = ((s.desc q).tail + 1) % (s.desc q).modulus ∧ t.out = s.out)
    let starts (c : Instr) (k : TxJob) : Prop := Gives c s (fun t =>
      (t.plcAt n.val).tx = some { k with sending := true, at_ := s.tb.elapsed, ended := none, syms := s.jobSyms n.val k } ∧
      (t.plcAt n.val).airEnd = s.tb.elapsed + s.plcAir n.val (s.jobSyms n.val k) * 1250 ∧
      ∃ h : BitVec 48, h.extractLsb' 46 2 = 0#2 ∧ t.out = s.out ++ [.plcFrame n.val (s.txPhases n.val) h k.psdu])
    let defers (c : Instr) (k : TxJob) : Prop := Gives c s (fun t => t.out = s.out ∧ ∃ d, d < 2 ^ k.be ∧ (t.plcAt n.val).tx = some { k with
      hold := s.tb.elapsed + d * 90000, be := min ((s.reg (o + 4)).extractLsb' 20 4).toNat (k.be + 1) })
    let waits (c : Instr) (k : TxJob) : Prop := Gives c s (fun t => t = s.setPlc n.val { p with tx := some k })
    p.tx = some j → j.status = none →
    (s.plcOn n.val = true → s.txRole = true → j.sending = false → j.ended = none →
      (s.jobFits n.val j = false → completes (.plcBackoffExpiry n false) ∧ completes (.plcBackoffExpiry n true)) ∧
      (s.jobFits n.val j = true → s.mayStart n.val j = false → waits (.plcBackoffExpiry n false) j ∧ waits (.plcBackoffExpiry n true) j) ∧
      (s.jobFits n.val j = true → s.mayStart n.val j = true → starts (.plcBackoffExpiry n false) j ∧
        (j.cfp = false → defers (.plcBackoffExpiry n true) j) ∧ (j.cfp = true → starts (.plcBackoffExpiry n true) j))) ∧
    (s.fieldRuns = true → j.sending = true → j.at_ + s.plcAir n.val j.syms * 1250 ≤ s.tb.elapsed →
      (j.ackreq = true → Gives (.plcTxEnd n) s (fun t =>
        t = s.setPlc n.val { p with tx := some { j with sending := false, ended := some s.tb.elapsed } })) ∧
      (j.ackreq = false → completes (.plcTxEnd n))) ∧
    (s.tb.elapsed < j.at_ + s.plcAir n.val j.syms * 1250 → exec (.plcTxEnd n) s = .next s) ∧
    (∀ e, s.fieldRuns = true → j.ended = some e →
      let again : TxJob := { j with tries := j.tries + 1, ended := none, be := ((s.reg (o + 4)).extractLsb' 24 4).toNat }
      (s.tb.elapsed < e + (if s.planF n.val then 10 else 18) * 125000 → ∀ b, exec (.plcAckTimeout ⟨n, b⟩) s = .next s) ∧
      (e + (if s.planF n.val then 10 else 18) * 125000 ≤ s.tb.elapsed →
        (j.tries < ((s.reg (o + 4)).extractLsb' 28 4).toNat → s.txRole = true → s.jobFits n.val again = true →
          (s.mayStart n.val again = true → starts (.plcAckTimeout ⟨n, false⟩) again ∧
            (again.cfp = false → defers (.plcAckTimeout ⟨n, true⟩) again)) ∧
          (s.mayStart n.val again = false → ∀ b, waits (.plcAckTimeout ⟨n, b⟩) again)) ∧
        (((s.reg (o + 4)).extractLsb' 28 4).toNat ≤ j.tries → ∀ b, completes (.plcAckTimeout ⟨n, b⟩)))) ∧
    (∀ f : PlcRx, s.plcOn n.val = true → crc8 0x07#8 0#8 ((List.range 5).map (fun k => f.fch.extractLsb' (40 - 8 * k) 8)) = f.fch.extractLsb' 0 8 →
      f.fch.extractLsb' 46 2 = 2#2 → j.ended ≠ none →
      (j.seq = f.fch.extractLsb' 32 8 → completes (.plcFrameReceive n f)) ∧
      (j.seq ≠ f.fch.extractLsb' 32 8 → exec (.plcFrameReceive n f) s = .next s))) ∧
  (∀ (n : Fin 2) (s : State),
    (∀ a ∈ s.acksOwed n.val, a ∈ (s.plcAt n.val).acks ∧ s.tb.elapsed ≤ a.2.2 + 131250) ∧
    (∀ (dst : BitVec 16) (seq : Byte) (e : Nat) (rest : List (BitVec 16 × Byte × Nat)),
      s.acksOwed n.val = (dst, seq, e) :: rest →
      let may := s.plcOn n.val && s.txRole && decide (e + 118750 ≤ s.tb.elapsed) && decide ((s.plcAt n.val).airEnd ≤ s.tb.elapsed)
        && s.slotFits n.val (s.plcAir n.val 0)
      (may = true → Gives (.plcAckSend n) s (fun t => (t.plcAt n.val).acks = rest ∧
        (t.plcAt n.val).airEnd = s.tb.elapsed + s.plcAir n.val 0 * 1250 ∧
        ∃ h : BitVec 48, h.extractLsb' 46 2 = 2#2 ∧ h.extractLsb' 32 8 = seq ∧
          t.out = s.out ++ [.plcAck n.val (s.txPhases n.val) h dst])) ∧
      (may = false → exec (.plcAckSend n) s = .next (s.setPlc n.val { s.plcAt n.val with acks := s.acksOwed n.val }))) ∧
    (s.acksOwed n.val = [] → exec (.plcAckSend n) s = .next (s.setPlc n.val { s.plcAt n.val with acks := [] })))

/-- R219 to R222, R224 to R226, R230 to R234: a data frame of the network from an unknown sender is delivered through a free
buffer, its acknowledgement owed, or leaves NOBUF or a full FIFO; one of another network is ignored, one whose FCS fails counted,
one under an unknown map leaves BADTM; a tone map received is kept for its sender, a map due is issued in the contention period
under the next number and journalled on the Headstock, and a busy channel defers it; of the crossings only the rising ones of REFPH
count, a regular run of 16 cycles at 47 to 63 Hz sets ZCV and two missed crossings clear it; a phase below 80 % beside one above
110 % for 1 s is a tamper record, and 10 s within the limits clear it; a neighbour entry is written with a short address no other
entry has. -/
def Obligations.PowerLineReceiving : Prop :=
  (∀ (n : Fin 2) (f : PlcRx) (s : State),
    let p := s.plcAt n.val
    let m := f.psdu.length
    let b (i k : Nat) : Nat := takeBytes f.psdu i k
    let src : BitVec 16 := BitVec.ofNat 16 (b 6 2)
    let pan := ((s.reg (0x100000 + n.val * 0x10000)).extractLsb' 0 16).toNat
    let whole : Prop := 12 ≤ m ∧ m ≤ 1024 ∧ b (m - 4) 4 = (crcE (f.psdu.take (m - 4))).toNat
    let noBuf : Prop := ∀ k, k < Config.poolSize ((0x10 + n.val) * 16) → k ∈ p.bufs
    s.plcOn n.val = true → crc8 0x07#8 0#8 ((List.range 5).map (fun k => f.fch.extractLsb' (40 - 8 * k) 8)) = f.fch.extractLsb' 0 8 →
    (f.fch.extractLsb' 46 2 = 0#2 → whole → b 2 2 = pan → f.fch.getLsbD 45 = true → p.nbOf src = none →
      (noBuf → Gives (.plcFrameReceive n f) s (fun t => (t.plcAt n.val).nobuf = true ∧ t.qm = s.qm)) ∧
      (¬noBuf → 32 ≤ (s.fifo n.val).items.length → Gives (.plcFrameReceive n f) s (fun t =>
        (t.fifo n.val).ovf = true ∧ (t.fifo n.val).items = (s.fifo n.val).items ∧ t.plcAt n.val = p)) ∧
      (¬noBuf → (s.fifo n.val).items.length < 32 → Gives (.plcFrameReceive n f) s (fun t =>
        (∃ k, k < Config.poolSize ((0x10 + n.val) * 16) ∧ k ∉ p.bufs ∧ (t.plcAt n.val).bufs = p.bufs ++ [k]) ∧
        (∃ x, (t.fifo n.val).items = (s.fifo n.val).items ++ [(b 0 1 / 8 % 8, x)] ∧ itemSrc x = s.sourceId n.val ∧
          x.extractLsb' 384 16 = BitVec.ofNat 16 m ∧ x.extractLsb' 400 16 = src ∧ x.extractLsb' 416 8 = BitVec.ofNat 8 (b 1 1)) ∧
        (t.plcAt n.val).acks = p.acks ++ (if (BitVec.ofNat 8 (b 0 1)).getLsbD 0 && decide (b 4 2 = 0) then
          [(src, BitVec.ofNat 8 (b 1 1), s.tb.elapsed + s.plcAir n.val (f.fch.extractLsb' 32 9).toNat * 1250)] else [])))) ∧
    (f.fch.extractLsb' 46 2 = 0#2 → whole → b 2 2 ≠ pan → exec (.plcFrameReceive n f) s = .next s) ∧
    (f.fch.extractLsb' 46 2 = 0#2 → whole → b 2 2 = pan → f.fch.getLsbD 45 = false → p.nbOf src = none →
      exec (.plcFrameReceive n f) s = .next (s.setPlc n.val { p with badtm := true })) ∧
    (f.fch.extractLsb' 46 2 = 0#2 → ¬whole → exec (.plcFrameReceive n f) s = .next (s.setPlc n.val { p with badfcs := p.badfcs + 1 })) ∧
    (∀ k, f.fch.extractLsb' 46 2 = 3#2 → whole → b 2 2 = pan →
      f.fch.getLsbD 45 = true → p.nbOf src = some k → (p.nb k).seq ≠ BitVec.ofNat 8 (b 1 1) →
      let pay := (f.psdu.drop 8).take (m - 12)
      let map := unpackMap (s.planTones n.val) (pay.drop 1)
      (decide (b 8 1 / 16 % 2 = 1) = s.planF n.val → map.all (fun c => decide (c.toNat ≤ 4)) = true → 12 < m →
        (∀ j e, (j, e) ∈ p.nbs → e.valid = true → e.saddr = src → j = k) →
        Gives (.plcFrameReceive n f) s (fun t => ((t.plcAt n.val).nb k).rxTm = b 8 1 % 16 ∧ ((t.plcAt n.val).nb k).rxMap = map)) ∧
      (map.any (fun c => decide (4 < c.toNat)) = true → Gives (.plcFrameReceive n f) s (fun t =>
        (t.plcAt n.val).badtm = true ∧ ((t.plcAt n.val).nb k).rxMap = (p.nb k).rxMap)))) ∧
  (∀ (n : Fin 2) (e : Fin 2048) (s : State),
    let o := 0x100000 + n.val * 0x10000
    let p := s.plcAt n.val
    let b := p.nb e.val
    let m := s.buildMap n.val b
    let tm := b.curTm % 15 + 1
    let pay := BitVec.ofNat 8 (tm + (if s.planF n.val then 16 else 0)) :: packMap (if s.planF n.val then 81 else 14) m
    let head := [0#8, Tab.get 0#8 p.txseq b.saddr.toNat] ++ bytesOf 2 ((s.reg o).extractLsb' 0 16) ++ bytesOf 2 b.saddr ++ [0#8, 0#8] ++ pay
    let few : Prop := 4 * (m.filter (fun c => decide (c ≠ 0#3))).length < s.planTones n.val
    s.plcOn n.val = true → s.txRole = true → b.valid = true → b.toneHist ≠ [] →
    (s.mapDue n.val b = false → ∀ busy, exec (.toneMapRefresh ⟨n, busy⟩ e) s = .next s) ∧
    (s.mapDue n.val b = true → p.mapHold ≤ s.tb.elapsed → s.capOpen n.val (s.mapSyms n.val) = true →
      (few → ∀ busy, exec (.toneMapRefresh ⟨n, busy⟩ e) s = .next s) ∧
      (¬few → Gives (.toneMapRefresh ⟨n, true⟩ e) s (fun t => t.out = s.out ∧ (t.plcAt n.val).nbs = p.nbs ∧
        ∃ d, d < 2 ^ max ((s.reg (o + 4)).extractLsb' 24 4).toNat p.mapBe ∧ (t.plcAt n.val).mapHold = s.tb.elapsed + d * 90000)) ∧
      (¬few → Gives (.toneMapRefresh ⟨n, false⟩ e) s (fun t =>
        let c := (t.plcAt n.val).nb e.val
        c.curTm = tm ∧ c.curMap = m ∧ c.prevTm = b.curTm ∧ c.prevMap = b.curMap ∧ c.ask = false ∧ c.tmAt = some s.tb.elapsed ∧
        (∃ h : BitVec 48, h.extractLsb' 46 2 = 3#2 ∧ h.getLsbD 45 = true ∧
          let sent := Out.plcToneMap n.val (s.txPhases n.val) h (head ++ bytesOf 4 (crcE head))
          (s.twn.cp ≠ 0#2 ∨ s.solo = true → t.out = s.out ++ [sent] ∧ t.twn = s.twn) ∧
          (s.twn.cp = 0#2 → s.solo = false → ∃ e, t.twn.journal.getLast? = some e ∧ e.extractLsb' 0 64 = s.twn.jpos + 1#64 ∧
            e.extractLsb' 96 8 = 2#8 ∧ t.twn.jpos = s.twn.jpos + 1#64 ∧
            t.out = s.out ++ [sent] ++ (if s.twinLink then [.spnJournal e] else []))))))) ∧
  (∀ (n : Fin 2) (ph : Fin 3) (up : Bool) (s : State),
    s.plcOn n.val = false ∨ up = false ∨ ph.val ≠ ((s.reg (0x100000 + n.val * 0x10000)).extractLsb' 26 2).toNat →
    exec (.zeroCrossing n ph up) s = .next s) ∧
  (∀ (n : Fin 2) (s : State), s.plcOn n.val = true →
    let p := s.plcAt n.val
    let zcs := (s.tb.elapsed * 2 / 25 :: p.zcs).take 17
    let c := List.zipWith (· - ·) zcs (zcs.drop 1)
    (∀ ph : Fin 3, ph.val = ((s.reg (0x100000 + n.val * 0x10000)).extractLsb' 26 2).toNat →
      Gives (.zeroCrossing n ph true) s (fun t => (t.plcAt n.val).zcs = zcs ∧
      (t.plcAt n.val).period = (if c = [] then p.period else BitVec.ofNat 16 (min 0xFFFF (c.sum / c.length / 10))) ∧
      ((t.plcAt n.val).zcv = true ↔ c.length = 16 ∧ 160000000 ≤ 63 * c.sum ∧ 47 * c.sum ≤ 160000000 ∧
        ∀ d ∈ c, Config.zcRegular d (c.sum / 16) = true))) ∧
    (∀ a r, p.zcv = true → p.zcs = a :: r →
      (a + 2 * (p.period.toNat * 10) ≤ s.tb.elapsed * 2 / 25 → Gives (.zeroCrossingLoss n) s (fun t =>
        t.plcAt n.val = { p with zcv := false, zcs := [], zcLost := true })) ∧
      (s.tb.elapsed * 2 / 25 < a + 2 * (p.period.toNat * 10) → exec (.zeroCrossingLoss n) s = .next s))) ∧
  (∀ (n : Fin 2) (a b c : BitVec 16) (s : State),
    let p := s.plcAt n.val
    let vs := [a.toNat, b.toNat, c.toNat]
    let v0 := (s.reg (0x100014 + n.val * 0x10000)).toNat
    let isLow (v : Nat) : Prop := 100 * v < 80 * v0
    let isHigh (v : Nat) : Prop := 110 * v0 < 100 * v
    let held (f : Nat → Prop) (l : List (Option Nat)) : Prop := ∃ (i v t0 : Nat), vs[i]? = some v ∧ f v ∧ l[i]? = some (some t0) ∧
      t0 + 125000000 ≤ s.tb.elapsed
    let apart : Prop := held isLow p.lows ∧ held isHigh p.highs
    let fine : Prop := (∀ v ∈ vs, ¬isLow v ∧ ¬isHigh v) ∧ ∃ t0, p.within = some t0 ∧ t0 + 1250000000 ≤ s.tb.elapsed
    s.watchesNeutral n.val = true →
    (p.neutral = false → apart → Gives (.neutralMissing n a b c) s (fun t => (t.plcAt n.val).neutral = true ∧
      t.ldg = { s.ldg with tdev2 := if s.ldg.tdev2 = 0xFFFFFFFF#32 then s.ldg.tdev2 else s.ldg.tdev2 + 1#32 })) ∧
    (p.neutral = true ∨ ¬apart → Gives (.neutralMissing n a b c) s (fun t => (t.plcAt n.val).neutral = p.neutral ∧ t.ldg = s.ldg ∧
      ∀ (i v : Nat), vs[i]? = some v → (isLow v → (t.plcAt n.val).lows[i]? = some (some (((p.lows[i]?).getD none).getD s.tb.elapsed))) ∧
        (¬isLow v → (t.plcAt n.val).lows[i]? = some none))) ∧
    (p.neutral = true → fine → Gives (.neutralClear n a b c) s (fun t => (t.plcAt n.val).neutral = false ∧ t.ldg = s.ldg)) ∧
    (¬fine → Gives (.neutralClear n a b c) s (fun t => (t.plcAt n.val).neutral = p.neutral ∧ t.ldg = s.ldg))) ∧
  (∀ (n : Fin 2) (i : Init) (v : W32) (s : State), Reaches i (0x100044 + 0x10000 * n.val) s →
    let p := s.plcAt n.val
    let k := ((s.reg (0x100040 + 0x10000 * n.val)).extractLsb' 0 11).toNat
    let a : BitVec 16 := v.setWidth 16
    let clash := p.nbs.any (fun e => decide (e.1 ≠ k) && e.2.valid && decide (e.2.saddr = a))
    let good : Prop := v.getLsbD 31 = true → 1 ≤ a.toNat ∧ a.toNat ≤ 0x7FFF
    (clash = false → good → Responds (.plcNeighbourWrite n i v) i .ok s (fun t =>
      (t.plcAt n.val).nb k = { valid := v.getLsbD 31, saddr := a, cls := 0 })) ∧
    (clash = true → good → Responds (.plcNeighbourWrite n i v) i .denied s (fun t => t.plc = s.plc)) ∧
    (¬good → Responds (.plcNeighbourWrite n i v) i .outOfRange s (fun t => t.plc = s.plc)))

/-- R227, R228, R237, R238: a superframe begins at its boundary, or under the mains alignment at the first crossing after it; the
armed beacon of the superframe starts as it begins, waits while the port still sends, and past 20 us after the slot is late; within
100 ms of a boundary the port arms the next beacon with its SFN; a shipped beacon and a begun one are kept; the Tailstock covers a
superframe whose beacon it has not heard, with the shipped one or for COVERMAX superframes the last. -/
def Obligations.Beacons : Prop :=
  ∀ (n : Fin 2) (s : State),
    let p := s.plcAt n.val
    let num : W32 := BitVec.ofNat 32 s.sfNow.1
    let aligned := p.zcv && (s.reg (0x100000 + n.val * 0x10000)).getLsbD 25
    let begins : Prop := (∀ m a, p.sf = some (m, a) → m ≠ num) ∧ (aligned = false ∨ p.zcs.head? = some (s.tb.elapsed * 2 / 25))
    let sends (k : W32) (psdu : List Byte) (cover : Bool) (t : State) : Prop :=
      (t.plcAt n.val).sent = some k ∧ (t.plcAt n.val).image = psdu ∧ (t.plcAt n.val).covering = cover ∧
      (t.plcAt n.val).airEnd = s.tb.elapsed + s.plcAir n.val (s.plcSyms n.val psdu.length true []) * 1250 ∧
      ∃ h : BitVec 48, h.extractLsb' 46 2 = 1#2 ∧
        t.out = s.out ++ [.plcBeacon n.val (s.txPhases n.val) h k psdu cover] ++ (if s.spn.link && !s.solo then [.spnBegun n k] else [])
    s.plcOn n.val = true →
    (begins →
      Gives (.superframeStart n) s (fun t => (t.plcAt n.val).sf = some (num, s.tb.elapsed) ∧ (t.plcAt n.val).bcnAt = none ∧
        (∀ psdu, p.armed = some (num, psdu) → (t.plcAt n.val).bcn = psdu)) ∧
      (∀ psdu, p.armed = some (num, psdu) → s.txRole = true → p.begun ≠ some num → p.airEnd ≤ s.tb.elapsed →
        Gives (.superframeStart n) s (fun t => sends num psdu false t ∧ (t.plcAt n.val).armed = none)) ∧
      (∀ psdu, p.armed = some (num, psdu) → s.txRole = false ∨ p.begun = some num →
        Gives (.superframeStart n) s (fun t => t.out = s.out ∧ (t.plcAt n.val).armed = none))) ∧
    (¬begins → p.armed = none → exec (.superframeStart n) s = .next s) ∧
    (∀ start psdu, p.sf = some (num, start) → p.armed = some (num, psdu) → s.txRole = true → p.begun ≠ some num →
      (start + 2500 < s.tb.elapsed → Gives (.superframeStart n) s (fun t => t.out = s.out ∧
        t.plcAt n.val = { p with armed := none, latebcn := true })) ∧
      (s.tb.elapsed ≤ start + 2500 → p.airEnd ≤ s.tb.elapsed → Gives (.superframeStart n) s (fun t =>
        sends num psdu false t ∧ (t.plcAt n.val).armed = none)) ∧
      (s.tb.elapsed ≤ start + 2500 → s.tb.elapsed < p.airEnd → exec (.superframeStart n) s = .next s)) ∧
    (let next : W32 := BitVec.ofNat 32 (s.sfNow.1 + 1);
      (s.sfNow.2 < 118 * 2 ^ 32 ∨ s.txRole = false → exec (.beaconArm n) s = .next s) ∧
      (s.txRole = true → 118 * 2 ^ 32 ≤ s.sfNow.2 → (∀ m b, p.armed = some (m, b) → m ≠ next) → p.newAddr = false → p.image ≠ [] →
        Gives (.beaconArm n) s (fun t => ∃ psdu, (t.plcAt n.val).armed = some (next, psdu) ∧ (t.plcAt n.val).image = psdu ∧
          takeBytes psdu 0 4 = next.toNat ∧
          ((cfpEntries p.image).filter (cfpBad p.image) = [] → (t.plcAt n.val).badcfp = p.badcfp) ∧
          ((cfpEntries p.image).filter (cfpBad p.image) ≠ [] → (t.plcAt n.val).badcfp = true) ∧
          t.out = s.out ++ (if s.spn.link && !s.solo then [.spnBeacon n.val next psdu] else [])))) ∧
    (∀ k start m psdu, s.txRole = false → s.solo = false → p.sf = some (k, start) → p.shipped = some (m, psdu) →
      (start : Int) * 10 + p.zcadj * 125 + 50000 ≤ s.tb.elapsed * 10 → p.sent ≠ some k → p.begun ≠ some k →
      (m = k → Gives (.beaconCover n false) s (sends k psdu true)) ∧
      (m ≠ k → p.covered < ((s.reg (0x100000 + n.val * 0x10000)).extractLsb' 16 8).toNat →
        Gives (.beaconCover n false) s (fun t => sends k (reSfn psdu k) true t ∧
          (t.plcAt n.val).covered = p.covered + 1)) ∧
      (m ≠ k → ((s.reg (0x100000 + n.val * 0x10000)).extractLsb' 16 8).toNat ≤ p.covered →
        Gives (.beaconCover n false) s (fun t => t.out = s.out ∧ t.plcAt n.val = { p with coverEnd := true })) ∧
      Gives (.beaconCover n true) s (fun t => t = s.setPlc n.val { p with covered := 0, coverEnd := false })) ∧
    (s.spn.link = true → ∀ (sfn : W32) (psdu : List Byte),
      Gives (.beaconMessageReceive n sfn psdu) s (fun t => t = s.setPlc n.val { p with shipped := some (sfn, psdu), covered := 0, coverEnd := false }) ∧
      Gives (.begunReceive n sfn) s (fun t => t = s.setPlc n.val { p with
        begun := some sfn, covering := false, covered := 0, coverEnd := false }))

/-- R250 to R253: the transmit-role port takes the head item, completes one that breaks a rule with its status, and assesses the
channel for the others; while it sends nothing, a quiet channel starts the frame with its SEQ and FCS, a busy one backs off less
than 2^BE ms and the eighth completes with RETRY; a train's next copy follows 250 us (to 10 us) after the last; a frame that ends
completes, or waits for its acknowledgement, is tried again up to the limit while the role lasts, and then completes. -/
def Obligations.RadioSending : Prop :=
  (∀ (n : Fin 2) (x : Item) (s u : State),
    let o := 0x120000 + n.val * 0x10000
    let dst : BitVec 16 := x.extractLsb' 400 16
    let m := (x.extractLsb' 384 16).toNat + 4
    let wake := (x.extractLsb' 424 2).toNat
    let seq := Tab.get 0#8 (s.rfAt n.val).txseq dst.toNat
    let pream := ((u.reg o).extractLsb' 8 8).toNat
    let read := u.unitRead (x.extractLsb' 320 64).toNat (x.extractLsb' 384 16).toNat
    let q := ((u.reg (o + 0x30)).extractLsb' 0 16).toNat
    let denied : Prop := wake = 3 ∨ x.getLsbD 416 = true
    let outside : Prop := m < 11 ∨ 1024 < m ∨ u.tooLong n.val wake pream m (u.reg (o + 8)) = true
    s.rfOn n.val = true → s.txRole = true → (s.rfAt n.val).tx = none →
    s.hwTake ((s.reg (o + 0x2C)).extractLsb' 0 16).toNat = (some x, u) →
    (∀ pay, ¬denied → ¬outside → read = (.ok, pay) → Gives (.rfTxTake n) s (fun t =>
      Tab.get 0#8 (t.rfAt n.val).txseq dst.toNat = seq + 1#8 ∧ (t.rfAt n.val).cca = true ∧
      (t.rfAt n.val).txMac = u.reg (o + 4) ∧ (t.rfAt n.val).txLpl = u.reg (o + 8) ∧ t.out = u.out ∧
      (t.rfAt n.val).tx = some { reqid := x.extractLsb' 192 64, psdu := pay, dst, seq, ackreq := x.getLsbD 418, wake, pream,
                                 be := ((u.reg (o + 4)).extractLsb' 24 4).toNat
                                 copies := if wake = 2 then u.trainCopies n.val pream (pay.length + 4) (u.reg (o + 8)) - 1 else 0 })) ∧
    (denied ∨ outside ∨ read.1 ≠ .ok → u.qmAccess q = (true, u) → u.canPut q = true → Gives (.rfTxTake n) s (fun t =>
      (t.rfAt n.val).tx = none ∧ t.out = u.out ∧ (t.desc q).tail = ((u.desc q).tail + 1) % (u.desc q).modulus))) ∧
  (∀ (n : Fin 2) (u s : State), s.rfOn n.val = true → s.txRole = true → (s.rfAt n.val).tx = none →
    s.hwTake ((s.reg (0x12002C + n.val * 0x10000)).extractLsb' 0 16).toNat = (none, u) → exec (.rfTxTake n) s = .next u) ∧
  (∀ (n : Fin 2) (s : State), s.rfOn n.val = false ∨ s.txRole = false ∨ (s.rfAt n.val).tx ≠ none → exec (.rfTxTake n) s = .next s) ∧
  (∀ (n : Fin 2) (j : TxJob) (s : State),
    let o := 0x120000 + n.val * 0x10000
    let p := s.rfAt n.val
    let q := ((s.reg (o + 0x30)).extractLsb' 0 16).toNat
    let completes (c : Instr) : Prop := s.qmAccess q = (true, s) → s.canPut q = true → Gives c s (fun t =>
      (t.rfAt n.val).tx = none ∧ t.out = s.out ∧ (t.desc q).tail = ((s.desc q).tail + 1) % (s.desc q).modulus)
    let sends (k : TxJob) (t : State) : Prop :=
      (t.rfAt n.val).tx = some { k with sending := true, at_ := s.tb.elapsed, ended := none } ∧ (t.rfAt n.val).cca = false ∧
      (t.rfAt n.val).airEnd = s.tb.elapsed + s.rfAir n.val k ∧ (rfPsdu k)[1]? = some k.seq ∧
      (rfPsdu k).drop ((rfPsdu k).length - 4) = bytesOf 4 (crcE ((rfPsdu k).take ((rfPsdu k).length - 4))) ∧
      t.out = s.out ++ [.rfFrame n.val (rfPsdu k) (s.rfPreamble n.val k)]
    p.tx = some j → j.status = none → 7 ≤ j.psdu.length →
    (∀ x : Int, s.rfOn n.val = true → p.cca = true →
      (s.tb.elapsed < p.airEnd → exec (.rfCcaDone n x) s = .next s) ∧
      (p.airEnd ≤ s.tb.elapsed → (s.txRole = false → completes (.rfCcaDone n x)) ∧
        (s.txRole = true → x ≤ -(((s.reg o).extractLsb' 0 7).toNat : Int) → Gives (.rfCcaDone n x) s (sends j)) ∧
        (s.txRole = true → -(((s.reg o).extractLsb' 0 7).toNat : Int) < x → j.busyN < 7 → Gives (.rfCcaDone n x) s (fun t =>
          (t.rfAt n.val).cca = false ∧ t.out = s.out ∧
          (∃ r, r < 2 ^ j.be ∧ (t.rfAt n.val).backoff = some (s.tb.elapsed + r * 125000)) ∧
          (t.rfAt n.val).tx = some { j with busyN := j.busyN + 1, be := min (p.txMac.extractLsb' 20 4).toNat (j.be + 1) })) ∧
        (s.txRole = true → -(((s.reg o).extractLsb' 0 7).toNat : Int) < x → 7 ≤ j.busyN → completes (.rfCcaDone n x)))) ∧
    (∀ e, s.rfOn n.val = true → p.backoff = some e →
      (e ≤ s.tb.elapsed → exec (.rfBackoffExpiry n) s = .next (s.setRf n.val { p with cca := true, backoff := none })) ∧
      (s.tb.elapsed < e → exec (.rfBackoffExpiry n) s = .next s)) ∧
    (s.fieldRuns = true → j.sending = true → 0 < j.copies →
      (j.at_ + (s.rfAir n.val j + 30000) ≤ s.tb.elapsed → Gives (.rfTrainCopy n) s (sends { j with copies := j.copies - 1 })) ∧
      (s.tb.elapsed < j.at_ + (s.rfAir n.val j + 30000) → exec (.rfTrainCopy n) s = .next s) ∧
      exec (.rfTxEnd n) s = .next s) ∧
    (s.fieldRuns = true → j.sending = true → j.copies = 0 → exec (.rfTrainCopy n) s = .next s ∧
      (j.at_ + s.rfAir n.val j ≤ s.tb.elapsed →
        (j.ackreq = true → exec (.rfTxEnd n) s =
          .next (s.setRf n.val { p with tx := some { j with sending := false, ended := some s.tb.elapsed } })) ∧
        (j.ackreq = false → completes (.rfTxEnd n)))) ∧
    (∀ e, s.fieldRuns = true → j.ended = some e →
      (s.tb.elapsed < e + (p.txMac.extractLsb' 16 4).toNat * 125000 → exec (.rfAckTimeout n) s = .next s) ∧
      (e + (p.txMac.extractLsb' 16 4).toNat * 125000 ≤ s.tb.elapsed →
        (j.tries < (p.txMac.extractLsb' 28 4).toNat → s.txRole = true → Gives (.rfAckTimeout n) s (fun t =>
          (t.rfAt n.val).cca = true ∧ t.out = s.out ∧ (t.rfAt n.val).tx = some { j with
            tries := j.tries + 1, be := (p.txMac.extractLsb' 24 4).toNat, busyN := 0, ended := none, sending := false
            copies := s.rfCopies n.val j })) ∧
        ((p.txMac.extractLsb' 28 4).toNat ≤ j.tries ∨ s.txRole = false → completes (.rfAckTimeout n)))))

/-- R242, R244, R245, R247 to R249: a frame the port could not hear (it sends, its FIFO held through the preamble, or its samples
stalled) is none; a bad PHR or an FEC frame sets BADPHR; a data frame of the network from a sender without an entry is delivered
through a free buffer, its acknowledgement owed, or leaves NOBUF or a full FIFO; one of another network is ignored; a duplicate
within the window is counted and not delivered; an acknowledgement completes its frame; an owed one is sent 1 ms after its frame, a
late one never; a finished front-end transfer keeps its data, and a stalled sample stream sets IQERR. -/
def Obligations.RadioReceiving : Prop :=
  (∀ (n : Fin 2) (f : RfRx) (s : State),
    let p := s.rfAt n.val
    let m := f.psdu.length
    let b (i k : Nat) : Nat := takeBytes f.psdu i k
    let src : BitVec 16 := BitVec.ofNat 16 (b 5 2)
    let net := ((s.reg (0x120000 + n.val * 0x10000)).extractLsb' 16 8).toNat
    let fc : Byte := BitVec.ofNat 8 (b 0 1)
    let noBuf : Prop := ∀ k, k < Config.poolSize ((0x12 + n.val) * 16) → k ∈ p.bufs
    let owes := fc.getLsbD 2 && decide (b 3 2 = 0) && decide (src ≠ 0xFFFE#16) && (!fc.getLsbD 4 || decide (b 7 2 = 0))
    let acks := p.acks ++ (if owes then [(src, BitVec.ofNat 8 (b 1 1), s.tb.elapsed)] else [])
    let pre := (s.rfSpan n.val f).1
    let sfd := (s.rfSpan n.val f).2.1
    ((p.airEnd > s.tb.elapsed - sfd ∨ s.fieldRuns = false ∨ (∃ e, p.stallAt = some e ∧ s.tb.elapsed - sfd ≤ e) ∨
      ((s.fifo (2 + n.val)).hold = true ∧ (s.fifo (2 + n.val)).heldAt ≤ s.tb.elapsed - pre)) → s.rfHeard n.val f = false) ∧
    (s.rfHeard n.val f = false → exec (.rfFrameReceive n f) s = .next s) ∧
    (s.rfHeard n.val f = true →
      (phrBad f.phr = true ∨ f.fec = true → exec (.rfFrameReceive n f) s = .next (s.setRf n.val { p with badphr := true })) ∧
      (phrBad f.phr = false → f.fec = false → (f.phr.extractLsb' 0 11).toNat = m → b (m - 4) 4 = (crcE (f.psdu.take (m - 4))).toNat →
        (b 2 1 ≠ net → exec (.rfFrameReceive n f) s = .next s) ∧
        (b 2 1 = net → (b 3 2 = 0 ∨ b 3 2 = 0xFFFF) →
          (∀ j, b 0 1 % 4 = 1 → p.tx = some j → j.ended ≠ none → j.seq = BitVec.ofNat 8 (b 1 1) → j.dst = src →
            let q := ((s.reg (0x120030 + n.val * 0x10000)).extractLsb' 0 16).toNat
            s.qmAccess q = (true, s) → s.canPut q = true → Gives (.rfFrameReceive n f) s (fun t => (t.rfAt n.val).tx = none ∧
              (t.desc q).tail = ((s.desc q).tail + 1) % (s.desc q).modulus)) ∧
          ((b 0 1 % 4 = 0 ∨ b 0 1 % 4 = 2) →
            (p.nbOf src = none →
              (noBuf → exec (.rfFrameReceive n f) s = .next (s.setRf n.val { p with nobuf := true })) ∧
              (¬noBuf → 32 ≤ (s.fifo (2 + n.val)).items.length → Gives (.rfFrameReceive n f) s (fun t =>
                (t.fifo (2 + n.val)).ovf = true ∧ (t.fifo (2 + n.val)).items = (s.fifo (2 + n.val)).items ∧ t.rfAt n.val = p)) ∧
              (¬noBuf → (s.fifo (2 + n.val)).items.length < 32 → Gives (.rfFrameReceive n f) s (fun t =>
                (t.rfAt n.val).acks = acks ∧
                (∃ k, k < Config.poolSize ((0x12 + n.val) * 16) ∧ k ∉ p.bufs ∧ (t.rfAt n.val).bufs = p.bufs ++ [k]) ∧
                ∃ x, (t.fifo (2 + n.val)).items = (s.fifo (2 + n.val)).items ++ [(b 0 1 / 32, x)] ∧
                  itemSrc x = s.sourceId (2 + n.val) ∧ x.extractLsb' 384 16 = BitVec.ofNat 16 m ∧ x.extractLsb' 400 16 = src ∧
                  x.extractLsb' 416 8 = BitVec.ofNat 8 (b 1 1) ∧ x.extractLsb' 432 8 = f.power))) ∧
            (∀ k e, src ≠ 0xFFFE#16 → p.nbOf src = some k → (p.nb k).seq = BitVec.ofNat 8 (b 1 1) → (p.nb k).seqAt = some e →
              s.tb.elapsed < e + (p.txMac.extractLsb' 0 16).toNat * 125000000 →
              Gives (.rfFrameReceive n f) s (fun t =>
                t.rfAt n.val = { p with dupdrop := min 0xFFFF (p.dupdrop + 1), acks } ∧ t.qm = s.qm))))))) ∧
  (∀ (n : Fin 2) (s : State),
    let p := s.rfAt n.val
    let owed := p.acks.filter (fun a => decide (s.tb.elapsed ≤ a.2.2 + 131250))
    (owed = [] → exec (.rfAckSend n) s = .next (s.setRf n.val { p with acks := [] })) ∧
    (∀ (dst : BitVec 16) (seq : Byte) (e : Nat) (rest : List (BitVec 16 × Byte × Nat)), owed = (dst, seq, e) :: rest →
      let may := s.rfOn n.val && s.txRole && decide (e + 118750 ≤ s.tb.elapsed) && decide (p.airEnd ≤ s.tb.elapsed) && !p.tx.any (·.sending)
      let a : List Byte := [1#8, seq, (s.reg (0x120000 + n.val * 0x10000)).extractLsb' 16 8] ++ bytesOf 2 dst ++ [0#8, 0#8]
      (may = true → Gives (.rfAckSend n) s (fun t => (t.rfAt n.val).acks = rest ∧
        (t.rfAt n.val).airEnd = s.tb.elapsed + s.rfOctets n.val (((s.reg (0x120000 + n.val * 0x10000)).extractLsb' 8 8).toNat + 15) ∧
        t.out = s.out ++ [.rfAck n.val (a ++ bytesOf 4 (crcE a))])) ∧
      (may = false → exec (.rfAckSend n) s = .next (s.setRf n.val { p with acks := owed })))) ∧
  (∀ (n : Fin 2) (i : Init) (v : W32) (s : State), Reaches i (0x120010 + n.val * 0x10000) s →
    ((s.rfAt n.val).fespi = false → Responds (.rfFespi n i v) i .ok s (fun t =>
      (t.rfAt n.val).fespi = true ∧ t.out = s.out ++ [.rfSpi n.val v])) ∧
    ((s.rfAt n.val).fespi = true → Responds (.rfFespi n i v) i .retry s (fun t => t.rf = s.rf ∧ t.out = s.out))) ∧
  (∀ (n : Fin 2) (d : BitVec 16) (s : State),
    (s.fieldRuns = true → (s.rfAt n.val).fespi = true → Gives (.rfFespiDone n d) s (fun t =>
      (t.rfAt n.val).fespi = false ∧ (t.reg (0x120010 + n.val * 0x10000)).extractLsb' 0 16 = d)) ∧
    ((s.rfAt n.val).fespi = false → exec (.rfFespiDone n d) s = .next s) ∧
    (s.rfOn n.val = true → exec (.rfIqStall n) s =
      .next (s.setRf n.val { s.rfAt n.val with iqerr := true, stallAt := some s.tb.elapsed })) ∧
    (s.rfOn n.val = false → exec (.rfIqStall n) s = .next s))

/-- R259 to R264: Modbus characters fall into frames at the silence of 3.5 characters, or 1,750 us above 19,200 b/s; a frame that
has ended and whose gaps, parity and CRC hold is delivered, one that fails is counted in BADFRAME, and nothing has ended while the
last one goes on; a port with TXROLE, a line idle for the end-of-frame time and no HOLD takes its item and sends it with the
framing's CRC; after the last stop bit the receiver stays blind for the TURN its start found, and the completion is put. -/
def Obligations.WiredPorts : Prop :=
  (∀ (n : Fin 6) (a b : WirChar) (f : WirRx) (s : State),
    let bt := ((s.reg (0x140000 + n.val * 0x40)).extractLsb' 0 24).toNat
    let cb := s.charBits n.val
    let ends : Prop := (bt * 19200 < 2000000000 ∧ 3500000 ≤ b.gap * bt) ∨ (2000000000 ≤ bt * 19200 ∧ 7 * cb ≤ 2 * b.gap)
    (s.reg (0x140000 + n.val * 0x40)).extractLsb' 29 2 = 1#2 → f.chars = [a, b] → (s.wirAt n.val).blind ≤ s.tb.elapsed - f.ago →
    (ends → s.wirFrames n.val f = [[(0, a)], [(cb + b.gap, b)]]) ∧ (¬ends → s.wirFrames n.val f = [[(0, a), (cb + b.gap, b)]])) ∧
  (∀ (n : Fin 6) (f : WirRx) (s : State),
    let p := s.wirAt n.val
    let fr := ((s.reg (0x140000 + n.val * 0x40)).extractLsb' 29 2).toNat
    let noBuf : Prop := ∀ k, k < Config.poolSize (0x14 * 16 + n.val) → k ∈ p.bufs
    (s.wirOn n.val = false ∨ (∃ j, p.tx = some j ∧ j.sending = true) → exec (.wirFrameEnd n f) s = .next s) ∧
    (s.wirOn n.val = true → (∀ j, p.tx = some j → j.sending = false) →
      (s.wirFrames n.val f = [] → f.space = false ∨ fr < 2 → exec (.wirFrameEnd n f) s = .next s) ∧
      (∀ l, (s.wirFrames n.val f).getLast? = some l → s.wirEnded n.val f l = false → exec (.wirFrameEnd n f) s = .next s) ∧
      (∀ l, s.wirFrames n.val f = [l] → s.wirEnded n.val f l = true →
        let cs := l.map (·.2)
        let sound := if fr = 0 then s.nativeOk n.val cs else if fr = 1 then s.modbusOk n.val cs else true
        let coll := decide (2 ≤ fr) && (f.space || cs.any (fun c => c.parErr || c.frmErr))
        let o := match l with | x :: _ => x.1 | [] => 0
        let prio := ((s.wirTim n.val (s.tb.elapsed - f.ago + o * ((s.reg (0x140000 + n.val * 0x40)).extractLsb' 0 24).toNat / 16)).extractLsb' 0 3).toNat
        (sound = false → exec (.wirFrameEnd n f) s = .next (s.setWir n.val { p with badframe := min 0xFFFF (p.badframe + 1) })) ∧
        (sound = true → noBuf → Gives (.wirFrameEnd n f) s (fun t => (t.wirAt n.val).nobuf = true ∧ t.qm = s.qm)) ∧
        (sound = true → ¬noBuf → 32 ≤ (s.fifo (4 + n.val)).items.length → Gives (.wirFrameEnd n f) s (fun t =>
          (t.fifo (4 + n.val)).ovf = true ∧ (t.fifo (4 + n.val)).items = (s.fifo (4 + n.val)).items ∧ (t.wirAt n.val).bufs = p.bufs)) ∧
        (sound = true → ¬noBuf → (s.fifo (4 + n.val)).items.length < 32 → Gives (.wirFrameEnd n f) s (fun t =>
          (t.wirAt n.val).badframe = p.badframe ∧ (t.wirAt n.val).coll = (p.coll || coll) ∧
          (∃ k, k < Config.poolSize (0x14 * 16 + n.val) ∧ k ∉ p.bufs ∧ (t.wirAt n.val).bufs = p.bufs ++ [k]) ∧
          ∃ y, (t.fifo (4 + n.val)).items = (s.fifo (4 + n.val)).items ++ [(prio, y)] ∧
            itemSrc y = s.sourceId (4 + n.val) ∧ y.extractLsb' 384 16 = BitVec.ofNat 16 (min 512 cs.length) ∧ y.getLsbD 400 = coll ∧
            y.extractLsb' 408 8 = BitVec.ofNat 8 n.val))))) ∧
  (∀ (n : Fin 6) (idle : Nat) (s : State), s.wirOn n.val = true → s.txRole = true → s.lineFree n.val idle = false →
    exec (.wirTxStart ⟨n, idle⟩) s = .next s) ∧
  (∀ (n : Fin 6) (idle : Nat) (x : Item) (bs : List Byte) (s u : State),
    let m := (x.extractLsb' 384 16).toNat
    let fr := ((u.reg (0x140000 + n.val * 0x40)).extractLsb' 29 2).toNat
    let line := bs ++ (if x.getLsbD 400 then (if fr = 0 then bytesOf 2 (crc16i 0xFFFF#16 (bs.drop 1))
      else if fr = 1 then bytesOf 2 (crc16b 0xFFFF#16 bs) else []) else [])
    let q := ((u.reg (0x140020 + n.val * 0x40)).extractLsb' 0 16).toNat
    s.wirOn n.val = true → (s.wirAt n.val).tx = none → s.txRole = true → u.txRole = true → s.lineFree n.val idle = true →
    s.hwTake ((s.reg (0x14001C + n.val * 0x40)).extractLsb' 0 16).toNat = (some x, u) →
    (1 ≤ m → m ≤ 512 → u.unitRead (x.extractLsb' 320 64).toNat m = (.ok, bs) →
      ((u.fifo (4 + n.val)).hold = false → Gives (.wirTxStart ⟨n, idle⟩) s (fun t => (t.wirAt n.val).tx =
          some { reqid := x.extractLsb' 192 64, psdu := line, sending := true, at_ := u.tb.elapsed } ∧
        (t.wirAt n.val).turn = ((u.reg (0x140004 + n.val * 0x40)).extractLsb' 16 8).toNat ∧ t.out = u.out ++ [.wirFrame n.val line])) ∧
      ((u.fifo (4 + n.val)).hold = true → Gives (.wirTxStart ⟨n, idle⟩) s (fun t =>
        (t.wirAt n.val).tx = some { reqid := x.extractLsb' 192 64, psdu := line } ∧ t.out = u.out))) ∧
    (m < 1 ∨ 512 < m → u.qmAccess q = (true, u) → u.canPut q = true → Gives (.wirTxStart ⟨n, idle⟩) s (fun t =>
      (t.wirAt n.val).tx = none ∧ t.out = u.out ∧ (t.desc q).tail = ((u.desc q).tail + 1) % (u.desc q).modulus))) ∧
  (∀ (n : Fin 6) (j : TxJob) (idle : Nat) (s : State),
    let q := ((s.reg (0x140020 + n.val * 0x40)).extractLsb' 0 16).toNat
    s.wirOn n.val = true → (s.wirAt n.val).tx = some j → j.sending = false → j.status = none →
    (s.txRole = true → s.lineFree n.val idle = true → (s.fifo (4 + n.val)).hold = false → Gives (.wirTxStart ⟨n, idle⟩) s (fun t =>
      (t.wirAt n.val).tx = some { j with sending := true, at_ := s.tb.elapsed } ∧ t.out = s.out ++ [.wirFrame n.val j.psdu])) ∧
    (s.txRole = false → s.qmAccess q = (true, s) → s.canPut q = true → Gives (.wirTxStart ⟨n, idle⟩) s (fun t =>
      (t.wirAt n.val).tx = none ∧ t.out = s.out ∧ (t.desc q).tail = ((s.desc q).tail + 1) % (s.desc q).modulus))) ∧
  (∀ (n : Fin 6) (j : TxJob) (s : State),
    let q := ((s.reg (0x140020 + n.val * 0x40)).extractLsb' 0 16).toNat
    let bt := ((s.reg (0x140000 + n.val * 0x40)).extractLsb' 0 24).toNat
    let ends := j.at_ + j.psdu.length * s.charBits n.val * bt / 16
    s.fieldRuns = true → (s.wirAt n.val).tx = some j → j.sending = true → j.status = none →
    (s.tb.elapsed < ends → exec (.wirTxDone n) s = .next s) ∧
    (ends ≤ s.tb.elapsed → s.qmAccess q = (true, s) → s.canPut q = true →
      Gives (.wirTxDone n) s (fun t => (t.wirAt n.val).tx = none ∧
        (t.wirAt n.val).blind = s.tb.elapsed + (s.wirAt n.val).turn * bt / 16 ∧
        (t.desc q).tail = ((s.desc q).tail + 1) % (s.desc q).modulus)))

/-! ## Time and hierarchy (11_time.md, 12_hierarchy.md) -/

/-- R267, R271, R272, R277: an increment within its bounds is taken whole from the latched low word and the high word and is in
force from the next REFCLK edge, and one outside is OUT_OF_RANGE; a quality write sets the class and restarts its decay; a change
of SEL waits for the next edge, which makes it with TB_SWDIFF = A - B; a snapshot captures both domains and the elapsed count.
R131, R265, R269, R271, R272, R275, R277: a pending step applies at the first second boundary after its close, the edge noted for
its domain, and a negative one ends the custody blocks in progress; one that would leave the domain below 1 s or at 2^63 s is
dropped; AUTOSEL moves the stamping domain to the other that reaches QMIN; a class above 1 falls by one after DECAY seconds; a lost
REFCLK holds both domains at class 0 until it returns; TB_STAT.SPLIT follows its test. -/
def Obligations.Timebase : Prop :=
  ((∀ (i : Init) (b : Bool) (v : W32) (s : State),
      let o := if b then 0x030018 else 0x030010
      let x := ((Tab.get none s.latch (i.key * 2 ^ 24 + o)).getD (s.reg o)).toNat + 2 ^ 32 * v.toNat
      Reaches i (o + 4) s →
      (147500165614 ≤ x → x ≤ 147647739566 → Responds (.tbIncrWrite i b v) i .ok s (fun t => t.incr b = x ∧ t.incr (!b) = s.incr (!b) ∧
        (t.dom b).incr = (s.dom b).incr ∧ (s.tb.clkLost = false → (t.tick.dom b).incr = x))) ∧
      (x < 147500165614 ∨ 147647739566 < x → Responds (.tbIncrWrite i b v) i .outOfRange s (fun t => t.regs = s.regs ∧ t.tb = s.tb))) ∧
    (∀ (i : Init) (b : Bool) (v : W32) (s : State),
      Reaches i (if b then 0x03000C else 0x030008) s →
      (v.extractLsb' 4 16 ≠ 0#16 → Responds (.tbQualWrite i b v) i .ok s (fun t =>
        (t.dom b).cls = (v.extractLsb' 0 4).toNat ∧ (t.dom b).clsAt = s.tb.elapsed ∧ (t.dom b).sec = (s.dom b).sec ∧
        (t.dom b).frac = (s.dom b).frac ∧ t.dom (!b) = s.dom (!b) ∧
        t.reg (if b then 0x03000C else 0x030008) = v &&& 0xFFFFF#32)) ∧
      (v.extractLsb' 4 16 = 0#16 → Responds (.tbQualWrite i b v) i .outOfRange s (fun t => t.regs = s.regs ∧ t.tb = s.tb))) ∧
    (∀ (i : Init) (v : W32) (s : State), Reaches i 0x030000 s →
      let ok : Prop := v.extractLsb' 20 4 ≠ 0#4 ∧ v.extractLsb' 0 20 ≠ 0#20 ∧ (v.extractLsb' 0 20).toNat ≤ 1000000
      (ok → Responds (.tbSelWrite i v) i .ok s (fun t =>
        t.reg 0x030000 &&& 0x7FFFFFFF#32 = v &&& 0x40FFFFFF#32 ∧ t.sel = s.sel ∧
        t.tb = { s.tb with selNext := if v.getLsbD 31 = s.sel then none else some (v.getLsbD 31) })) ∧
      (¬ok → Responds (.tbSelWrite i v) i .outOfRange s (fun t => t.regs = s.regs ∧ t.tb = s.tb))) ∧
    (∀ (b : Bool) (s : State), s.pwr.mainOn = true → s.tb.clkLost = false →
      let t := s.tick
      t.tb.a = s.tb.a.edge (s.incr false) ∧ t.tb.b = s.tb.b.edge (s.incr true) ∧ t.tb.elapsed = s.tb.elapsed + 1 ∧ t.tb.selNext = none ∧
      (s.tb.selNext = some b → b ≠ s.sel → t.sel = b ∧ t.tb.swdiff = BitVec.ofInt 64 ((t.tb.a.t32 : Int) - t.tb.b.t32)) ∧
      (s.tb.selNext = none → t.sel = s.sel ∧ t.tb.swdiff = s.tb.swdiff)) ∧
    (∀ (i : Init) (v : W32) (s : State), Reaches i 0x030048 s → v.getLsbD 0 = true →
      Responds (.tbSnap i v) i .ok s (fun t => t.tb = { s.tb with
        snapA := stampOf s.tb.a.t32, snapB := stampOf s.tb.b.t32, snapE := BitVec.ofNat 64 s.tb.elapsed }))) ∧
  ((∀ (b : Bool) (p : Step) (s : State),
      let now : Int := (s.dom b).sec.toNat * 2 ^ 64 + (s.dom b).frac.toNat
      let aim : Int := (if p.abs then 0 else now) + p.s * 2 ^ 64 + p.f * 2 ^ 32
      s.pwr.mainOn = true → s.tb.clkLost = false → (s.dom b).step = some p →
      ((s.dom b).carry = false ∨ s.tb.elapsed ≤ p.at_ → exec (.tbStepApply b) s = .next s) ∧
      ((s.dom b).carry = true → p.at_ < s.tb.elapsed → 2 ^ 64 ≤ aim → aim < 2 ^ 127 → Gives (.tbStepApply b) s (fun t =>
        ((t.dom b).sec.toNat * 2 ^ 64 + (t.dom b).frac.toNat : Int) = aim ∧ (t.dom b).step = none ∧
        (t.dom b).stepAt = some s.tb.elapsed ∧ (t.dom b).cls = (s.dom b).cls ∧ t.dom (!b) = s.dom (!b) ∧ t.tb.elapsed = s.tb.elapsed ∧
        (now ≤ aim → t.afe = s.afe) ∧
        (aim < now → t.afe.points = s.afe.points.map (fun e =>
          (e.1, { e.2 with cut := e.2.cut || (decide (e.2.n ≠ 0) && decide (e.2.per.map (·.1) = some b)) }))))) ∧
      ((s.dom b).carry = true → p.at_ < s.tb.elapsed → (aim < 2 ^ 64 ∨ 2 ^ 127 ≤ aim) →
        exec (.tbStepApply b) s = .next (s.setDom b { s.dom b with step := none }))) ∧
    (∀ s : State, s.pwr.mainOn = true → s.tb.clkLost = false →
      ((s.reg 0x030000).getLsbD 30 = true → s.cls s.sel < s.qmin → s.qmin ≤ s.cls (!s.sel) →
        Gives .tbAutoSwitch s (fun t => t.sel = !s.sel ∧ t.tb.autosw = true ∧ t.tb.a = s.tb.a ∧ t.tb.b = s.tb.b ∧
          t.tb.swdiff = BitVec.ofInt 64 ((s.tb.a.t32 : Int) - s.tb.b.t32))) ∧
      (∀ b : Bool,
        let decay := ((s.reg (if b then 0x03000C else 0x030008)).extractLsb' 4 16).toNat * 125000000
        1 < (s.dom b).cls → (s.dom b).clsAt + decay ≤ s.tb.elapsed →
        Gives (.qualityDecay b) s (fun t =>
          t.dom b = { s.dom b with cls := (s.dom b).cls - 1, clsAt := (s.dom b).clsAt + decay } ∧ t.dom (!b) = s.dom (!b))) ∧
      Gives .refclkLoss s (fun t => t.tb = { s.tb with
        clkLost := true, a := { s.tb.a with cls := 0 }, b := { s.tb.b with cls := 0 } } ∧ t.stampNow = 0#96)) ∧
    (∀ s : State, s.pwr.mainOn = true → s.tb.clkLost = true →
      Gives .refclkReturn s (fun t => t.tb = { s.tb with
        clkLost := false, a := { s.tb.a with cls := 0 }, b := { s.tb.b with cls := 0 } })) ∧
    (∀ s : State, s.pwr.mainOn = true →
      Gives .tsplitConditionChange s (fun t => t.tb = { s.tb with split := s.splitNow })))

/-- R81, R282 to R285: a good frame of another ethertype, and a tree frame of data items from a peer to this device, become ingress
items of the port; what PACKWAIT lets wait stays in its queue, under the PACK and PACKWAIT of the frame's start, and what is packed
leaves as one tree frame with its digests; a link change is kept, and port 3 taking over resends port 2's last frames; PAUSE is
repeated while HOLD stands; a raw frame is sent as it lies in DRAM, or is turned away, and its completion put or kept until there
is room. -/
def Obligations.EthernetPorts : Prop :=
  (∀ (n : Fin 4) (f : EthRx) (s : State),
    let e := etypeAt f.octets
    let body := f.octets.drop (e + 2)
    let src := beAt f.octets 6 6
    let arrives (dev k len : Nat) : Prop := Gives (.ethFrameReceive n f) s (fun t =>
      ((∀ b, b < Config.poolSize (0x150 + n.val) → b ∈ (s.ethAt n.val).bufs) ∧ t.qm = s.qm) ∨
      (32 ≤ (s.fifo (12 + n.val)).items.length ∧ (t.fifo (12 + n.val)).ovf = true) ∨
      ∃ x, (t.fifo (12 + n.val)).items = (s.fifo (12 + n.val)).items ++ [(((s.reg 0x180000).extractLsb' 8 3).toNat, x)] ∧
        itemSrc x = s.sourceId (12 + n.val) ∧ x.extractLsb' 384 16 = BitVec.ofNat 16 len ∧ x.extractLsb' 400 16 = BitVec.ofNat 16 dev ∧
        x.extractLsb' 416 8 = BitVec.ofNat 8 k ∧ (t.ethAt n.val).bufs.length = (s.ethAt n.val).bufs.length + 1)
    s.ethUp n.val = true → f.fcsOk = true →
    (beAt f.octets e 2 ≠ ((s.reg 0x180008).extractLsb' 0 16).toNat → arrives 0 0 f.octets.length) ∧
    (beAt f.octets e 2 = ((s.reg 0x180008).extractLsb' 0 16).toNat → s.treEn = true →
      (beAt f.octets 0 6 = s.deviceMac s.device ∨ beAt f.octets 0 6 = s.groupMac s.pair) →
      src = s.deviceMac (src % 512) → s.relOf (src % 512 / 2) (src % 512 % 2) ≠ .foreign_ →
      body.length % 64 = 0 → 1 ≤ body.length / 64 → body.length / 64 ≤ 23 →
      (body.length ≠ 128 ∨ takeBytes body 36 4 / 2 ^ 21 ≠ 0x7F0) →
      arrives (src % 512) (body.length / 64) body.length)) ∧
  (∀ (n : Fin 4) (f : EthRx) (s : State), (s.ethUp n.val = false ∨ f.fcsOk = false ∨
      (beAt f.octets (etypeAt f.octets) 2 = ((s.reg 0x180008).extractLsb' 0 16).toNat ∧ s.treEn = false)) →
    exec (.ethFrameReceive n f) s = .next s) ∧
  (∀ (n : Fin 4) (k : Pack) (full : Bool) (d : Option Nat) (items : List Item) (s u : State),
    let leaves (t : State) : Prop :=
      t.out = u.out ++ [.ethTree n.val (BitVec.ofNat 48 (d.getD 0)) (BitVec.ofNat 48 (u.deviceMac u.device))
        ((u.reg 0x180008).extractLsb' 0 16) (items.map outItem)] ∧
      t.qm = u.qm ∧ (t.ethAt n.val).pack = none ∧ (t.ethAt n.val).last4.getLast? = some (items.map outItem) ∧
      (t.ethAt n.val).last4.length ≤ 4
    let waits (t : State) : Prop := t.out = s.out ∧ t.qm = s.qm ∧ (t.ethAt n.val).pack = some k
    s.treePort n.val = true → s.gather k.q n.val ((s.desc k.q).size + 1) k.max none [] = (full, d, items, u) →
    (∀ qs, (s.ethAt n.val).pack = none → s.treeQueues n.val = k.q :: qs → k.at_ = s.tb.elapsed →
      k.max = ((s.reg 0x180000).extractLsb' 24 5).toNat → k.wait = ((s.reg 0x180000).extractLsb' 0 8).toNat →
      (items ≠ [] → full = true ∨ k.wait = 0 → Gives (.treeFrameSend n) s leaves) ∧
      (items ≠ [] → full = false → k.wait ≠ 0 → Gives (.treeFrameSend n) s waits) ∧
      (items = [] → qs = [] → exec (.treeFrameSend n) s = .next u)) ∧
    ((s.ethAt n.val).pack = some k →
      (items ≠ [] → full = true ∨ k.wait = 0 → Gives (.treeFrameSend n) s leaves) ∧
      (items ≠ [] → full = false → k.wait ≠ 0 → Gives (.treeFrameSend n) s waits) ∧
      (items ≠ [] → k.at_ + k.wait * 125 ≤ s.tb.elapsed → Gives (.packwaitExpiry n) s leaves) ∧
      (items = [] → Gives (.treeFrameSend n) s (fun t => t.out = u.out ∧ t.qm = u.qm ∧ (t.ethAt n.val).pack = none)))) ∧
  (∀ (n : Fin 4) (s : State),
    (s.treePort n.val = false → exec (.treeFrameSend n) s = .next s) ∧
    ((s.treePort n.val = false ∨ ∀ k, (s.ethAt n.val).pack = some k → s.tb.elapsed < k.at_ + k.wait * 125) →
      exec (.packwaitExpiry n) s = .next s)) ∧
  (∀ (n : Fin 4) (s : State),
    let again : List Out := (s.ethAt 2).last4.map (fun items => .ethTree 3
      (BitVec.ofNat 48 ((s.managerPair.map s.groupMac).getD 0)) (BitVec.ofNat 48 (s.deviceMac s.device)) ((s.reg 0x180008).extractLsb' 0 16) items)
    (s.ethOn n.val = true →
      Gives (.ethLinkDown n) s (fun t => (t.ethAt n.val).link = false ∧ (t.ethAt n.val).pack = none ∧
        t.out = s.out ++ (if n.val = 2 ∧ s.ethUp 2 = true ∧ s.ethUp 3 = true then again else [])) ∧
      Gives (.ethLinkUp n) s (fun t => (t.ethAt n.val).link = true ∧
        t.out = s.out ++ (if n.val = 3 ∧ s.ethUp 2 = false ∧ s.ethUp 3 = false then again else []))) ∧
    (s.ethOn n.val = false → exec (.ethLinkDown n) s = .next s ∧ exec (.ethLinkUp n) s = .next s) ∧
    (s.ethUp n.val = true ∧ (s.fifo (12 + n.val)).hold = true → Gives (.ethPauseRepeat n) s (fun t =>
      t.out = s.out ++ [.ethPause n.val 0xFFFF#16] ∧ (t.ethAt n.val).pauseAt = some s.tb.elapsed)) ∧
    (¬(s.ethUp n.val = true ∧ (s.fifo (12 + n.val)).hold = true) → exec (.ethPauseRepeat n) s = .next s)) ∧
  (∀ (n : Fin 4) (s : State),
    let completes (id : Word) (st : Status) (tm : Option (Stamp × Int × Stamp)) (v t : State) : Prop :=
      ∃ ok w, v.hwPut ((s.reg (0x150020 + 0x40 * n.val)).extractLsb' 0 16).toNat (rawCompletion id st tm) = (ok, w) ∧ t.qm = w.qm ∧
        (t.ethAt n.val).raw = none ∧ (t.ethAt n.val).rawDone = (if ok then none else some (id, st, tm))
    let free : Prop := s.ethOn n.val = true ∧ (s.ethAt n.val).raw = none ∧ (s.ethAt n.val).rawDone = none
    (∀ (x : Item) (u : State),
      let m := (x.extractLsb' 384 16).toNat
      let id : Word := x.extractLsb' 192 64
      free → s.hwTake ((s.reg (0x15001C + 0x40 * n.val)).extractLsb' 0 16).toNat = (some x, u) →
      (u.reg (0x150020 + 0x40 * n.val) = s.reg (0x150020 + 0x40 * n.val)) →
      (m < 60 ∨ 1514 < m → Gives (.ethRawTx n) s (completes id .outOfRange none u)) ∧
      (60 ≤ m → m ≤ 1514 → ∀ st bs, u.unitRead (x.extractLsb' 320 64).toNat m = (st, bs) →
        (st ≠ .ok → Gives (.ethRawTx n) s (completes id st none u)) ∧
        (st = .ok → ∀ v6, v6 = (x.getLsbD 401 && (match ptpOf bs with | some p => p.v6 | none => false)) →
          (v6 = true → Gives (.ethRawTx n) s (completes id .denied none u)) ∧
          (v6 = false → (s.ethAt n.val).link = false → Gives (.ethRawTx n) s (completes id .retry none u)) ∧
          (v6 = false → (s.ethAt n.val).link = true → Gives (.ethRawTx n) s (fun t => t.qm = u.qm ∧
            (∃ sub, sub < 32 ∧ t.out = u.out ++ [.ethRaw n.val (if x.getLsbD 401 then u.oneStep bs sub else bs)]) ∧
            ∃ own off other, (t.ethAt n.val).raw = some (id, x.getLsbD 400, own, off, other)))))) ∧
    (free → ∀ u, s.hwTake ((s.reg (0x15001C + 0x40 * n.val)).extractLsb' 0 16).toNat = (none, u) → exec (.ethRawTx n) s = .next u) ∧
    (¬free → exec (.ethRawTx n) s = .next s) ∧
    (∀ r : Word × Bool × Stamp × Int × Stamp, s.fieldRuns = true → (s.ethAt n.val).rawDone = none → (s.ethAt n.val).raw = some r →
      let q := ((s.reg (0x150020 + 0x40 * n.val)).extractLsb' 0 16).toNat
      Gives (.ethRawTxDone n) s (fun t =>
        (if (s.ethAt n.val).link then completes r.1 .ok (if r.2.1 then some r.2.2 else none) s t else completes r.1 .retry none s t) ∧
        (s.qmAccess q = (true, s) → s.canPut q = true →
          (t.ethAt n.val).rawDone = none ∧ (t.desc q).tail = ((s.desc q).tail + 1) % (s.desc q).modulus))) ∧
    (∀ id st tm, s.fieldRuns = true → (s.ethAt n.val).rawDone = some (id, st, tm) → Gives (.ethRawTxDone n) s (completes id st tm s)) ∧
    (s.fieldRuns = false ∨ ((s.ethAt n.val).rawDone = none ∧ (s.ethAt n.val).raw = none) → exec (.ethRawTxDone n) s = .next s))

/-- R280, R286, R287, R289 to R291, R299: every HBPER a device sends its heartbeats up and down; one from a manager twin ends
MGRLOST and, where that twin acts, its QCMD is obeyed; one from a child is remembered, one from a foreigner counted; a silent
manager sets MGRLOST and raises the tree agent's epoch, a silent child is lost; a root leaves quarantine (the model's choice, log
entry 32); a CONFIG disagreement that outlasts its grace is a reason; TRE_ROLE and the expectation shadow are written where the
rules let them. -/
def Obligations.TreeUnit : Prop :=
  (∀ s : State, s.treRuns = true → (∀ a, s.tre.hbAt = some a → a + s.hbPeriod ≤ s.tb.elapsed) →
    Gives .heartbeatSend s (fun t => t.tre.hbAt = some s.tb.elapsed ∧ t.tre.hbPer = ((s.reg 0x180018).extractLsb' 22 10).toNat ∧
      t.tre.hbMiss = ((s.reg 0x180018).extractLsb' 18 4).toNat ∧
      ∃ l, t.out = s.out ++ l ∧ l.length = (if s.role = 2 ∨ s.upPort = none then 0 else 1) +
          (if s.ethUp 0 || s.ethUp 1 then ((List.range 16).filter s.childOn).length else 0) ∧
        ∀ o ∈ l, ∃ up k dst a b, o = .heartbeat up k dst (BitVec.ofNat 48 (s.deviceMac s.device)) ((s.reg 0x180008).extractLsb' 0 16) a b ∧
          itemKind a = 0x7F0 ∧ itemKind b = 0x7F1 ∧ itemSrc a = s.sourceId 0 ∧
          itemEpoch b = s.cfg.cur ∧ b.extractLsb' 320 64 = s.cfg.cdigest ∧ b.extractLsb' 384 16 = s.upd.fwver)) ∧
  (∀ s : State, (s.treRuns = false ∨ ∃ a, s.tre.hbAt = some a ∧ s.tb.elapsed < a + s.hbPeriod) → exec .heartbeatSend s = .next s) ∧
  (∀ (h : HbRx) (s : State), (s.treRuns = false ∨ s.ethUp h.port.val = false) → exec (.heartbeatReceive h) s = .next s) ∧
  (∀ (h : HbRx) (s : State),
    let rel := s.relOf ((itemSrc h.hbtime).toNat / 256) ((itemSrc h.hbtime).toNat / 128 % 2)
    let acts : Prop := h.hbstate.extractLsb' 480 2 = 0#2 ∨ h.hbstate.extractLsb' 480 2 = 2#2
    let qcmd := if s.twinBit = 1 then h.hbstate.extractLsb' 500 4 else h.hbstate.extractLsb' 496 4
    s.treRuns = true → s.ethUp h.port.val = true →
    (∀ k, rel = .manager k → Gives (.heartbeatReceive h) s (fun t =>
      (t.peer (32 + k)).seen = some s.tb.elapsed ∧ (t.peer (32 + k)).hbtime = h.hbtime ∧ t.tre.mgrlost = false ∧
      (acts → t.tre.reasons = qcmd ∧ (t.tre.quar = true ↔ qcmd ≠ 0#4)) ∧
      (¬acts → t.tre.reasons = s.tre.reasons ∧ t.tre.quar = s.tre.quar))) ∧
    (∀ c k, rel = .child c k → Gives (.heartbeatReceive h) s (fun t =>
      (t.peer (2 * c + k)).seen = some s.tb.elapsed ∧ (t.peer (2 * c + k)).hbtime = h.hbtime ∧ (t.peer (2 * c + k)).lost = false ∧
      (t.peer (2 * c + k)).hwact = h.hbstate.extractLsb' 400 16 ∧ (s.tre.quar = true → (t.peer (2 * c + k)).reasons = (s.peer (2 * c + k)).reasons))) ∧
    (rel = .foreign_ → Gives (.heartbeatReceive h) s (fun t =>
      t = { s with tre := { s.tre with foreign_ := min 0xFFFF (s.tre.foreign_ + 1) } }))) ∧
  (∀ s : State, s.treRuns = true →
    (s.managerPair ≠ none → s.tre.mgrlost = false → s.silent 32 = true → s.silent 33 = true →
      Gives .managerLoss s (fun t => t.tre = { s.tre with mgrlost := true } ∧ t.epochOf 0x085 = s.epochOf 0x085 + 1#32 ∧
        (∀ a, a ≠ 0x085 → t.epochOf a = s.epochOf a))) ∧
    (s.managerPair = none ∨ s.tre.mgrlost = true ∨ s.silent 32 = false ∨ s.silent 33 = false → exec .managerLoss s = .next s) ∧
    (∀ c : Fin 16, s.childOn c.val = false ∨ s.silent (2 * c.val) = false ∨ s.silent (2 * c.val + 1) = false →
      exec (.childLoss c) s = .next s) ∧
    (∀ c : Fin 16, s.childOn c.val = true → s.silent (2 * c.val) = true → s.silent (2 * c.val + 1) = true →
      ((s.peer (2 * c.val)).lost = false ∨ (s.peer (2 * c.val + 1)).lost = false) →
      Gives (.childLoss c) s (fun t => (t.peer (2 * c.val)).lost = true ∧ (t.peer (2 * c.val + 1)).lost = true ∧
        (∀ k, k ≠ 2 * c.val → k ≠ 2 * c.val + 1 → t.peer k = s.peer k))) ∧
    (∀ (c : Fin 16) (b : Bool) (a : Nat),
      let k := 2 * c.val + (if b then 1 else 0)
      s.xValid c.val = true → s.tre.quar = false → (s.peer k).cfgBad = some a →
      a + ((s.reg 0x180018).extractLsb' 0 10).toNat * 125000000 ≤ s.tb.elapsed →
      Gives (.configGraceExpiry c b) s (fun t => t.peer k = { s.peer k with reasons := (s.peer k).reasons ||| 1#4, clear0 := 0 } ∧
        (∀ j, j ≠ k → t.peer j = s.peer j)))) ∧
  (∀ (i : Init) (v : W32) (s : State), Reaches i 0x180004 s →
    let role := (v.extractLsb' 8 2).toNat
    let pair := (v.extractLsb' 0 8).toNat
    let fits : Prop := (role = 0 ∧ 16 ≤ pair) ∨ (role = 1 ∧ 1 ≤ pair ∧ pair ≤ 15) ∨ (role = 2 ∧ pair = 0)
    (s.treEn = true → Responds (.treRoleWrite i v) i .retry s (fun t => t.regs = s.regs)) ∧
    (s.treEn = false → s.sys.variant = .w → role ≠ 0 → Responds (.treRoleWrite i v) i .denied s (fun t => t.regs = s.regs)) ∧
    (s.treEn = false → (s.sys.variant = .w → role = 0) → fits → Responds (.treRoleWrite i v) i .ok s (fun t =>
      t.role = role ∧ t.pair = pair ∧ t.twinBit = (v.extractLsb' 10 1).toNat ∧
      (role = 2 → t.tre.quar = false ∧ t.tre.reasons = 0#4) ∧ (role ≠ 2 → t.tre = s.tre))) ∧
    (s.treEn = false → (s.sys.variant = .w → role = 0) → ¬fits → Responds (.treRoleWrite i v) i .outOfRange s (fun t => t.regs = s.regs))) ∧
  (∀ (i : Init) (k : Fin 5) (v : W32) (s : State), Reaches i 0x18002C s →
    let c := ((s.reg 0x180028).extractLsb' 0 4).toNat
    ((s.reg 0x180020).getLsbD c = true → s.cfg.prep = false → Responds (.treXdataWrite i k v) i .ok s (fun t =>
      Tab.get 0#32 t.tre.xSh (5 * c + k.val) = (if k.val = 0 then v &&& 0x8000FFFF#32 else v) ∧ t.tre.xTouched = true ∧ t.tre.xAct = s.tre.xAct)) ∧
    ((s.reg 0x180020).getLsbD c = true → s.cfg.prep = true → Responds (.treXdataWrite i k v) i .retry s (fun t => t.tre = s.tre)) ∧
    ((s.reg 0x180020).getLsbD c = false → Responds (.treXdataWrite i k v) i .outOfRange s (fun t => t.tre = s.tre)))

/-- R295 to R298: ARM fixes NEXT and B, or answers RETRY, OUT_OF_RANGE or DENIED; PREPARE comes DEADLINE before B; a participant
becomes READY with its digest or refuses; at B the switch is made with every participant READY, and CUR, CDIGEST and the shadows
are the new ones, or it aborts and names the culprit; CANCEL aborts with 0xFF; the twin's messages arm, complete and abort here. -/
def Obligations.ConfigurationEpochs : Prop :=
  (∀ (i : Init) (w : BitVec 2) (s : State), Reaches i 0x190010 s →
    let next := s.reg 0x190004
    let at_ := s.reg2 0x190008
    let arms (b : Nat) : Prop := Responds (.arm i w) i .ok s (fun t => t.cfg.armed = some (next, b) ∧ t.cfg.prep = false ∧
      t.cfg.ready = 0#7 ∧ t.cfg.cur = s.cfg.cur)
    let turned (st : Status) : Prop := Responds (.arm i w) i st s (fun t => t.cfg = { s.cfg with status := st })
    (s.cfg.armed ≠ none → turned .retry) ∧
    (s.cfg.armed = none → next ≠ s.cfg.cur + 1#32 ∨ w = 3#2 → turned .outOfRange) ∧
    (s.cfg.armed = none → next = s.cfg.cur + 1#32 → w = 1#2 → at_ * 2 ^ 32 < s.now32 + s.deadline32 → turned .outOfRange) ∧
    (s.cfg.armed = none → next = s.cfg.cur + 1#32 → s.tre.quar = true → s.cfg.recon = false → (w = 0#2 ∨ w = 2#2) → turned .denied) ∧
    (s.cfg.armed = none → next = s.cfg.cur + 1#32 → s.tre.quar = false ∨ s.cfg.recon = true →
      (w = 2#2 → arms (s.now32 + s.deadline32)) ∧
      (w = 0#2 → s.now32 + s.deadline32 ≤ s.nextStart.1 ∧ arms s.nextStart.1) ∧
      (∀ k p, w = 1#2 → intervalOf s.ldg.calCur at_ = some k → intervalStart s.ldg.calCur k = some p → p.1 = at_ →
        s.now32 + s.deadline32 ≤ at_ * 2 ^ 32 → arms (at_ * 2 ^ 32)))) ∧
  (∀ (next : W32) (b : Nat) (s : State), s.cfg.armed = some (next, b) →
    let over_ (culprit : Nat) (t : State) : Prop := t.cfg = { s.cfg with
      armed := none, prep := false, ready := 0#7, digests := [], refused := none, twinReady := none
      status := .epochAbort, culprit := culprit } ∧ t.tre = s.tre ∧ t.flw = s.flw ∧ t.ldg = s.ldg ∧ t.bal = s.bal ∧ t.twn = s.twn
    (∀ i, Reaches i 0x190010 s → Responds (.cancel i) i .ok s (over_ 0xFF)) ∧
    (s.pwr.mainOn = true → s.cfg.prep = false → b ≤ s.now32 + s.deadline32 →
      Gives .cfgPrepare s (fun t => t.cfg = { s.cfg with prep := true } ∧ t.tre = s.tre ∧ t.twn = s.twn ∧
        t.out = s.out ++ (if s.ownReady && s.twinLink then
          [.spnCfg (.ready next (BitVec.ofNat 64 b) (s.pairDigest (s.parts.filter (fun k => k ≠ 6))))] else []))) ∧
    (s.pwr.mainOn = false ∨ s.cfg.prep = true ∨ s.now32 + s.deadline32 < b → exec .cfgPrepare s = .next s) ∧
    (∀ (p : Fin 7) (d : BitVec 384), s.pwr.mainOn = true → s.cfg.prep = true → p.val ∈ s.parts → s.cfg.ready.getLsbD p.val = false →
      s.cfg.refused = none →
      (s.partReady p.val = true → Gives (.participantReady p (.ready d)) s (fun t => t.cfg.ready.getLsbD p.val = true ∧
        Tab.get 0#384 t.cfg.digests p.val = d ∧ t.cfg.cur = s.cfg.cur)) ∧
      (s.partReady p.val = false → exec (.participantReady p (.ready d)) s = .next s) ∧
      (∀ st, Gives (.participantReady p (.refuse st)) s (fun t => t.cfg = { s.cfg with refused := some p.val }))) ∧
    (∀ p a, s.pwr.mainOn = false ∨ s.cfg.prep = false ∨ p.val ∉ s.parts ∨ s.cfg.ready.getLsbD p.val = true →
      exec (.participantReady p a) s = .next s) ∧
    (∀ v : W32, Reaches .sup 0x190020 s → s.cfg.prep = true → Responds (.cfgSwrdy .sup v) .sup .ok s (fun t =>
      ∀ k, k = 3 ∨ k = 4 → v.getLsbD k = true → k ∈ s.parts → t.cfg.ready.getLsbD k = true)) ∧
    (s.pwr.mainOn = false ∨ s.now32 < b → exec .epochSwitch s = .next s) ∧
    (s.pwr.mainOn = true → b ≤ s.now32 →
      (∀ p, s.cfg.refused = some p → Gives .epochSwitch s (over_ p)) ∧
      (∀ k, s.cfg.refused = none → k ∈ s.parts → s.cfg.ready.getLsbD k = false → (∀ j ∈ s.parts, j < k → s.cfg.ready.getLsbD j = true) →
        Gives .epochSwitch s (over_ k)) ∧
      (s.cfg.refused = none → (∀ k ∈ s.parts, s.cfg.ready.getLsbD k = true) → Gives .epochSwitch s (fun t =>
        t.cfg.cur = next ∧ t.cfg.lastB = b ∧ t.cfg.armed = none ∧ t.cfg.status = .ok ∧ t.cfg.recon = false ∧
        t.cfg.cdigest = (s.pairDigest s.parts).extractLsb' 0 64 ∧ t.tre.xAct = s.tre.xSh ∧ t.tre.childAct = s.reg 0x180020 ∧
        t.twn.custown = s.reg 0x17000C)))) ∧
  (∀ s : State, s.cfg.armed = none → exec .cfgPrepare s = .next s ∧ exec .epochSwitch s = .next s ∧
    ∀ i, Reaches i 0x190010 s → Responds (.cancel i) i .ok s (fun t => t.cfg = s.cfg)) ∧
  (∀ (m : CfgMsg) (s : State), s.twinLink = false → exec (.cfgMessageReceive m) s = .next s) ∧
  (∀ s : State, s.twinLink = true →
    (∀ (next : W32) (b : Word), s.cfg.armed = none →
      (next = s.cfg.cur + 1#32 → s.tre.quar = false ∨ s.cfg.recon = true →
        Gives (.cfgMessageReceive (.arm next b)) s (fun t => t.cfg.armed = some (next, b.toNat) ∧ t.reg 0x190004 = next)) ∧
      (next ≠ s.cfg.cur + 1#32 ∨ (s.tre.quar = true ∧ s.cfg.recon = false) →
        Gives (.cfgMessageReceive (.arm next b)) s (fun t => t.cfg = s.cfg ∧ t.out = s.out ++ [.spnCfg (.abort next)]))) ∧
    (∀ next b d, Gives (.cfgMessageReceive (.ready next b d)) s (fun t =>
      t = { s with cfg := { s.cfg with twinReady := some (next, b.toNat, d) } })) ∧
    (∀ next b, s.cfg.armed = some (next, b) → Gives (.cfgMessageReceive (.abort next)) s (fun t =>
      t.cfg.armed = none ∧ t.cfg.status = .epochAbort ∧ t.cfg.cur = s.cfg.cur)))

/-! ## Twins, vault, updates (13_twin_pair.md, 14_vault.md, 15_updates.md) -/

/-- R300 to R306: training brings the link up and a lane down leaves the other; a due heartbeat carries CPSTATE, CUR, NEXT,
TWN_CUSTOWN, checkpoint and journal position; one that arrives ends the loss and sets or clears the custody mismatch; a FRAME
settles the own item it matches, waits without one, and one that matches an item already settled is a late pair; what the pairing
window leaves over no longer waits; a mirrored block takes its slot and its item is published. -/
def Obligations.SpindleMessages : Prop :=
  (∀ s : State,
    (s.fieldRuns = true → s.solo = false → Gives .spindleLinkTrained s (fun t =>
      t = { s with spn := { s.spn with link := true, lane0 := true, lane1 := true } })) ∧
    (s.fieldRuns = false ∨ s.solo = true → exec .spindleLinkTrained s = .next s) ∧
    (∀ b : Bool, s.pwr.mainOn = false ∨ s.spn.link = false → exec (.spindleLaneDown b) s = .next s) ∧
    (s.twinLink = false ∨ (∃ a, s.spn.hbSent = some a ∧ s.tb.elapsed < a + 12500) → exec .spindleHbSend s = .next s) ∧
    (∀ m : HbMsg, s.twinLink = false → exec (.spindleHbReceive m) s = .next s) ∧
    (∀ b : Bool, s.pwr.mainOn = true → s.spn.link = true → Gives (.spindleLaneDown b) s (fun t =>
      t.spn.lane0 = (s.spn.lane0 && b) ∧ t.spn.lane1 = (s.spn.lane1 && !b) ∧ t.spn.link = (t.spn.lane0 || t.spn.lane1))) ∧
    (s.twinLink = true → (∀ a, s.spn.hbSent = some a → a + 12500 ≤ s.tb.elapsed) → Gives .spindleHbSend s (fun t =>
      t.spn.hbSent = some s.tb.elapsed ∧ ∃ m, t.out = s.out ++ [.spnHb m] ∧ m.cpstate = s.twn.cp ∧ m.cur = s.cfg.cur ∧
        m.next = s.reg 0x190004 ∧ m.custown = s.twn.custown ∧ m.jpos = s.twn.jpos ∧ (∀ c, s.twn.ck = some c → m.ckNum = c.num))) ∧
    (∀ m : HbMsg, s.twinLink = true →
      Gives (.spindleHbReceive m) s (fun t => t.spn.hbAt = some s.tb.elapsed ∧ t.twn.lost = false ∧ t.twn.twinCust = m.custown ∧
        (t.twn.custmis = true ↔ m.custown ≠ s.twn.custown)) ∧
      (s.twn.lost = true → m.cpstate = 0#2 → s.twn.cp ≠ 0#2 → Gives (.spindleHbReceive m) s (fun t =>
        t.twn.joining = true ∧ t.twn.ceded = true ∧ t.twn.takeover = false ∧ t.twn.streamAt = some s.tb.elapsed)) ∧
      (s.twn.lost = true → s.twn.cp = 0#2 → Gives (.spindleHbReceive m) s (fun t =>
        t.twn.twinup = true ∧ t.twn.takeover = true ∧ .spnStreamEnd ∈ t.out ∧
        ∀ l ∈ s.streamLines, ∃ bs, .spnStream (.line (64 * l) bs) ∈ t.out)))) ∧
  (∀ (m : FrameMsg) (s : State), (s.fieldRuns = false ∨ s.spn.link = false ∨ s.solo = true ∨ (s.fifo 16).hold = true) →
    exec (.spnFrameReceive m) s = .next s) ∧
  (∀ (m : FrameMsg) (s : State), s.fieldRuns = true → s.spn.link = true → s.solo = false → (s.fifo 16).hold = false →
    (∀ o, s.spn.own.find? (fun o => !o.settled && s.pairs o m) = some o → Gives (.spnFrameReceive m) s (fun t =>
      o.ptr ∉ (t.desc o.q).unsettled ∧ t.spn.own = s.spn.own.filter (fun p => !(decide (p.q = o.q) && decide (p.ptr = o.ptr))) ∧
      t.spn.frames = s.spn.frames)) ∧
    ((∀ o ∈ s.spn.own, s.pairs o m = false) → Gives (.spnFrameReceive m) s (fun t =>
      t = { s with spn := { s.spn with frames := s.spn.frames ++ [⟨m, s.tb.elapsed⟩] } })) ∧
    (∀ o ∈ s.spn.own, (∀ p ∈ s.spn.own, p.settled = false → s.pairs p m = false) → o.settled = true → s.pairs o m = true →
      Gives (.spnFrameReceive m) s (fun t => t.spn.latepair = true ∧
        (32 ≤ (s.fifo 16).items.length → t.spn.frames = s.spn.frames ++ [⟨m, s.tb.elapsed⟩]) ∧
        ((s.fifo 16).items.length < 32 → t.spn.frames = s.spn.frames ∧
          ((∀ b, b < Config.poolSize 0x160 → b ∈ s.spn.bufs) ∨ t.spn.adopted = min 0xFFFF (s.spn.adopted + 1)))))) ∧
  (∀ s : State, s.fieldRuns = false → exec .pairwinExpiry s = .next s) ∧
  (∀ s : State, s.fieldRuns = true → Gives .pairwinExpiry s (fun t =>
    let w := ((s.reg 0x160004).extractLsb' 0 8).toNat * 125
    (∀ o ∈ t.spn.own, o.settled = false → s.tb.elapsed < o.at_ + w) ∧
    ((s.fifo 16).items.length + s.spn.frames.length ≤ 32 → ∀ f ∈ t.spn.frames, s.tb.elapsed < f.at_ + w) ∧
    (∀ f ∈ s.spn.frames, s.tb.elapsed < f.at_ + w → f ∈ t.spn.frames) ∧
    (∀ o ∈ s.spn.own, o.settled = false → o.at_ + w ≤ s.tb.elapsed → o.ptr ∉ (t.desc o.q).unsettled))) ∧
  (∀ (m : BlockMsg) (s : State), s.twinLink = false → exec (.blockMessageReceive m) s = .next s) ∧
  (∀ (p : Fin 32) (bseq : W32) (r : List Byte) (item : Item) (s : State), s.twinLink = true →
    ((s.pt p.val).mbusy.getLsbD (bseq.toNat % 8) = true → Gives (.blockMessageReceive (.block p bseq r item)) s (fun t =>
      (t.pt p.val).lost = (s.pt p.val).lost + 1#32 ∧ (t.pt p.val).gap = true ∧ t.qm = s.qm ∧ t.mem = s.mem)) ∧
    ((s.pt p.val).mbusy.getLsbD (bseq.toNat % 8) = false → s.qmAccess 0x56 = (true, s) → s.canPut 0x56 = true →
      Gives (.blockMessageReceive (.block p bseq r item)) s (fun t =>
        (t.pt p.val).mbusy.getLsbD (bseq.toNat % 8) = true ∧ (t.pt p.val).lost = (s.pt p.val).lost ∧
        (t.desc 0x56).tail = ((s.desc 0x56).tail + 1) % (s.desc 0x56).modulus)) ∧
    ((s.pt p.val).mbusy.getLsbD (bseq.toNat % 8) = false → s.qmAccess 0x56 = (true, s) → s.canPut 0x56 = false →
      Gives (.blockMessageReceive (.block p bseq r item)) s (fun t =>
        (t.pt p.val).lost = (s.pt p.val).lost + 1#32 ∧ (t.pt p.val).gap = true ∧ t.qm = s.qm))) ∧
  (∀ (k : Fin 64) (item : Item) (s : State), s.twinLink = true →
    exec (.blockMessageReceive (.pulse k item)) s = .next (s.hwPut 0x5E item).2) ∧
  (∀ (k : Fin 64) (item : Item) (s : State), s.twinLink = true → s.qmAccess 0x5E = (true, s) → s.canPut 0x5E = true →
    Gives (.blockMessageReceive (.pulse k item)) s (fun t =>
      (t.desc 0x5E).tail = ((s.desc 0x5E).tail + 1) % (s.desc 0x5E).modulus))

/-- R302, R308, R316 to R327: a twin unheard is lost and its agent's epoch rises; a lease that runs out makes the Headstock a
Tailstock; the host's lease is taken from the host-facing ports alone; HANDOVER and CKPT capture on the Headstock and are DENIED
elsewhere; a good checkpoint is kept and acknowledged, a bad one is not; CKACK gives up the control plane of a handover; journal
entries are kept and acknowledged; promotion makes a Headstock and reissues what was open. R312, R313, R315, R327: a replay request
finds no usable record and is answered STALE, starts its record's item on a thread of cluster 0 that may be given one (which is the
model's choice, log entry 31), or waits for one; a joining twin stores what the stream carries until the end marker makes it ready,
and begins again after 60 s. -/
def Obligations.TwinControl : Prop :=
  ((∀ s : State, s.twinRuns = true → s.twn.lost = false →
      ((∃ a, s.spn.hbAt = some a ∧ a + 37500 ≤ s.tb.elapsed) ∨ s.spn.link = false) → s.waiters = [] →
      Gives .twinLoss s (fun t => t.twn.lost = true ∧ t.twn.twinup = false ∧ t.twn.takeover = true ∧ t.spn.link = false ∧
        t.epochOf 0x084 = s.epochOf 0x084 + 1#32)) ∧
    (∀ s : State, (s.twinRuns = false ∨ s.twn.lost = true ∨
        ((∀ a, s.spn.hbAt = some a → s.tb.elapsed < a + 37500) ∧ s.spn.link = true)) → exec .twinLoss s = .next s) ∧
    (∀ s : State, (s.pwr.mainOn = false ∨ ∀ e, s.twn.lease = some e → s.tb.elapsed < e) → exec .leaseExpiry s = .next s) ∧
    (∀ (e : Nat) (s : State), s.twn.lease = some e → s.pwr.mainOn = true → e ≤ s.tb.elapsed → Gives .leaseExpiry s (fun t =>
      t.twn = { s.twn with lease := none, cp := if s.twn.cp = 0#2 then 1#2 else s.twn.cp })) ∧
    (∀ (i : Init) (v : W32) (s : State), Reaches i 0x170040 s →
      ((i = .host ∨ i = .spi ∨ i = .i2c) → s.role = 2 → s.twnEn = true → v.getLsbD 7 = true → (v.extractLsb' 6 1).toNat = s.twinBit →
        0 < s.leaseCounts → Responds (.twnHlease i v) i .ok s (fun t => (0x100, s.tb.elapsed + s.leaseCounts) ∈ t.twn.wits ∧
          (s.tre.childAct = 0#32 → t.twn.lease = some (s.tb.elapsed + s.leaseCounts)))) ∧
      ((i = .host ∨ i = .spi ∨ i = .i2c) → s.role ≠ 2 ∨ s.twnEn = false → Responds (.twnHlease i v) i .ok s (fun t => t.twn = s.twn)) ∧
      (i ≠ .host → i ≠ .spi → i ≠ .i2c → Responds (.twnHlease i v) i .denied s (fun t => t.twn = s.twn))) ∧
    (∀ (i : Init) (s : State), Reaches i 0x170008 s →
      let captured (t : State) : Prop := t.twn.capNum = s.twn.capNum + 1#32 ∧ (s.twn.capNum + 1#32, s.twn.jpos) ∈ t.twn.caps ∧
        t.twn.ckAt = s.tb.elapsed ∧ (s.twinLink = true → ∃ hdr body, t.out = s.out ++ [.spnCkpt hdr body] ∧
          hdr.extractLsb' 0 32 = s.twn.capNum + 1#32 ∧ hdr.extractLsb' 128 64 = s.twn.jpos ∧ hdr.extractLsb' 256 384 = sha384v body)
      (s.twinRuns = true → s.twn.cp = 0#2 →
        (s.leaseless i = false → Responds (.ckpt i) i .ok s (fun t => captured t ∧ t.twn.hand = s.twn.hand) ∧
          Responds (.handover i) i .ok s (fun t => captured t ∧
            t.twn.hand = (if s.twn.lost then s.twn.hand else some (s.twn.capNum + 1#32)))) ∧
        (s.twn.ckAt + s.twn.ckPer * 12500000 ≤ s.tb.elapsed ∨ 49152 ≤ s.journalHeld → Gives .checkpointCapture s captured) ∧
        (s.tb.elapsed < s.twn.ckAt + s.twn.ckPer * 12500000 → s.journalHeld < 49152 → exec .checkpointCapture s = .next s)) ∧
      (s.twinRuns = false ∨ s.twn.cp ≠ 0#2 → exec .checkpointCapture s = .next s) ∧
      (s.leaseless i = true ∨ s.twinRuns = false ∨ s.twn.cp ≠ 0#2 → Responds (.ckpt i) i .denied s (fun t => t.twn = s.twn) ∧
        Responds (.handover i) i .denied s (fun t => t.twn = s.twn))) ∧
    (∀ (hdr : BitVec 1024) (body : List Byte) (num : W32) (es : List JEntry) (pos : Word) (s : State), s.twinLink = false →
      exec (.checkpointReceive hdr body) s = .next s ∧ exec (.ckackReceive num) s = .next s ∧
      exec (.journalReceive es) s = .next s ∧ exec (.journalAck pos) s = .next s) ∧
    (∀ (hdr : BitVec 1024) (body : List Byte) (s : State), s.twinLink = true →
      let num : W32 := hdr.extractLsb' 0 32
      let good : Prop := (hdr.extractLsb' 64 64).toNat = body.length ∧ hdr.extractLsb' 256 384 = sha384v body
      (good → (∀ c, s.twn.ck = some c → c.num.toNat < num.toNat) → Gives (.checkpointReceive hdr body) s (fun t =>
        t.twn = { s.twn with ck := some { num, jpos := hdr.extractLsb' 128 64, epoch := hdr.extractLsb' 192 32, body } } ∧
        t.out = s.out ++ [.spnCkack num])) ∧
      (¬good ∨ (∃ c, s.twn.ck = some c ∧ num.toNat ≤ c.num.toNat) → Gives (.checkpointReceive hdr body) s (fun t =>
        t.twn = s.twn ∧ t.out = s.out))) ∧
    (∀ (num : W32) (s : State), (∀ p ∈ s.twn.caps, p.1 ≠ num) → exec (.ckackReceive num) s = .next s) ∧
    (∀ (num : W32) (j : Word) (s : State), s.twinLink = true → s.twn.caps.find? (fun p => decide (p.1 = num)) = some (num, j) →
      Gives (.ckackReceive num) s (fun t => t.twn.ackJpos = j ∧ t.twn.journal = s.twn.journal ∧ (∀ p ∈ t.twn.caps, num.toNat < p.1.toNat) ∧
        (s.twn.cp = 0#2 → (∃ h, s.twn.hand = some h ∧ h.toNat ≤ num.toNat) → t.twn.cp = 1#2) ∧
        (s.twn.hand = none → t.twn.cp = s.twn.cp))) ∧
    (∀ (es : List JEntry) (s : State), es = [] ∨ s.twn.cp = 0#2 → exec (.journalReceive es) s = .next s) ∧
    (∀ (es : List JEntry) (e : JEntry) (s : State), s.twinLink = true → s.twn.cp ≠ 0#2 → es.getLast? = some e →
      Gives (.journalReceive es) s (fun t => t.twn.jpos = jPos e ∧ t.twn.journal.getLast? = some e ∧
        t.out = s.out ++ [.spnJournalAck (jPos e)])) ∧
    (∀ (pos : Word) (s : State), s.twinLink = true → (∀ p ∈ s.waiters, pos.toNat < p.1) →
      Gives (.journalAck pos) s (fun t => t.twn.jack.toNat = max s.twn.jack.toNat pos.toNat ∧ t.ge = s.ge)) ∧
    (∀ s : State, (s.twinRuns = false ∨ s.twn.cp ≠ 1#2 ∨ s.twn.selfflt = true ∨ s.twn.hand ≠ none ∨ s.leaseValid = false ∨
      s.twn.joining = true) → exec .promotion s = .next s) ∧
    (∀ s : State, s.twinRuns = true → s.twn.cp = 1#2 → s.twn.selfflt = false → s.twn.hand = none → s.leaseValid = true → s.twn.joining = false →
      Gives .promotion s (fun t => t.twn.cp = 0#2 ∧
        t.out = s.out ++ (if s.twn.ck = none then [] else (openActions s.twn.journal).map .reissue)))) ∧
  ((∀ (pt : W32) (ps : BitVec 48) (s : State), (s.fieldRuns = false ∨ pt.toNat / 2 ^ 21 ≠ 0x7F2) → exec (.replayRequest pt ps) s = .next s) ∧
    (∀ (pt : W32) (ps : BitVec 48) (s : State), s.fieldRuns = true → pt.toNat / 2 ^ 21 = 0x7F2 →
      let found := s.twn.replays.find? (fun r => r.outs.any (fun o => decide (o.1 = ps)))
      (found = none → Gives (.replayRequest pt ps) s (fun t => t = { s with out := s.out ++ [.replayAnswer ps 0#64 0#64 .stale] })) ∧
      (∀ r first, found = some r → r.outs.find? (fun o => decide (o.1 = ps)) = some (ps, first) →
        ((r.epoch ≠ s.cfg.cur ∧ r.epoch ≠ s.cfg.cur - 1#32) ∨ r.image ≠ s.hwVersion → Gives (.replayRequest pt ps) s (fun t =>
          t = { s with out := s.out ++ [.replayAnswer ps first 0#64 .stale] })) ∧
        ((r.epoch = s.cfg.cur ∨ r.epoch = s.cfg.cur - 1#32) → r.image = s.hwVersion →
          ((∀ k, k < 32 → s.canTake k = true → k ∈ s.ge.reserve) → Gives (.replayRequest pt ps) s (fun t =>
            t = { s with twn := { s.twn with rplWait := s.twn.rplWait ++ [ps] } })) ∧
          (∀ j, j < 32 → s.canTake j = true → j ∉ s.ge.reserve → Gives (.replayRequest pt ps) s (fun t =>
            t.out = s.out ∧ t.qm = s.qm ∧ t.mem = s.mem ∧ t.twn = s.twn ∧
            ∃ k, k < 32 ∧ s.canTake k = true ∧ k ∉ s.ge.reserve ∧ (t.thread k).st = .running ∧ (t.thread k).rpl = some (ps, r) ∧
              (t.thread k).item = r.item ∧ (t.thread k).pc = BitVec.ofNat 24 ((s.desc r.q).entry.toNat * 4) ∧
              ∀ m, m ≠ k → t.thread m = s.thread m))))) ∧
    (∀ s : State, (s.twinLink = false ∨ s.twn.joining = false) →
      (∀ m, exec (.streamReceive m) s = .next s) ∧ exec .streamEndMarker s = .next s) ∧
    (∀ s : State, (s.twinRuns = false ∨ s.twn.joining = false ∨ ∀ a, s.twn.streamAt = some a → s.tb.elapsed < a + 7500000000) →
      exec .streamTimeout s = .next s) ∧
    (∀ s : State, s.twinLink = true → s.twn.joining = true →
      (∀ addr data, addr % 64 = 0 → data.length = 64 → Gives (.streamReceive (.line addr data)) s (fun t =>
        (∀ k, k < 64 → t.ramByte (addr + k) = data.getD k 0#8) ∧
        (∀ a, a < addr ∨ addr + 64 ≤ a → t.ramByte a = s.ramByte a) ∧ t.poisoned (addr / 64) = false)) ∧
      (∀ accs cus states finals pw, Gives (.streamReceive (.work accs cus states finals pw)) s (fun t =>
        t.bal.accs = accs ∧ t.bal.cus = cus ∧ t.bal.states = states ∧ t.bal.finals = finals ∧ t.ldg.pwBits = pw ∧ t.mem = s.mem)) ∧
      Gives .streamEndMarker s (fun t => t.twn = { s.twn with joining := false, twinup := true, streamAt := none }) ∧
      (∀ a, s.twn.streamAt = some a → a + 7500000000 ≤ s.tb.elapsed → Gives .streamTimeout s (fun t =>
        t.twn = { s.twn with streamAt := some s.tb.elapsed }))))

/-- R331, R339, R341, R342, R344: MR0, MR1 and MR7 are extended by a secure initiator in their stages and by no other; a statement
begins with its version and the life state, waits, and is written with the requester's rights or not at all; when OTP programming
ends the close is over and its thread goes on. -/
def Obligations.Vault : Prop :=
  (∀ (i : Init) (v : W32) (s : State), Reaches i 0x1A00B0 s →
    let data := (List.range 12).flatMap (fun k => bytesOf 4 (s.reg (0x1A0080 + 4 * k)))
    let may : Prop := (v = 0#32 ∧ s.sec.stage = 0) ∨ (v = 1#32 ∧ s.sec.stage = 1) ∨ v = 7#32
    (s.secure i = true → may → Responds (.secMrext i v) i .ok s (fun t =>
      t.sec.mr v.toNat = sha384v (bytesOf 48 (s.sec.mr v.toNat) ++ data) ∧ (∀ n, n ≠ v.toNat → t.sec.mr n = s.sec.mr n))) ∧
    (s.secure i = false ∨ ¬may → Responds (.secMrext i v) i .denied s (fun t => t.sec = s.sec))) ∧
  (∀ (i : Init) (s : State), Reaches i 0x1A0180 s →
    (s.sec.att = none → s.reg2 0x1A01A4 % 8 = 0 → Responds (.secAtcmd i 1#32) i .ok s (fun t => ∃ bs,
      t.sec.att = some (i, s.reg2 0x1A01A4, bs) ∧ bs.take 2 = [1#8, BitVec.ofNat 8 s.sec.life])) ∧
    (s.sec.att = none → s.reg2 0x1A01A4 % 8 ≠ 0 → Responds (.secAtcmd i 1#32) i .ok s (fun t =>
      t.sec = { s.sec with attStatus := .outOfRange })) ∧
    (s.sec.att ≠ none → Responds (.secAtcmd i 1#32) i .retry s (fun t => t.sec = { s.sec with attStatus := .retry }))) ∧
  (∀ (i : Init) (a : Nat) (bs : List Byte) (s : State), s.sec.att = some (i, a, bs) → s.pwr.mainOn = true → s.fencedInit i = false →
    (s.ramWriteRight i a bs.length = .ok → s.partialBad a bs.length = false → Gives .attestationDone s (fun t =>
      t.sec.att = none ∧ t.sec.attStatus = .ok ∧ (∀ k, k < bs.length → t.ramByte (a + k) = bs.getD k 0#8) ∧
      (∀ b, b < a ∨ a + bs.length ≤ b → t.ramByte b = s.ramByte b))) ∧
    (s.ramWriteRight i a bs.length ≠ .ok → Gives .attestationDone s (fun t =>
      t.sec = { s.sec with att := none, attStatus := s.ramWriteRight i a bs.length } ∧ t.mem = s.mem))) ∧
  (∀ (i : Init) (ws : List (Nat × W32)) (s : State), s.sec.otp = some (i, ws) → s.pwr.mainOn = true →
    Gives .otpProgrammingDone s (fun t => t.sec.otp = none ∧ (t.seq 1).owner = none ∧
      (∀ rd, (s.thread i.key).st = .waitClose rd → (t.thread i.key).st = .running ∧ (t.thread i.key).getG rd = 0#64)))

/-- R348, R350, R352, R353: one UPD command runs at a time, a verification asked for meanwhile leaves RETRY in the status, and the
supervisor alone gives commands; a Husk that passes every check stages its image in its sets and one that fails leaves them;
DISCARD and REVERT act on the sets named; at the end of the drain every staged image becomes active and the former one kept, or the
changing clusters stay parked; a long drain is reported once. -/
def Obligations.Updates : Prop :=
  (∀ (r : Bool) (s : State), Reaches .sup 0x1B0008 s →
    (s.upd.busy = none → s.upd.hand = none → Responds (.huskVerify .sup r) .sup .ok s (fun t =>
      t.upd = { s.upd with busy := some (s.reg2 0x1B0000, r) })) ∧
    (s.upd.busy ≠ none → s.upd.hand = none → Responds (.huskVerify .sup r) .sup .retry s (fun t => t.upd = { s.upd with status := .retry })) ∧
    (s.upd.hand ≠ none → Responds (.huskVerify .sup r) .sup .retry s (fun t => t.upd = s.upd))) ∧
  (∀ (i : Init) (r : Bool) (k : Byte) (c : BitVec 4) (s : State), Reaches i 0x1B0008 s → i ≠ .sup →
    Responds (.huskVerify i r) i .denied s (fun t => t.upd = s.upd) ∧ Responds (.discard i k c) i .denied s (fun t => t.upd = s.upd) ∧
    Responds (.revert i k c r) i .denied s (fun t => t.upd = s.upd)) ∧
  (∀ (k : Byte) (c : BitVec 4) (r : Bool) (s : State), Reaches .sup 0x1B0008 s → s.upd.busy = none → s.upd.hand = none →
    let keys := kindKeys k.toNat c.toNat
    (k ∈ [1#8, 2#8, 3#8, 4#8, 0x10#8, 0x11#8] → Responds (.discard .sup k c) .sup .ok s (fun t =>
      t.upd.status = .ok ∧ t.upd.kind = k.toNat ∧ (∀ n, t.stagedImg n = if n ∈ keys then none else s.stagedImg n) ∧
      t.upd.active = s.upd.active ∧ t.upd.kept = s.upd.kept)) ∧
    (k ∉ [1#8, 2#8, 3#8, 4#8, 0x10#8, 0x11#8] → Responds (.discard .sup k c) .sup .outOfRange s (fun t => t.upd.staged = s.upd.staged) ∧
      Responds (.revert .sup k c r) .sup .outOfRange s (fun t => t.upd.staged = s.upd.staged)) ∧
    (k ∈ [2#8, 3#8, 4#8, 0x10#8, 0x11#8] → keys ≠ [] → (∀ n ∈ keys, s.keptImg n ≠ none) → (s.tre.quar = false ∨ r = true) →
      Responds (.revert .sup k c r) .sup .ok s (fun t => (∀ n, t.stagedImg n = if n ∈ keys then s.keptImg n else s.stagedImg n) ∧
        t.upd.active = s.upd.active ∧ t.upd.kept = s.upd.kept)) ∧
    (k ∈ [2#8, 3#8, 4#8, 0x10#8, 0x11#8] → s.tre.quar = true → r = false → Responds (.revert .sup k c r) .sup .denied s (fun t =>
      t.upd.staged = s.upd.staged))) ∧
  (∀ (a : Nat) (r : Bool) (h : Husk) (s : State), s.upd.busy = some (a, r) → s.pwr.mainOn = true → s.huskRead a = (.ok, h) →
    (∀ img u, s.huskHead h r = .ok → s.huskImage h = ((.ok, img), u) → h.kind ≠ 1 → Gives .huskVerifyDone s (fun t =>
      t.upd.busy = none ∧ t.upd.status = .ok ∧ t.upd.kind = h.kind ∧ t.upd.active = s.upd.active ∧
      (∀ k ∈ kindKeys h.kind h.target, t.stagedImg k = some ⟨h.version, sha384v img, img⟩))) ∧
    (s.huskHead h r ≠ .ok → Gives .huskVerifyDone s (fun t =>
      t.upd = { s.upd with busy := none, status := s.huskHead h r, kind := h.kind }))) ∧
  (∀ (e : W32) (cl bad : BitVec 4) (at_ : Nat) (w : Bool) (s : State), s.upd.hand = some (e, cl, at_, w) → s.pwr.mainOn = true →
    (s.upd.loadfail = false → s.drained e = true → bad &&& cl = 0#4 → Gives (.handoverDrainEnd bad) s (fun t =>
      t.upd.hand = none ∧ t.upd.gated = false ∧
      (∀ k i, k < 5 → s.stagedImg k = some i → t.activeImg k = some i ∧ t.keptImg k = s.activeImg k ∧ t.stagedImg k = none))) ∧
    (s.upd.loadfail = false → s.drained e = true → bad &&& cl ≠ 0#4 → Gives (.handoverDrainEnd bad) s (fun t =>
      t.upd = { s.upd with loadfail := true, parked := s.upd.parked ||| cl })) ∧
    (w = false → at_ + ((s.reg 0x1B0010).extractLsb' 0 16).toNat * 125000 ≤ s.tb.elapsed → Gives .drainwarnExpiry s (fun t =>
      t.upd = { s.upd with hand := some (e, cl, at_, true) })))

/-! ## Storage, power and the event recorder (16_storage.md, 17_power_backup.md) -/

/-- R371 to R378: a WRITE taken by NFT is what a later READ of its sectors sees, and a TRIM makes them read zeros; a READ keeps
what its sectors held when it was taken and is completed when its lines are delivered; a FLUSH, and CLOSE ms, close a stripe, and
the map then points at its pages; a failed die degrades the store; a checkpoint, a loaded map and a rebuilt store are noted. -/
def Obligations.NandCommands : Prop :=
  (∀ (r : Ret) (x : Item) (s u : State),
    let q := ((s.reg 0x1D0020).extractLsb' 0 16).toNat
    s.nftOn = true → s.nft.dones = [] → s.headItem q = some r → r.item = x → s.hwTake q = (some x, u) → s.nandFormOk x = true →
    (nOp x = 1 → Gives .nandRead s (fun t => ∃ c, t.nft.cmds = s.nft.cmds ++ [c] ∧ c.item = x ∧ c.data = (nKeys x).map s.sectorNow)) ∧
    (∀ bs, nOp x = 2 → s.nft.readonly = false → u.unitRead (nBuf x) (4096 * nCount x) = (.ok, bs) →
      (∀ e ∈ s.nft.stripes, ∀ p ∈ e.2.pages, p.cmd < s.nft.nextId) →
      Gives .nandWrite s (fun t => ∀ k, k < nCount x →
        t.sectorNow (nVol x * 2 ^ 32 + nSector x + k) = (bs.drop (4096 * k)).take 4096)) ∧
    (nOp x = 3 → s.nft.readonly = false → Gives .trim s (fun t => ∀ k ∈ nKeys x, t.sectorNow k = zeroSector)) ∧
    (nOp x = 4 → Gives .flush s (fun t => ∀ g, (t.stripe g).pages = [])) ∧
    (s.nft.readonly = true → (nOp x = 2 → Gives .nandWrite s (fun t => t.nft.sectors = s.nft.sectors ∧ t.nft.stripes = s.nft.stripes)) ∧
      (nOp x = 3 → Gives .trim s (fun t => t.nft.sectors = s.nft.sectors ∧ t.nft.stripes = s.nft.stripes)))) ∧
  (∀ (c : NCmd) (s : State),
    let q := ((s.reg 0x1D0024).extractLsb' 0 16).toNat
    let a := nBuf c.item
    let slot := (s.desc q).slotAddr (s.desc q).tail
    s.nftOn = true → s.nft.dones = [] → s.nft.cmds.find? (fun c => decide (nOp c.item = 1)) = some c →
    c.data.length = nCount c.item → (∀ d ∈ c.data, d.length = 4096) → a % 64 = 0 →
    s.ramWriteRight (.hw 12) a (4096 * nCount c.item) = .ok → s.qmAccess q = (true, s) → s.canPut q = true →
    (slot + 64 ≤ a ∨ a + 4096 * nCount c.item ≤ slot) →
    Gives (.nandReadDone [] []) s (fun t => (∀ d ∈ t.nft.cmds, d.id ≠ c.id) ∧ t.nft.dones = [] ∧
      (t.desc q).tail = ((s.desc q).tail + 1) % (s.desc q).modulus ∧
      (∀ k, k < 4096 * nCount c.item → t.ramByte (a + k) = c.data.flatten.getD k 0#8))) ∧
  (∀ (g : Fin 16) (s : State), s.nftOn = true → (s.stripe g.val).pages ≠ [] →
    (s.stripe g.val).at_ + (s.stripe g.val).close * 125000 ≤ s.tb.elapsed → Gives (.stripeClose g) s (fun t =>
      (t.stripe g.val).pages = [] ∧
      (∀ k p, (s.stripe g.val).pages.reverse.find? (fun p => decide (p.key = some k)) = some p → Tab.get zeroSector t.nft.sectors k = p.data) ∧
      (∀ k, (∀ p ∈ (s.stripe g.val).pages, p.key ≠ some k) → Tab.get zeroSector t.nft.sectors k = Tab.get zeroSector s.nft.sectors k))) ∧
  (∀ s : State, s.nftOn = true →
    (∀ d : Fin 64, (s.die d.val).state = 1 → Gives (.dieFailure d) s (fun t => (t.die d.val).state = 2 ∧ t.nft.degraded = true ∧
      (∀ e, e ≠ d.val → t.die e = s.die e) ∧ (∀ g, g < t.nftGroups → t.groupOk g = false → t.nft.readonly = true))) ∧
    (s.nft.degraded = true → Gives .rebuildDone s (fun t => t = { s with nft := { s.nft with degraded := false } })) ∧
    (s.nft.ckAt + s.nft.ckPer * 60 * 125000000 ≤ s.tb.elapsed → Gives .mapCheckpoint s (fun t => t.nft.ckAt = s.tb.elapsed ∧
      t.nft.ckPer = ((s.reg 0x1D0004).extractLsb' 8 6).toNat ∧ t.nft.sectors = s.nft.sectors))) ∧
  (∀ s : State, s.dramOn = true → s.nft.ready = false → Gives .nftMapLoaded s (fun t =>
    t.nft.ready = true ∧ t.nft.ckAt = s.tb.elapsed ∧ t.nft.sectors = s.nft.sectors)) ∧
  (∀ (i : Init) (v : W32) (s : State), Reaches i 0x1D0000 s →
    let d := s.desc ((s.reg 0x1D0020).extractLsb' 0 16).toNat
    let g : W32 := v &&& 0x00F71C1F#32
    (v.getLsbD 31 = false → Responds (.nftFormat i v) i .denied s (fun t => t.nft = s.nft)) ∧
    (v.getLsbD 31 = true → s.nft.cmds ≠ [] → Responds (.nftFormat i v) i .retry s (fun t => t.nft = s.nft)) ∧
    (v.getLsbD 31 = true → s.nft.cmds = [] → d.depth = 0 → v.extractLsb' 20 4 &&& ~~~((caps1 s.sys.variant).extractLsb' 20 4) = 0#4 →
      4 ≤ geomWidth g → geomWidth g ≤ 16 → geomWidth g ≤ geomDies g → geomDies g ≤ 64 → v.extractLsb' 10 2 ≠ 3#2 →
      Responds (.nftFormat i v) i .ok s (fun t => t.nft.geom = g ∧ t.nft.sectors = [] ∧ t.nft.stripes = [] ∧ t.nft.vsize = [] ∧
        (∀ k, k < geomDies g → (t.die k).state = (if (s.die k).state = 2 then 2 else 1)))))

/-- R363, R364, R366, R367, R452: a line that verifies is read, with one bit corrected and counted, and one that does not is
poisoned and answers INTEGRITY; a full-line write stores its bytes, clears POISON and changes no other byte; a partial write merges
with a line that verifies, and is refused, or for the host discarded and counted, otherwise; the scrubber does the same line by
line. -/
def Obligations.DramLines : Prop :=
  ∀ (i : Init) (l : BitVec 28) (s : State),
    let a := 64 * l.toNat
    s.dramOn = true → s.ramFrozen a 64 = false →
    (s.lineGate i false a 64 = .ok →
      (s.poisoned l.toNat = false →
        Responds (.dramLineRead i l .clean) i .ok s (fun t => t.mem = s.mem) ∧
        Responds (.dramLineRead i l .oneBit) i .ok s (fun t => t.mem = { s.mem with corr := min 0xFFFF (s.mem.corr + 1) }) ∧
        Responds (.dramLineRead i l .many) i .integrity s (fun t => t.poisoned l.toNat = true ∧ t.mem.dram = s.mem.dram ∧
          (∀ k, k ≠ l.toNat → t.poisoned k = s.poisoned k))) ∧
      (s.poisoned l.toNat = true → ∀ c, Responds (.dramLineRead i l c) i .integrity s (fun t => t.mem = s.mem))) ∧
    (∀ c, s.lineGate i false a 64 ≠ .ok → Responds (.dramLineRead i l c) i (s.lineGate i false a 64) s (fun t => t.mem = s.mem)) ∧
    (∀ v : Item, s.lineGate i true a 64 = .ok → Responds (.dramLineWrite i l v) i .ok s (fun t => t.line l.toNat = v ∧
      t.poisoned l.toNat = false ∧ (∀ b, b < a ∨ a + 64 ≤ b → t.ramByte b = s.ramByte b))) ∧
    (∀ v : Item, s.lineGate i true a 64 ≠ .ok → Responds (.dramLineWrite i l v) i (s.lineGate i true a 64) s (fun t => t.mem = s.mem)) ∧
    (∀ (f : Fin 64) (bs : List Byte), bs ≠ [] → f.val + bs.length ≤ 64 → bs.length < 64 → s.lineGate i true (a + f.val) bs.length = .ok →
      s.poisoned l.toNat = false →
      Gives (.dramPartialWrite i l f bs .clean) s (fun t => (∀ k, k < bs.length → t.ramByte (a + f.val + k) = bs.getD k 0#8) ∧
        (∀ b, b < a + f.val ∨ a + f.val + bs.length ≤ b → t.ramByte b = s.ramByte b) ∧
        (i ≠ .host → Tab.get .ok t.resp i.key = .ok)) ∧
      (i ≠ .host → Responds (.dramPartialWrite i l f bs .many) i .integrity s (fun t =>
        t.mem.dram = s.mem.dram ∧ t.poisoned l.toNat = true)) ∧
      (i = .host → Gives (.dramPartialWrite i l f bs .many) s (fun t => t.mem.dram = s.mem.dram ∧ t.poisoned l.toNat = true ∧
        t.mem.pwdrop = min 0x7F (s.mem.pwdrop + 1)))) ∧
    ((s.reg 0x1C0008).getLsbD 31 = true → a + 64 ≤ s.usable → s.poisoned l.toNat = false →
      Gives (.scrubLine l .many false) s (fun t => t.poisoned l.toNat = true ∧ t.mem.dram = s.mem.dram ∧
        (t.mem.scrubon = true ↔ a + 64 < s.usable)) ∧
      (∀ c, Gives (.scrubLine l c true) s (fun t => t.mem = { s.mem with scrubon := decide (a + 64 < s.usable) }))) ∧
    (∀ v : W32, Reaches i 0x1C0008 s →
      (1 ≤ (v.extractLsb' 0 8).toNat → (v.extractLsb' 0 8).toNat ≤ 168 → Responds (.memScrubWrite i v) i .ok s (fun t =>
        t.reg 0x1C0008 = v &&& 0x800000FF#32 ∧ (v.getLsbD 31 = false → t.mem.scrubon = false))) ∧
      (v.extractLsb' 0 8 = 0#8 ∨ 168 < (v.extractLsb' 0 8).toNat → Responds (.memScrubWrite i v) i .outOfRange s (fun t =>
        t.regs = s.regs ∧ t.mem = s.mem)))

/-- R381, R384 to R387, Tables 17.1, 17.4 and 17.5: a state is commanded by the host or a management port alone; a new one starts a
transition whose end, once its drains have ended, is the state in force with its clusters parked and, below P2, its links down; one
asked for during a transition is RETRY, one already in force OK. A lost main supply stops the main domains and raises BKP_ALERT's
cause. R330, R387, R390, R394, R437, R446: a cold reset leaves the main domains at their reset values but for what the boot loads,
raises the power cycles and keeps the backup domain, the vault's OTP and the boot store; a warm reset frees every thread, raises
every agent's epoch and returns the W windows alone to reset; PERST raises the host's epoch and takes its link down. -/
def Obligations.PowerAndResets : Prop :=
  ((∀ (k : Fin 5) (i : Init) (s : State), Reaches i 0x010000 s →
      let c : Instr := if k = 0 then .run i else if k = 1 then .economy i else if k = 2 then .listen i else if k = 3 then .retention i
        else .offWithBackup i
      let manages : Prop := i = .host ∨ i = .spi ∨ i = .i2c
      (¬manages → Responds c i .denied s (fun t => t.pwr = s.pwr)) ∧
      (manages → s.pwr.busy = true → Responds c i .retry s (fun t => t.pwr = { s.pwr with status := .retry })) ∧
      (manages → s.pwr.busy = false →
        (s.pwr.state = k.val → Responds c i .ok s (fun t => t.pwr = { s.pwr with status := .ok })) ∧
        (s.pwr.state ≠ k.val → s.pwr.state ≠ 4 → Responds c i .ok s (fun t => t.pwr = { s.pwr with
          busy := true, target := k.val, status := .ok, gate := s.parkFor k.val &&& ~~~s.pwr.parked })))) ∧
    (∀ s : State, s.pwr.mainOn = true → s.pwr.busy = true → s.pwrDrained = true → Gives .pwrTransitionDone s (fun t =>
      t.pwr = { s.pwr with busy := false, state := s.pwr.target, status := .ok, parked := s.parkFor s.pwr.target, gate := 0#4
                           offrdy := decide (s.pwr.target = 4) } ∧
      (3 ≤ s.pwr.target → s.pwr.state < 3 → t.hst.link = false ∧ t.spn.link = false ∧ (∀ n, n < 4 → (t.ethAt n).link = false)))) ∧
    (∀ (below : BitVec 3) (s : State), s.pwr.mainOn = true → below ≠ 0#3 → Gives (.mainSupplyLost below) s (fun t =>
      t.pwr = { s.pwr with mainOn := false } ∧ t.sys.cause = s.sys.cause ||| 4#32 ∧ t.evr.frozen = none ∧ t.evr.pend.getLsbD 4 = true))) ∧
  ((∀ s : State, Gives .coldReset s (fun t =>
      t.pwr = {} ∧ t.tb = {} ∧ t.qm = {} ∧ t.cfg = {} ∧ t.twn = {} ∧ t.mem = {} ∧ t.ord.epochs = [] ∧ t.ord.fences = [] ∧ t.ge.threads = State.reset.ge.threads ∧
      t.sys = { s.sys with cause := if s.pwr.mainOn then 1#32 else 5#32 } ∧ t.pending = s.pending ∧
      t.evr.pwrcyc = satInc32 s.evr.pwrcyc ∧ t.evr.opsec = s.evr.opsec ∧ t.evr.rtcSec = s.evr.rtcSec ∧ t.evr.tcnt0 = s.evr.tcnt0 ∧
      t.sec.huk = s.sec.huk ∧ t.upd.nor = s.upd.nor ∧ t.upd.active = s.upd.active ∧ t.upd.kept = s.upd.kept ∧
      (s.sec.otp = none → t.sec.life = s.sec.life))) ∧
    (∀ s : State, s.pwr.mainOn = true → Gives .warmReset s (fun t =>
      (∀ a, a < 128 → (t.thread a).st = .free) ∧ (t.thread 128).st = .running ∧ (t.thread 128).pc = 0#24 ∧
      (∀ a, a < 0x86 → t.epochOf a = s.epochOf a + 1#32) ∧ (∀ a, t.fencedAg a = s.fencedAg a) ∧
      (∀ o, t.reg o = if domainW (o / 0x10000) then regReset o else s.reg o) ∧
      t.sys = { s.sys with cause := s.sys.cause ||| 2#32 } ∧ t.pwr = s.pwr ∧ t.tb = s.tb ∧ t.hst.link = s.hst.link)) ∧
    (∀ s : State, s.pwr.mainOn = true → Gives .pcieReset s (fun t =>
      t.hst = { s.hst with link := false, d3hot := false } ∧ t.epochOf 0x081 = s.epochOf 0x081 + 1#32 ∧ t.regs = s.regs)))

/-- R388 to R392: the battery's onset and clearing; the domain stops below 2.0 V without main power and resumes with its RTC
invalid; EVR_RTCSET is the supervisor's, and takes at the next second boundary; every second counts the RTC and, with main power
throughout, the operating seconds; an accepted fall of a tamper input counts once and sets its PEND bit; EVR_ALERT clears PEND bits
for the host and supervisor. -/
def Obligations.BackupDomain : Prop :=
  (∀ (mv : BitVec 16) (s : State), s.evr.running = true →
    (2200 ≤ mv.toNat → Gives (.vbatLow mv) s (fun t => t.evr = { s.evr with vbat := mv.toNat, vbatlow := false })) ∧
    (mv.toNat < 2200 → s.evr.vbatlow = false → Gives (.vbatLow mv) s (fun t =>
      t.evr.vbatlow = true ∧ t.evr.vbat = mv.toNat ∧ t.evr.pend.getLsbD 3 = true)) ∧
    (s.pwr.mainOn = false → s.evr.vbat < 2000 → Gives .backupDomainStop s (fun t =>
      t.evr.running = false ∧ t.evr.rtcv = false ∧ t.evr.total = s.evr.total ∧ t.evr.opsec = s.evr.opsec)) ∧
    (∀ b : Bool, Gives (.operatingSecond b) s (fun t => t.evr.rtcSec = (if s.evr.rtcv then s.evr.rtcSec + 1#64 else s.evr.rtcSec) ∧
      t.evr.opsec = (if b = true ∧ s.pwr.mainOn = true ∧ s.evr.opsec ≠ 0xFFFFFFFF#32 then s.evr.opsec + 1#32 else s.evr.opsec)))) ∧
  (∀ s : State, s.evr.running = false → Gives .backupSupplyReturn s (fun t => t.evr.running = true ∧ t.evr.rtcv = false ∧
    t.evr.total = s.evr.total)) ∧
  (∀ (i : Init) (v : W32) (s : State), Reaches i 0x07000C s →
    (i ≠ .sup → Responds (.evrRtcset i v) i .denied s (fun t => t.evr = s.evr)) ∧
    (i = .sup → v.getLsbD 0 = true → s.tb.clkLost = false → s.tinv = false → Responds (.evrRtcset i v) i .ok s (fun t =>
      t.evr = { s.evr with rtcPend := true, rtcAt := s.tb.elapsed })) ∧
    (i = .sup → v.getLsbD 0 = true → s.tinv = true → Responds (.evrRtcset i v) i .retry s (fun t => t.evr = s.evr)) ∧
    (i = .host ∨ i = .sup → Responds (.evrAlertWrite i v) i .ok s (fun t => t.evr.pend = s.evr.pend &&& ~~~(v.extractLsb' 0 5) ∧
      t.reg 0x070008 = v &&& 0x1F0000#32)) ∧
    (i ≠ .host → i ≠ .sup → Responds (.evrAlertWrite i v) i .denied s (fun t => t.evr = s.evr ∧ t.regs = s.regs))) ∧
  (∀ s : State, s.pwr.mainOn = true → s.evr.running = true → s.evr.rtcPend = true → s.tb.clkLost = false →
    (s.dom s.sel).carry = true → s.evr.rtcAt < s.tb.elapsed → Gives .rtcSetApply s (fun t =>
      t = { s with evr := { s.evr with rtcv := true, rtcSec := (s.dom s.sel).sec, rtcSub := 0#15, rtcPend := false } })) ∧
  (∀ s : State, (s.pwr.mainOn = false ∨ s.evr.running = false ∨ s.evr.rtcPend = false ∨ s.tb.clkLost = true ∨
    (s.dom s.sel).carry = false ∨ s.tb.elapsed ≤ s.evr.rtcAt) → exec .rtcSetApply s = .next s) ∧
  (∀ s : State, s.evr.running = true →
    (s.evr.sealLow = false → Gives (.tamperInputChange .seal true) s (fun t => t.evr.sealLow = true ∧ t.evr.pend.getLsbD 1 = true ∧
      t.evr.tcnt2 = satInc32 s.evr.tcnt2 ∧ t.evr.tcnt0 = s.evr.tcnt0 ∧ t.evr.tcnt1 = s.evr.tcnt1)) ∧
    (s.evr.coverLow = false → Gives (.tamperInputChange .cover true) s (fun t => t.evr.coverLow = true ∧ t.evr.pend.getLsbD 0 = true ∧
      t.evr.tcnt0 = satInc32 s.evr.tcnt0)) ∧
    (s.evr.magnetLow = false → Gives (.tamperInputChange .magnet true) s (fun t => t.evr.magnetLow = true ∧ t.evr.pend.getLsbD 2 = true ∧
      t.evr.tcnt1 = satInc32 s.evr.tcnt1)) ∧
    (s.evr.sealLow = true → Gives (.tamperInputChange .seal false) s (fun t => t.evr.sealLow = false ∧ t.evr.tcnt2 = s.evr.tcnt2 ∧
      t.evr.pend = s.evr.pend)))

/-- R395, R396, R453: a bucket gains its token, up to BURST, and its suppressed records are summarised; an override row is taken,
refused with a code another row holds or out of its bounds, and cleared by zero; a freeze has one owner, who alone releases it, and
ends at EVR_FRZTMO; an area is copied line by line with the rights of the initiator that asked. -/
def Obligations.EventRecorder : Prop :=
  (∀ (c : BitVec 16) (b : Bucket) (s : State), s.evr.running = true → s.evr.buckets.find? (fun b => decide (b.code = c.toNat)) = some b →
    (s.rateOf c.toNat).1 ≠ 0 → Gives (.tokenRefill c) s (fun t =>
      t.evr.buckets = insBucket { b with tokens := min (s.rateOf c.toNat).2 (b.tokens + 1), supp := 0 } s.evr.buckets ∧
      (b.supp = 0 → t.evr.total = s.evr.total))) ∧
  (∀ (i : Init) (v : W32) (s : State), Reaches i 0x07003C s →
    let k := ((s.reg 0x070038).extractLsb' 0 6).toNat
    let taken : Prop := ∃ e ∈ s.evr.rl, e.1 ≠ k ∧ e.2.extractLsb' 16 16 = v.extractLsb' 16 16
    let fits : Prop := (v.extractLsb' 8 8).toNat ≤ 240 ∧ v.extractLsb' 0 8 ≠ 0#8
    (v = 0#32 ∨ (¬taken ∧ fits) → Responds (.evrRldataWrite i v) i .ok s (fun t => Tab.get 0#32 t.evr.rl k = v ∧
      (∀ j, j ≠ k → Tab.get 0#32 t.evr.rl j = Tab.get 0#32 s.evr.rl j))) ∧
    (v ≠ 0#32 → taken → Responds (.evrRldataWrite i v) i .denied s (fun t => t.evr = s.evr)) ∧
    (v ≠ 0#32 → ¬taken → ¬fits → Responds (.evrRldataWrite i v) i .outOfRange s (fun t => t.evr = s.evr))) ∧
  (∀ (i : Init) (s : State), Reaches i 0x070024 s →
    (i ≠ .host → i ≠ .sup → Responds (.evrFreeze i) i .denied s (fun t => t.evr = s.evr) ∧
      Responds (.evrRelease i) i .denied s (fun t => t.evr = s.evr)) ∧
    (i = .host ∨ i = .sup →
      (s.evr.frozen = none → Responds (.evrFreeze i) i .ok s (fun t =>
        t.evr = { s.evr with frozen := some (i.key, s.epochOf i.key, s.tb.elapsed) })) ∧
      (∀ o e a, s.evr.frozen = some (o, e, a) →
        (o ≠ i.key → Responds (.evrFreeze i) i .retry s (fun t => t.evr = s.evr) ∧ Responds (.evrRelease i) i .denied s (fun t => t.evr = s.evr)) ∧
        (o = i.key → Responds (.evrFreeze i) i .ok s (fun t => t.evr = s.evr) ∧ Responds (.evrRelease i) i .ok s (fun t =>
          t.evr.frozen = none ∧ t.evr.hold = [] ∧ t.evr.dropped = 0))))) ∧
  (∀ (o : Nat) (e : W32) (a : Nat) (s : State), s.evr.frozen = some (o, e, a) → s.pwr.mainOn = true →
    a + (s.reg 0x070028).toNat * 125000 ≤ s.tb.elapsed → Gives .freezeTimeout s (fun t => t.evr.frozen = none ∧ t.evr.hold = [] ∧ t.evr.dropped = 0)) ∧
  (∀ (i : Init) (v : W32) (s : State), Reaches i 0x070034 s →
    let k := (v.extractLsb' 0 2).toNat
    let a := s.reg2 0x07002C
    (s.evr.copy ≠ none → Responds (.evrCpycmd i v) i .retry s (fun t => t.evr = s.evr)) ∧
    (s.evr.copy = none → k = 3 → Responds (.evrCpycmd i v) i .denied s (fun t => t.evr = s.evr)) ∧
    (s.evr.copy = none → k ≠ 3 → a % 64 ≠ 0 → Responds (.evrCpycmd i v) i .outOfRange s (fun t => t.evr = s.evr)) ∧
    (s.evr.copy = none → k ≠ 3 → a % 64 = 0 → Responds (.evrCpycmd i v) i .ok s (fun t => t.evr = { s.evr with copy := some (k, a, i) }))) ∧
  (∀ (k a : Nat) (i : Init) (s : State), s.evr.copy = some (k, a, i) → s.dramOn = true →
    let bs := (s.evr.area k).flatMap (bytesOf 32)
    (a % 64 = 0 → (∀ j, j < bs.length / 64 → s.ramGate i true (a + 64 * j) 64 = .ok) → Gives .areaCopyDone s (fun t =>
      t.evr = { s.evr with copy := none, cpyStat := .ok, cpyArea := k } ∧
      (∀ j, j < bs.length → t.ramByte (a + j) = bs.getD j 0#8))) ∧
    (s.ramGate i true a 64 ≠ .ok → Gives .areaCopyDone s (fun t =>
      t.evr = { s.evr with copy := none, cpyStat := s.ramGate i true a 64, cpyArea := k } ∧ t.mem = s.mem)))

/-! ## Host port, mailboxes, fabric, counters, pins, registers (18 to 20) -/

/-- R406, R410: a PCIe item enters FIFO 17 as source 52's next, bytes 24-63 the writer's; through a management port the first word
opens an item, the next one in order joins it, and the 16th enters the item, or answers RETRY and discards it while FIFO 17 holds;
any other word closes the open item and counts in ITEMBAD, as does 1 ms of chip select high, which raises agent 0x082's epoch.
R116, R404, R405, R407: the PCIe link's loss and a function-level reset raise the host's epoch; a link that trains comes up in D0;
the function's power state follows the host's request; an outbound read without completion is POWERED_DOWN with event 0x1E01 naming
address [33:6]; a pop removes the error log's head and clears OVF. -/
def Obligations.HostPort : Prop :=
  ((∀ (p : Fin 8) (body : Item) (s : State),
      s.pwr.mainOn = true → s.frozenTgt 2 = false → s.hst.link = true → s.hst.d3hot = false → (s.fifo 17).hold = false →
      s.fencedAg 0x081 = false → (s.fifo 17).items.length < 32 →
      let m := s.momentNow
      let x := stampItem body m.st m.off (s.sourceId 52) m.fl (Tab.get 0#32 s.qm.seq 52) (s.epochAt (stampT32 m.st))
      Responds (.itemPortPcieWrite p body) .host .ok s (fun t =>
        (t.fifo 17).items = (s.fifo 17).items ++ [(p.val, x)] ∧ x.extractLsb' 192 64 = body.extractLsb' 192 64 ∧
        x.extractLsb' 288 224 = body.extractLsb' 288 224)) ∧
    (∀ (viaI2c : Bool) (off : BitVec 9) (v : W32) (s : State),
      let i : Init := if viaI2c then .i2c else .spi
      let c : Instr := .itemPortWordWrite viaI2c off v
      let p := off.toNat / 64
      let k := off.toNat % 64 / 4
      Reaches i 0x1E1000 s → (viaI2c = true → (s.reg 0x1E0080).getLsbD 31 = true) → off.toNat % 4 = 0 →
      (s.itemOpen i = none → k = 0 → Responds c i .ok s (fun t =>
        t.itemOpen i = some ⟨p, [v]⟩ ∧ t.hst.itembad = s.hst.itembad ∧ t.qm = s.qm)) ∧
      (∀ ws : List W32, s.itemOpen i = some ⟨p, ws⟩ → ws.length = k →
        (k < 15 → Responds c i .ok s (fun t => t.itemOpen i = some ⟨p, ws ++ [v]⟩ ∧ t.hst.itembad = s.hst.itembad ∧ t.qm = s.qm)) ∧
        (k = 15 → (s.fifo 17).hold = true → Responds c i .retry s (fun t => t.itemOpen i = none ∧ t.qm = s.qm)) ∧
        (k = 15 → (s.fifo 17).hold = false → (s.fifo 17).items.length < 32 → Responds c i .ok s (fun t =>
          let body : Item := BitVec.ofNat 512 (natOfBytes ((ws ++ [v]).flatMap (bytesOf 4)))
          t.itemOpen i = none ∧ (t.fifo 17).items = (s.fifo 17).items ++ [(p, stampItem body s.momentNow.st s.momentNow.off (s.sourceId 52)
            s.momentNow.fl (Tab.get 0#32 s.qm.seq 52) (s.epochAt (stampT32 s.momentNow.st)))]))) ∧
      ((∀ b, s.itemOpen i = some b → b.prio ≠ p ∨ b.words.length ≠ k) → (s.itemOpen i = none → k ≠ 0) →
        Responds c i .ok s (fun t => t.itemOpen i = none ∧ t.qm = s.qm ∧
          t.hst.itembad = (if s.hst.itembad < 0xFFFF then s.hst.itembad + 1 else 0xFFFF)))) ∧
    (∀ (b : ItemBuf) (s : State), s.pwr.mainOn = true → s.hst.itemSpi = some b → Gives .itemPortTimeout s (fun t =>
      t.hst.itemSpi = none ∧ t.hst.itembad = (if s.hst.itembad < 0xFFFF then s.hst.itembad + 1 else 0xFFFF) ∧
      t.epochOf 0x082 = s.epochOf 0x082 + 1#32 ∧ t.qm = s.qm))) ∧
  ((∀ s : State, s.pwr.mainOn = true →
      (s.hst.link = true → Gives .pcieLinkDown s (fun t => t.hst.link = false ∧ t.epochOf 0x081 = s.epochOf 0x081 + 1#32 ∧
        (∀ a, a ≠ 0x081 → t.epochOf a = s.epochOf a))) ∧
      (s.hst.link = false → exec .pcieLinkDown s = .next s) ∧
      (s.pwr.state < 3 → Gives .pcieLinkUp s (fun t => t = { s with hst := { s.hst with link := true, d3hot := false } })) ∧
      Gives .functionLevelReset s (fun t => t.epochOf 0x081 = s.epochOf 0x081 + 1#32 ∧ t.regs = s.regs ∧ t.hst = s.hst ∧
        (∀ a, a ≠ 0x081 → t.epochOf a = s.epochOf a)) ∧
      (∀ d : Bool, s.hst.link = true → Gives (.pciePowerStateChange d) s (fun t => t = { s with hst := { s.hst with d3hot := d } })) ∧
      (∀ (i : Init) (a : BitVec 34), Responds (.outboundTimeout i a) i .poweredDown s (fun t =>
        t = (s.event 0x1E01 ((a.extractLsb' 6 28).setWidth 32)).respond i .poweredDown))) ∧
    (∀ (i : Init) (v : W32) (s : State), Reaches i 0x1E007C s →
      (v.getLsbD 0 = true → Responds (.hstErrpop i v) i .ok s (fun t =>
        t.hst = { s.hst with errlog := s.hst.errlog.drop 1, errOvf := false })) ∧
      (v.getLsbD 0 = false → Responds (.hstErrpop i v) i .ok s (fun t => t.hst = s.hst))))

/-- R409, R411: an SPI transfer is its words in order, each one 32-bit access at an address 4 higher, and keeps the last access's
status, which STATUS returns; a word is read from or stored to DRAM under the SPI target's rights; an I2C transaction goes on word
by word until an access is refused; SCL low for 25 ms returns the port to idle and raises agent 0x083's epoch. R412, R414: a write
of HST_I2CCMD is refused while BUSY, without CTRL and out of its bounds; GO starts the transaction with the WLEN bytes of the data
registers; a lost arbitration records its bit and tries again until RETRIES retries are used, then ends with ARB_LOST, a NACK ends
it with RETRY; its end sets STATUS, stores the bytes read, clears BUSY and raises the HST interrupt. -/
def Obligations.ManagementPorts : Prop :=
  ((∀ (a : BitVec 40) (v : W32) (vs : List W32) (s t : State), (v :: vs).length ≤ 64 → s.spiWaits a (vs.length + 1) = false →
      exec (.spiWrite a [v]) s = .next t → t.pwr.mainOn = true → t.spiWaits (a + 4#40) vs.length = false →
      exec (.spiWrite a (v :: vs)) s = exec (.spiWrite (a + 4#40) vs) t) ∧
    (∀ (a : BitVec 40) (s : State), a.toNat < 0x400000000 → a.toNat % 4 = 0 → s.spiWaits a 1 = false → s.poisoned (a.toNat / 64) = false →
      (s.fabRight .spi false a.toNat 4 = .ok → Gives (.spiRead a 1) s (fun t => t.hst.spiStat = .ok ∧ t.mem = s.mem ∧
        t.hst.rdata = [BitVec.ofNat 32 (natOfBytes ((List.range 4).map (fun k => s.ramByte (a.toNat + k))))])) ∧
      (s.fabRight .spi false a.toNat 4 ≠ .ok → Gives (.spiRead a 1) s (fun t => t.hst.spiStat = s.fabRight .spi false a.toNat 4)) ∧
      (∀ v : W32,
        (s.fabRight .spi true a.toNat 4 = .ok → Gives (.spiWrite a [v]) s (fun t => t.hst.spiStat = .ok ∧
          ∀ b, t.ramByte b = if a.toNat ≤ b ∧ b < a.toNat + 4 then (bytesOf 4 v).getD (b - a.toNat) 0#8 else s.ramByte b)) ∧
        (s.fabRight .spi true a.toNat 4 ≠ .ok → Gives (.spiWrite a [v]) s (fun t =>
          t.hst.spiStat = s.fabRight .spi true a.toNat 4 ∧ t.mem = s.mem)))) ∧
    (∀ s : State, s.pwr.mainOn = true → Gives .spiStatus s (fun t => t.hst.rdata = [BitVec.ofNat 32 s.hst.spiStat.code])) ∧
    (∀ (off : BitVec 24) (v : W32) (vs : List W32) (s : State), s.i2cOn = true →
      let u := (s.regWrite .i2c off.toNat v).2
      let st := (s.regWrite .i2c off.toNat v).1
      (∀ t, exec (.i2cTargetWrite off [v]) s = .next t → t.i2cOn = true →
        exec (.i2cTargetWrite off (v :: vs)) s = if st = .ok then exec (.i2cTargetWrite (off + 4#24) vs) t else .next t) ∧
      Gives (.i2cTargetWrite off [v]) s (fun t => t.hst.i2cStat = st ∧ t.regs = u.regs ∧ t.mem = u.mem)) ∧
    (∀ (off : BitVec 24) (s : State), s.i2cOn = true →
      let r := s.regRead .i2c off.toNat
      Gives (.i2cTargetRead off 1) s (fun t => t.hst.rdata = (if r.1 = .ok then [r.2.1] else []) ∧ t.hst.i2cStat = r.1 ∧ t.regs = r.2.2.regs)) ∧
    (∀ s : State, s.pwr.mainOn = true → Gives .i2cSclTimeout s (fun t => t.hst.i2cBusy = false ∧ t.epochOf 0x083 = s.epochOf 0x083 + 1#32 ∧
      t.regs = s.regs))) ∧
  ((∀ (i : Init) (v : W32) (bus : I2cBus) (s : State), Reaches i 0x1E0088 s →
      let wlen := (v.extractLsb' 16 7).toNat
      let rlen := (v.extractLsb' 0 7).toNat
      let bad : Prop := 64 < wlen ∨ 64 < rlen ∨ (v.getLsbD 30 = true ∧ rlen = 0) ∨ (wlen = 0 ∧ rlen = 0)
      (s.hst.i2cBusy = true → Responds (.go i v bus) i .retry s (fun t => t.regs = s.regs ∧ t.hst.i2cBusy = true ∧ t.out = s.out)) ∧
      (s.hst.i2cBusy = false → (s.reg 0x1E0080).getLsbD 30 = false →
        Responds (.go i v bus) i .denied s (fun t => t.regs = s.regs ∧ t.hst.i2cBusy = false)) ∧
      (s.hst.i2cBusy = false → (s.reg 0x1E0080).getLsbD 30 = true →
        (bad → Responds (.go i v bus) i .outOfRange s (fun t => t.regs = s.regs ∧ t.hst.i2cBusy = false)) ∧
        (¬bad → v.getLsbD 31 = false → Responds (.go i v bus) i .ok s (fun t => t.reg 0x1E0088 = v &&& 0x7FFF007F#32 ∧ t.out = s.out ∧
          t.hst.i2cBusy = false)) ∧
        (¬bad → v.getLsbD 31 = true → Responds (.go i v bus) i .ok s (fun t =>
          let data := ((List.range 16).flatMap (fun k => bytesOf 4 (s.reg (0x1E00C0 + 4 * k)))).take wlen
          t.reg 0x1E0088 = v &&& 0x7FFF007F#32 ∧ t.out = s.out ++ [.i2cStart (v.extractLsb' 23 7).toNat data] ∧
          t.hst.i2cBusy = true ∧ t.hst.i2cTries = 1 ∧
          match bus with
          | .done rd => t.hst.i2cDue = false ∧ t.hst.i2cEnd = some (.ok, rd)
          | .nack => t.hst.i2cDue = false ∧ t.hst.i2cEnd = some (.retry, [])
          | .lost b => t.hst.i2cBit = b ∧ (if ((s.reg 0x1E0080).extractLsb' 24 4).toNat = 0 then t.hst.i2cDue = false ∧ t.hst.i2cEnd = some (.arbLost, [])
              else t.hst.i2cDue = true ∧ t.hst.i2cEnd = none))))) ∧
    (∀ (bus : I2cBus) (s : State), s.pwr.mainOn = true → s.hst.i2cBusy = true → s.hst.i2cDue = true →
      let n := s.hst.i2cTries + 1
      Gives (.i2cBackoffExpiry bus) s (fun t => t.hst.i2cTries = min 15 n ∧ t.out.length = s.out.length + 1 ∧
        match bus with
        | .done rd => t.hst.i2cDue = false ∧ t.hst.i2cEnd = some (.ok, rd)
        | .nack => t.hst.i2cDue = false ∧ t.hst.i2cEnd = some (.retry, [])
        | .lost b => t.hst.i2cBit = b ∧ (t.hst.i2cEnd = some (.arbLost, []) ↔ ((s.reg 0x1E0080).extractLsb' 24 4).toNat < n) ∧
            (t.hst.i2cDue = true ↔ n ≤ ((s.reg 0x1E0080).extractLsb' 24 4).toNat))) ∧
    (∀ (st : Status) (rd : List Byte) (s : State), s.pwr.mainOn = true → s.hst.i2cEnd = some (st, rd) →
      Gives .i2cTransactionDone s (fun t => t.hst.i2cStat = st ∧ t.hst.i2cBusy = false ∧ t.hst.i2cEnd = none ∧ t.sup.sipend.getLsbD 7 = true ∧
        (st ≠ .ok → t.regs = s.regs) ∧
        (st = .ok → (s.reg 0x1E0088).getLsbD 30 = true → ((s.reg 0x1E0088).extractLsb' 0 7).toNat = rd.length → rd.length ≤ 64 →
          ∀ j, j < rd.length → (t.reg (0x1E00C0 + 4 * (j / 4))).extractLsb' (8 * (j % 4)) 8 = rd.getD j 0#8))))

/-- R408, R415 to R418: the read of MBX_SENDn by the channel's SRC puts its record in the ring, RETRY at a full one, POWERED_DOWN
for a receiver that is down, DENIED to others, with nothing sent; MBX takes SQ's item when the ring has room, answering for a
receiver that is down; a record for a Garnil domain is published on DQ with its channel in byte 56; a pop removes a host or
management ring's head. -/
def Obligations.Mailboxes : Prop :=
  (∀ (i : Init) (n : Fin 32) (s : State), Reaches i (0x050008 + 0x40 * n.val) s →
    let c : Instr := .mbxSend i n
    let own := s.chEn n.val && decide (initDomain i = some (s.chSrc n.val))
    let down := s.domDown n.val (s.chDst n.val)
    let w (k : Nat) : W32 := Tab.get 0#32 s.mbx.srec (i.key * 4 + k)
    (s.mbxAllowed i n.val = false → Responds c i .denied s (fun t => t.mbx = s.mbx)) ∧
    (s.mbxAllowed i n.val = true →
      (own = false → Responds c i .ok s (fun t => t.hst.rdata = [0x0B#32] ∧ t.mbx = s.mbx)) ∧
      (own = true → down = true → Responds c i .ok s (fun t => t.hst.rdata = [5#32] ∧ t.mbx = s.mbx)) ∧
      (own = true → down = false → 16 ≤ (s.chn n.val).ring.length → Responds c i .ok s (fun t => t.hst.rdata = [0x10#32] ∧ t.mbx = s.mbx)) ∧
      (own = true → down = false → (s.chn n.val).ring.length < 16 → Responds c i .ok s (fun t => t.hst.rdata = [0#32] ∧
        (t.chn n.val).ring.map (·.1) = (s.chn n.val).ring.map (·.1) ++ [w 3 ++ w 2 ++ w 1 ++ w 0] ∧
        (∀ m, m ≠ n.val → t.chn m = s.chn m) ∧ (s.chDst n.val = 0 → t.hst.msix.getLsbD n.val = true))))) ∧
  (∀ (n : Fin 32) (x : Item) (s u : State), s.pwr.mainOn = true → s.chEn n.val = true → 1 ≤ s.chSrc n.val → s.chSrc n.val ≤ 3 →
    s.hwTake (s.chSq n.val) = (some x, u) →
    let pair := n.val ^^^ 1
    (s.domDown n.val (s.chDst n.val) = false → (s.chn n.val).ring.length < 16 → Gives (.mbxTake n) s (fun t =>
      (t.chn n.val).ring = (u.chn n.val).ring ++ [(x.extractLsb' 320 128, x)] ∧ t.qm = u.qm)) ∧
    (s.domDown n.val (s.chDst n.val) = true → (s.chn pair).ring.length < 16 → Gives (.mbxTake n) s (fun t =>
      ∃ r : BitVec 128, (t.chn pair).ring = (u.chn pair).ring ++ [(r, x)] ∧ r.extractLsb' 96 16 = x.extractLsb' 416 16 ∧
        r.extractLsb' 112 8 = 5#8 ∧ (t.chn n.val).ring = (u.chn n.val).ring ∧ t.qm = u.qm))) ∧
  (∀ (n : Fin 32) (rec_ : BitVec 128) (key : Item) (rest : List (BitVec 128 × Item)) (s : State),
    let q := s.chDq n.val
    s.pwr.mainOn = true → s.chEn n.val = true → 1 ≤ s.chDst n.val → s.chDst n.val ≤ 3 → s.domDown n.val (s.chDst n.val) = false →
    (s.chn n.val).ring = (rec_, key) :: rest → s.qmAccess q = (true, s) → s.canPut q = true →
    Gives (.mbxDeliver n) s (fun t => (t.chn n.val).ring = rest ∧ (t.desc q).tail = ((s.desc q).tail + 1) % (s.desc q).modulus ∧
      ((s.desc q).cls ≠ 4 → (s.desc q).merge = false → (t.slotItem q (s.desc q).tail).extractLsb' 320 128 = rec_ ∧
        (t.slotItem q (s.desc q).tail).extractLsb' 448 8 = BitVec.ofNat 8 n.val))) ∧
  (∀ (i : Init) (n : Fin 32) (v : W32) (s : State), Reaches i (0x050020 + 0x40 * n.val) s →
    (s.mbxAllowed i n.val = false → Responds (.mbxPop i n v) i .denied s (fun t => t.mbx = s.mbx)) ∧
    (s.mbxAllowed i n.val = true → v.getLsbD 0 = true → s.chDst n.val = 0 ∨ s.chDst n.val = 4 →
      Responds (.mbxPop i n v) i .ok s (fun t => (t.chn n.val).ring = (s.chn n.val).ring.drop 1 ∧ ∀ m, m ≠ n.val → t.chn m = s.chn m)))

/-- R399 to R403: where no fence stands, a target's next transfer goes to the initiator decided one transfer ahead if it still
asks, else to the ordinary decision: the same initiator up to its weight, else the next that asks; the one-ahead decision takes the
stamp writer before cluster 0 before Spindle, and none after three in a row with an ordinary request waiting; a frozen target only
completes what was granted; the supervisor alone writes FAB_FREEZE. R419, R421, R422: a read of PMC_CNTLn returns the counter's
lower bits and latches its upper ones; a due capture writes its record's 1,600 bytes to the next slot of the ring; a bandwidth
window loads the derived counters and keeps each peak. -/
def Obligations.FabricAndCounters : Prop :=
  ((∀ (k : Fin 6) (reqs nextReqs : BitVec 14) (agents : List (Fin 512)) (s : State), s.pwr.mainOn = true →
      let x := s.tgt k.val
      (s.frozenTgt k.val = false → (∀ a ∈ agents, s.fencedAg a.val = false) → Gives (.fabricGrant k reqs nextReqs agents) s (fun t =>
        let y := t.tgt k.val
        let waits : Prop := ∃ j ∈ ordinaries, nextReqs.getLsbD j = true
        (∀ j, x.oneAhead = some j → reqs.getLsbD j = true → y.cur = some j ∧ y.rrp = x.rrp ∧ y.used = x.used) ∧
        ((∀ j, x.oneAhead = some j → reqs.getLsbD j = false) →
          (∀ j, y.cur = some j → j ∈ ordinaries ∧ reqs.getLsbD j = true) ∧
          ((∃ j ∈ ordinaries, reqs.getLsbD j = true) → y.cur ≠ none) ∧
          (x.rrp ∈ ordinaries → reqs.getLsbD x.rrp = true → x.used < ((s.reg (0x040000 + 4 * x.rrp)).extractLsb' 0 4).toNat →
            y.cur = some x.rrp ∧ y.used = x.used + 1) ∧
          (x.rrp ∈ ordinaries → ((s.reg (0x040000 + 4 * x.rrp)).extractLsb' 0 4).toNat ≤ x.used →
            (∃ j ∈ ordinaries, j ≠ x.rrp ∧ reqs.getLsbD j = true) → y.cur ≠ some x.rrp ∧ y.used = 1)) ∧
        (y.oneAhead ≠ some 5 → y.oneAhead ≠ none → nextReqs.getLsbD 5 = false) ∧
        (y.oneAhead = some 6 → nextReqs.getLsbD 6 = true ∧ nextReqs.getLsbD 0 = false) ∧
        (y.oneAhead = some 0 → nextReqs.getLsbD 0 = true) ∧ (y.oneAhead = some 5 → nextReqs.getLsbD 5 = true) ∧
        (waits → y.last4 = [true, true, true] → y.oneAhead = none) ∧
        (¬waits → (nextReqs.getLsbD 5 || nextReqs.getLsbD 0 || nextReqs.getLsbD 6) = true → y.oneAhead ≠ none))) ∧
      (s.frozenTgt k.val = true → Gives (.fabricGrant k reqs nextReqs agents) s (fun t =>
        t.tgt k.val = { x with cur := x.oneAhead, oneAhead := none } ∧ ∀ j : Fin 6, j ≠ k → t.tgt j.val = s.tgt j.val))) ∧
    (∀ (i : Init) (v : W32) (s : State), Reaches i 0x040040 s →
      (i = .sup → Responds (.fabFreezeWrite i v) i .ok s (fun t => t.reg 0x040040 = v &&& 0x3F#32)) ∧
      (i ≠ .sup → Responds (.fabFreezeWrite i v) i .denied s (fun t => t.regs = s.regs)))) ∧
  ((∀ (i : Init) (n : Fin 192) (s : State), Reaches i (0x060000 + 8 * n.val) s → Responds (.pmcCntlRead i n) i .ok s (fun t =>
      t.hst.rdata = [(s.cnt n.val).extractLsb' 0 32] ∧ Tab.get 0#16 t.pmc.hlatch n.val = (s.cnt n.val).extractLsb' 32 16 ∧
      t.pmc.cnt = s.pmc.cnt ∧ t.regs = s.regs)) ∧
    (∀ s : State,
      let n := (s.reg 0x061070).toNat
      let a := s.reg2 0x061068 + 1600 * s.pmc.ringwr
      s.dramOn = true → (s.reg 0x061064).toNat ≠ 0 → s.pmc.capAt + (s.reg 0x061064).toNat * 125 ≤ s.tb.elapsed →
      (n = 0 ∨ s.ramFrozen a 1600 = true → Gives .pmcCapture s (fun t => t = { s with pmc := { s.pmc with
        capAt := s.tb.elapsed, skip := if s.pmc.skip < 0xFFFFFFFF then s.pmc.skip + 1 else 0xFFFFFFFF } })) ∧
      (n ≠ 0 → s.ramFrozen a 1600 = false → a % 64 = 0 → (∀ j, j < 25 → s.ramGate (.hw 13) true (a + 64 * j) 64 = .ok) →
        Gives .pmcCapture s (fun t =>
          t.pmc = { s.pmc with capAt := s.tb.elapsed, rseq := s.pmc.rseq + 1#32, ringwr := if s.pmc.ringwr + 1 < n then s.pmc.ringwr + 1 else 0 } ∧
          s.pmcRecord.length = 1600 ∧ ∀ j, j < 1600 → t.ramByte (a + j) = s.pmcRecord.getD j 0#8))) ∧
    (∀ (bytes : List W32) (s : State), s.pwr.mainOn = true → (s.reg 0x061060).getLsbD 0 = true → s.pmc.bw = true →
      (s.reg 0x06107C).toNat ≠ 0 → s.pmc.bwAt + (s.reg 0x06107C).toNat * 125 ≤ s.tb.elapsed → bytes.length = 16 →
      Gives (.pmcBwWindow bytes) s (fun t => t.pmc.bwAt = s.tb.elapsed ∧
        (∀ k, k < 16 → t.cnt (176 + k) = (bytes.getD k 0#32).setWidth 48 ∧
          (Tab.get 0#32 t.pmc.peak k).toNat = max (Tab.get 0#32 s.pmc.peak k).toNat (bytes.getD k 0#32).toNat) ∧
        ∀ n, n < 176 → t.cnt n = s.cnt n)))

/-- R431, R432, R438: PIN_FUNC is the supervisor's and the host's; a reserved value or a function the pin lacks is DENIED, an
absent one ABSENT, any while BUSY RETRY; the function in force starts no switch, another one starts it, and the switch's end clears
BUSY; JTAG runs BYPASS and IDCODE in every life state and the rest of R438's instructions in PROVISION alone. -/
def Obligations.PinsAndJtag : Prop :=
  (∀ (i : Init) (p : Fin 192) (v : W32) (s : State), Reaches i (0x020000 + 8 * p.val) s →
    let c : Instr := .pinFuncWrite i p v
    let f := v.extractLsb' 0 2
    let cur := (s.reg (0x020000 + 8 * p.val)).extractLsb' 0 2
    (i ≠ .sup → i ≠ .host → Responds c i .denied s (fun t => t.pin = s.pin ∧ t.regs = s.regs)) ∧
    (i = .sup ∨ i = .host →
      (2 ≤ f.toNat ∨ (f = 1#2 ∧ pinNamed p.val = false) → Responds c i .denied s (fun t => t.pin = s.pin ∧ t.regs = s.regs)) ∧
      (f = 1#2 → 144 ≤ p.val → s.sys.variant = .r → Responds c i .absent s (fun t => t.pin = s.pin ∧ t.regs = s.regs)) ∧
      (f.toNat < 2 → (f = 1#2 → pinNamed p.val = true ∧ s.pinAbsent p.val = false) →
        (s.pinBusy p.val = true → Responds c i .retry s (fun t => t.pin = s.pin ∧ t.regs = s.regs)) ∧
        (s.pinBusy p.val = false → f = cur → Responds c i .ok s (fun t => t.pin = s.pin ∧ t.regs = s.regs)) ∧
        (s.pinBusy p.val = false → f ≠ cur → Responds c i .ok s (fun t =>
          t.reg (0x020000 + 8 * p.val) = v &&& 3#32 ∧ t.pinBusy p.val = true ∧
          ∀ r : Fin 192, r ≠ p → t.pinBusy r.val = s.pinBusy r.val))))) ∧
  (∀ (p : Fin 192) (s : State), s.pwr.mainOn = true → s.pwr.state < 3 → Gives (.pinSwitchDone p) s (fun t =>
    t.pinBusy p.val = false ∧ t.regs = s.regs ∧ ∀ r : Fin 192, r ≠ p → t.pinBusy r.val = s.pinBusy r.val)) ∧
  (∀ (j : Jtag) (s : State), Gives (.jtagInstruction j) s (fun t => t = { s with pin := { s.pin with jtag := t.pin.jtag } } ∧
    t.pin.jtag = if j = .idcode ∨ (s.sec.life = 0 ∧ j ≠ .other) then j else .bypass))

/-- R3, R10, R124, R445: a register access of a fenced agent is FENCED, one at no register, misaligned or of another size DENIED,
one to an absent unit ABSENT, an H register DENIED outside Heartwood; a write of an RO register is OK and ignored; 8 bytes aligned
to 8 are two writes, lower word first; the low word of a two-word value waits in its initiator's latch and the high word applies
both. -/
def Obligations.RegisterAccesses : Prop :=
  (∀ (i : Init) (a : BitVec 24) (n : Fin 65) (v : Word) (s : State), s.pwr.mainOn = true → s.frozenTgt 2 = false →
    let c : Instr := .registerWrite i a n v
    let keeps (t : State) : Prop := t.regs = s.regs ∧ t.latch = s.latch ∧ t.ord = s.ord ∧ t.qm = s.qm
    (s.fencedInit i = true → Responds c i .fenced s keeps) ∧
    (s.fencedInit i = false →
      (n.val ≠ 4 → ¬(n.val = 8 ∧ a.toNat % 8 = 0) → Responds c i .denied s keeps) ∧
      (n.val = 4 → a.toNat % 4 ≠ 0 ∨ regRow a.toNat = none → Responds c i .denied s keeps) ∧
      (∀ r, n.val = 4 → a.toNat % 4 = 0 → regRow a.toNat = some r →
        (s.present (a.toNat / 0x10000) = false → Responds c i .absent s keeps) ∧
        (s.present (a.toNat / 0x10000) = true →
          (r.acc = .h → i.heartwood = false → Responds c i .denied s keeps) ∧
          (r.acc = .ro → Responds c i .ok s keeps) ∧
          (r.words = 2 → r.word a.toNat = 0 → r.acc = .rw → Responds c i .ok s (fun t =>
            t.regs = s.regs ∧ Tab.get none t.latch (i.key * 2 ^ 24 + a.toNat) = some (v.extractLsb' 0 32))))))) ∧
  (∀ (i : Init) (v : Word) (s : State), Reaches i 0x1E0008 s →
    Responds (.registerWrite i 0x1E0008#24 8 v) i .ok s (fun t => t.reg2 0x1E0008 = v.toNat) ∧
    (∀ lo, Tab.get none s.latch (i.key * 2 ^ 24 + 0x1E0008) = some lo → Responds (.registerWrite i 0x1E000C#24 4 v) i .ok s (fun t =>
      t.reg2 0x1E0008 = lo.toNat + 2 ^ 32 * (v.extractLsb' 0 32).toNat ∧
      (∀ o, o ≠ 0x1E0008 → o ≠ 0x1E000C → t.reg o = s.reg o)))) ∧
  (∀ (i : Init) (k : Fin 14) (v : Word) (s : State), Reaches i (0x040000 + 4 * k.val) s →
    let c : Instr := .registerWrite i (BitVec.ofNat 24 (0x040000 + 4 * k.val)) 4 v
    (i ≠ .sup → Responds c i .denied s (fun t => t.regs = s.regs)) ∧
    (i = .sup → v.extractLsb' 0 4 = 0#4 → Responds c i .outOfRange s (fun t => t.regs = s.regs)) ∧
    (i = .sup → v.extractLsb' 0 4 ≠ 0#4 → Responds c i .ok s (fun t =>
      t.reg (0x040000 + 4 * k.val) = (v.extractLsb' 0 32) &&& 0xF#32 ∧ ∀ o, o ≠ 0x040000 + 4 * k.val → t.reg o = s.reg o)))

/-! ## The block as a whole -/

/-- The model's command queue (its own form, log entry 1): a step takes the command at the front and is that command's effect on
the state with the queue's rest. -/
def Obligations.StepTakesTheFrontCommand : Prop :=
  ∀ (c : Instr) (rest : List Instr) (s : State), s.pending = c :: rest → step s = exec c { s with pending := rest }

/-- R266, R277: with nothing waiting a step is one REFCLK edge (DESIGN CHOICE, log entry 1): the elapsed count rises by one, each
domain advances by its increment modulo 2^128, held while REFCLK is lost, and nothing else changes but that a written SEL takes
effect (R272). -/
def Obligations.IdleStepIsOneEdge : Prop :=
  ∀ s : State, s.pending = [] →
    (s.pwr.mainOn = false → step s = .next s) ∧
    (s.pwr.mainOn = true → ∃ t, step s = .next t ∧ t.tb.elapsed = s.tb.elapsed + 1 ∧
      (s.tb.clkLost = true → t = { s with tb := { s.tb with elapsed := s.tb.elapsed + 1 } }) ∧
      (s.tb.clkLost = false → t.tb.selNext = none ∧ (s.tb.selNext = none → t = { s with tb := t.tb }) ∧
        ∀ b, s.tb.selNext = some b → t.sel = b ∧ t.mem = s.mem ∧ t.qm = s.qm ∧ t.out = s.out) ∧
      (s.tb.clkLost = false → ∀ b : Bool,
        (t.dom b).sec.toNat * 2 ^ 64 + (t.dom b).frac.toNat = ((s.dom b).sec.toNat * 2 ^ 64 + (s.dom b).frac.toNat + s.incr b) % 2 ^ 128 ∧
        (t.dom b).cls = (s.dom b).cls ∧ (t.dom b).step = (s.dom b).step))

/-- R10: every error of the block is a response or a status, so no step ends in a fault or a refusal, and no command touches the
commands that wait behind it. -/
def Obligations.EveryStepAnswers : Prop :=
  ∀ s : State, ∃ t, step s = .next t ∧ t.pending = s.pending.drop 1

/-- R330, R447: what the chip was made with never changes: whatever the command, the variant, the revision, the serial number and
the hardware unique key after a step are those before it. -/
def Obligations.StepKeepsIdentity : Prop :=
  ∀ s t : State, step s = .next t →
    t.sys.variant = s.sys.variant ∧ t.sys.rev = s.sys.rev ∧ t.sys.serial = s.sys.serial ∧ t.sec.huk = s.sec.huk

/-- The canonical form of memory is kept by every step, so equal memories stay equal data (the model's own invariant). -/
def Obligations.StepKeepsMemoryForm : Prop := ∀ s t : State, MemoryForm s → step s = .next t → MemoryForm t

/-- Reset: R18, R39, R267, R401, R420, R446 and Tables 4.1, 11.1, 17.4: the stored values the spec gives at reset, threads free
with the supervisor running at 0, no epoch raised, no fence, no lock owned, P0 with main power, memory in its form and the queue
empty. -/
def Obligations.ResetState : Prop :=
  let s := State.reset
  MemoryForm s ∧ s.pending = [] ∧ s.pwr.mainOn = true ∧ s.pwr.state = 0 ∧ s.pwr.busy = false ∧ s.sys.cause = 1#32 ∧
  (∀ a, a < 128 → (s.thread a).st = .free) ∧ (s.thread 128).st = .running ∧ (s.thread 128).pc = 0#24 ∧
  (∀ a, s.epochOf a = 0#32 ∧ s.fencedAg a = false) ∧ (∀ l, (s.lock l).owner = none) ∧ (∀ a, s.ramByte a = 0#8) ∧
  (∀ k, k < 14 → s.reg (0x040000 + 4 * k) = 1#32) ∧ s.reg 0x040040 = 0#32 ∧
  (∀ k, k < 192 → s.reg (0x060C00 + 4 * k) = 0x3FFF#32) ∧ s.incr false = 147573952590 ∧ s.incr true = 147573952590 ∧
  s.sec.life = 0 ∧ s.hst.link = false ∧ s.evr.pend = 0#5 ∧ (∀ q, (s.desc q).hasRing = false)
end

