-- ==== Sys2Proof/Laws/Tab.lean ====
section
/-! SUPPORT. The laws of the sparse table: a read after a write at the same key gives the value written, a write leaves every other
key alone, and a write keeps the canonical form. -/

namespace Sys2Proof

variable {α : Type}

@[simp] theorem Tab.get_nil (d : α) (k : Nat) : Tab.get d [] k = d := rfl

theorem Tab.get_insert_same (d v : α) (t : Tab α) (k : Nat) : Tab.get d (Tab.insert v t k) k = v := by
  induction t with
  | nil => simp [Tab.insert, Tab.get]
  | cons p t ih =>
    obtain ⟨j, w⟩ := p
    simp only [Tab.insert]
    split
    · simp [Tab.get]
    · split
      · simp [Tab.get]
      · simp [Tab.get, *]

theorem Tab.get_insert_other (d v : α) (t : Tab α) {k k' : Nat} (h : k' ≠ k) :
    Tab.get d (Tab.insert v t k) k' = Tab.get d t k' := by
  induction t with
  | nil => simp [Tab.insert, Tab.get, h.symm]
  | cons p t ih =>
    obtain ⟨j, w⟩ := p
    simp only [Tab.insert]
    split
    · next e => subst e; simp [Tab.get, h.symm]
    · split
      · simp [Tab.get, h.symm]
      · simp [Tab.get, ih]

theorem Tab.get_erase_same (d : α) (t : Tab α) (k : Nat) : Tab.get d (Tab.erase t k) k = d := by
  induction t with
  | nil => rfl
  | cons p t ih =>
    obtain ⟨j, w⟩ := p
    simp only [Tab.erase]
    split
    · exact ih
    · simp [Tab.get, *]

theorem Tab.get_erase_other (d : α) (t : Tab α) {k k' : Nat} (h : k' ≠ k) :
    Tab.get d (Tab.erase t k) k' = Tab.get d t k' := by
  induction t with
  | nil => rfl
  | cons p t ih =>
    obtain ⟨j, w⟩ := p
    simp only [Tab.erase]
    split
    · next e => subst e; simp [Tab.get, h.symm, ih]
    · simp [Tab.get, ih]

variable [DecidableEq α]

@[simp] theorem Tab.get_set_same (d v : α) (t : Tab α) (k : Nat) : Tab.get d (Tab.set d t k v) k = v := by
  unfold Tab.set
  split
  · next e => rw [Tab.get_erase_same, e]
  · exact Tab.get_insert_same d v t k

@[simp] theorem Tab.get_set_other (d v : α) (t : Tab α) {k k' : Nat} (h : k' ≠ k) :
    Tab.get d (Tab.set d t k v) k' = Tab.get d t k' := by
  unfold Tab.set
  split
  · exact Tab.get_erase_other d t h
  · exact Tab.get_insert_other d v t h

/-- The entry's own default matters to no other key. -/
theorem Tab.get_set_apart (d e v : α) (t : Tab α) {k k' : Nat} (h : k' ≠ k) : Tab.get d (Tab.set e t k v) k' = Tab.get d t k' := by
  unfold Tab.set
  split
  · exact Tab.get_erase_other d t h
  · exact Tab.get_insert_other d v t h

theorem Tab.get_set (d v : α) (t : Tab α) (k k' : Nat) :
    Tab.get d (Tab.set d t k v) k' = if k' = k then v else Tab.get d t k' := by
  split
  · next e => subst e; simp
  · next e => simp [e]

/-! The canonical form. -/

theorem Tab.wfFrom_mono (d : α) {lo hi : Nat} (h : lo ≤ hi) (t : Tab α) :
    Tab.wfFrom d hi t = true → Tab.wfFrom d lo t = true := by
  cases t with
  | nil => simp [Tab.wfFrom]
  | cons p t =>
    obtain ⟨j, w⟩ := p
    simp only [Tab.wfFrom, Bool.and_eq_true, decide_eq_true_eq]
    exact fun ⟨⟨a, b⟩, c⟩ => ⟨⟨by omega, b⟩, c⟩

theorem Tab.wfFrom_erase (d : α) (k : Nat) (t : Tab α) (lo : Nat) :
    Tab.wfFrom d lo t = true → Tab.wfFrom d lo (Tab.erase t k) = true := by
  induction t generalizing lo with
  | nil => simp [Tab.erase]
  | cons p t ih =>
    obtain ⟨j, w⟩ := p
    simp only [Tab.wfFrom, Tab.erase, Bool.and_eq_true, decide_eq_true_eq]
    intro ⟨⟨a, b⟩, c⟩
    split
    · exact Tab.wfFrom_mono d (by omega) _ (ih _ c)
    · simp only [Tab.wfFrom, Bool.and_eq_true, decide_eq_true_eq]
      exact ⟨⟨a, b⟩, ih _ c⟩

theorem Tab.wfFrom_insert (d v : α) (k : Nat) (hv : v ≠ d) (t : Tab α) (lo : Nat) (hk : lo ≤ k) :
    Tab.wfFrom d lo t = true → Tab.wfFrom d lo (Tab.insert v t k) = true := by
  induction t generalizing lo with
  | nil => intro _; simp [Tab.insert, Tab.wfFrom, hk, hv]
  | cons p t ih =>
    obtain ⟨j, w⟩ := p
    simp only [Tab.wfFrom, Tab.insert, Bool.and_eq_true, decide_eq_true_eq]
    intro ⟨⟨a, b⟩, c⟩
    split
    · next e => subst e; simp only [Tab.wfFrom, Bool.and_eq_true, decide_eq_true_eq]; exact ⟨⟨hk, hv⟩, c⟩
    · split
      · simp only [Tab.wfFrom, Bool.and_eq_true, decide_eq_true_eq]; exact ⟨⟨hk, hv⟩, ⟨by omega, b⟩, c⟩
      · simp only [Tab.wfFrom, Bool.and_eq_true, decide_eq_true_eq]; exact ⟨⟨a, b⟩, ih _ (by omega) c⟩

/-- A write keeps the canonical form. -/
theorem Tab.wf_set (d v : α) (t : Tab α) (k : Nat) (h : Tab.wf d t = true) : Tab.wf d (Tab.set d t k v) = true := by
  unfold Tab.wf Tab.set at *
  split
  · exact Tab.wfFrom_erase d k t 0 h
  · next hv => exact Tab.wfFrom_insert d v k hv t 0 (Nat.zero_le k) h

/-- Dropping entries keeps the canonical form. -/
theorem Tab.wfFrom_filter (d : α) (q : Nat × α → Bool) (t : Tab α) (lo : Nat) :
    Tab.wfFrom d lo t = true → Tab.wfFrom d lo (t.filter q) = true := by
  induction t generalizing lo with
  | nil => simp
  | cons p t ih =>
    obtain ⟨j, w⟩ := p
    simp only [Tab.wfFrom, Bool.and_eq_true, decide_eq_true_eq, List.filter_cons]
    intro ⟨⟨a, b⟩, c⟩
    split
    · simp only [Tab.wfFrom, Bool.and_eq_true, decide_eq_true_eq]; exact ⟨⟨a, b⟩, ih _ c⟩
    · exact Tab.wfFrom_mono d (by omega) _ (ih _ c)

theorem Tab.wf_filter (d : α) (q : Nat × α → Bool) (t : Tab α) (h : Tab.wf d t = true) : Tab.wf d (t.filter q) = true :=
  Tab.wfFrom_filter d q t 0 h

end Sys2Proof
end

