-- ==== Sys2Proof/Laws/Frame.lean ====
section
/-! SUPPORT. What the frame of a Garnil instruction can do: reading and writing threads, counting an issue, and the one lemma per
ending (go on, jump, fault, skip) that a statement about an instruction rests on. -/

namespace Sys2Proof.Machine
open Sys2Proof

/-! ## Threads -/

@[simp] theorem State.thread_setThread_same (s : State) (t : Nat) (x : Thread) : (s.setThread t x).thread t = x := by
  simp [State.setThread, State.thread]

theorem State.thread_setThread_other (s : State) {t u : Nat} (x : Thread) (h : u ≠ t) : (s.setThread t x).thread u = s.thread u := by
  simp [State.setThread, State.thread, h]

@[simp] theorem State.me_putMe (s : State) (w : Who) (x : Thread) : (s.putMe w x).me w = x := by
  simp [State.putMe, State.me]

/-! ## Registers (R28) -/

theorem Thread.getG_setG (t : Thread) (r q : GReg) (v : Word) :
    (t.setG r v).getG q = if q = r ∧ r.val ≠ 0 then v else t.getG q := by
  unfold Thread.setG Thread.getG
  by_cases h : r.val = 0
  · simp [h]
  · by_cases e : q = r
    · subst e; simp [h]
    · have : q.val ≠ r.val := fun c => e (Fin.ext c)
      simp [h, e, this]

@[simp] theorem Thread.setG_p (t : Thread) (r : GReg) (v : Word) : (t.setG r v).p = t.p := by unfold Thread.setG; split <;> rfl
@[simp] theorem Thread.setG_scratch (t : Thread) (r : GReg) (v : Word) : (t.setG r v).scratch = t.scratch := by
  unfold Thread.setG; split <;> rfl
@[simp] theorem Thread.setG_stage (t : Thread) (r : GReg) (v : Word) : (t.setG r v).stage = t.stage := by
  unfold Thread.setG; split <;> rfl
@[simp] theorem Thread.setG_a (t : Thread) (r : GReg) (v : Word) : (t.setG r v).a = t.a := by unfold Thread.setG; split <;> rfl

theorem Thread.setG_issued (t : Thread) (r : GReg) (v : Word) (n : Nat) :
    ({ t with issued := n } : Thread).setG r v = { t.setG r v with issued := n } := by
  unfold Thread.setG; split <;> rfl

theorem Thread.setP_issued (t : Thread) (r : PReg) (b : Bool) (n : Nat) :
    ({ t with issued := n } : Thread).setP r b = { t.setP r b with issued := n } := by
  unfold Thread.setP; split <;> rfl

/-! ## Counting touches the performance counters alone -/

theorem foldl_pmc {β : Type} (g : State → β → State) (h : ∀ s p, g s p = { s with pmc := (g s p).pmc }) (l : List β) (s : State) :
    l.foldl g s = { s with pmc := (l.foldl g s).pmc } := by
  induction l generalizing s with
  | nil => rfl
  | cons p l ih => rw [List.foldl_cons, ih (g s p), h s p]

theorem State.count_frame (ev amt : Nat) (f : PmcTag) (s : State) : s.count ev amt f = { s with pmc := (s.count ev amt f).pmc } := by
  unfold State.count
  exact foldl_pmc _ (fun s p => by dsimp only; split <;> rfl) _ s

theorem State.thread_count (ev amt : Nat) (f : PmcTag) (s : State) (t : Nat) : (s.count ev amt f).thread t = s.thread t := by
  rw [State.count_frame]; rfl

/-! ## Issuing an instruction -/

/-- Issuing moves the thread's count of issued instructions and the performance counters, and nothing else. -/
theorem State.issue_frame (w : Who) (s : State) :
    s.issue w = { s with
      ge := { s.ge with threads := (s.issue w).ge.threads }
      pmc := (s.issue w).pmc } ∧
    (∀ a, a ≠ w.agent → (s.issue w).thread a = s.thread a) ∧
    (s.issue w).me w = { s.me w with issued := ((s.issue w).me w).issued } := by
  cases w with
  | sup => exact ⟨rfl, fun _ _ => rfl, rfl⟩
  | thread t =>
    refine ⟨?_, fun a h => ?_, ?_⟩
    · simp only [State.issue]
      rw [State.count_frame, State.count_frame]
      rfl
    · simp only [State.issue, State.thread_count]
      exact State.thread_setThread_other s _ h
    · simp only [State.issue, State.me, State.thread_count, Who.agent, State.thread_setThread_same]

theorem State.issue_me_getG (w : Who) (s : State) (r : GReg) : ((s.issue w).me w).getG r = (s.me w).getG r := by
  rw [(State.issue_frame w s).2.2]; rfl

theorem State.issue_me_getP (w : Who) (s : State) (r : PReg) : ((s.issue w).me w).getP r = (s.me w).getP r := by
  rw [(State.issue_frame w s).2.2]; rfl

theorem State.issue_me_pc (w : Who) (s : State) : ((s.issue w).me w).pc = (s.me w).pc := by
  rw [(State.issue_frame w s).2.2]

/-- A write of the executing thread after the issue, with its pc moved, is a step of that thread alone. -/
theorem threadStep_putMe (x : Ix) (s : State) (f : Thread → Thread) (h : Thread) (pc : Nat)
    (hf : { h with issued := 0 } = ({ f (s.me x.who) with issued := 0 } : Thread)) :
    ThreadStep x f pc s (((s.issue x.who).putMe x.who h).setPc x.who pc) := by
  obtain ⟨e, o, _⟩ := State.issue_frame x.who s
  refine ⟨?_, fun a ha => ?_, ?_⟩
  · rw [e]; rfl
  · simp only [State.setPc, State.putMe]
    rw [State.thread_setThread_other _ _ ha, State.thread_setThread_other _ _ ha, o a ha]
  · simp only [State.setPc, State.putMe, State.me, State.thread_setThread_same]
    exact congrArg (fun t : Thread => { t with pc := BitVec.ofNat 24 pc, issued := h.issued }) hf

/-- An instruction whose meaning writes its thread and goes on changes that thread alone. -/
theorem garnil_go (x : Ix) (F : State → GRes) (s : State) (f : Thread → Thread) (h : Thread) (hr : Runs x s)
    (hF : F (s.issue x.who) = .go ((s.issue x.who).putMe x.who h))
    (hf : { h with issued := 0 } = ({ f (s.me x.who) with issued := 0 } : Thread)) :
    ∃ t, garnil x F s = .next t ∧ ThreadStep x f (PcOf x s + 4) s t := by
  obtain ⟨h1, h2, h3⟩ := hr
  refine ⟨_, ?_, threadStep_putMe x s f h (PcOf x s + 4) hf⟩
  have h4 : ¬ codeSize x.who.agent ≤ (s.me x.who).pc.toNat := by omega
  simp only [garnil, h1, if_true, h4, if_false, State.issue_me_getP, h3, hF, finish, PcOf]

/-- An instruction whose meaning jumps goes on at the address. -/
theorem garnil_jump (x : Ix) (F : State → GRes) (s : State) (f : Thread → Thread) (h : Thread) (pc : Nat) (hr : Runs x s)
    (hF : F (s.issue x.who) = .jump pc ((s.issue x.who).putMe x.who h))
    (hf : { h with issued := 0 } = ({ f (s.me x.who) with issued := 0 } : Thread)) :
    ∃ t, garnil x F s = .next t ∧ ThreadStep x f pc s t := by
  obtain ⟨h1, h2, h3⟩ := hr
  refine ⟨_, ?_, threadStep_putMe x s f h pc hf⟩
  have h4 : ¬ codeSize x.who.agent ≤ (s.me x.who).pc.toNat := by omega
  simp only [garnil, h1, if_true, h4, if_false, State.issue_me_getP, h3, hF, finish]

/-- An instruction whose meaning raises a fault takes the fault's entry. -/
theorem garnil_fault (x : Ix) (F : State → GRes) (s : State) (c : FaultClass) (st : Status) (hr : Runs x s)
    (hF : F (s.issue x.who) = .fault c st) : garnil x F s = .next ((s.issue x.who).fault x.who c st) := by
  obtain ⟨h1, h2, h3⟩ := hr
  have h4 : ¬ codeSize x.who.agent ≤ (s.me x.who).pc.toNat := by omega
  simp only [garnil, h1, if_true, h4, if_false, State.issue_me_getP, h3, hF, finish]

/-- In general the frame hands the issued state to the meaning and finishes with what it answers. -/
theorem garnil_runs (x : Ix) (F : State → GRes) (s : State) (hr : Runs x s) :
    garnil x F s = finish x.who (PcOf x s) (s.issue x.who) (F (s.issue x.who)) := by
  obtain ⟨h1, h2, h3⟩ := hr
  have h4 : ¬ codeSize x.who.agent ≤ (s.me x.who).pc.toNat := by omega
  simp only [garnil, h1, if_true, h4, if_false, State.issue_me_getP, h3, PcOf]

end Sys2Proof.Machine
end

