-- ==== Sys2Proof/Laws/Mem.lean ====
section
/-! SUPPORT. The laws of DRAM: a byte read after a store is the byte stored inside the store and the byte before it outside, a store
moves memory alone, and stores keep the canonical form (R361, R364). -/

namespace Sys2Proof.Machine
open Sys2Proof

/-! ## Tables of bytes -/

/-- A byte of a table after a run of bytes was put at `a`. -/
theorem get_ramPutTab (t : Tab Byte) (a : Nat) (bs : List Byte) (k : Nat) :
    Tab.get 0#8 (ramPutTab t a bs) k = if h : a ≤ k ∧ k < a + bs.length then bs[k - a]'(by omega) else Tab.get 0#8 t k := by
  induction bs generalizing t a with
  | nil => simp [ramPutTab]
  | cons b bs ih =>
    simp only [ramPutTab, ih, List.length_cons]
    rcases Nat.lt_trichotomy k a with h | h | h
    · rw [dif_neg (by omega), dif_neg (by omega), Tab.get_set_other _ _ _ (by omega)]
    · subst h; rw [dif_neg (by omega), dif_pos (by omega)]; simp
    · by_cases h2 : k < a + 1 + bs.length
      · rw [dif_pos (by omega), dif_pos (by omega)]
        obtain ⟨m, rfl⟩ : ∃ m, k = a + 1 + m := ⟨k - a - 1, by omega⟩
        have e1 : a + 1 + m - (a + 1) = m := by omega
        have e2 : a + 1 + m - a = m + 1 := by omega
        simp only [e1, e2, List.getElem_cons_succ]
      · rw [dif_neg (by omega), dif_neg (by omega), Tab.get_set_other _ _ _ (by omega)]

/-- A store keeps the canonical form. -/
theorem wf_ramPutTab (t : Tab Byte) (a : Nat) (bs : List Byte) (h : Tab.wf 0#8 t = true) : Tab.wf 0#8 (ramPutTab t a bs) = true := by
  induction bs generalizing t a with
  | nil => exact h
  | cons b bs ih => exact ih _ _ (Tab.wf_set _ _ _ _ h)

/-! ## Reading DRAM -/

@[simp] theorem State.length_ramBytes (s : State) (a n : Nat) : (s.ramBytes a n).length = n := by
  induction n generalizing a with
  | zero => rfl
  | succ n ih => simp [State.ramBytes, ih]

theorem State.getElem_ramBytes (s : State) (a n k : Nat) (h : k < (s.ramBytes a n).length) : (s.ramBytes a n)[k] = s.ramByte (a + k) := by
  induction n generalizing a k with
  | zero => simp [State.ramBytes] at h
  | succ n ih =>
    cases k with
    | zero => simp [State.ramBytes]
    | succ k =>
      simp only [State.ramBytes, List.getElem_cons_succ]
      rw [ih]; congr 1; omega

theorem State.ramBytes_congr (s t : State) (a n : Nat) (h : ∀ k, k < n → s.ramByte (a + k) = t.ramByte (a + k)) :
    s.ramBytes a n = t.ramBytes a n := by
  apply List.ext_getElem (by simp)
  intro k h1 h2
  rw [State.getElem_ramBytes, State.getElem_ramBytes]
  exact h k (by simpa using h1)

/-- The byte at `k` after a store. -/
theorem State.ramByte_ramPut (s : State) (a : Nat) (bs : List Byte) (k : Nat) :
    (s.ramPut a bs).ramByte k = if h : a ≤ k ∧ k < a + bs.length then bs[k - a]'(by omega) else s.ramByte k :=
  get_ramPutTab s.mem.dram a bs k

/-- A store read back. -/
theorem State.ramBytes_ramPut_same (s : State) (a : Nat) (bs : List Byte) : (s.ramPut a bs).ramBytes a bs.length = bs := by
  apply List.ext_getElem (by simp)
  intro k h1 h2
  rw [State.getElem_ramBytes, State.ramByte_ramPut, dif_pos (by omega)]
  simp

/-- A store leaves what lies apart from it. -/
theorem State.ramBytes_ramPut_apart (s : State) (a b n : Nat) (bs : List Byte) (h : b + n ≤ a ∨ a + bs.length ≤ b) :
    (s.ramPut a bs).ramBytes b n = s.ramBytes b n := by
  apply State.ramBytes_congr
  intro k hk
  rw [State.ramByte_ramPut, dif_neg (by omega)]

theorem State.ramNat_ramPut_apart (s : State) (a b n : Nat) (bs : List Byte) (h : b + n ≤ a ∨ a + bs.length ≤ b) :
    (s.ramPut a bs).ramNat b n = s.ramNat b n := by
  unfold State.ramNat; rw [State.ramBytes_ramPut_apart s a b n bs h]

theorem State.ramNat_ramPut_same (s : State) (a : Nat) (bs : List Byte) : (s.ramPut a bs).ramNat a bs.length = natOfBytes bs := by
  unfold State.ramNat; rw [State.ramBytes_ramPut_same]

/-- Memory that lists nothing reads as zero. -/
theorem State.ramNat_empty (s : State) (a n : Nat) (h : s.mem.dram = []) : s.ramNat a n = 0 := by
  have e : ∀ a n, natOfBytes (s.ramBytes a n) = 0 := by
    intro a n
    induction n generalizing a with
    | zero => rfl
    | succ n ih =>
      have h0 : s.ramByte a = 0#8 := by simp [State.ramByte, h]
      simp [State.ramBytes, natOfBytes, h0, ih]
  exact e a n

/-! ## Stores move memory alone -/

/-- A store is a change of DRAM's bytes alone. -/
theorem State.ramPut_frame (s : State) (a : Nat) (bs : List Byte) :
    s.ramPut a bs = { s with mem := { s.mem with dram := ramPutTab s.mem.dram a bs } } := rfl

/-- A line's write touches memory alone. -/
theorem State.lineWrite_frame (s : State) (l f : Nat) (bs : List Byte) :
    (s.lineWrite l f bs).2 = { s with mem := (s.lineWrite l f bs).2.mem } := by
  unfold State.lineWrite; split
  · rfl
  · split <;> rfl

/-- A write of any length touches memory alone. -/
theorem State.memWrite_frame (fuel a : Nat) (bs : List Byte) (s : State) :
    (State.memWrite fuel a bs s).2 = { s with mem := (State.memWrite fuel a bs s).2.mem } := by
  induction fuel generalizing a bs s with
  | zero => rfl
  | succ n ih =>
    cases bs with
    | nil => rfl
    | cons b bs =>
      simp only [State.memWrite]
      rw [ih, State.lineWrite_frame]

theorem State.ramWrite_frame (s : State) (a : Nat) (bs : List Byte) : (s.ramWrite a bs).2 = { s with mem := (s.ramWrite a bs).2.mem } :=
  State.memWrite_frame _ a bs s

theorem State.wf_lineWrite (s : State) (l f : Nat) (bs : List Byte) (h : Tab.wf 0#8 s.mem.dram = true) :
    Tab.wf 0#8 (s.lineWrite l f bs).2.mem.dram = true := by
  unfold State.lineWrite; split
  · exact wf_ramPutTab _ _ _ h
  · split
    · exact h
    · exact wf_ramPutTab _ _ _ h

/-- Every write of DRAM keeps its canonical form. -/
theorem State.wf_memWrite (fuel a : Nat) (bs : List Byte) (s : State) (h : Tab.wf 0#8 s.mem.dram = true) :
    Tab.wf 0#8 (State.memWrite fuel a bs s).2.mem.dram = true := by
  induction fuel generalizing a bs s with
  | zero => exact h
  | succ n ih =>
    cases bs with
    | nil => exact h
    | cons b bs => simp only [State.memWrite]; exact ih _ _ _ (State.wf_lineWrite s _ _ _ h)

theorem State.wf_ramWrite (s : State) (a : Nat) (bs : List Byte) (h : Tab.wf 0#8 s.mem.dram = true) :
    Tab.wf 0#8 (s.ramWrite a bs).2.mem.dram = true := State.wf_memWrite _ _ _ s h

end Sys2Proof.Machine
end

