-- ==== Sys2Proof/Laws/State.lean ====
section
/-! SUPPORT. What the single updates of State leave alone, field by field, and what a reader gives after its own update. -/

namespace Sys2Proof.Machine
open Sys2Proof

/-! ## The fields an update leaves alone -/

@[simp] theorem State.draw_fields (s : State) (w : Nat) :
    (s.draw w).2.pending = s.pending ∧ (s.draw w).2.regs = s.regs ∧ (s.draw w).2.latch = s.latch ∧ (s.draw w).2.resp = s.resp ∧
    (s.draw w).2.out = s.out ∧ (s.draw w).2.sys = s.sys ∧ (s.draw w).2.pwr = s.pwr ∧ (s.draw w).2.pin = s.pin ∧ (s.draw w).2.tb = s.tb ∧
    (s.draw w).2.fab = s.fab ∧ (s.draw w).2.mbx = s.mbx ∧ (s.draw w).2.pmc = s.pmc ∧ (s.draw w).2.evr = s.evr ∧ (s.draw w).2.qm = s.qm ∧
    (s.draw w).2.ge = s.ge ∧ (s.draw w).2.sup = s.sup ∧ (s.draw w).2.ord = s.ord ∧ (s.draw w).2.ldg = s.ldg ∧ (s.draw w).2.bal = s.bal ∧
    (s.draw w).2.flw = s.flw ∧ (s.draw w).2.afe = s.afe ∧ (s.draw w).2.plc = s.plc ∧ (s.draw w).2.rf = s.rf ∧ (s.draw w).2.wir = s.wir ∧
    (s.draw w).2.eth = s.eth ∧ (s.draw w).2.spn = s.spn ∧ (s.draw w).2.twn = s.twn ∧ (s.draw w).2.tre = s.tre ∧ (s.draw w).2.cfg = s.cfg ∧
    (s.draw w).2.sec = s.sec ∧ (s.draw w).2.upd = s.upd ∧ (s.draw w).2.mem = s.mem ∧ (s.draw w).2.nft = s.nft ∧ (s.draw w).2.hst = s.hst := by
  refine ⟨?_, ?_, ?_, ?_, ?_, ?_, ?_, ?_, ?_, ?_, ?_, ?_, ?_, ?_, ?_, ?_, ?_, ?_, ?_, ?_, ?_, ?_, ?_, ?_, ?_, ?_, ?_, ?_, ?_, ?_, ?_, ?_, ?_, ?_⟩ <;> rfl

@[simp] theorem State.setReg_fields (s : State) (o : Nat) (v : W32) :
    (s.setReg o v).pending = s.pending ∧ (s.setReg o v).freeCtr = s.freeCtr ∧ (s.setReg o v).latch = s.latch ∧ (s.setReg o v).resp = s.resp ∧
    (s.setReg o v).out = s.out ∧ (s.setReg o v).sys = s.sys ∧ (s.setReg o v).pwr = s.pwr ∧ (s.setReg o v).pin = s.pin ∧ (s.setReg o v).tb = s.tb ∧
    (s.setReg o v).fab = s.fab ∧ (s.setReg o v).mbx = s.mbx ∧ (s.setReg o v).pmc = s.pmc ∧ (s.setReg o v).evr = s.evr ∧ (s.setReg o v).qm = s.qm ∧
    (s.setReg o v).ge = s.ge ∧ (s.setReg o v).sup = s.sup ∧ (s.setReg o v).ord = s.ord ∧ (s.setReg o v).ldg = s.ldg ∧ (s.setReg o v).bal = s.bal ∧
    (s.setReg o v).flw = s.flw ∧ (s.setReg o v).afe = s.afe ∧ (s.setReg o v).plc = s.plc ∧ (s.setReg o v).rf = s.rf ∧ (s.setReg o v).wir = s.wir ∧
    (s.setReg o v).eth = s.eth ∧ (s.setReg o v).spn = s.spn ∧ (s.setReg o v).twn = s.twn ∧ (s.setReg o v).tre = s.tre ∧ (s.setReg o v).cfg = s.cfg ∧
    (s.setReg o v).sec = s.sec ∧ (s.setReg o v).upd = s.upd ∧ (s.setReg o v).mem = s.mem ∧ (s.setReg o v).nft = s.nft ∧
    (s.setReg o v).hst = s.hst := by
  refine ⟨?_, ?_, ?_, ?_, ?_, ?_, ?_, ?_, ?_, ?_, ?_, ?_, ?_, ?_, ?_, ?_, ?_, ?_, ?_, ?_, ?_, ?_, ?_, ?_, ?_, ?_, ?_, ?_, ?_, ?_, ?_, ?_, ?_, ?_⟩ <;> rfl

@[simp] theorem State.respond_fields (s : State) (i : Init) (st : Status) :
    (s.respond i st).pending = s.pending ∧ (s.respond i st).freeCtr = s.freeCtr ∧ (s.respond i st).regs = s.regs ∧ (s.respond i st).latch = s.latch ∧
    (s.respond i st).out = s.out ∧ (s.respond i st).sys = s.sys ∧ (s.respond i st).pwr = s.pwr ∧ (s.respond i st).pin = s.pin ∧
    (s.respond i st).tb = s.tb ∧ (s.respond i st).fab = s.fab ∧ (s.respond i st).mbx = s.mbx ∧ (s.respond i st).pmc = s.pmc ∧
    (s.respond i st).evr = s.evr ∧ (s.respond i st).qm = s.qm ∧ (s.respond i st).ge = s.ge ∧ (s.respond i st).sup = s.sup ∧
    (s.respond i st).ord = s.ord ∧ (s.respond i st).ldg = s.ldg ∧ (s.respond i st).bal = s.bal ∧ (s.respond i st).flw = s.flw ∧
    (s.respond i st).afe = s.afe ∧ (s.respond i st).plc = s.plc ∧ (s.respond i st).rf = s.rf ∧ (s.respond i st).wir = s.wir ∧
    (s.respond i st).eth = s.eth ∧ (s.respond i st).spn = s.spn ∧ (s.respond i st).twn = s.twn ∧ (s.respond i st).tre = s.tre ∧
    (s.respond i st).cfg = s.cfg ∧ (s.respond i st).sec = s.sec ∧ (s.respond i st).upd = s.upd ∧ (s.respond i st).mem = s.mem ∧
    (s.respond i st).nft = s.nft ∧ (s.respond i st).hst = s.hst := by
  refine ⟨?_, ?_, ?_, ?_, ?_, ?_, ?_, ?_, ?_, ?_, ?_, ?_, ?_, ?_, ?_, ?_, ?_, ?_, ?_, ?_, ?_, ?_, ?_, ?_, ?_, ?_, ?_, ?_, ?_, ?_, ?_, ?_, ?_, ?_⟩ <;> rfl

@[simp] theorem State.irq_fields (s : State) (k : Nat) :
    (s.irq k).pending = s.pending ∧ (s.irq k).freeCtr = s.freeCtr ∧ (s.irq k).regs = s.regs ∧ (s.irq k).latch = s.latch ∧ (s.irq k).resp = s.resp ∧
    (s.irq k).out = s.out ∧ (s.irq k).sys = s.sys ∧ (s.irq k).pwr = s.pwr ∧ (s.irq k).pin = s.pin ∧ (s.irq k).tb = s.tb ∧ (s.irq k).fab = s.fab ∧
    (s.irq k).mbx = s.mbx ∧ (s.irq k).pmc = s.pmc ∧ (s.irq k).evr = s.evr ∧ (s.irq k).qm = s.qm ∧ (s.irq k).ge = s.ge ∧ (s.irq k).ord = s.ord ∧
    (s.irq k).ldg = s.ldg ∧ (s.irq k).bal = s.bal ∧ (s.irq k).flw = s.flw ∧ (s.irq k).afe = s.afe ∧ (s.irq k).plc = s.plc ∧ (s.irq k).rf = s.rf ∧
    (s.irq k).wir = s.wir ∧ (s.irq k).eth = s.eth ∧ (s.irq k).spn = s.spn ∧ (s.irq k).twn = s.twn ∧ (s.irq k).tre = s.tre ∧ (s.irq k).cfg = s.cfg ∧
    (s.irq k).sec = s.sec ∧ (s.irq k).upd = s.upd ∧ (s.irq k).mem = s.mem ∧ (s.irq k).nft = s.nft ∧ (s.irq k).hst = s.hst := by
  refine ⟨?_, ?_, ?_, ?_, ?_, ?_, ?_, ?_, ?_, ?_, ?_, ?_, ?_, ?_, ?_, ?_, ?_, ?_, ?_, ?_, ?_, ?_, ?_, ?_, ?_, ?_, ?_, ?_, ?_, ?_, ?_, ?_, ?_, ?_⟩ <;> rfl

@[simp] theorem State.setDom_fields (s : State) (b : Bool) (d : Domain) :
    (s.setDom b d).pending = s.pending ∧ (s.setDom b d).freeCtr = s.freeCtr ∧ (s.setDom b d).regs = s.regs ∧ (s.setDom b d).latch = s.latch ∧
    (s.setDom b d).resp = s.resp ∧ (s.setDom b d).out = s.out ∧ (s.setDom b d).sys = s.sys ∧ (s.setDom b d).pwr = s.pwr ∧
    (s.setDom b d).pin = s.pin ∧ (s.setDom b d).fab = s.fab ∧ (s.setDom b d).mbx = s.mbx ∧ (s.setDom b d).pmc = s.pmc ∧ (s.setDom b d).evr = s.evr ∧
    (s.setDom b d).qm = s.qm ∧ (s.setDom b d).ge = s.ge ∧ (s.setDom b d).sup = s.sup ∧ (s.setDom b d).ord = s.ord ∧ (s.setDom b d).ldg = s.ldg ∧
    (s.setDom b d).bal = s.bal ∧ (s.setDom b d).flw = s.flw ∧ (s.setDom b d).afe = s.afe ∧ (s.setDom b d).plc = s.plc ∧ (s.setDom b d).rf = s.rf ∧
    (s.setDom b d).wir = s.wir ∧ (s.setDom b d).eth = s.eth ∧ (s.setDom b d).spn = s.spn ∧ (s.setDom b d).twn = s.twn ∧ (s.setDom b d).tre = s.tre ∧
    (s.setDom b d).cfg = s.cfg ∧ (s.setDom b d).sec = s.sec ∧ (s.setDom b d).upd = s.upd ∧ (s.setDom b d).mem = s.mem ∧ (s.setDom b d).nft = s.nft ∧
    (s.setDom b d).hst = s.hst := by
  unfold State.setDom
  split <;> refine ⟨?_, ?_, ?_, ?_, ?_, ?_, ?_, ?_, ?_, ?_, ?_, ?_, ?_, ?_, ?_, ?_, ?_, ?_, ?_, ?_, ?_, ?_, ?_, ?_, ?_, ?_, ?_, ?_, ?_, ?_, ?_, ?_, ?_, ?_⟩ <;> rfl

@[simp] theorem State.pend_fields (s : State) (k : Nat) :
    (s.pend k).pending = s.pending ∧ (s.pend k).freeCtr = s.freeCtr ∧ (s.pend k).regs = s.regs ∧ (s.pend k).latch = s.latch ∧
    (s.pend k).resp = s.resp ∧ (s.pend k).out = s.out ∧ (s.pend k).sys = s.sys ∧ (s.pend k).pwr = s.pwr ∧ (s.pend k).pin = s.pin ∧
    (s.pend k).tb = s.tb ∧ (s.pend k).fab = s.fab ∧ (s.pend k).mbx = s.mbx ∧ (s.pend k).pmc = s.pmc ∧ (s.pend k).qm = s.qm ∧ (s.pend k).ge = s.ge ∧
    (s.pend k).sup = s.sup ∧ (s.pend k).ord = s.ord ∧ (s.pend k).ldg = s.ldg ∧ (s.pend k).bal = s.bal ∧ (s.pend k).flw = s.flw ∧
    (s.pend k).afe = s.afe ∧ (s.pend k).plc = s.plc ∧ (s.pend k).rf = s.rf ∧ (s.pend k).wir = s.wir ∧ (s.pend k).eth = s.eth ∧
    (s.pend k).spn = s.spn ∧ (s.pend k).twn = s.twn ∧ (s.pend k).tre = s.tre ∧ (s.pend k).cfg = s.cfg ∧ (s.pend k).sec = s.sec ∧
    (s.pend k).upd = s.upd ∧ (s.pend k).mem = s.mem ∧ (s.pend k).nft = s.nft ∧ (s.pend k).hst = s.hst := by
  refine ⟨?_, ?_, ?_, ?_, ?_, ?_, ?_, ?_, ?_, ?_, ?_, ?_, ?_, ?_, ?_, ?_, ?_, ?_, ?_, ?_, ?_, ?_, ?_, ?_, ?_, ?_, ?_, ?_, ?_, ?_, ?_, ?_, ?_, ?_⟩ <;> rfl

@[simp] theorem State.setThread_fields (s : State) (n : Nat) (x : Thread) :
    (s.setThread n x).pending = s.pending ∧ (s.setThread n x).freeCtr = s.freeCtr ∧ (s.setThread n x).regs = s.regs ∧
    (s.setThread n x).latch = s.latch ∧ (s.setThread n x).resp = s.resp ∧ (s.setThread n x).out = s.out ∧ (s.setThread n x).sys = s.sys ∧
    (s.setThread n x).pwr = s.pwr ∧ (s.setThread n x).pin = s.pin ∧ (s.setThread n x).tb = s.tb ∧ (s.setThread n x).fab = s.fab ∧
    (s.setThread n x).mbx = s.mbx ∧ (s.setThread n x).pmc = s.pmc ∧ (s.setThread n x).evr = s.evr ∧ (s.setThread n x).qm = s.qm ∧
    (s.setThread n x).sup = s.sup ∧ (s.setThread n x).ord = s.ord ∧ (s.setThread n x).ldg = s.ldg ∧ (s.setThread n x).bal = s.bal ∧
    (s.setThread n x).flw = s.flw ∧ (s.setThread n x).afe = s.afe ∧ (s.setThread n x).plc = s.plc ∧ (s.setThread n x).rf = s.rf ∧
    (s.setThread n x).wir = s.wir ∧ (s.setThread n x).eth = s.eth ∧ (s.setThread n x).spn = s.spn ∧ (s.setThread n x).twn = s.twn ∧
    (s.setThread n x).tre = s.tre ∧ (s.setThread n x).cfg = s.cfg ∧ (s.setThread n x).sec = s.sec ∧ (s.setThread n x).upd = s.upd ∧
    (s.setThread n x).mem = s.mem ∧ (s.setThread n x).nft = s.nft ∧ (s.setThread n x).hst = s.hst := by
  refine ⟨?_, ?_, ?_, ?_, ?_, ?_, ?_, ?_, ?_, ?_, ?_, ?_, ?_, ?_, ?_, ?_, ?_, ?_, ?_, ?_, ?_, ?_, ?_, ?_, ?_, ?_, ?_, ?_, ?_, ?_, ?_, ?_, ?_, ?_⟩ <;> rfl

@[simp] theorem State.putMe_fields (s : State) (w : Who) (x : Thread) :
    (s.putMe w x).pending = s.pending ∧ (s.putMe w x).freeCtr = s.freeCtr ∧ (s.putMe w x).regs = s.regs ∧ (s.putMe w x).latch = s.latch ∧
    (s.putMe w x).resp = s.resp ∧ (s.putMe w x).out = s.out ∧ (s.putMe w x).sys = s.sys ∧ (s.putMe w x).pwr = s.pwr ∧ (s.putMe w x).pin = s.pin ∧
    (s.putMe w x).tb = s.tb ∧ (s.putMe w x).fab = s.fab ∧ (s.putMe w x).mbx = s.mbx ∧ (s.putMe w x).pmc = s.pmc ∧ (s.putMe w x).evr = s.evr ∧
    (s.putMe w x).qm = s.qm ∧ (s.putMe w x).sup = s.sup ∧ (s.putMe w x).ord = s.ord ∧ (s.putMe w x).ldg = s.ldg ∧ (s.putMe w x).bal = s.bal ∧
    (s.putMe w x).flw = s.flw ∧ (s.putMe w x).afe = s.afe ∧ (s.putMe w x).plc = s.plc ∧ (s.putMe w x).rf = s.rf ∧ (s.putMe w x).wir = s.wir ∧
    (s.putMe w x).eth = s.eth ∧ (s.putMe w x).spn = s.spn ∧ (s.putMe w x).twn = s.twn ∧ (s.putMe w x).tre = s.tre ∧ (s.putMe w x).cfg = s.cfg ∧
    (s.putMe w x).sec = s.sec ∧ (s.putMe w x).upd = s.upd ∧ (s.putMe w x).mem = s.mem ∧ (s.putMe w x).nft = s.nft ∧ (s.putMe w x).hst = s.hst := by
  refine ⟨?_, ?_, ?_, ?_, ?_, ?_, ?_, ?_, ?_, ?_, ?_, ?_, ?_, ?_, ?_, ?_, ?_, ?_, ?_, ?_, ?_, ?_, ?_, ?_, ?_, ?_, ?_, ?_, ?_, ?_, ?_, ?_, ?_, ?_⟩ <;> rfl

@[simp] theorem State.setPc_fields (s : State) (w : Who) (pc : Nat) :
    (s.setPc w pc).pending = s.pending ∧ (s.setPc w pc).freeCtr = s.freeCtr ∧ (s.setPc w pc).regs = s.regs ∧ (s.setPc w pc).latch = s.latch ∧
    (s.setPc w pc).resp = s.resp ∧ (s.setPc w pc).out = s.out ∧ (s.setPc w pc).sys = s.sys ∧ (s.setPc w pc).pwr = s.pwr ∧
    (s.setPc w pc).pin = s.pin ∧ (s.setPc w pc).tb = s.tb ∧ (s.setPc w pc).fab = s.fab ∧ (s.setPc w pc).mbx = s.mbx ∧ (s.setPc w pc).pmc = s.pmc ∧
    (s.setPc w pc).evr = s.evr ∧ (s.setPc w pc).qm = s.qm ∧ (s.setPc w pc).sup = s.sup ∧ (s.setPc w pc).ord = s.ord ∧ (s.setPc w pc).ldg = s.ldg ∧
    (s.setPc w pc).bal = s.bal ∧ (s.setPc w pc).flw = s.flw ∧ (s.setPc w pc).afe = s.afe ∧ (s.setPc w pc).plc = s.plc ∧ (s.setPc w pc).rf = s.rf ∧
    (s.setPc w pc).wir = s.wir ∧ (s.setPc w pc).eth = s.eth ∧ (s.setPc w pc).spn = s.spn ∧ (s.setPc w pc).twn = s.twn ∧ (s.setPc w pc).tre = s.tre ∧
    (s.setPc w pc).cfg = s.cfg ∧ (s.setPc w pc).sec = s.sec ∧ (s.setPc w pc).upd = s.upd ∧ (s.setPc w pc).mem = s.mem ∧ (s.setPc w pc).nft = s.nft ∧
    (s.setPc w pc).hst = s.hst := by
  refine ⟨?_, ?_, ?_, ?_, ?_, ?_, ?_, ?_, ?_, ?_, ?_, ?_, ?_, ?_, ?_, ?_, ?_, ?_, ?_, ?_, ?_, ?_, ?_, ?_, ?_, ?_, ?_, ?_, ?_, ?_, ?_, ?_, ?_, ?_⟩ <;> rfl

@[simp] theorem State.setLock_fields (s : State) (l : Nat) (x : Lock) :
    (s.setLock l x).pending = s.pending ∧ (s.setLock l x).freeCtr = s.freeCtr ∧ (s.setLock l x).regs = s.regs ∧ (s.setLock l x).latch = s.latch ∧
    (s.setLock l x).resp = s.resp ∧ (s.setLock l x).out = s.out ∧ (s.setLock l x).sys = s.sys ∧ (s.setLock l x).pwr = s.pwr ∧
    (s.setLock l x).pin = s.pin ∧ (s.setLock l x).tb = s.tb ∧ (s.setLock l x).fab = s.fab ∧ (s.setLock l x).mbx = s.mbx ∧
    (s.setLock l x).pmc = s.pmc ∧ (s.setLock l x).evr = s.evr ∧ (s.setLock l x).qm = s.qm ∧ (s.setLock l x).ge = s.ge ∧ (s.setLock l x).sup = s.sup ∧
    (s.setLock l x).ldg = s.ldg ∧ (s.setLock l x).bal = s.bal ∧ (s.setLock l x).flw = s.flw ∧ (s.setLock l x).afe = s.afe ∧
    (s.setLock l x).plc = s.plc ∧ (s.setLock l x).rf = s.rf ∧ (s.setLock l x).wir = s.wir ∧ (s.setLock l x).eth = s.eth ∧
    (s.setLock l x).spn = s.spn ∧ (s.setLock l x).twn = s.twn ∧ (s.setLock l x).tre = s.tre ∧ (s.setLock l x).cfg = s.cfg ∧
    (s.setLock l x).sec = s.sec ∧ (s.setLock l x).upd = s.upd ∧ (s.setLock l x).mem = s.mem ∧ (s.setLock l x).nft = s.nft ∧
    (s.setLock l x).hst = s.hst := by
  refine ⟨?_, ?_, ?_, ?_, ?_, ?_, ?_, ?_, ?_, ?_, ?_, ?_, ?_, ?_, ?_, ?_, ?_, ?_, ?_, ?_, ?_, ?_, ?_, ?_, ?_, ?_, ?_, ?_, ?_, ?_, ?_, ?_, ?_, ?_⟩ <;> rfl

@[simp] theorem State.setSeq_fields (s : State) (n : Nat) (q : Seqn) :
    (s.setSeq n q).pending = s.pending ∧ (s.setSeq n q).freeCtr = s.freeCtr ∧ (s.setSeq n q).regs = s.regs ∧ (s.setSeq n q).latch = s.latch ∧
    (s.setSeq n q).resp = s.resp ∧ (s.setSeq n q).out = s.out ∧ (s.setSeq n q).sys = s.sys ∧ (s.setSeq n q).pwr = s.pwr ∧
    (s.setSeq n q).pin = s.pin ∧ (s.setSeq n q).tb = s.tb ∧ (s.setSeq n q).fab = s.fab ∧ (s.setSeq n q).mbx = s.mbx ∧ (s.setSeq n q).pmc = s.pmc ∧
    (s.setSeq n q).evr = s.evr ∧ (s.setSeq n q).qm = s.qm ∧ (s.setSeq n q).ge = s.ge ∧ (s.setSeq n q).sup = s.sup ∧ (s.setSeq n q).ldg = s.ldg ∧
    (s.setSeq n q).bal = s.bal ∧ (s.setSeq n q).flw = s.flw ∧ (s.setSeq n q).afe = s.afe ∧ (s.setSeq n q).plc = s.plc ∧ (s.setSeq n q).rf = s.rf ∧
    (s.setSeq n q).wir = s.wir ∧ (s.setSeq n q).eth = s.eth ∧ (s.setSeq n q).spn = s.spn ∧ (s.setSeq n q).twn = s.twn ∧ (s.setSeq n q).tre = s.tre ∧
    (s.setSeq n q).cfg = s.cfg ∧ (s.setSeq n q).sec = s.sec ∧ (s.setSeq n q).upd = s.upd ∧ (s.setSeq n q).mem = s.mem ∧ (s.setSeq n q).nft = s.nft ∧
    (s.setSeq n q).hst = s.hst := by
  refine ⟨?_, ?_, ?_, ?_, ?_, ?_, ?_, ?_, ?_, ?_, ?_, ?_, ?_, ?_, ?_, ?_, ?_, ?_, ?_, ?_, ?_, ?_, ?_, ?_, ?_, ?_, ?_, ?_, ?_, ?_, ?_, ?_, ?_, ?_⟩ <;> rfl

@[simp] theorem State.seqNote_fields (s : State) (i : Init) (n : Nat) (st : Status) :
    (s.seqNote i n st).pending = s.pending ∧ (s.seqNote i n st).freeCtr = s.freeCtr ∧ (s.seqNote i n st).regs = s.regs ∧
    (s.seqNote i n st).latch = s.latch ∧ (s.seqNote i n st).resp = s.resp ∧ (s.seqNote i n st).out = s.out ∧ (s.seqNote i n st).sys = s.sys ∧
    (s.seqNote i n st).pwr = s.pwr ∧ (s.seqNote i n st).pin = s.pin ∧ (s.seqNote i n st).tb = s.tb ∧ (s.seqNote i n st).fab = s.fab ∧
    (s.seqNote i n st).mbx = s.mbx ∧ (s.seqNote i n st).pmc = s.pmc ∧ (s.seqNote i n st).evr = s.evr ∧ (s.seqNote i n st).qm = s.qm ∧
    (s.seqNote i n st).ge = s.ge ∧ (s.seqNote i n st).sup = s.sup ∧ (s.seqNote i n st).ldg = s.ldg ∧ (s.seqNote i n st).bal = s.bal ∧
    (s.seqNote i n st).flw = s.flw ∧ (s.seqNote i n st).afe = s.afe ∧ (s.seqNote i n st).plc = s.plc ∧ (s.seqNote i n st).rf = s.rf ∧
    (s.seqNote i n st).wir = s.wir ∧ (s.seqNote i n st).eth = s.eth ∧ (s.seqNote i n st).spn = s.spn ∧ (s.seqNote i n st).twn = s.twn ∧
    (s.seqNote i n st).tre = s.tre ∧ (s.seqNote i n st).cfg = s.cfg ∧ (s.seqNote i n st).sec = s.sec ∧ (s.seqNote i n st).upd = s.upd ∧
    (s.seqNote i n st).mem = s.mem ∧ (s.seqNote i n st).nft = s.nft ∧ (s.seqNote i n st).hst = s.hst := by
  refine ⟨?_, ?_, ?_, ?_, ?_, ?_, ?_, ?_, ?_, ?_, ?_, ?_, ?_, ?_, ?_, ?_, ?_, ?_, ?_, ?_, ?_, ?_, ?_, ?_, ?_, ?_, ?_, ?_, ?_, ?_, ?_, ?_, ?_, ?_⟩ <;> rfl

@[simp] theorem State.setMerge_fields (s : State) (c : Nat) (m : Merge) :
    (s.setMerge c m).pending = s.pending ∧ (s.setMerge c m).freeCtr = s.freeCtr ∧ (s.setMerge c m).regs = s.regs ∧ (s.setMerge c m).latch = s.latch ∧
    (s.setMerge c m).resp = s.resp ∧ (s.setMerge c m).out = s.out ∧ (s.setMerge c m).sys = s.sys ∧ (s.setMerge c m).pwr = s.pwr ∧
    (s.setMerge c m).pin = s.pin ∧ (s.setMerge c m).tb = s.tb ∧ (s.setMerge c m).fab = s.fab ∧ (s.setMerge c m).mbx = s.mbx ∧
    (s.setMerge c m).pmc = s.pmc ∧ (s.setMerge c m).evr = s.evr ∧ (s.setMerge c m).qm = s.qm ∧ (s.setMerge c m).ge = s.ge ∧
    (s.setMerge c m).sup = s.sup ∧ (s.setMerge c m).ldg = s.ldg ∧ (s.setMerge c m).bal = s.bal ∧ (s.setMerge c m).flw = s.flw ∧
    (s.setMerge c m).afe = s.afe ∧ (s.setMerge c m).plc = s.plc ∧ (s.setMerge c m).rf = s.rf ∧ (s.setMerge c m).wir = s.wir ∧
    (s.setMerge c m).eth = s.eth ∧ (s.setMerge c m).spn = s.spn ∧ (s.setMerge c m).twn = s.twn ∧ (s.setMerge c m).tre = s.tre ∧
    (s.setMerge c m).cfg = s.cfg ∧ (s.setMerge c m).sec = s.sec ∧ (s.setMerge c m).upd = s.upd ∧ (s.setMerge c m).mem = s.mem ∧
    (s.setMerge c m).nft = s.nft ∧ (s.setMerge c m).hst = s.hst := by
  refine ⟨?_, ?_, ?_, ?_, ?_, ?_, ?_, ?_, ?_, ?_, ?_, ?_, ?_, ?_, ?_, ?_, ?_, ?_, ?_, ?_, ?_, ?_, ?_, ?_, ?_, ?_, ?_, ?_, ?_, ?_, ?_, ?_, ?_, ?_⟩ <;> rfl

@[simp] theorem State.setDesc_fields (s : State) (q : Nat) (d : Desc) :
    (s.setDesc q d).pending = s.pending ∧ (s.setDesc q d).freeCtr = s.freeCtr ∧ (s.setDesc q d).regs = s.regs ∧ (s.setDesc q d).latch = s.latch ∧
    (s.setDesc q d).resp = s.resp ∧ (s.setDesc q d).out = s.out ∧ (s.setDesc q d).sys = s.sys ∧ (s.setDesc q d).pwr = s.pwr ∧
    (s.setDesc q d).pin = s.pin ∧ (s.setDesc q d).tb = s.tb ∧ (s.setDesc q d).fab = s.fab ∧ (s.setDesc q d).mbx = s.mbx ∧
    (s.setDesc q d).pmc = s.pmc ∧ (s.setDesc q d).evr = s.evr ∧ (s.setDesc q d).ge = s.ge ∧ (s.setDesc q d).sup = s.sup ∧
    (s.setDesc q d).ord = s.ord ∧ (s.setDesc q d).ldg = s.ldg ∧ (s.setDesc q d).bal = s.bal ∧ (s.setDesc q d).flw = s.flw ∧
    (s.setDesc q d).afe = s.afe ∧ (s.setDesc q d).plc = s.plc ∧ (s.setDesc q d).rf = s.rf ∧ (s.setDesc q d).wir = s.wir ∧
    (s.setDesc q d).eth = s.eth ∧ (s.setDesc q d).spn = s.spn ∧ (s.setDesc q d).twn = s.twn ∧ (s.setDesc q d).tre = s.tre ∧
    (s.setDesc q d).cfg = s.cfg ∧ (s.setDesc q d).sec = s.sec ∧ (s.setDesc q d).upd = s.upd ∧ (s.setDesc q d).mem = s.mem ∧
    (s.setDesc q d).nft = s.nft ∧ (s.setDesc q d).hst = s.hst := by
  refine ⟨?_, ?_, ?_, ?_, ?_, ?_, ?_, ?_, ?_, ?_, ?_, ?_, ?_, ?_, ?_, ?_, ?_, ?_, ?_, ?_, ?_, ?_, ?_, ?_, ?_, ?_, ?_, ?_, ?_, ?_, ?_, ?_, ?_, ?_⟩ <;> rfl

@[simp] theorem State.setFifo_fields (s : State) (n : Nat) (f : Fifo) :
    (s.setFifo n f).pending = s.pending ∧ (s.setFifo n f).freeCtr = s.freeCtr ∧ (s.setFifo n f).regs = s.regs ∧ (s.setFifo n f).latch = s.latch ∧
    (s.setFifo n f).resp = s.resp ∧ (s.setFifo n f).out = s.out ∧ (s.setFifo n f).sys = s.sys ∧ (s.setFifo n f).pwr = s.pwr ∧
    (s.setFifo n f).pin = s.pin ∧ (s.setFifo n f).tb = s.tb ∧ (s.setFifo n f).fab = s.fab ∧ (s.setFifo n f).mbx = s.mbx ∧
    (s.setFifo n f).pmc = s.pmc ∧ (s.setFifo n f).evr = s.evr ∧ (s.setFifo n f).ge = s.ge ∧ (s.setFifo n f).sup = s.sup ∧
    (s.setFifo n f).ord = s.ord ∧ (s.setFifo n f).ldg = s.ldg ∧ (s.setFifo n f).bal = s.bal ∧ (s.setFifo n f).flw = s.flw ∧
    (s.setFifo n f).afe = s.afe ∧ (s.setFifo n f).plc = s.plc ∧ (s.setFifo n f).rf = s.rf ∧ (s.setFifo n f).wir = s.wir ∧
    (s.setFifo n f).eth = s.eth ∧ (s.setFifo n f).spn = s.spn ∧ (s.setFifo n f).twn = s.twn ∧ (s.setFifo n f).tre = s.tre ∧
    (s.setFifo n f).cfg = s.cfg ∧ (s.setFifo n f).sec = s.sec ∧ (s.setFifo n f).upd = s.upd ∧ (s.setFifo n f).mem = s.mem ∧
    (s.setFifo n f).nft = s.nft ∧ (s.setFifo n f).hst = s.hst := by
  refine ⟨?_, ?_, ?_, ?_, ?_, ?_, ?_, ?_, ?_, ?_, ?_, ?_, ?_, ?_, ?_, ?_, ?_, ?_, ?_, ?_, ?_, ?_, ?_, ?_, ?_, ?_, ?_, ?_, ?_, ?_, ?_, ?_, ?_, ?_⟩ <;> rfl

@[simp] theorem State.setChan_fields (s : State) (c : Nat) (x : Chan) :
    (s.setChan c x).pending = s.pending ∧ (s.setChan c x).freeCtr = s.freeCtr ∧ (s.setChan c x).regs = s.regs ∧ (s.setChan c x).latch = s.latch ∧
    (s.setChan c x).resp = s.resp ∧ (s.setChan c x).out = s.out ∧ (s.setChan c x).sys = s.sys ∧ (s.setChan c x).pwr = s.pwr ∧
    (s.setChan c x).pin = s.pin ∧ (s.setChan c x).tb = s.tb ∧ (s.setChan c x).fab = s.fab ∧ (s.setChan c x).mbx = s.mbx ∧
    (s.setChan c x).pmc = s.pmc ∧ (s.setChan c x).evr = s.evr ∧ (s.setChan c x).qm = s.qm ∧ (s.setChan c x).ge = s.ge ∧ (s.setChan c x).sup = s.sup ∧
    (s.setChan c x).ord = s.ord ∧ (s.setChan c x).ldg = s.ldg ∧ (s.setChan c x).bal = s.bal ∧ (s.setChan c x).flw = s.flw ∧
    (s.setChan c x).plc = s.plc ∧ (s.setChan c x).rf = s.rf ∧ (s.setChan c x).wir = s.wir ∧ (s.setChan c x).eth = s.eth ∧
    (s.setChan c x).spn = s.spn ∧ (s.setChan c x).twn = s.twn ∧ (s.setChan c x).tre = s.tre ∧ (s.setChan c x).cfg = s.cfg ∧
    (s.setChan c x).sec = s.sec ∧ (s.setChan c x).upd = s.upd ∧ (s.setChan c x).mem = s.mem ∧ (s.setChan c x).nft = s.nft ∧
    (s.setChan c x).hst = s.hst := by
  refine ⟨?_, ?_, ?_, ?_, ?_, ?_, ?_, ?_, ?_, ?_, ?_, ?_, ?_, ?_, ?_, ?_, ?_, ?_, ?_, ?_, ?_, ?_, ?_, ?_, ?_, ?_, ?_, ?_, ?_, ?_, ?_, ?_, ?_, ?_⟩ <;> rfl

@[simp] theorem State.setPt_fields (s : State) (p : Nat) (x : Point) :
    (s.setPt p x).pending = s.pending ∧ (s.setPt p x).freeCtr = s.freeCtr ∧ (s.setPt p x).regs = s.regs ∧ (s.setPt p x).latch = s.latch ∧
    (s.setPt p x).resp = s.resp ∧ (s.setPt p x).out = s.out ∧ (s.setPt p x).sys = s.sys ∧ (s.setPt p x).pwr = s.pwr ∧ (s.setPt p x).pin = s.pin ∧
    (s.setPt p x).tb = s.tb ∧ (s.setPt p x).fab = s.fab ∧ (s.setPt p x).mbx = s.mbx ∧ (s.setPt p x).pmc = s.pmc ∧ (s.setPt p x).evr = s.evr ∧
    (s.setPt p x).qm = s.qm ∧ (s.setPt p x).ge = s.ge ∧ (s.setPt p x).sup = s.sup ∧ (s.setPt p x).ord = s.ord ∧ (s.setPt p x).ldg = s.ldg ∧
    (s.setPt p x).bal = s.bal ∧ (s.setPt p x).flw = s.flw ∧ (s.setPt p x).plc = s.plc ∧ (s.setPt p x).rf = s.rf ∧ (s.setPt p x).wir = s.wir ∧
    (s.setPt p x).eth = s.eth ∧ (s.setPt p x).spn = s.spn ∧ (s.setPt p x).twn = s.twn ∧ (s.setPt p x).tre = s.tre ∧ (s.setPt p x).cfg = s.cfg ∧
    (s.setPt p x).sec = s.sec ∧ (s.setPt p x).upd = s.upd ∧ (s.setPt p x).mem = s.mem ∧ (s.setPt p x).nft = s.nft ∧ (s.setPt p x).hst = s.hst := by
  refine ⟨?_, ?_, ?_, ?_, ?_, ?_, ?_, ?_, ?_, ?_, ?_, ?_, ?_, ?_, ?_, ?_, ?_, ?_, ?_, ?_, ?_, ?_, ?_, ?_, ?_, ?_, ?_, ?_, ?_, ?_, ?_, ?_, ?_, ?_⟩ <;> rfl

@[simp] theorem State.setPulse_fields (s : State) (i : Nat) (x : Pulse) :
    (s.setPulse i x).pending = s.pending ∧ (s.setPulse i x).freeCtr = s.freeCtr ∧ (s.setPulse i x).regs = s.regs ∧ (s.setPulse i x).latch = s.latch ∧
    (s.setPulse i x).resp = s.resp ∧ (s.setPulse i x).out = s.out ∧ (s.setPulse i x).sys = s.sys ∧ (s.setPulse i x).pwr = s.pwr ∧
    (s.setPulse i x).pin = s.pin ∧ (s.setPulse i x).tb = s.tb ∧ (s.setPulse i x).fab = s.fab ∧ (s.setPulse i x).mbx = s.mbx ∧
    (s.setPulse i x).pmc = s.pmc ∧ (s.setPulse i x).evr = s.evr ∧ (s.setPulse i x).qm = s.qm ∧ (s.setPulse i x).ge = s.ge ∧
    (s.setPulse i x).sup = s.sup ∧ (s.setPulse i x).ord = s.ord ∧ (s.setPulse i x).ldg = s.ldg ∧ (s.setPulse i x).bal = s.bal ∧
    (s.setPulse i x).flw = s.flw ∧ (s.setPulse i x).plc = s.plc ∧ (s.setPulse i x).rf = s.rf ∧ (s.setPulse i x).wir = s.wir ∧
    (s.setPulse i x).eth = s.eth ∧ (s.setPulse i x).spn = s.spn ∧ (s.setPulse i x).twn = s.twn ∧ (s.setPulse i x).tre = s.tre ∧
    (s.setPulse i x).cfg = s.cfg ∧ (s.setPulse i x).sec = s.sec ∧ (s.setPulse i x).upd = s.upd ∧ (s.setPulse i x).mem = s.mem ∧
    (s.setPulse i x).nft = s.nft ∧ (s.setPulse i x).hst = s.hst := by
  refine ⟨?_, ?_, ?_, ?_, ?_, ?_, ?_, ?_, ?_, ?_, ?_, ?_, ?_, ?_, ?_, ?_, ?_, ?_, ?_, ?_, ?_, ?_, ?_, ?_, ?_, ?_, ?_, ?_, ?_, ?_, ?_, ?_, ?_, ?_⟩ <;> rfl

@[simp] theorem State.setPw_fields (s : State) (l i : Nat) (v : W32) :
    (s.setPw l i v).pending = s.pending ∧ (s.setPw l i v).freeCtr = s.freeCtr ∧ (s.setPw l i v).regs = s.regs ∧ (s.setPw l i v).latch = s.latch ∧
    (s.setPw l i v).resp = s.resp ∧ (s.setPw l i v).out = s.out ∧ (s.setPw l i v).sys = s.sys ∧ (s.setPw l i v).pwr = s.pwr ∧
    (s.setPw l i v).pin = s.pin ∧ (s.setPw l i v).tb = s.tb ∧ (s.setPw l i v).fab = s.fab ∧ (s.setPw l i v).mbx = s.mbx ∧
    (s.setPw l i v).pmc = s.pmc ∧ (s.setPw l i v).evr = s.evr ∧ (s.setPw l i v).qm = s.qm ∧ (s.setPw l i v).ge = s.ge ∧ (s.setPw l i v).sup = s.sup ∧
    (s.setPw l i v).ord = s.ord ∧ (s.setPw l i v).bal = s.bal ∧ (s.setPw l i v).flw = s.flw ∧ (s.setPw l i v).afe = s.afe ∧
    (s.setPw l i v).plc = s.plc ∧ (s.setPw l i v).rf = s.rf ∧ (s.setPw l i v).wir = s.wir ∧ (s.setPw l i v).eth = s.eth ∧
    (s.setPw l i v).spn = s.spn ∧ (s.setPw l i v).twn = s.twn ∧ (s.setPw l i v).tre = s.tre ∧ (s.setPw l i v).cfg = s.cfg ∧
    (s.setPw l i v).sec = s.sec ∧ (s.setPw l i v).upd = s.upd ∧ (s.setPw l i v).mem = s.mem ∧ (s.setPw l i v).nft = s.nft ∧
    (s.setPw l i v).hst = s.hst := by
  refine ⟨?_, ?_, ?_, ?_, ?_, ?_, ?_, ?_, ?_, ?_, ?_, ?_, ?_, ?_, ?_, ?_, ?_, ?_, ?_, ?_, ?_, ?_, ?_, ?_, ?_, ?_, ?_, ?_, ?_, ?_, ?_, ?_, ?_, ?_⟩ <;> rfl

@[simp] theorem State.setTgt_fields (s : State) (k : Nat) (x : Tgt) :
    (s.setTgt k x).pending = s.pending ∧ (s.setTgt k x).freeCtr = s.freeCtr ∧ (s.setTgt k x).regs = s.regs ∧ (s.setTgt k x).latch = s.latch ∧
    (s.setTgt k x).resp = s.resp ∧ (s.setTgt k x).out = s.out ∧ (s.setTgt k x).sys = s.sys ∧ (s.setTgt k x).pwr = s.pwr ∧
    (s.setTgt k x).pin = s.pin ∧ (s.setTgt k x).tb = s.tb ∧ (s.setTgt k x).mbx = s.mbx ∧ (s.setTgt k x).pmc = s.pmc ∧ (s.setTgt k x).evr = s.evr ∧
    (s.setTgt k x).qm = s.qm ∧ (s.setTgt k x).ge = s.ge ∧ (s.setTgt k x).sup = s.sup ∧ (s.setTgt k x).ord = s.ord ∧ (s.setTgt k x).ldg = s.ldg ∧
    (s.setTgt k x).bal = s.bal ∧ (s.setTgt k x).flw = s.flw ∧ (s.setTgt k x).afe = s.afe ∧ (s.setTgt k x).plc = s.plc ∧ (s.setTgt k x).rf = s.rf ∧
    (s.setTgt k x).wir = s.wir ∧ (s.setTgt k x).eth = s.eth ∧ (s.setTgt k x).spn = s.spn ∧ (s.setTgt k x).twn = s.twn ∧ (s.setTgt k x).tre = s.tre ∧
    (s.setTgt k x).cfg = s.cfg ∧ (s.setTgt k x).sec = s.sec ∧ (s.setTgt k x).upd = s.upd ∧ (s.setTgt k x).mem = s.mem ∧ (s.setTgt k x).nft = s.nft ∧
    (s.setTgt k x).hst = s.hst := by
  refine ⟨?_, ?_, ?_, ?_, ?_, ?_, ?_, ?_, ?_, ?_, ?_, ?_, ?_, ?_, ?_, ?_, ?_, ?_, ?_, ?_, ?_, ?_, ?_, ?_, ?_, ?_, ?_, ?_, ?_, ?_, ?_, ?_, ?_, ?_⟩ <;> rfl

@[simp] theorem State.setChn_fields (s : State) (n : Nat) (x : Chn) :
    (s.setChn n x).pending = s.pending ∧ (s.setChn n x).freeCtr = s.freeCtr ∧ (s.setChn n x).regs = s.regs ∧ (s.setChn n x).latch = s.latch ∧
    (s.setChn n x).resp = s.resp ∧ (s.setChn n x).out = s.out ∧ (s.setChn n x).sys = s.sys ∧ (s.setChn n x).pwr = s.pwr ∧
    (s.setChn n x).pin = s.pin ∧ (s.setChn n x).tb = s.tb ∧ (s.setChn n x).fab = s.fab ∧ (s.setChn n x).pmc = s.pmc ∧ (s.setChn n x).evr = s.evr ∧
    (s.setChn n x).qm = s.qm ∧ (s.setChn n x).ge = s.ge ∧ (s.setChn n x).sup = s.sup ∧ (s.setChn n x).ord = s.ord ∧ (s.setChn n x).ldg = s.ldg ∧
    (s.setChn n x).bal = s.bal ∧ (s.setChn n x).flw = s.flw ∧ (s.setChn n x).afe = s.afe ∧ (s.setChn n x).plc = s.plc ∧ (s.setChn n x).rf = s.rf ∧
    (s.setChn n x).wir = s.wir ∧ (s.setChn n x).eth = s.eth ∧ (s.setChn n x).spn = s.spn ∧ (s.setChn n x).twn = s.twn ∧ (s.setChn n x).tre = s.tre ∧
    (s.setChn n x).cfg = s.cfg ∧ (s.setChn n x).sec = s.sec ∧ (s.setChn n x).upd = s.upd ∧ (s.setChn n x).mem = s.mem ∧ (s.setChn n x).nft = s.nft ∧
    (s.setChn n x).hst = s.hst := by
  refine ⟨?_, ?_, ?_, ?_, ?_, ?_, ?_, ?_, ?_, ?_, ?_, ?_, ?_, ?_, ?_, ?_, ?_, ?_, ?_, ?_, ?_, ?_, ?_, ?_, ?_, ?_, ?_, ?_, ?_, ?_, ?_, ?_, ?_, ?_⟩ <;> rfl

@[simp] theorem State.setItem_fields (s : State) (i : Init) (b : Option ItemBuf) :
    (s.setItem i b).pending = s.pending ∧ (s.setItem i b).freeCtr = s.freeCtr ∧ (s.setItem i b).regs = s.regs ∧ (s.setItem i b).latch = s.latch ∧
    (s.setItem i b).resp = s.resp ∧ (s.setItem i b).out = s.out ∧ (s.setItem i b).sys = s.sys ∧ (s.setItem i b).pwr = s.pwr ∧
    (s.setItem i b).pin = s.pin ∧ (s.setItem i b).tb = s.tb ∧ (s.setItem i b).fab = s.fab ∧ (s.setItem i b).mbx = s.mbx ∧
    (s.setItem i b).pmc = s.pmc ∧ (s.setItem i b).evr = s.evr ∧ (s.setItem i b).qm = s.qm ∧ (s.setItem i b).ge = s.ge ∧ (s.setItem i b).sup = s.sup ∧
    (s.setItem i b).ord = s.ord ∧ (s.setItem i b).ldg = s.ldg ∧ (s.setItem i b).bal = s.bal ∧ (s.setItem i b).flw = s.flw ∧
    (s.setItem i b).afe = s.afe ∧ (s.setItem i b).plc = s.plc ∧ (s.setItem i b).rf = s.rf ∧ (s.setItem i b).wir = s.wir ∧
    (s.setItem i b).eth = s.eth ∧ (s.setItem i b).spn = s.spn ∧ (s.setItem i b).twn = s.twn ∧ (s.setItem i b).tre = s.tre ∧
    (s.setItem i b).cfg = s.cfg ∧ (s.setItem i b).sec = s.sec ∧ (s.setItem i b).upd = s.upd ∧ (s.setItem i b).mem = s.mem ∧
    (s.setItem i b).nft = s.nft := by
  unfold State.setItem
  split <;> refine ⟨?_, ?_, ?_, ?_, ?_, ?_, ?_, ?_, ?_, ?_, ?_, ?_, ?_, ?_, ?_, ?_, ?_, ?_, ?_, ?_, ?_, ?_, ?_, ?_, ?_, ?_, ?_, ?_, ?_, ?_, ?_, ?_, ?_, ?_⟩ <;> rfl

@[simp] theorem State.returned_fields (s : State) (ws : List W32) :
    (s.returned ws).pending = s.pending ∧ (s.returned ws).freeCtr = s.freeCtr ∧ (s.returned ws).regs = s.regs ∧ (s.returned ws).latch = s.latch ∧
    (s.returned ws).resp = s.resp ∧ (s.returned ws).out = s.out ∧ (s.returned ws).sys = s.sys ∧ (s.returned ws).pwr = s.pwr ∧
    (s.returned ws).pin = s.pin ∧ (s.returned ws).tb = s.tb ∧ (s.returned ws).fab = s.fab ∧ (s.returned ws).mbx = s.mbx ∧
    (s.returned ws).pmc = s.pmc ∧ (s.returned ws).evr = s.evr ∧ (s.returned ws).qm = s.qm ∧ (s.returned ws).ge = s.ge ∧ (s.returned ws).sup = s.sup ∧
    (s.returned ws).ord = s.ord ∧ (s.returned ws).ldg = s.ldg ∧ (s.returned ws).bal = s.bal ∧ (s.returned ws).flw = s.flw ∧
    (s.returned ws).afe = s.afe ∧ (s.returned ws).plc = s.plc ∧ (s.returned ws).rf = s.rf ∧ (s.returned ws).wir = s.wir ∧
    (s.returned ws).eth = s.eth ∧ (s.returned ws).spn = s.spn ∧ (s.returned ws).twn = s.twn ∧ (s.returned ws).tre = s.tre ∧
    (s.returned ws).cfg = s.cfg ∧ (s.returned ws).sec = s.sec ∧ (s.returned ws).upd = s.upd ∧ (s.returned ws).mem = s.mem ∧
    (s.returned ws).nft = s.nft := by
  refine ⟨?_, ?_, ?_, ?_, ?_, ?_, ?_, ?_, ?_, ?_, ?_, ?_, ?_, ?_, ?_, ?_, ?_, ?_, ?_, ?_, ?_, ?_, ?_, ?_, ?_, ?_, ?_, ?_, ?_, ?_, ?_, ?_, ?_, ?_⟩ <;> rfl

@[simp] theorem State.setDie_fields (s : State) (d : Nat) (x : Die) :
    (s.setDie d x).pending = s.pending ∧ (s.setDie d x).freeCtr = s.freeCtr ∧ (s.setDie d x).regs = s.regs ∧ (s.setDie d x).latch = s.latch ∧
    (s.setDie d x).resp = s.resp ∧ (s.setDie d x).out = s.out ∧ (s.setDie d x).sys = s.sys ∧ (s.setDie d x).pwr = s.pwr ∧
    (s.setDie d x).pin = s.pin ∧ (s.setDie d x).tb = s.tb ∧ (s.setDie d x).fab = s.fab ∧ (s.setDie d x).mbx = s.mbx ∧ (s.setDie d x).pmc = s.pmc ∧
    (s.setDie d x).evr = s.evr ∧ (s.setDie d x).qm = s.qm ∧ (s.setDie d x).ge = s.ge ∧ (s.setDie d x).sup = s.sup ∧ (s.setDie d x).ord = s.ord ∧
    (s.setDie d x).ldg = s.ldg ∧ (s.setDie d x).bal = s.bal ∧ (s.setDie d x).flw = s.flw ∧ (s.setDie d x).afe = s.afe ∧ (s.setDie d x).plc = s.plc ∧
    (s.setDie d x).rf = s.rf ∧ (s.setDie d x).wir = s.wir ∧ (s.setDie d x).eth = s.eth ∧ (s.setDie d x).spn = s.spn ∧ (s.setDie d x).twn = s.twn ∧
    (s.setDie d x).tre = s.tre ∧ (s.setDie d x).cfg = s.cfg ∧ (s.setDie d x).sec = s.sec ∧ (s.setDie d x).upd = s.upd ∧ (s.setDie d x).mem = s.mem ∧
    (s.setDie d x).hst = s.hst := by
  refine ⟨?_, ?_, ?_, ?_, ?_, ?_, ?_, ?_, ?_, ?_, ?_, ?_, ?_, ?_, ?_, ?_, ?_, ?_, ?_, ?_, ?_, ?_, ?_, ?_, ?_, ?_, ?_, ?_, ?_, ?_, ?_, ?_, ?_, ?_⟩ <;> rfl

@[simp] theorem State.setStripe_fields (s : State) (g : Nat) (x : Stripe) :
    (s.setStripe g x).pending = s.pending ∧ (s.setStripe g x).freeCtr = s.freeCtr ∧ (s.setStripe g x).regs = s.regs ∧
    (s.setStripe g x).latch = s.latch ∧ (s.setStripe g x).resp = s.resp ∧ (s.setStripe g x).out = s.out ∧ (s.setStripe g x).sys = s.sys ∧
    (s.setStripe g x).pwr = s.pwr ∧ (s.setStripe g x).pin = s.pin ∧ (s.setStripe g x).tb = s.tb ∧ (s.setStripe g x).fab = s.fab ∧
    (s.setStripe g x).mbx = s.mbx ∧ (s.setStripe g x).pmc = s.pmc ∧ (s.setStripe g x).evr = s.evr ∧ (s.setStripe g x).qm = s.qm ∧
    (s.setStripe g x).ge = s.ge ∧ (s.setStripe g x).sup = s.sup ∧ (s.setStripe g x).ord = s.ord ∧ (s.setStripe g x).ldg = s.ldg ∧
    (s.setStripe g x).bal = s.bal ∧ (s.setStripe g x).flw = s.flw ∧ (s.setStripe g x).afe = s.afe ∧ (s.setStripe g x).plc = s.plc ∧
    (s.setStripe g x).rf = s.rf ∧ (s.setStripe g x).wir = s.wir ∧ (s.setStripe g x).eth = s.eth ∧ (s.setStripe g x).spn = s.spn ∧
    (s.setStripe g x).twn = s.twn ∧ (s.setStripe g x).tre = s.tre ∧ (s.setStripe g x).cfg = s.cfg ∧ (s.setStripe g x).sec = s.sec ∧
    (s.setStripe g x).upd = s.upd ∧ (s.setStripe g x).mem = s.mem ∧ (s.setStripe g x).hst = s.hst := by
  refine ⟨?_, ?_, ?_, ?_, ?_, ?_, ?_, ?_, ?_, ?_, ?_, ?_, ?_, ?_, ?_, ?_, ?_, ?_, ?_, ?_, ?_, ?_, ?_, ?_, ?_, ?_, ?_, ?_, ?_, ?_, ?_, ?_, ?_, ?_⟩ <;> rfl

@[simp] theorem State.setPlc_fields (s : State) (n : Nat) (x : Plc) :
    (s.setPlc n x).pending = s.pending ∧ (s.setPlc n x).freeCtr = s.freeCtr ∧ (s.setPlc n x).regs = s.regs ∧ (s.setPlc n x).latch = s.latch ∧
    (s.setPlc n x).resp = s.resp ∧ (s.setPlc n x).out = s.out ∧ (s.setPlc n x).sys = s.sys ∧ (s.setPlc n x).pwr = s.pwr ∧
    (s.setPlc n x).pin = s.pin ∧ (s.setPlc n x).tb = s.tb ∧ (s.setPlc n x).fab = s.fab ∧ (s.setPlc n x).mbx = s.mbx ∧ (s.setPlc n x).pmc = s.pmc ∧
    (s.setPlc n x).evr = s.evr ∧ (s.setPlc n x).qm = s.qm ∧ (s.setPlc n x).ge = s.ge ∧ (s.setPlc n x).sup = s.sup ∧ (s.setPlc n x).ord = s.ord ∧
    (s.setPlc n x).ldg = s.ldg ∧ (s.setPlc n x).bal = s.bal ∧ (s.setPlc n x).flw = s.flw ∧ (s.setPlc n x).afe = s.afe ∧ (s.setPlc n x).rf = s.rf ∧
    (s.setPlc n x).wir = s.wir ∧ (s.setPlc n x).eth = s.eth ∧ (s.setPlc n x).spn = s.spn ∧ (s.setPlc n x).twn = s.twn ∧ (s.setPlc n x).tre = s.tre ∧
    (s.setPlc n x).cfg = s.cfg ∧ (s.setPlc n x).sec = s.sec ∧ (s.setPlc n x).upd = s.upd ∧ (s.setPlc n x).mem = s.mem ∧ (s.setPlc n x).nft = s.nft ∧
    (s.setPlc n x).hst = s.hst := by
  refine ⟨?_, ?_, ?_, ?_, ?_, ?_, ?_, ?_, ?_, ?_, ?_, ?_, ?_, ?_, ?_, ?_, ?_, ?_, ?_, ?_, ?_, ?_, ?_, ?_, ?_, ?_, ?_, ?_, ?_, ?_, ?_, ?_, ?_, ?_⟩ <;> rfl

@[simp] theorem State.setRf_fields (s : State) (n : Nat) (x : Rf) :
    (s.setRf n x).pending = s.pending ∧ (s.setRf n x).freeCtr = s.freeCtr ∧ (s.setRf n x).regs = s.regs ∧ (s.setRf n x).latch = s.latch ∧
    (s.setRf n x).resp = s.resp ∧ (s.setRf n x).out = s.out ∧ (s.setRf n x).sys = s.sys ∧ (s.setRf n x).pwr = s.pwr ∧ (s.setRf n x).pin = s.pin ∧
    (s.setRf n x).tb = s.tb ∧ (s.setRf n x).fab = s.fab ∧ (s.setRf n x).mbx = s.mbx ∧ (s.setRf n x).pmc = s.pmc ∧ (s.setRf n x).evr = s.evr ∧
    (s.setRf n x).qm = s.qm ∧ (s.setRf n x).ge = s.ge ∧ (s.setRf n x).sup = s.sup ∧ (s.setRf n x).ord = s.ord ∧ (s.setRf n x).ldg = s.ldg ∧
    (s.setRf n x).bal = s.bal ∧ (s.setRf n x).flw = s.flw ∧ (s.setRf n x).afe = s.afe ∧ (s.setRf n x).plc = s.plc ∧ (s.setRf n x).wir = s.wir ∧
    (s.setRf n x).eth = s.eth ∧ (s.setRf n x).spn = s.spn ∧ (s.setRf n x).twn = s.twn ∧ (s.setRf n x).tre = s.tre ∧ (s.setRf n x).cfg = s.cfg ∧
    (s.setRf n x).sec = s.sec ∧ (s.setRf n x).upd = s.upd ∧ (s.setRf n x).mem = s.mem ∧ (s.setRf n x).nft = s.nft ∧ (s.setRf n x).hst = s.hst := by
  refine ⟨?_, ?_, ?_, ?_, ?_, ?_, ?_, ?_, ?_, ?_, ?_, ?_, ?_, ?_, ?_, ?_, ?_, ?_, ?_, ?_, ?_, ?_, ?_, ?_, ?_, ?_, ?_, ?_, ?_, ?_, ?_, ?_, ?_, ?_⟩ <;> rfl

@[simp] theorem State.setWir_fields (s : State) (n : Nat) (x : Wir) :
    (s.setWir n x).pending = s.pending ∧ (s.setWir n x).freeCtr = s.freeCtr ∧ (s.setWir n x).regs = s.regs ∧ (s.setWir n x).latch = s.latch ∧
    (s.setWir n x).resp = s.resp ∧ (s.setWir n x).out = s.out ∧ (s.setWir n x).sys = s.sys ∧ (s.setWir n x).pwr = s.pwr ∧
    (s.setWir n x).pin = s.pin ∧ (s.setWir n x).tb = s.tb ∧ (s.setWir n x).fab = s.fab ∧ (s.setWir n x).mbx = s.mbx ∧ (s.setWir n x).pmc = s.pmc ∧
    (s.setWir n x).evr = s.evr ∧ (s.setWir n x).qm = s.qm ∧ (s.setWir n x).ge = s.ge ∧ (s.setWir n x).sup = s.sup ∧ (s.setWir n x).ord = s.ord ∧
    (s.setWir n x).ldg = s.ldg ∧ (s.setWir n x).bal = s.bal ∧ (s.setWir n x).flw = s.flw ∧ (s.setWir n x).afe = s.afe ∧ (s.setWir n x).plc = s.plc ∧
    (s.setWir n x).rf = s.rf ∧ (s.setWir n x).eth = s.eth ∧ (s.setWir n x).spn = s.spn ∧ (s.setWir n x).twn = s.twn ∧ (s.setWir n x).tre = s.tre ∧
    (s.setWir n x).cfg = s.cfg ∧ (s.setWir n x).sec = s.sec ∧ (s.setWir n x).upd = s.upd ∧ (s.setWir n x).mem = s.mem ∧ (s.setWir n x).nft = s.nft ∧
    (s.setWir n x).hst = s.hst := by
  refine ⟨?_, ?_, ?_, ?_, ?_, ?_, ?_, ?_, ?_, ?_, ?_, ?_, ?_, ?_, ?_, ?_, ?_, ?_, ?_, ?_, ?_, ?_, ?_, ?_, ?_, ?_, ?_, ?_, ?_, ?_, ?_, ?_, ?_, ?_⟩ <;> rfl

@[simp] theorem State.setEth_fields (s : State) (n : Nat) (x : Eth) :
    (s.setEth n x).pending = s.pending ∧ (s.setEth n x).freeCtr = s.freeCtr ∧ (s.setEth n x).regs = s.regs ∧ (s.setEth n x).latch = s.latch ∧
    (s.setEth n x).resp = s.resp ∧ (s.setEth n x).out = s.out ∧ (s.setEth n x).sys = s.sys ∧ (s.setEth n x).pwr = s.pwr ∧
    (s.setEth n x).pin = s.pin ∧ (s.setEth n x).tb = s.tb ∧ (s.setEth n x).fab = s.fab ∧ (s.setEth n x).mbx = s.mbx ∧ (s.setEth n x).pmc = s.pmc ∧
    (s.setEth n x).evr = s.evr ∧ (s.setEth n x).qm = s.qm ∧ (s.setEth n x).ge = s.ge ∧ (s.setEth n x).sup = s.sup ∧ (s.setEth n x).ord = s.ord ∧
    (s.setEth n x).ldg = s.ldg ∧ (s.setEth n x).bal = s.bal ∧ (s.setEth n x).flw = s.flw ∧ (s.setEth n x).afe = s.afe ∧ (s.setEth n x).plc = s.plc ∧
    (s.setEth n x).rf = s.rf ∧ (s.setEth n x).wir = s.wir ∧ (s.setEth n x).spn = s.spn ∧ (s.setEth n x).twn = s.twn ∧ (s.setEth n x).tre = s.tre ∧
    (s.setEth n x).cfg = s.cfg ∧ (s.setEth n x).sec = s.sec ∧ (s.setEth n x).upd = s.upd ∧ (s.setEth n x).mem = s.mem ∧ (s.setEth n x).nft = s.nft ∧
    (s.setEth n x).hst = s.hst := by
  refine ⟨?_, ?_, ?_, ?_, ?_, ?_, ?_, ?_, ?_, ?_, ?_, ?_, ?_, ?_, ?_, ?_, ?_, ?_, ?_, ?_, ?_, ?_, ?_, ?_, ?_, ?_, ?_, ?_, ?_, ?_, ?_, ?_, ?_, ?_⟩ <;> rfl

@[simp] theorem State.setPeer_fields (s : State) (k : Nat) (p : Peer) :
    (s.setPeer k p).pending = s.pending ∧ (s.setPeer k p).freeCtr = s.freeCtr ∧ (s.setPeer k p).regs = s.regs ∧ (s.setPeer k p).latch = s.latch ∧
    (s.setPeer k p).resp = s.resp ∧ (s.setPeer k p).out = s.out ∧ (s.setPeer k p).sys = s.sys ∧ (s.setPeer k p).pwr = s.pwr ∧
    (s.setPeer k p).pin = s.pin ∧ (s.setPeer k p).tb = s.tb ∧ (s.setPeer k p).fab = s.fab ∧ (s.setPeer k p).mbx = s.mbx ∧
    (s.setPeer k p).pmc = s.pmc ∧ (s.setPeer k p).evr = s.evr ∧ (s.setPeer k p).qm = s.qm ∧ (s.setPeer k p).ge = s.ge ∧ (s.setPeer k p).sup = s.sup ∧
    (s.setPeer k p).ord = s.ord ∧ (s.setPeer k p).ldg = s.ldg ∧ (s.setPeer k p).bal = s.bal ∧ (s.setPeer k p).flw = s.flw ∧
    (s.setPeer k p).afe = s.afe ∧ (s.setPeer k p).plc = s.plc ∧ (s.setPeer k p).rf = s.rf ∧ (s.setPeer k p).wir = s.wir ∧
    (s.setPeer k p).eth = s.eth ∧ (s.setPeer k p).spn = s.spn ∧ (s.setPeer k p).twn = s.twn ∧ (s.setPeer k p).cfg = s.cfg ∧
    (s.setPeer k p).sec = s.sec ∧ (s.setPeer k p).upd = s.upd ∧ (s.setPeer k p).mem = s.mem ∧ (s.setPeer k p).nft = s.nft ∧
    (s.setPeer k p).hst = s.hst := by
  refine ⟨?_, ?_, ?_, ?_, ?_, ?_, ?_, ?_, ?_, ?_, ?_, ?_, ?_, ?_, ?_, ?_, ?_, ?_, ?_, ?_, ?_, ?_, ?_, ?_, ?_, ?_, ?_, ?_, ?_, ?_, ?_, ?_, ?_, ?_⟩ <;> rfl

/-! ## A reader after its own update -/

@[simp] theorem State.tgt_setTgt_same (s : State) (k : Nat) (x : Tgt) : (s.setTgt k x).tgt k = x := by
  simp [State.tgt, State.setTgt]
theorem State.tgt_setTgt_other (s : State) {j k : Nat} (x : Tgt) (h : j ≠ k) : (s.setTgt k x).tgt j = s.tgt j := by
  simp [State.tgt, State.setTgt, h]
@[simp] theorem State.chn_setChn_same (s : State) (k : Nat) (x : Chn) : (s.setChn k x).chn k = x := by
  simp [State.chn, State.setChn]
theorem State.chn_setChn_other (s : State) {j k : Nat} (x : Chn) (h : j ≠ k) : (s.setChn k x).chn j = s.chn j := by
  simp [State.chn, State.setChn, h]
@[simp] theorem State.die_setDie_same (s : State) (k : Nat) (x : Die) : (s.setDie k x).die k = x := by
  simp [State.die, State.setDie]
theorem State.die_setDie_other (s : State) {j k : Nat} (x : Die) (h : j ≠ k) : (s.setDie k x).die j = s.die j := by
  simp [State.die, State.setDie, h]
@[simp] theorem State.stripe_setStripe_same (s : State) (k : Nat) (x : Stripe) : (s.setStripe k x).stripe k = x := by
  simp [State.stripe, State.setStripe]
theorem State.stripe_setStripe_other (s : State) {j k : Nat} (x : Stripe) (h : j ≠ k) : (s.setStripe k x).stripe j = s.stripe j := by
  simp [State.stripe, State.setStripe, h]
@[simp] theorem State.plcAt_setPlc_same (s : State) (k : Nat) (x : Plc) : (s.setPlc k x).plcAt k = x := by
  simp [State.plcAt, State.setPlc]
theorem State.plcAt_setPlc_other (s : State) {j k : Nat} (x : Plc) (h : j ≠ k) : (s.setPlc k x).plcAt j = s.plcAt j := by
  simp [State.plcAt, State.setPlc, h]
@[simp] theorem State.rfAt_setRf_same (s : State) (k : Nat) (x : Rf) : (s.setRf k x).rfAt k = x := by
  simp [State.rfAt, State.setRf]
theorem State.rfAt_setRf_other (s : State) {j k : Nat} (x : Rf) (h : j ≠ k) : (s.setRf k x).rfAt j = s.rfAt j := by
  simp [State.rfAt, State.setRf, h]
@[simp] theorem State.wirAt_setWir_same (s : State) (k : Nat) (x : Wir) : (s.setWir k x).wirAt k = x := by
  simp [State.wirAt, State.setWir]
theorem State.wirAt_setWir_other (s : State) {j k : Nat} (x : Wir) (h : j ≠ k) : (s.setWir k x).wirAt j = s.wirAt j := by
  simp [State.wirAt, State.setWir, h]
@[simp] theorem State.ethAt_setEth_same (s : State) (k : Nat) (x : Eth) : (s.setEth k x).ethAt k = x := by
  simp [State.ethAt, State.setEth]
theorem State.ethAt_setEth_other (s : State) {j k : Nat} (x : Eth) (h : j ≠ k) : (s.setEth k x).ethAt j = s.ethAt j := by
  simp [State.ethAt, State.setEth, h]
@[simp] theorem State.peer_setPeer_same (s : State) (k : Nat) (x : Peer) : (s.setPeer k x).peer k = x := by
  simp [State.peer, State.setPeer]
theorem State.peer_setPeer_other (s : State) {j k : Nat} (x : Peer) (h : j ≠ k) : (s.setPeer k x).peer j = s.peer j := by
  simp [State.peer, State.setPeer, h]
@[simp] theorem State.lock_setLock_same (s : State) (k : Nat) (x : Lock) : (s.setLock k x).lock k = x := by
  simp [State.lock, State.setLock]
theorem State.lock_setLock_other (s : State) {j k : Nat} (x : Lock) (h : j ≠ k) : (s.setLock k x).lock j = s.lock j := by
  simp [State.lock, State.setLock, h]
@[simp] theorem State.seq_setSeq_same (s : State) (k : Nat) (x : Seqn) : (s.setSeq k x).seq k = x := by
  simp [State.seq, State.setSeq]
theorem State.seq_setSeq_other (s : State) {j k : Nat} (x : Seqn) (h : j ≠ k) : (s.setSeq k x).seq j = s.seq j := by
  simp [State.seq, State.setSeq, h]
@[simp] theorem State.merge_setMerge_same (s : State) (k : Nat) (x : Merge) : (s.setMerge k x).merge k = x := by
  simp [State.merge, State.setMerge]
theorem State.merge_setMerge_other (s : State) {j k : Nat} (x : Merge) (h : j ≠ k) : (s.setMerge k x).merge j = s.merge j := by
  simp [State.merge, State.setMerge, h]
@[simp] theorem State.reg_setReg_same (s : State) (k : Nat) (x : W32) : (s.setReg k x).reg k = x := by
  simp [State.reg, State.setReg]
theorem State.reg_setReg_other (s : State) {j k : Nat} (x : W32) (h : j ≠ k) : (s.setReg k x).reg j = s.reg j :=
  Tab.get_set_apart _ _ _ _ h

end Sys2Proof.Machine
end

