-- ==== Sys2Proof/Laws/Kept.lean ====
section
/-! SUPPORT. What no shared operation touches: the command queue and the chip's identity, with memory's canonical form kept. One
lemma per operation, in the form that chains: where `t` has it, so does the operation's result. -/

namespace Sys2Proof.Machine
open Sys2Proof

/-- From `s` to `t` the queue, the identity (R330, R447) and memory's canonical form are kept. -/
structure Kept (s t : State) : Prop where
  pending : t.pending = s.pending
  variant : t.sys.variant = s.sys.variant
  rev     : t.sys.rev = s.sys.rev
  serial  : t.sys.serial = s.sys.serial
  huk     : t.sec.huk = s.sec.huk
  form    : MemoryForm s → MemoryForm t

theorem Kept.refl (s : State) : Kept s s := ⟨rfl, rfl, rfl, rfl, rfl, id⟩

theorem Kept.trans {s t u : State} (h : Kept s t) (g : Kept t u) : Kept s u :=
  ⟨g.pending.trans h.pending, g.variant.trans h.variant, g.rev.trans h.rev, g.serial.trans h.serial, g.huk.trans h.huk, g.form ∘ h.form⟩

/-- A change of other fields. -/
theorem Kept.same {s t u : State} (h : Kept s t) (p : u.pending = t.pending) (v : u.sys = t.sys) (k : u.sec.huk = t.sec.huk)
    (d : u.mem.dram = t.mem.dram) (m : u.sup.mem = t.sup.mem) (e : u.ge.store = t.ge.store) : Kept s u :=
  h.trans ⟨p, by rw [v], by rw [v], by rw [v], k, fun f => by unfold MemoryForm; rw [d, m, e]; exact f⟩

/-- A fold of steps each of which keeps it. -/
theorem Kept.foldl {β : Type} {s : State} (f : State → β → State) (hf : ∀ u b, Kept u (f u b)) (l : List β) {t : State} (h : Kept s t) :
    Kept s (l.foldl f t) := by
  induction l generalizing t with
  | nil => exact h
  | cons b l ih => exact ih (h.trans (hf t b))

theorem Kept.foldr {β : Type} {s : State} (f : β → State → State) (hf : ∀ b u, Kept u (f b u)) (l : List β) {t : State} (h : Kept s t) :
    Kept s (l.foldr f t) := by
  induction l with
  | nil => exact h
  | cons b l ih => exact ih.trans (hf b _)

theorem Kept.ite {s t u : State} {c : Prop} [Decidable c] (h : Kept s t) (g : Kept s u) : Kept s (if c then t else u) := by
  split
  · exact h
  · exact g

variable {s t : State}

/-! ## Single updates -/

theorem Kept.setReg (h : Kept s t) (o : Nat) (v : W32) : Kept s (t.setReg o v) := h.same rfl rfl rfl rfl rfl rfl
theorem Kept.respond (h : Kept s t) (i : Init) (st : Status) : Kept s (t.respond i st) := h.same rfl rfl rfl rfl rfl rfl
theorem Kept.draw (h : Kept s t) (w : Nat) : Kept s (t.draw w).2 := h.same rfl rfl rfl rfl rfl rfl
theorem Kept.irq (h : Kept s t) (k : Nat) : Kept s (t.irq k) := h.same rfl rfl rfl rfl rfl rfl
theorem Kept.pend (h : Kept s t) (k : Nat) : Kept s (t.pend k) := h.same rfl rfl rfl rfl rfl rfl
theorem Kept.setThread (h : Kept s t) (n : Nat) (x : Thread) : Kept s (t.setThread n x) := h.same rfl rfl rfl rfl rfl rfl
theorem Kept.putMe (h : Kept s t) (w : Who) (x : Thread) : Kept s (t.putMe w x) := h.same rfl rfl rfl rfl rfl rfl
theorem Kept.setPc (h : Kept s t) (w : Who) (pc : Nat) : Kept s (t.setPc w pc) := h.same rfl rfl rfl rfl rfl rfl
theorem Kept.setLock (h : Kept s t) (l : Nat) (x : Lock) : Kept s (t.setLock l x) := h.same rfl rfl rfl rfl rfl rfl
theorem Kept.freeLock (h : Kept s t) (l : Nat) : Kept s (t.freeLock l) := h.same rfl rfl rfl rfl rfl rfl
theorem Kept.setSeq (h : Kept s t) (n : Nat) (q : Seqn) : Kept s (t.setSeq n q) := h.same rfl rfl rfl rfl rfl rfl
theorem Kept.seqNote (h : Kept s t) (i : Init) (n : Nat) (st : Status) : Kept s (t.seqNote i n st) := h.same rfl rfl rfl rfl rfl rfl
theorem Kept.setMerge (h : Kept s t) (c : Nat) (m : Merge) : Kept s (t.setMerge c m) := h.same rfl rfl rfl rfl rfl rfl
theorem Kept.setDesc (h : Kept s t) (q : Nat) (d : Desc) : Kept s (t.setDesc q d) := h.same rfl rfl rfl rfl rfl rfl
theorem Kept.setFifo (h : Kept s t) (n : Nat) (f : Fifo) : Kept s (t.setFifo n f) := h.same rfl rfl rfl rfl rfl rfl
theorem Kept.setChan (h : Kept s t) (c : Nat) (x : Chan) : Kept s (t.setChan c x) := h.same rfl rfl rfl rfl rfl rfl
theorem Kept.setPt (h : Kept s t) (p : Nat) (x : Point) : Kept s (t.setPt p x) := h.same rfl rfl rfl rfl rfl rfl
theorem Kept.setPulse (h : Kept s t) (i : Nat) (x : Pulse) : Kept s (t.setPulse i x) := h.same rfl rfl rfl rfl rfl rfl
theorem Kept.setTgt (h : Kept s t) (k : Nat) (x : Tgt) : Kept s (t.setTgt k x) := h.same rfl rfl rfl rfl rfl rfl
theorem Kept.setChn (h : Kept s t) (n : Nat) (x : Chn) : Kept s (t.setChn n x) := h.same rfl rfl rfl rfl rfl rfl
theorem Kept.setDie (h : Kept s t) (d : Nat) (x : Die) : Kept s (t.setDie d x) := h.same rfl rfl rfl rfl rfl rfl
theorem Kept.setStripe (h : Kept s t) (g : Nat) (x : Stripe) : Kept s (t.setStripe g x) := h.same rfl rfl rfl rfl rfl rfl
theorem Kept.setPeer (h : Kept s t) (k : Nat) (p : Peer) : Kept s (t.setPeer k p) := h.same rfl rfl rfl rfl rfl rfl
theorem Kept.setPlc (h : Kept s t) (n : Nat) (x : Plc) : Kept s (t.setPlc n x) := h.same rfl rfl rfl rfl rfl rfl
theorem Kept.setRf (h : Kept s t) (n : Nat) (x : Rf) : Kept s (t.setRf n x) := h.same rfl rfl rfl rfl rfl rfl
theorem Kept.setWir (h : Kept s t) (n : Nat) (x : Wir) : Kept s (t.setWir n x) := h.same rfl rfl rfl rfl rfl rfl
theorem Kept.setEth (h : Kept s t) (n : Nat) (x : Eth) : Kept s (t.setEth n x) := h.same rfl rfl rfl rfl rfl rfl
theorem Kept.setDom (h : Kept s t) (b : Bool) (d : Domain) : Kept s (t.setDom b d) := by
  unfold State.setDom; split <;> exact h.same rfl rfl rfl rfl rfl rfl
theorem Kept.count (h : Kept s t) (ev amt : Nat) (f : PmcTag) : Kept s (t.count ev amt f) := by
  rw [State.count_frame]; exact h.same rfl rfl rfl rfl rfl rfl
theorem Kept.stampAs (h : Kept s t) (src : Nat) (m : TimeRec) (b : Item) : Kept s (t.stampAs src m b).2 := h.same rfl rfl rfl rfl rfl rfl

/-! ## Memory (16_storage.md) -/

theorem Kept.ramPut (h : Kept s t) (a : Nat) (bs : List Byte) : Kept s (t.ramPut a bs) :=
  h.trans ⟨rfl, rfl, rfl, rfl, rfl, fun f => ⟨wf_ramPutTab _ _ _ f.1, f.2⟩⟩
theorem Kept.ramWrite (h : Kept s t) (a : Nat) (bs : List Byte) : Kept s (t.ramWrite a bs).2 := by
  have e := State.ramWrite_frame t a bs
  refine h.trans ⟨?_, ?_, ?_, ?_, ?_, fun f => ⟨State.wf_ramWrite t a bs f.1, ?_, ?_⟩⟩
  · rw [e]
  · rw [e]
  · rw [e]
  · rw [e]
  · rw [e]
  · rw [e]; exact f.2.1
  · rw [e]; exact f.2.2
theorem Kept.stPut (h : Kept s t) (a : Nat) (e : StreamEnt) : Kept s (t.stPut a e) := h.ramPut a _
theorem Kept.ccPut (h : Kept s t) (a : Nat) (e : CcEnt) : Kept s (t.ccPut a e) := h.ramPut a _

/-! ## The event recorder (R393 to R396) -/

theorem Kept.evPlace (h : Kept s t) (r : BitVec 256) : Kept s (t.evPlace r) := by
  unfold State.evPlace; dsimp only; split
  · split <;> exact h.same rfl rfl rfl rfl rfl rfl
  · exact h.same rfl rfl rfl rfl rfl rfl
theorem Kept.evPass (h : Kept s t) (r : BitVec 256) : Kept s (t.evPass r) := by
  unfold State.evPass; split
  · exact h.evPlace r
  · split <;> exact h.same rfl rfl rfl rfl rfl rfl
theorem Kept.evSummary (h : Kept s t) (c n : Nat) : Kept s (t.evSummary c n) := h.evPass _
theorem Kept.evMakeRoom (h : Kept s t) : Kept s t.evMakeRoom := by
  unfold State.evMakeRoom; split
  · exact h
  · split
    · exact h
    · exact (Kept.ite h (h.evSummary _ _)).same rfl rfl rfl rfl rfl rfl
theorem Kept.evAdmit (h : Kept s t) (c : Nat) (r : BitVec 256) : Kept s (t.evAdmit c r) := by
  unfold State.evAdmit; split
  · exact h
  · split
    · exact h.evPass r
    · split
      · split
        · exact h.same rfl rfl rfl rfl rfl rfl
        · refine Kept.evPass ?_ r
          exact h.same rfl rfl rfl rfl rfl rfl
      · refine Kept.evPass ?_ r
        exact h.evMakeRoom.same rfl rfl rfl rfl rfl rfl
theorem Kept.event (h : Kept s t) (c : Nat) (p : W32) : Kept s (t.event c p) := h.evAdmit c _
theorem Kept.eventAs (h : Kept s t) (u f c : Nat) (p : W32) : Kept s (t.eventAs u f c p) := h.evAdmit c _
theorem Kept.freezeEnd (h : Kept s t) (r : Nat) : Kept s (t.freezeEnd r) := by
  unfold State.freezeEnd; split
  · exact h
  · refine Kept.ite ?_ (Kept.event ?_ _ _) <;> refine Kept.ite ?_ (Kept.event ?_ _ _) <;>
      exact Kept.foldl _ (fun u r => (Kept.refl u).evPlace _) _ (h.same rfl rfl rfl rfl rfl rfl)

/-! ## Agent epochs (R116) -/

theorem Kept.dropPend (h : Kept s t) (a : Nat) : Kept s (t.dropPend a) := by
  unfold State.dropPend
  refine Kept.foldl _ (fun u p => ?_) _ (h.same rfl rfl rfl rfl rfl rfl)
  split
  · exact Kept.ite ((Kept.refl u).stPut _ _) (Kept.refl u)
  · exact Kept.refl u
theorem Kept.seqExpire (h : Kept s t) (n c : Nat) : Kept s (t.seqExpire n c) := by
  unfold State.seqExpire; dsimp only; split
  · exact h
  · split
    · exact h
    · refine Kept.event ?_ _ _
      exact h.same rfl rfl rfl rfl rfl rfl
theorem Kept.raiseEpoch (h : Kept s t) (a : Nat) : Kept s (t.raiseEpoch a) := by
  unfold State.raiseEpoch
  dsimp only
  generalize hu : State.dropPend a _ = u
  have hd : Kept s u := by
    rw [← hu]
    refine Kept.dropPend ?_ a
    exact h.same rfl rfl rfl rfl rfl rfl
  have k := Kept.foldl (fun s (p : Nat × Seqn) => s.seqExpire p.1 2) (fun u p => (Kept.refl u).seqExpire p.1 2)
    (u.ord.seqs.filter (fun p => decide (p.2.owner.isSome ∧ p.2.ownerAgent = a))) hd
  split
  · exact Kept.ite (k.freezeEnd 2) k
  · exact k

/-! ## Queues (R71 to R87) -/

theorem Kept.markLate (h : Kept s t) (q p : Nat) : Kept s (t.markLate q p) := h.ramPut _ _
theorem Kept.releaseOne (h : Kept s t) (c q : Nat) (x : Held) : Kept s (t.releaseOne c q x) := by
  unfold State.releaseOne
  exact ((Kept.ite ((h.markLate _ _).count _ _ _) h).setMerge _ _).setDesc _ _
theorem Kept.releaseList (h : Kept s t) (c q : Nat) (l : List Held) : Kept s (t.releaseList c q l) :=
  Kept.foldl _ (fun u x => (Kept.refl u).releaseOne _ _ x) l h
theorem Kept.releaseUpTo (h : Kept s t) (c p : Nat) : Kept s (t.releaseUpTo c p) := (h.setMerge _ _).releaseList _ _ _
theorem Kept.releaseAll (h : Kept s t) (c : Nat) : Kept s (t.releaseAll c) := (h.setMerge _ _).releaseList _ _ _
theorem Kept.mergeDue (h : Kept s t) (n c : Nat) : Kept s (State.mergeDue n c t) := by
  induction n generalizing t with
  | zero => exact h
  | succ n ih =>
    unfold State.mergeDue
    split
    · exact ih (h.releaseUpTo _ _)
    · exact h
theorem Kept.mergeExpire (h : Kept s t) (q : Nat) : Kept s (t.mergeExpire q) := by
  unfold State.mergeExpire
  split
  · exact h.mergeDue _ _
  · exact h
theorem Kept.notePool (h : Kept s t) : Kept s t.notePool := by
  unfold State.notePool
  exact Kept.ite (h.same rfl rfl rfl rfl rfl rfl) h
theorem Kept.mergeHold (h : Kept s t) (c q : Nat) (x : Held) : Kept s (t.mergeHold c q x) := by
  unfold State.mergeHold
  refine Kept.ite ?_ (Kept.ite ((h.setMerge _ _).releaseUpTo _ _) (h.setMerge _ _))
  dsimp only
  split
  · exact (h.setMerge _ _).releaseOne _ _ _
  · refine Kept.ite ((h.setMerge _ _).releaseOne _ _ _) ?_
    exact Kept.ite (((((h.setMerge _ _).setMerge _ _).releaseOne _ _ _).setMerge _ _).releaseUpTo _ _)
      ((((h.setMerge _ _).setMerge _ _).releaseOne _ _ _).setMerge _ _)
theorem Kept.mergePublish (h : Kept s t) (q p k : Nat) : Kept s (t.mergePublish q p k) := by
  unfold State.mergePublish
  have g := h.mergeExpire q
  dsimp only
  split
  · exact Kept.ite (g.setDesc _ _) ((g.setDesc _ _).event _ _)
  · exact g.notePool.mergeHold _ _ _
theorem Kept.queueReset (h : Kept s t) (q : Nat) : Kept s (t.queueReset q) := by
  unfold State.queueReset
  dsimp only
  generalize hu : t.setDesc q _ = u
  have hk : Kept s u := hu ▸ h.setDesc _ _
  refine Kept.event (Kept.irq ?_ _) _ _
  split
  · generalize hv : u.setMerge _ _ = v
    have hm : Kept s v := hv ▸ hk.setMerge _ _
    exact hm.same rfl rfl rfl rfl rfl rfl
  · exact hk.same rfl rfl rfl rfl rfl rfl
theorem Kept.qmAccess (h : Kept s t) (q : Nat) : Kept s (t.qmAccess q).2 := by
  unfold State.qmAccess
  dsimp only
  split
  · exact h.queueReset q
  · exact h
theorem Kept.publish (h : Kept s t) (q k : Nat) (x : Item) : Kept s (t.publish q k x) := by
  unfold State.publish
  exact Kept.ite ((((h.ramPut _ _).setDesc _ _).count _ _ _).mergePublish _ _ _) (((h.ramPut _ _).setDesc _ _).count _ _ _)
theorem Kept.hwPut (h : Kept s t) (q : Nat) (x : Item) : Kept s (t.hwPut q x).2 := by
  unfold State.hwPut
  dsimp only
  split
  · exact (h.qmAccess q).publish _ _ _
  · exact h.qmAccess q
theorem Kept.consume (h : Kept s t) (q g p : Nat) : Kept s (t.consume q g p) := by
  unfold State.consume
  exact Kept.ite ((h.qmAccess q).setDesc _ _) (h.qmAccess q)
theorem Kept.setAsideOne (h : Kept s t) (q : Nat) (r : Ret) : Kept s (t.setAsideOne q r).2 := by
  unfold State.setAsideOne
  dsimp only
  generalize hu : (if (t.desc q).sideq = q then (false, t) else t.qmAccess (t.desc q).sideq) = u
  have hk : Kept s u.2 := by
    rw [← hu]; split
    · exact h
    · exact h.qmAccess _
  split
  · exact (((((hk.setDesc _ _).publish _ _ _).consume _ _ _).event _ _).count _ _ _)
  · split
    · exact hk
    · exact (hk.setDesc _ _).event _ _
theorem Kept.setAsideGo (h : Kept s t) (n q : Nat) : Kept s (State.setAsideGo n q t) := by
  induction n generalizing t with
  | zero => exact h
  | succ n ih =>
    unfold State.setAsideGo
    split
    · exact h
    · next r _ =>
      have k := h.setAsideOne q r
      split
      · next e => rw [e] at k; exact ih k
      · next e => rw [e] at k; exact k
theorem Kept.setAside (h : Kept s t) (q : Nat) : Kept s (t.setAside q) := h.setAsideGo _ q
theorem Kept.returnItem (h : Kept s t) (q g : Nat) (r : Ret) : Kept s (t.returnItem q g r) := by
  unfold State.returnItem
  exact Kept.ite (((h.qmAccess q).setDesc _ _).setAside q) (h.qmAccess q)
theorem Kept.inflDown (h : Kept s t) (q g : Nat) : Kept s (t.inflDown q g) := by
  unfold State.inflDown
  exact Kept.ite (h.setDesc _ _) h
theorem Kept.takeHead (h : Kept s t) (q : Nat) : Kept s (t.takeHead q) := by
  unfold State.takeHead
  dsimp only
  split
  · exact h.setDesc _ _
  · split
    · exact h
    · exact h.setDesc _ _
theorem Kept.hwTake (h : Kept s t) (q : Nat) : Kept s (t.hwTake q).2 := by
  unfold State.hwTake
  dsimp only
  split
  · split
    · exact h.qmAccess q
    · exact ((h.qmAccess q).takeHead q).consume _ _ _
  · exact h.qmAccess q
theorem Kept.sendPause (h : Kept s t) (n : Nat) (v : BitVec 16) : Kept s (t.sendPause n v) := by
  unfold State.sendPause
  exact Kept.ite (h.same rfl rfl rfl rfl rfl rfl) h
theorem Kept.fifoHold (h : Kept s t) (n : Nat) : Kept s (t.fifoHold n) := by
  unfold State.fifoHold
  exact Kept.ite ((h.setFifo _ _).sendPause _ _) (Kept.ite ((h.setFifo _ _).sendPause _ _) h)
theorem Kept.fifoPush (h : Kept s t) (n p : Nat) (x : Item) : Kept s (t.fifoPush n p x).2 := by
  unfold State.fifoPush
  dsimp only
  split
  · exact (h.setFifo _ _).fifoHold _
  · exact h.setFifo _ _
theorem Kept.settle (h : Kept s t) (q p : Nat) : Kept s (t.settle q p) := h.setDesc _ _
theorem Kept.fifoPublish (h : Kept s t) (n p : Nat) (x : Item) : Kept s (t.fifoPublish n p x) := by
  unfold State.fifoPublish
  dsimp only
  generalize hu : t.publish _ 0 x = u
  have hk : Kept s u := hu ▸ h.publish _ _ _
  generalize hv : (if (u.spn.link && !u.solo) = true then { u with out := _ } else u) = v
  have hm : Kept s v := by
    rw [← hv]
    exact Kept.ite (hk.same rfl rfl rfl rfl rfl rfl) hk
  generalize hw : v.setDesc _ _ = w
  have hd : Kept s w := hw ▸ hm.setDesc _ _
  exact Kept.ite (Kept.ite hm (hd.same rfl rfl rfl rfl rfl rfl)) hk
theorem Kept.fifoDrain (h : Kept s t) (n : Nat) : Kept s (t.fifoDrain n) := by
  unfold State.fifoDrain
  split
  · exact h
  · exact Kept.ite ((((h.qmAccess _).setFifo _ _).fifoPublish _ _ _).fifoHold _) (h.qmAccess _)
theorem Kept.ingress (h : Kept s t) (n p : Nat) (m : TimeRec) (b : Item) : Kept s (t.ingress n p m b).2 :=
  Kept.fifoPush (h.stampAs (fifoSource n) m b) n p _

/-! ## Tasks and faults (R47, R64, R90) -/

theorem Kept.dropStage (h : Kept s t) (a : Nat) : Kept s (t.dropStage a) := by
  unfold State.dropStage
  refine Kept.setThread (Kept.dropPend ?_ a) _ _
  refine Kept.foldr _ (fun p u => (Kept.refl u).returnItem _ _ _) _ ?_
  exact Kept.foldl _ (fun u p => Kept.ite (((Kept.refl u).qmAccess _).setDesc _ _) ((Kept.refl u).qmAccess _)) _ h
theorem Kept.dropLocks (h : Kept s t) (a : Nat) : Kept s (t.dropLocks a) :=
  Kept.foldl _ (fun u l => Kept.ite ((Kept.refl u).freeLock l) (Kept.refl u)) _ h
theorem Kept.classIssued (h : Kept s t) (a k : Nat) : Kept s (t.classIssued a k) := by
  unfold State.classIssued
  exact Kept.ite (h.same rfl rfl rfl rfl rfl rfl) h
theorem Kept.freeThread (h : Kept s t) (a : Nat) : Kept s (t.freeThread a) := h.setThread _ _
theorem Kept.selfFault (h : Kept s t) : Kept s t.selfFault := by
  unfold State.selfFault
  refine Kept.ite h (Kept.event ?_ _ _)
  exact h.same rfl rfl rfl rfl rfl rfl
theorem Kept.replayAnswer (h : Kept s t) (ps : BitVec 48) (d e : Word) (st : Status) : Kept s (t.replayAnswer ps d e st) := by
  unfold State.replayAnswer
  have k : Kept s { t with out := t.out ++ [.replayAnswer ps d e st] } := h.same rfl rfl rfl rfl rfl rfl
  exact Kept.ite k.selfFault k
theorem Kept.replayDrop (h : Kept s t) (a : Nat) : Kept s (t.replayDrop a) := ((h.dropLocks a).dropStage a).freeThread a
theorem Kept.replayEnd (h : Kept s t) (a : Nat) (ps : BitVec 48) (r : ReplayRec) (d : Option Word) : Kept s (t.replayEnd a ps r d) :=
  (h.replayDrop a).replayAnswer _ _ _ _
theorem Kept.replayCut (h : Kept s t) (a : Nat) (f : Bool) (ps : BitVec 48) (r : ReplayRec) : Kept s (t.replayCut a f ps r) := by
  unfold State.replayCut
  refine Kept.ite (h.replayEnd _ _ _ _) (Kept.replayDrop ?_ _)
  exact h.same rfl rfl rfl rfl rfl rfl
theorem Kept.endTask (h : Kept s t) (a : Nat) (r k f : Bool) : Kept s (t.endTask a r k f) := by
  unfold State.endTask
  dsimp only
  split
  · exact h.replayCut _ _ _ _
  exact ((((((Kept.ite h (h.dropLocks a)).dropStage a).returnItem _ _ _).inflDown _ _).classIssued _ _).count _ _ _).freeThread a
theorem Kept.reserveCheck (h : Kept s t) (c : Nat) : Kept s (t.reserveCheck c) := by
  unfold State.reserveCheck
  dsimp only
  split
  · split
    · exact h
    · refine Kept.event ?_ _ _
      exact h.same rfl rfl rfl rfl rfl rfl
  · exact Kept.ite (h.same rfl rfl rfl rfl rfl rfl) h
theorem Kept.report (h : Kept s t) (r : FltRep) : Kept s (t.report r) := by
  unfold State.report
  refine Kept.irq (Kept.ite ?_ ?_) 0 <;> exact h.same rfl rfl rfl rfl rfl rfl
theorem Kept.engineFaultAt (h : Kept s t) (w : W32) (a : Nat) (c : FaultClass) (st : Status) : Kept s (t.engineFaultAt w a c st) := by
  unfold State.engineFaultAt
  dsimp only
  generalize hu : List.foldl _ t _ = u
  have hk : Kept s u := by
    rw [← hu]
    refine Kept.foldl _ (fun u p => ?_) _ h
    exact (Kept.refl u).same rfl rfl rfl rfl rfl rfl
  generalize hv : List.foldr _ u _ = v
  have hm : Kept s v := by
    rw [← hv]
    refine Kept.foldr _ (fun p u => ?_) _ hk
    split
    · exact (Kept.refl u).endTask _ _ _ _
    · exact Kept.refl u
  refine Kept.reserveCheck (Kept.report ?_ _) _
  exact hm.same rfl rfl rfl rfl rfl rfl
theorem Kept.supFault (h : Kept s t) (c : FaultClass) (st : Status) : Kept s (t.supFault c st) := by
  unfold State.supFault
  have k := h.dropStage agSup
  refine Kept.setThread ?_ _ _
  exact k.same rfl rfl rfl rfl rfl rfl
theorem Kept.fault (h : Kept s t) (w : Who) (c : FaultClass) (st : Status) : Kept s (t.fault w c st) := by
  unfold State.fault
  split
  · exact h.engineFaultAt _ _ _ _
  · exact h.supFault _ _
theorem Kept.issue (h : Kept s t) (w : Who) : Kept s (t.issue w) := by
  unfold State.issue
  split
  · exact h
  · exact ((h.setThread _ _).count _ _ _).count _ _ _

/-- Every Garnil instruction keeps it whose own meaning does, in every way it can answer. -/
def GRes.kept (s : State) : GRes → Prop
  | .go u => Kept s u
  | .jump _ u => Kept s u
  | .stop u => Kept s u
  | .fault _ _ => True
  | .faultIn u _ _ => Kept s u
  | .retry => True

theorem Kept.finish (h : Kept s t) (w : Who) (pc : Nat) (r : GRes) (k : r.kept s) : ∃ u, finish w pc t r = .next u ∧ Kept s u := by
  cases r with
  | go u => exact ⟨_, rfl, Kept.setPc k _ _⟩
  | jump a u => exact ⟨_, rfl, Kept.setPc k _ _⟩
  | stop u => exact ⟨_, rfl, k⟩
  | fault c st => exact ⟨_, rfl, h.fault _ _ _⟩
  | faultIn u c st => exact ⟨_, rfl, Kept.fault k _ _ _⟩
  | retry =>
    cases w with
    | thread n => exact ⟨_, rfl, h.endTask _ _ _ _⟩
    | sup => exact ⟨_, rfl, ((h.dropLocks _).dropStage _).setPc _ _⟩

/-- A Garnil instruction answers a next state and keeps what its meaning keeps (R10, R34, R47). -/
theorem kept_garnil (x : Ix) (f : State → GRes) (s : State) (hf : ∀ u, Kept s u → (f u).kept s) : ∃ u, garnil x f s = .next u ∧ Kept s u := by
  have h := (Kept.refl s).issue x.who
  unfold garnil
  split
  · dsimp only
    split
    · exact ⟨_, rfl, h.fault _ _ _⟩
    · split
      · exact ⟨_, rfl, h.setPc _ _⟩
      · exact h.finish _ _ _ (hf _ h)
  · exact ⟨_, rfl, Kept.refl s⟩

theorem kept_garnilSup (x : Ix) (f : State → GRes) (s : State) (hf : ∀ u, Kept s u → (f u).kept s) : ∃ u, garnilSup x f s = .next u ∧ Kept s u := by
  unfold garnilSup
  split
  · exact kept_garnil x f s hf
  · split
    · exact ⟨_, rfl, ((Kept.refl s).issue _).fault _ _ _⟩
    · exact ⟨_, rfl, Kept.refl s⟩

theorem kept_garnilPriv (x : Ix) (p : State → Bool) (f : State → GRes) (s : State) (hf : ∀ u, Kept s u → (f u).kept s) :
    ∃ u, garnilPriv x p f s = .next u ∧ Kept s u := by
  unfold garnilPriv
  split
  · exact ⟨_, rfl, ((Kept.refl s).issue _).fault _ _ _⟩
  · exact kept_garnil x f s hf

end Sys2Proof.Machine
end

