-- ==== Sys2Proof/Tests/Slice0.lean ====
section
/-! SUPPORT. Small tests, each of one step on a small state, and for every statement concrete states and operands that meet the
hypotheses of its clauses, with the outcome those clauses give there. Expected values are worked out by hand from the chapters
of spec/ their names point to. -/

namespace Sys2Proof.Tests
open Sys2Proof Sys2Proof.Machine
set_option Elab.async false

/-- The command answers a next state with the given property. -/
def gives (c : Instr) (s : State) (p : State → Bool) : Bool :=
  match exec c s with
  | .next t => p t
  | _ => false

/-- The command answers the given state. -/
def becomes (c : Instr) (s t : State) : Bool := gives c s (fun u => decide (u = t))

/-- The access gets a status and the next state has the given property. -/
def responds (c : Instr) (i : Init) (st : Status) (s : State) (p : State → Bool) : Bool :=
  gives c s (fun t => decide (Tab.get .ok t.resp i.key = st) && p t)

/-- The regions of the units out of the way, above 8 GiB: the registers that reset to 0 place them at address 0. -/
def parked : List (Nat × W32) := [(Reg.ordCcbase, 0x40), (Reg.ldgPtbase + 4, 3), (Reg.ldgPwbase, 0x10000000), (Reg.ldgPwbase + 4, 3), (Reg.flwTblbase, 0x20000000),
  (Reg.flwTblbase + 4, 3), (Reg.afeBlkbase, 0x30000000), (Reg.afeBlkbase + 4, 3), (Reg.secKtbase, 0x40000000), (Reg.secKtbase + 4, 3)]
/-- The state right after reset, and the same with the regions of the units placed. -/
def reset : State := State.reset
def r0 : State := { State.reset with regs := parked }

/-! ## Well-formed commands -/

theorem wf_partial_write : (Instr.dramPartialWrite .sup 0 60 [1#8, 2#8, 3#8, 4#8] .clean).wf = true := by decide
theorem ill_partial_write_past_the_line : (Instr.dramPartialWrite .sup 0 61 [1#8, 2#8, 3#8, 4#8] .clean).wf = false := by decide
theorem ill_partial_write_of_nothing : (Instr.dramPartialWrite .sup 0 0 [] .clean).wf = false := by decide
theorem wf_sequence_timeout : (Instr.sequenceTimeout 3#16).wf = true := by decide
theorem ill_sequence_timeout_zero : (Instr.sequenceTimeout 0#16).wf = false := by decide
theorem ill_sequence_timeout_four : (Instr.sequenceTimeout 4#16).wf = false := by decide
theorem wf_sample : (Instr.decimatedSample 0 (-(2 ^ 31)) 0#16 false).wf = true := by decide
theorem ill_sample_above : (Instr.decimatedSample 0 (2 ^ 31) 0#16 false).wf = false := by decide
theorem ill_sample_below : (Instr.decimatedSample 0 (-(2 ^ 31) - 1) 0#16 false).wf = false := by decide
theorem wf_spi_write : (Instr.spiWrite 0#40 [0#32]).wf = true := by decide
theorem ill_spi_write_of_nothing : (Instr.spiWrite 0#40 []).wf = false := by decide
theorem ill_spi_write_of_65_words : (Instr.spiWrite 0#40 (List.replicate 65 0#32)).wf = false := by decide +kernel
theorem wf_go : (Instr.go .sup 0#32 (.done [1#8])).wf = true := by decide
theorem ill_go_with_65_bytes : (Instr.go .sup 0#32 (.done (List.replicate 65 0#8))).wf = false := by decide +kernel
theorem ill_backoff_with_65_bytes : (Instr.i2cBackoffExpiry (.done (List.replicate 65 0#8))).wf = false := by decide +kernel
theorem wf_grant : (Instr.fabricGrant 0 0#14 0#14 (List.replicate 14 0)).wf = true := by decide
theorem ill_grant_of_13_agents : (Instr.fabricGrant 0 0#14 0#14 (List.replicate 13 0)).wf = false := by decide
theorem ill_window_of_15_counts : (Instr.pmcBwWindow (List.replicate 15 0#32)).wf = false := by decide
theorem ill_plc_psdu_of_1025 : (Instr.plcFrameReceive 0 ⟨0, List.replicate 1025 0#8, 0, 0, [], 0⟩).wf = false := by decide +kernel
theorem ill_plc_tones_of_217 : (Instr.plcFrameReceive 0 ⟨0, [], 0, 0, List.replicate 217 0, 0⟩).wf = false := by decide +kernel
theorem ill_rf_psdu_of_2048 : (Instr.rfFrameReceive 0 ⟨0, false, List.replicate 2048 0#8, 0, 0, 0⟩).wf = false := by decide +kernel
theorem ill_eth_frame_of_1515 : (Instr.ethFrameReceive 0 ⟨List.replicate 1515 0#8, true, 0⟩).wf = false := by decide +kernel
theorem ill_twin_psdu_of_1025 : (Instr.spnFrameReceive ⟨0, 0, List.replicate 1025 0#8, 0⟩).wf = false := by decide +kernel
theorem ill_beacon_of_95 : (Instr.beaconMessageReceive 0 0#32 (List.replicate 95 0#8)).wf = false := by decide +kernel

/-! ## Garnil (02_garnil_isa.md) -/

/-- An instruction of thread 40 (cluster 1) under p0. -/
def x40 : Ix := ⟨.thread 40, 0, false⟩
/-- The same of thread 3, in cluster 0. -/
def x3 : Ix := ⟨.thread 3, 0, false⟩
/-- An instruction of the supervisor. -/
def xs : Ix := ⟨.sup, 0, false⟩

/-- A running thread with three general registers set. -/
def worker (a b d : Word) : Thread := (((({ st := .running, pc := 0x100#24 } : Thread).setG 1 a).setG 2 b).setG 3 d)
/-- Reset, with thread 40 running. -/
def t40 (a b d : Word) : State := r0.setThread 40 (worker a b d)
def t3 (a b d : Word) : State := r0.setThread 3 (worker a b d)

/-- The value a Garnil command leaves in g4. -/
def g4 (c : Instr) (s : State) (v : Word) : Bool := gives c s (fun t => decide ((t.thread 40).getG 4 = v) && decide ((t.thread 40).pc = 0x104#24))
def p1 (c : Instr) (s : State) (v : Bool) : Bool := gives c s (fun t => decide ((t.thread 40).getP 1 = v) && decide ((t.thread 40).pc = 0x104#24))

theorem test_runs : Runs x40 (t40 7 3 0) ∧ Runs x3 (t3 7 3 0) ∧ Runs xs r0 := by decide +kernel
theorem test_register_file : (worker 1 2 3).getG 0 = 0#64 ∧ ((worker 1 2 3).setG 0 9#64).getG 0 = 0#64 ∧ ((worker 1 2 3).setP 0 false).getP 0 = true ∧
    ((worker 1 2 3).setG 31 9#64).getG 31 = 9#64 ∧ ((worker 1 2 3).setP 7 true).getP 7 = true := by decide +kernel
theorem test_add_wraps : g4 (.add x40 4 1 2) (t40 0xFFFFFFFFFFFFFFFF 2 0) 1 = true := by decide +kernel
theorem test_sub : g4 (.sub x40 4 1 2) (t40 3 7 0) 0xFFFFFFFFFFFFFFFC = true := by decide +kernel
theorem test_logic : g4 (.and x40 4 1 2) (t40 12 10 0) 8 ∧ g4 (.or x40 4 1 2) (t40 12 10 0) 14 ∧ g4 (.xor x40 4 1 2) (t40 12 10 0) 6 ∧
    g4 (.andn x40 4 1 2) (t40 12 10 0) 4 := by decide +kernel
theorem test_shifts : g4 (.sll x40 4 1 2) (t40 1 67 0) 8 ∧ g4 (.srl x40 4 1 2) (t40 0x8000000000000000 63 0) 1 ∧
    g4 (.sra x40 4 1 2) (t40 0x8000000000000000 63 0) 0xFFFFFFFFFFFFFFFF ∧ g4 (.ror x40 4 1 2) (t40 1 1 0) 0x8000000000000000 := by decide +kernel
theorem test_products : g4 (.mul x40 4 1 2) (t40 0xFFFFFFFFFFFFFFFF 3 0) 0xFFFFFFFFFFFFFFFD ∧
    g4 (.mulh x40 4 1 2) (t40 0xFFFFFFFFFFFFFFFF 3 0) 0xFFFFFFFFFFFFFFFF ∧ g4 (.mulhu x40 4 1 2) (t40 0xFFFFFFFFFFFFFFFF 3 0) 2 := by decide +kernel
theorem test_quotients : g4 (.div x40 4 1 2) (t40 0xFFFFFFFFFFFFFFF9 2 0) 0xFFFFFFFFFFFFFFFD ∧
    g4 (.rem x40 4 1 2) (t40 0xFFFFFFFFFFFFFFF9 2 0) 0xFFFFFFFFFFFFFFFF ∧ g4 (.divu x40 4 1 2) (t40 7 2 0) 3 ∧ g4 (.remu x40 4 1 2) (t40 7 2 0) 1 ∧
    g4 (.div x40 4 1 2) (t40 0x8000000000000000 0xFFFFFFFFFFFFFFFF 0) 0x8000000000000000 ∧
    g4 (.rem x40 4 1 2) (t40 0x8000000000000000 0xFFFFFFFFFFFFFFFF 0) 0 := by decide +kernel
/-- A fault of thread 40: its engine is fenced and the thread free. -/
def faults40 (c : Instr) (s : State) (cls : FaultClass) : Bool := becomes c s ((s.issue (.thread 40)).fault (.thread 40) cls .ok)
theorem test_zero_divisor : Reads x40 (t40 7 0 0) 2 = 0 ∧ faults40 (.div x40 4 1 2) (t40 7 0 0) .arithmetic ∧ faults40 (.divu x40 4 1 2) (t40 7 0 0) .arithmetic ∧
    faults40 (.rem x40 4 1 2) (t40 7 0 0) .arithmetic ∧ faults40 (.remu x40 4 1 2) (t40 7 0 0) .arithmetic := by decide +kernel
theorem test_min_max : g4 (.min x40 4 1 2) (t40 0xFFFFFFFFFFFFFFFF 1 0) 0xFFFFFFFFFFFFFFFF ∧ g4 (.max x40 4 1 2) (t40 0xFFFFFFFFFFFFFFFF 1 0) 1 ∧
    g4 (.minu x40 4 1 2) (t40 0xFFFFFFFFFFFFFFFF 1 0) 1 ∧ g4 (.maxu x40 4 1 2) (t40 0xFFFFFFFFFFFFFFFF 1 0) 0xFFFFFFFFFFFFFFFF := by decide +kernel
theorem test_counts : g4 (.clz x40 4 1) (t40 0 0 0) 64 ∧ g4 (.ctz x40 4 1) (t40 0 0 0) 64 ∧ g4 (.clz x40 4 1) (t40 1 0 0) 63 ∧
    g4 (.ctz x40 4 1) (t40 8 0 0) 3 ∧ g4 (.popc x40 4 1) (t40 0xF0F 0 0) 8 ∧ g4 (.bswap x40 4 1) (t40 0x0102030405060708 0 0) 0x0807060504030201 := by
  decide +kernel
theorem test_extensions : g4 (.sxb x40 4 1) (t40 0x80 0 0) 0xFFFFFFFFFFFFFF80 ∧ g4 (.sxh x40 4 1) (t40 0x8000 0 0) 0xFFFFFFFFFFFF8000 ∧
    g4 (.sxw x40 4 1) (t40 0x80000000 0 0) 0xFFFFFFFF80000000 ∧ g4 (.zxw x40 4 1) (t40 0xFFFFFFFF80000000 0 0) 0x80000000 ∧
    g4 (.bfx x40 4 1 2) (t40 0xABCD 0x204 0) 0xBC := by decide +kernel
theorem test_immediates : g4 (.addi x40 4 1 0xFFF) (t40 7 0 0) 6 ∧ g4 (.andi x40 4 1 0xFF0) (t40 0x123F 0 0) 0x1230 ∧ g4 (.ori x40 4 1 0x800) (t40 1 0 0) 0xFFFFFFFFFFFFF801 ∧
    g4 (.xori x40 4 1 1) (t40 3 0 0) 2 ∧ g4 (.slli x40 4 1 63) (t40 1 0 0) 0x8000000000000000 ∧ g4 (.srli x40 4 1 4) (t40 0x80 0 0) 8 ∧
    g4 (.srai x40 4 1 4) (t40 0x8000000000000000 0 0) 0xF800000000000000 ∧ g4 (.rori x40 4 1 4) (t40 1 0 0) 0x1000000000000000 ∧
    g4 (.lui x40 4 0x10000) (t40 0 0 0) 0xFFFFFFFFF0000000 := by decide +kernel
/-- Thread 40 with 8 bytes in its program store at 0x108. -/
def coded : State := { t40 0 0 0 with ge := { (t40 0 0 0).ge with store := ramPutTab [] (0x40000 + 0x108) [1, 2, 3, 4, 5, 6, 7, 8] } }
theorem test_ldl : g4 (.ldl x40 4 2) coded 0x0807060504030201 ∧ faults40 (.ldl x40 4 1) coded .illegal := by decide +kernel
theorem test_compares : p1 (.cmpEq x40 .set 1 1 2) (t40 5 5 0) true ∧ p1 (.cmpNe x40 .set 1 1 2) (t40 5 5 0) false ∧
    p1 (.cmpLt x40 .set 1 1 2) (t40 0xFFFFFFFFFFFFFFFF 5 0) true ∧ p1 (.cmpGe x40 .and 1 1 2) (t40 5 5 0) false ∧
    p1 (.cmpLtu x40 .or 1 1 2) (t40 0xFFFFFFFFFFFFFFFF 5 0) false ∧ p1 (.cmpGeu x40 .set 1 1 2) (t40 5 5 0) true ∧ p1 (.cmpTst x40 .set 1 1 2) (t40 6 1 0) false := by
  decide +kernel
theorem test_cmpi : p1 (.cmpi x40 .eq 1 1 0xFFF) (t40 0xFFFFFFFFFFFFFFFF 0 0) true ∧ p1 (.cmpi x40 .ne 1 1 5) (t40 5 0 0) false ∧
    p1 (.cmpi x40 .lt 1 1 0) (t40 0xFFFFFFFFFFFFFFFF 0 0) true ∧ p1 (.cmpi x40 .ltu 1 1 0xFFF) (t40 5 0 0) true := by decide +kernel
theorem test_predicates : p1 (.pmov x40 1 0) (t40 0 0 0) true ∧ p1 (.pnot x40 1 0) (t40 0 0 0) false ∧ p1 (.pand x40 1 0 2) (t40 0 0 0) false ∧
    p1 (.por x40 1 0 2) (t40 0 0 0) true ∧ p1 (.pxor x40 1 0 0) (t40 0 0 0) false := by decide +kernel
theorem test_pget_pput : g4 (.pget x40 4) (t40 0 0 0) 1 ∧ gives (.pput x40 1) (t40 0x82 0 0) (fun t => (t.thread 40).getP 1 && (t.thread 40).getP 7 && (t.thread 40).getP 0 && !(t.thread 40).getP 2) := by
  decide +kernel
/-- The same instruction where its predicate does not hold. -/
def x40n : Ix := ⟨.thread 40, 0, true⟩
theorem test_skip : (t40 1 0 0).runnable x40n.who = true ∧ PcOf x40n (t40 1 0 0) < codeSize x40n.who.agent ∧ ((t40 1 0 0).me x40n.who).getP x40n.psel = x40n.pneg ∧
    g4 (.add x40n 4 1 1) (t40 1 0 0) 0 ∧ g4 (.div x40n 4 1 2) (t40 1 0 0) 0 ∧ faults40 (.fencea x40n 1) (t40 1 0 0) .privilege ∧ faults40 (.mfc x40n 4 32) (t40 1 0 0) .privilege := by
  decide +kernel
theorem test_branch : gives (.br x40 (-64)) (t40 0 0 0) (fun t => decide ((t.thread 40).pc = 0#24)) ∧ faults40 (.br x40 (-65)) (t40 0 0 0) .illegal ∧
    gives (.call x40 4 1) (t40 0 0 0) (fun t => decide ((t.thread 40).pc = 0x104#24) && decide ((t.thread 40).getG 4 = 0x104#64)) ∧ faults40 (.call x40 4 0xFFFF) (t40 0 0 0) .illegal := by
  decide +kernel
theorem test_jump : gives (.jr x40 1) (t40 0x3FFFC 0 0) (fun t => decide ((t.thread 40).pc = 0x3FFFC#24)) ∧ faults40 (.jr x40 1) (t40 0x40000 0 0) .illegal ∧
    gives (.jalr x40 4 1) (t40 0x20 0 0) (fun t => decide ((t.thread 40).pc = 0x20#24) && decide ((t.thread 40).getG 4 = 0x104#64)) ∧ faults40 (.jalr x40 4 1) (t40 0x22 0 0) .illegal := by
  decide +kernel

/-! ## Words (Tables 2.3 to 2.17) -/

/-- An instruction of agent 0 under p`p`, negated or not. -/
def ix (p : Fin 8) (n : Bool) : Ix := ⟨.thread 0, p, n⟩
/-- One word of each class; the words of 02_garnil_isa.md's examples are the second and third. -/
theorem test_words : decodeTableWord 32 0x00000000 = some (.add (ix 0 false) 0 0 0) ∧ decodeTableWord 32 0x1C031605 = some (.cmpGeu (ix 0 false) .set 1 17 12) ∧
    decodeTableWord 32 0x41400005 = some (.br (ix 2 true) 5) ∧ decodeTableWord 32 0x04064FFF = some (.addi (ix 0 false) 3 4 0xFFF) ∧
    decodeTableWord 32 0x1406483F = some (.srai (ix 0 false) 3 4 63) ∧ decodeTableWord 32 0x183E1005 = some (.cmpi (ix 0 false) .ltu 7 1 5) ∧
    decodeTableWord 32 0x28009812 = some (.mtc (ix 0 false) 9 18) ∧ decodeTableWord 32 0x2C022183 = some (.pxor (ix 0 false) 1 2 3) ∧
    decodeTableWord 32 0x6802219A = some (.ldx (ix 0 false) .fabric .b4 true 1 2 3) ∧ decodeTableWord 32 0x7007EF84 = some (.amac (ix 0 false) 3 30 31) ∧
    decodeTableWord 32 0x74022183 = some (.bcpySr (ix 0 false) 1 2 3) ∧ decodeTableWord 32 0x7C0223FF = some (.stsx (ix 0 false) .u16 1 2 0x1FF) := by decide +kernel
theorem test_more_words : decodeTableWord 32 0x80281111 = some (.fclt (ix 0 false) .or 4 1 2) ∧ decodeTableWord 32 0xA2822180 = some (.qtake (ix 5 false) 1 2 3) ∧
    decodeTableWord 32 0xA4022185 = some (.waitl (ix 0 false) 1 2 3) ∧ decodeTableWord 32 0xA8022182 = some (.tssub (ix 0 false) 1 2 3) ∧
    decodeTableWord 32 0xAC022002 = some (.lkacq (ix 0 false) 1 2) ∧ decodeTableWord 32 0xB0022002 = some (.gcmopen (ix 0 false) 1 2) ∧
    decodeTableWord 32 0xB4022184 = some (.crc32c (ix 0 false) 1 2 3) ∧ decodeTableWord 32 0xC0022008 = some (.if97TsatP (ix 0 false) 1 2) ∧
    decodeTableWord 32 0xC4041182 = some (.ladd (ix 0 false) .energy 2 1 3) ∧ decodeTableWord 32 0xCC022805 = some (.evpost (ix 0 false) 1 2 0x805) ∧
    decodeTableWord 32 0xE0000007 = some (.wfi (ix 0 false)) := by decide +kernel
/-- all ones, major 0x0C, INT minor 0x06, SHI with imm[9:6] nonzero, CMP combination 11, PRED with rd[20] set, BR with rd 1, BCPY minor 5, LDSX type 111: unassigned. -/
theorem test_unassigned_words : decodeTableWord 32 0xFFFFFFFF = some (.unassignedEncoding (.thread 0) 0xFFFFFFFF) ∧ decodeTableWord 32 0x30000000 = some (.unassignedEncoding (.thread 0) 0x30000000) ∧
    decodeTableWord 32 0x00000006 = some (.unassignedEncoding (.thread 0) 0x00000006) ∧ decodeTableWord 32 0x14021040 = some (.unassignedEncoding (.thread 0) 0x14021040) ∧
    decodeTableWord 32 0x1C300000 = some (.unassignedEncoding (.thread 0) 0x1C300000) ∧ decodeTableWord 32 0x2C100000 = some (.unassignedEncoding (.thread 0) 0x2C100000) ∧
    decodeTableWord 32 0x40020000 = some (.unassignedEncoding (.thread 0) 0x40020000) ∧ decodeTableWord 32 0x74000005 = some (.unassignedEncoding (.thread 0) 0x74000005) ∧
    decodeTableWord 32 0x78021E00 = some (.unassignedEncoding (.thread 0) 0x78021E00) ∧
    decodeTableWord 16 0 = none := by decide +kernel

/-- The bytes a Garnil command of thread 40 leaves in scratch. -/
def scr40 (c : Instr) (s : State) (a n : Nat) (v : Nat) : Bool := gives c s (fun t => decide ((t.thread 40).scrNat a n = v) && decide ((t.thread 40).pc = 0x104#24))
/-- Thread 40 with bytes in scratch from 0x200. -/
def scratch40 (a b d : Word) : State := r0.setThread 40 ((worker a b d).putScr 0x200 [0x80, 2, 3, 4, 5, 6, 7, 8])
theorem test_scratch_words : g4 (.lds x40 4 1 0) (scratch40 0x200 0 0) 0x0807060504030280 ∧ scr40 (.sts x40 3 1 0) (scratch40 0x3FF8 0 5) 0x3FF8 8 5 ∧
    faults40 (.lds x40 4 1 0) (scratch40 0x3FF9 0 0) .illegal ∧ faults40 (.sts x40 3 1 0) (scratch40 0x3FF9 0 0) .illegal := by decide +kernel
theorem test_scratch_sized : g4 (.ldsx x40 .s8 4 1 0) (scratch40 0x200 0 0) 0xFFFFFFFFFFFFFF80 ∧ g4 (.ldsx x40 .u16 4 1 1) (scratch40 0x200 0 0) 0x302 ∧
    scr40 (.stsx x40 .u16 3 1 0) (scratch40 0x3FFE 0 0x12345) 0x3FFE 2 0x2345 ∧ faults40 (.ldsx x40 .u16 4 1 0) (scratch40 0x3FFF 0 0) .illegal ∧ faults40 (.stsx x40 .u16 3 1 0) (scratch40 0x3FFF 0 0) .illegal ∧
    g4 (.ldx x40 .scratch .b1 true 4 1 2) (scratch40 0x1FF 1 0) 0xFFFFFFFFFFFFFF80 ∧ scr40 (.stx x40 .scratch .b4 3 1 2) (scratch40 0x200 3 7) 0x203 4 7 ∧
    faults40 (.ldx x40 .scratch .b8 true 4 1 2) (scratch40 0x3FF0 9 0) .illegal := by decide +kernel
theorem test_scratch_accumulators : gives (.ald x40 2 1) (scratch40 0x200 0 0) (fun t => decide ((t.thread 40).getA 2 = 0x0807060504030280)) ∧
    scr40 (.ast x40 0 1) (scratch40 0x200 0 0) 0x200 16 0 ∧ faults40 (.ald x40 2 1) (scratch40 0x3FF1 0 0) .illegal ∧ faults40 (.ast x40 2 1) (scratch40 0x3FF1 0 0) .illegal := by decide +kernel
theorem test_scratch_copy : scr40 (.bcpySs x40 3 1 2) (scratch40 0x200 4 0x202) 0x200 8 0x0807040302800280 ∧ scr40 (.bcpySs x40 3 1 2) (scratch40 0x200 0 0x202) 0x200 8 0x0807060504030280 ∧
    faults40 (.bcpySs x40 3 1 2) (scratch40 0x200 4097 0x202) .illegal ∧ faults40 (.bcpySs x40 3 1 2) (scratch40 0x3FFF 2 0x202) .illegal := by decide +kernel
theorem test_scratch_reads_back : ((worker 0 0 0).putScr 0x100 [1, 2]).scr 0xFF 4 = [0, 1, 2, 0] := by decide +kernel

/-- Thread 40 with a0 and a1 set. -/
def acc40 (a b : Word) (u v : Int) : State := r0.setThread 40 (((worker a b 0).setA 0 u).setA 1 v)
def a0 (c : Instr) (s : State) (v : Int) : Bool := gives c s (fun t => decide ((t.thread 40).getA 0 = v) && decide ((t.thread 40).pc = 0x104#24))
theorem test_acc_moves : a0 (.aclr x40 0) (acc40 0 0 5 0) 0 ∧ a0 (.amov x40 0 1) (acc40 0xFFFFFFFFFFFFFFFF 0 5 0) (-1) ∧ a0 (.aslo x40 0 1) (acc40 7 0 (2 ^ 64) 0) (2 ^ 64 + 7) ∧
    a0 (.ashi x40 0 1) (acc40 1 0 9 0) (2 ^ 64 + 9) ∧ g4 (.aglo x40 4 0) (acc40 0 0 (-2) 0) 0xFFFFFFFFFFFFFFFE ∧ g4 (.aghi x40 4 0) (acc40 0 0 (-2) 0) 0xFFFFFFFFFFFFFFFF := by decide +kernel
theorem test_acc_sums : a0 (.aadd x40 0 1) (acc40 3 0 5 0) 8 ∧ a0 (.asub x40 0 1) (acc40 3 0 5 0) 2 ∧ a0 (.aadda x40 0 1) (acc40 0 0 5 7) 12 ∧ a0 (.asuba x40 0 1) (acc40 0 0 5 7) (-2) ∧
    a0 (.amac x40 0 1 2) (acc40 0xFFFFFFFFFFFFFFFF 3 5 0) 2 ∧ a0 (.amacu x40 0 1 2) (acc40 0xFFFFFFFFFFFFFFFF 3 0 0) ((2 ^ 64 - 1) * 3) ∧ a0 (.asra x40 0 1) (acc40 0 0 (-3) 0) (-2) := by decide +kernel
theorem test_acc_range : a0 (.aadd x40 0 1) (acc40 1 0 (2 ^ 127 - 2) 0) (2 ^ 127 - 1) ∧ faults40 (.aadd x40 0 1) (acc40 1 0 (2 ^ 127 - 1) 0) .arithmetic ∧
    faults40 (.asub x40 0 1) (acc40 1 0 (-(2 ^ 127)) 0) .arithmetic ∧ faults40 (.ftoa x40 0 1 0) (acc40 0x7FF8000000000000 0 0 0) .arithmetic ∧
    faults40 (.ftoa x40 0 1 0) (acc40 0x7FF0000000000000 0 0 0) .arithmetic := by decide +kernel
theorem test_acc_binary64 : a0 (.ftoa x40 0 1 1) (acc40 0x3FF8000000000000 0 0 0) 15 ∧ g4 (.atof x40 4 0 1) (acc40 0 0 15 0) 0x3FF8000000000000 := by decide +kernel
theorem test_fp_arithmetic : g4 (.fadd x40 4 1 2) (t40 0x3FF0000000000000 0x4000000000000000 0) 0x4008000000000000 ∧ g4 (.fsub x40 4 1 2) (t40 0x3FF0000000000000 0x4000000000000000 0) 0xBFF0000000000000 ∧
    g4 (.fmul x40 4 1 2) (t40 0x3FF8000000000000 0x4000000000000000 0) 0x4008000000000000 ∧ g4 (.fdiv x40 4 1 2) (t40 0x3FF0000000000000 0x4000000000000000 0) 0x3FE0000000000000 ∧
    g4 (.fsqrt x40 4 1) (t40 0x4010000000000000 0 0) 0x4000000000000000 ∧ g4 (.fabs x40 4 1) (t40 0xBFF0000000000000 0 0) 0x3FF0000000000000 ∧ g4 (.fneg x40 4 1) (t40 0 0 0) 0x8000000000000000 ∧
    gives (.fma x40 3 1 2) (t40 0x4000000000000000 0x4008000000000000 0x3FF0000000000000) (fun t => decide ((t.thread 40).getG 3 = 0x401C000000000000)) := by decide +kernel
theorem test_fp_min_max : g4 (.fmin x40 4 1 2) (t40 0x8000000000000000 0 0) 0x8000000000000000 ∧ g4 (.fmax x40 4 1 2) (t40 0x8000000000000000 0 0) 0 := by decide +kernel
theorem test_fp_conversions : g4 (.fcvtif x40 4 1) (t40 3 0 0) 0x4008000000000000 ∧ g4 (.fcvtfi x40 4 1) (t40 0xC000000000000000 0 0) 0xFFFFFFFFFFFFFFFE ∧
    g4 (.fcvtfi x40 4 1) (t40 0x7FF8000000000000 0 0) 0 ∧ g4 (.fcvtfi x40 4 1) (t40 0x43E0000000000000 0 0) 0x7FFFFFFFFFFFFFFF := by decide +kernel
theorem test_fp_compares : p1 (.fceq x40 .set 1 1 2) (t40 0 0x8000000000000000 0) true ∧ p1 (.fclt x40 .set 1 1 2) (t40 0x7FF8000000000000 0 0) false ∧
    p1 (.fcle x40 .set 1 1 2) (t40 0 0x8000000000000000 0) true ∧ p1 (.fcun x40 .set 1 1 2) (t40 0x7FF8000000000000 0 0) true := by decide +kernel
/-- Thread 40 with both traps of FPCTL on. -/
def traps40 (a b : Word) : State := r0.setThread 40 { worker a b 0 with fpctl := 3#64 }
theorem test_fp_traps : gives (.fdiv x40 4 1 2) (traps40 0x3FF0000000000000 0) (fun t => decide ((t.thread 40).st = .free) && t.fencedAg 40) ∧
    gives (.fdiv x40 4 1 2) (t40 0x3FF0000000000000 0 0) (fun t => decide ((t.thread 40).getG 4 = 0x7FF0000000000000) && decide ((t.thread 40).fpsr = 8#64)) := by decide +kernel
theorem test_fp_corners : fNan 0x7FF8000000000000 = true ∧ (fNan 0x43F0000000000000 = false ∧ 2 ^ 63 * 2 ^ 1074 ≤ fUnits 0x43F0000000000000) ∧
    fUnits 0xC3F0000000000000 < -((2 ^ 63 + 1) * 2 ^ 1074) ∧ (fNan 0x3FF0000000000000 = false ∧ fInf 0x3FF0000000000000 = false ∧ fZero 0x3FF0000000000000 = false ∧ fZero 0x8000000000000000 = true ∧
    fDiv 0x3FF0000000000000 0x8000000000000000 = (0xFFF0000000000000#64, 8)) := by decide +kernel

/-- Thread 40 with 8 bytes of DRAM at 0x1000000 and its record base there. -/
def mem40 (a b d : Word) : State :=
  (r0.setThread 40 { worker a b d with recbase := 0x1000000#64 }).ramPut 0x1000000 [0x80, 2, 3, 4, 5, 6, 7, 8]
theorem test_loads : Runs x40 (mem40 0x1000000 0 0) ∧ Readable x40 (mem40 0x1000000 0 0) 0x1000000 8 ∧ g4 (.ldf x40 4 1 0) (mem40 0x1000000 0 0) 0x0807060504030280 ∧
    g4 (.ldr x40 4 1 0) (mem40 0 0 0) 0x0807060504030280 ∧ g4 (.ldx x40 .fabric .b1 true 4 1 2) (mem40 0xFFFFFF 1 0) 0xFFFFFFFFFFFFFF80 ∧ g4 (.ldr x40 4 1 0) (mem40 0xFFF8 0 0) 0 := by decide +kernel
theorem test_load_alignment : faults40 (.ldf x40 4 1 0) (mem40 0x1000004 0 0) .illegal ∧ faults40 (.ldr x40 4 1 0) (mem40 0x10000 0 0) .illegal ∧ faults40 (.ldx x40 .record .b2 false 4 1 2) (mem40 1 0 0) .illegal := by decide +kernel
theorem test_block_loads : scr40 (.bcpyFs x40 3 1 2) (mem40 0x1000001 3 0x10) 0x10 4 0x040302 ∧ scr40 (.bcpyRs x40 3 1 2) (mem40 0 2 0x10) 0x10 4 0x280 ∧ scr40 (.bcpyFs x40 3 1 2) (mem40 0x1000001 0 0x10) 0x10 4 0 ∧
    faults40 (.bcpyFs x40 3 1 2) (mem40 0x1000001 4097 0x10) .illegal ∧ faults40 (.bcpyRs x40 3 1 2) (mem40 0 4097 0x10) .illegal := by decide +kernel
/-- What a store leaves: the task sees the bytes, memory does not hold them yet. -/
def stages (c : Instr) (s : State) (a v : Nat) : Bool := gives c s (fun t =>
  decide (t.seenByte (t.thread 40).stage a = BitVec.ofNat 8 v) && decide (t.mem = s.mem) && decide ((t.thread 40).pc = 0x104#24))
theorem test_stores : Writable x40 (mem40 0x1000000 0 0x99) 0x1000000 8 ∧ stages (.stf x40 3 1 0) (mem40 0x1000000 0 0x99) 0x1000000 0x99 ∧ stages (.str x40 3 1 0) (mem40 8 0 0x99) 0x1000008 0x99 ∧
    stages (.stx x40 .fabric .b1 3 1 2) (mem40 0x1000000 1 0x99) 0x1000001 0x99 ∧ faults40 (.stf x40 3 1 0) (mem40 0x1000004 0 0) .illegal ∧ faults40 (.str x40 3 1 0) (mem40 0x10000 0 0) .illegal := by decide +kernel
theorem test_block_stores : stages (.bcpySf x40 3 1 2) (mem40 0 2 0x1000003) 0x1000003 0 ∧ stages (.bcpySr x40 3 1 2) (mem40 0 2 3) 0x1000003 0 ∧ stages (.bcpySf x40 3 1 2) (mem40 0 0 0x1000003) 0x1000003 4 ∧
    faults40 (.bcpySf x40 3 1 2) (mem40 0 4097 0x1000003) .illegal ∧ faults40 (.bcpySr x40 3 1 2) (mem40 0 4097 0x1000003) .illegal := by decide +kernel
/-- A stage of 64 lines from 0x2000000. -/
def full40 : State := r0.setThread 40 { worker 0x1000000 0 1 with stage := (List.range 64).foldl (fun g k => g.put (0x2000000 + 64 * k) [1]) {} }
theorem test_stage_limit : faults40 (.stf x40 3 1 0) full40 .illegal ∧ (({} : Stage).put 0x40 [1, 2]).lines.length = 1 := by decide +kernel
theorem test_staged_bytes : (mem40 0 0 0).seenByte (({} : Stage).put 0x1000000 [7, 8]) 0x1000001 = 8#8 ∧ (mem40 0 0 0).seenByte (({} : Stage).put 0x1000000 [7, 8]) 0x1000002 = 3#8 := by decide +kernel
/-- A poisoned line at 0x1000000. -/
def poison40 : State := { mem40 0x1000000 0 0 with mem := { (mem40 0 0 0).mem with poison := [(0x40000, true)] } }
/-- Thread 40 fenced, as it is while the access of an instruction is judged. -/
def fenced40 : State := { mem40 0x1000000 0 0 with ord := { r0.ord with fences := [(40, true)] } }
theorem test_load_errors : (mem40 0x1000000 0 0).fabWaits 0x1000000 8 = false ∧
    becomes (.ldf x40 4 1 0) poison40 ((poison40.issue (.thread 40)).fault (.thread 40) .integrity .integrity) ∧
    (fenced40.fabRight (.thread 40) false 0x1000000 8 = .fenced ∧ becomes (.ldf x40 4 1 0) fenced40 ((fenced40.issue (.thread 40)).fault (.thread 40) .fenced .fenced)) ∧
    (mem40 0x3C0000000 0 0).fabRight (.thread 40) false 0x3C0000000 8 = .denied ∧
    becomes (.ldf x40 4 1 0) (mem40 0x3C0000000 0 0) (((mem40 0x3C0000000 0 0).issue (.thread 40)).fault (.thread 40) .privilege .denied) ∧
    becomes (.ldf x40 4 1 0) (mem40 0x1000000000 0 0) (((mem40 0x1000000000 0 0).issue (.thread 40)).fault (.thread 40) .privilege .denied) := by decide +kernel
theorem test_runs_fenced : Runs x40 fenced40 := by decide +kernel
theorem test_control_words : g4 (.mfc x40 4 0) (t40 0 0 0) 40 ∧ g4 (.mfc x40 4 4) (t40 0 0 0) 0x7FFFFFFF ∧ g4 (.mfc x40 4 19) (t40 0 0 0) (((t40 0 0 0).sourceId 30).setWidth 64) ∧
    gives (.mtc x40 1 6) (t40 3 0 0) (fun t => decide ((t.thread 40).fpctl = 3#64)) ∧ gives (.mtc x40 1 17) (t40 0x800 0 0) (fun t => decide ((t.thread 40).recbase = 0x800#64)) ∧
    faults40 (.mtc x40 1 6) (t40 4 0 0) .illegal ∧ faults40 (.mtc x40 1 17) (t40 0x400 0 0) .illegal ∧ faults40 (.mtc x40 1 0) (t40 0 0 0) .illegal := by decide +kernel

/-- A pull queue at 0x2000 of class 2 that any cluster may put to and cluster 1 owns, with a ring of 2 at 0x1000000 holding one item. -/
def pullD : Desc := { base := 0x2000#24, mode := 2#3, log2n := 1, tail := 1, tailn := 0x1FFFFE, en := true, putc := 0xF#4, puts := true, cls := 2, owner := 1 }
def item7 : Item := 0x7#512
def queue40 (d : Desc) (a b rd : Word) : State :=
  let s := (t40 a b rd).ramPut d.ring (bytesOf 64 item7)
  { s with qm := { s.qm with descs := [(0x2000, d)] } }
theorem test_queue_ready : (queue40 pullD 0x200 0x2000 0).qmAccess 0x2000 = (true, queue40 pullD 0x200 0x2000 0) ∧ (queue40 pullD 0x200 0x2000 0).fencedAg 40 = false ∧
    (queue40 pullD 0x200 0x2000 0).takeLook (.thread 40) 0x2000 = (.ok, some ⟨0, 0, item7, false⟩) ∧ (queue40 pullD 0x200 0x2000 0).putLook (.thread 40) 0x2000 = .ok := by decide +kernel
theorem test_qtake : gives (.qtake x40 4 1 2) (queue40 pullD 0x200 0x2000 0) (fun t => decide ((t.thread 40).getG 4 = 0) && decide ((t.thread 40).scrNat 0x200 64 = 7) && decide ((t.thread 40).stage.takes.length = 1)) ∧
    g4 (.qtake x40 4 1 2) (queue40 { pullD with tail := 0, tailn := 0x1FFFFF } 0x200 0x2000 0) 0x10 ∧ g4 (.qtake x40 4 1 2) (queue40 { pullD with owner := 2 } 0x200 0x2000 0) 0x0B := by decide +kernel
theorem test_qput : gives (.qput x40 4 1 2) (queue40 pullD 0x200 0x2000 0) (fun t => decide ((t.thread 40).getG 4 = 0) && decide ((t.desc 0x2000).rsv = 1) && decide ((t.thread 40).stage.puts.length = 1)) ∧
    g4 (.qput x40 4 1 2) (queue40 { pullD with tail := 2, tailn := 0x1FFFFD } 0x200 0x2000 0) 0x10 ∧ g4 (.qput x40 4 1 2) (queue40 { pullD with putc := 0xD#4 } 0x200 0x2000 0) 0x0B := by decide +kernel
theorem test_qpeek : gives (.qpeek x40 4 1 2) (queue40 pullD 0x200 0x2000 0) (fun t => decide ((t.thread 40).getG 4 = 1) && decide ((t.thread 40).scrNat 0x200 64 = 7)) ∧
    g4 (.qpeek x40 4 1 2) (queue40 { pullD with tail := 0, tailn := 0x1FFFFF } 0x200 0x2000 0) 0 := by decide +kernel
theorem test_ingress_queue : faults40 (.qtake x40 4 1 2) (t40 0x200 0x1A7 0) .privilege ∧ faults40 (.qput x40n 4 1 2) (t40 0x200 0 0) .privilege := by decide +kernel
theorem test_task_endings : gives (.tabort x40 1) (t40 0 0 0) (fun t => decide ((t.thread 40).st = .free)) ∧ gives (.yield x40) (t40 0 0 0) (fun t => decide ((t.thread 40).st = .free)) ∧
    gives (.tabort xs 1) r0 (fun t => decide ((t.thread 128).pc = 4#24)) ∧ becomes (.yield xs) r0 ((r0.issue .sup).fault .sup .illegal .ok) := by decide +kernel
/-- Thread 40 in a task with time left and one staged line. -/
def task40 (limit : Nat) : State := r0.setThread 40 { worker 0 0 0 with wdLimit := limit, stage := ({} : Stage).put 0x1000000 [9] }
/-- The same with a read of the line that is out of date. -/
def stale40 : State :=
  let s := r0.setThread 40 { worker 0 0 0 with wdLimit := 100, stage := { ({} : Stage).put 0x1000000 [9] with reads := [(0x40000, 7)] } }
  { s with ord := { s.ord with lineVer := [(0x40000, 8)] } }
theorem test_commit_look : Runs x40 (task40 100) ∧ (task40 100).fencedAg 40 = false ∧ (task40 100).commitWaits 40 ((task40 100).thread 40).stage = false ∧
    (task40 100).past 0 (100 * usCounts) = false ∧ (((task40 100).issue (.thread 40)).commitLook (.thread 40) false).1 = .ready ∧
    (((task40 100).issue (.thread 40)).commitLook (.thread 40) false).2.stageJournal (.thread 40) = [] := by decide +kernel
theorem test_commit : gives (.tcommit x40) (task40 100) (fun t => decide (t.ramByte 0x1000000 = 9) && decide ((t.thread 40).st = .free)) := by decide +kernel
theorem test_commit_late : (task40 0).past 0 (0 * usCounts) = true ∧ faults40 (.tcommit x40) (task40 0) .watchdog := by decide +kernel
theorem test_commit_conflict : stale40.lineConflict (stale40.thread 40).stage = true ∧ gives (.tcommit x40) stale40 (fun t => decide (t.ramByte 0x1000000 = 0) && decide ((t.thread 40).st = .free)) := by decide +kernel
theorem test_waits : g4 (.waitt x40 4 1) (t40 1000001 0 0) 0x13 ∧ gives (.waitt x40 4 1) (t40 1000000 0 0) (fun t => decide ((t.thread 40).st = .waitTime 4 125000)) ∧
    g4 (.waitq x40 4 1 2) (t40 0x2000 1000001 0) 0x13 ∧ g4 (.waitl x40 4 1 2) (t40 5 1000001 0) 0x13 ∧ g4 (.waitl x40 4 1 2) (t40 5 8 0) 0 ∧
    gives (.waitq x40 4 1 2) (t40 0x2000 9 0) (fun t => decide ((t.thread 40).st = .waitQueue 4 0x2000 2)) ∧ g4 (.waitq x40 4 1 2) (queue40 pullD 0x2000 8 0) 0 := by decide +kernel
/-- Thread 40 in a wait, `n` edges after reset. -/
def waits40 (st : TState) (n : Nat) : State := { r0.setThread 40 { st := st } with tb := { r0.tb with elapsed := n } }
/-- Lock 5 held by a live agent 41. -/
def lock41 (s : State) : State := { s with ord := { s.ord with locks := [(5, { owner := some (41, 0#32) })] } }
def wakes40 (s : State) (v : Word) : Bool := gives (.waitEnd (.thread 40)) s (fun t => decide ((t.thread 40).getG 4 = v) && decide ((t.thread 40).st = .running))
theorem test_wakes : wakes40 (waits40 (.waitTime 4 8) 8) 0 ∧ wakes40 (waits40 (.waitQueue 4 0x2000 8) 8) 0x10 ∧ wakes40 (waits40 (.waitLock 4 5 8) 0) 0 ∧
    wakes40 (lock41 (waits40 (.waitLock 4 5 8) 8)) 0x10 ∧ becomes (.waitEnd (.thread 40)) (lock41 (waits40 (.waitLock 4 5 8) 7)) (lock41 (waits40 (.waitLock 4 5 8) 7)) := by decide +kernel
theorem test_wakes_queue : wakes40 { waits40 (.waitQueue 4 0x2000 8) 0 with qm := (queue40 pullD 0 0 0).qm } 0 := by decide +kernel
/-- Domain A at 5 s and a fraction. -/
def timed40 : State := { t40 0 0 0 with tb := { r0.tb with a := { r0.tb.a with sec := 5#64, frac := 0x8000000100000000#64 } } }
theorem test_tstamp : gives (.tstamp x40 4 1) timed40 (fun t => decide ((t.thread 40).getG 4 = 5) && decide ((t.thread 40).getG 5 = 0x80000001)) ∧ faults40 (.tstamp x40 5 1) timed40 .illegal ∧
    faults40 (.tstamp x40 4 3) timed40 .illegal ∧ g4 (.tstamp x40 4 2) timed40 0 ∧ g4 (.tstamp x40 4 0) timed40 5 := by decide +kernel
/-- Two items in scratch at 0x200 and 0x240: equal but for the sequence, 1 and 2; stamps 1 s apart at 0x280 and 0x28C. -/
def items40 (a b : Word) : State := r0.setThread 40 ((((worker a b 0).putScr 0x214 [1]).putScr 0x254 [2]).putScr 0x280 [2, 0, 0, 0, 0, 0, 0, 0, 0, 0, 0, 0, 1])
theorem test_tscmp : g4 (.tscmp x40 4 1 2) (items40 0x200 0x240) 0xFFFFFFFFFFFFFFFF ∧ g4 (.tscmp x40 4 1 2) (items40 0x240 0x200) 1 ∧ g4 (.tscmp x40 4 1 2) (items40 0x200 0x200) 0 ∧
    faults40 (.tscmp x40 4 1 2) (items40 0x3FC1 0x200) .illegal := by decide +kernel
theorem test_tssub : g4 (.tssub x40 4 1 2) (items40 0x280 0x28C) 1000000000 ∧ g4 (.tssub x40 4 1 2) (items40 0x28C 0x280) 0xFFFFFFFFC4653600 ∧ faults40 (.tssub x40 4 1 2) (items40 0x3FF5 0) .illegal := by decide +kernel
/-- Lock 5, as agent 40 sees it. -/
def locks40 (l : Lock) : State := { t40 5 0 0 with ord := { r0.ord with locks := [(5, l)] } }
theorem test_lkacq : (locks40 { mark := true }).locksOf 40 = [] ∧
    gives (.lkacq x40 4 1) (t40 5 0 0) (fun t => decide ((t.thread 40).getG 4 = 0) && decide ((t.lock 5).owner = some (40, 0#32))) ∧ g4 (.lkacq x40 4 1) (locks40 { mark := true }) 3 ∧
    g4 (.lkacq x40 4 1) (locks40 { owner := some (41, 9#32) }) 3 ∧ g4 (.lkacq x40 4 1) (locks40 { owner := some (41, 0#32) }) 0x10 ∧ g4 (.lkacq x40 4 1) (locks40 { owner := some (40, 0#32) }) 0 := by decide +kernel
theorem test_lkrel : gives (.lkrel x40 1) (locks40 { owner := some (40, 0#32) }) (fun t => decide ((t.thread 40).stage.rels = [5])) ∧ gives (.lkrel x40 1) (t40 5 0 0) (fun t => decide ((t.thread 40).stage.rels = [])) := by decide +kernel

/-- ID 0x1234 pending for thread 41, and for thread 40. -/
def pend40 (a : Nat) : State := { t40 0x1234 0x200 9 with ord := { r0.ord with pend := [⟨0x1234, a, 0#32⟩] } }
/-- Its bucket in quarantine. -/
def quar40 : State := { t40 0x1234 0x200 9 with ord := { r0.ord with quar := [((t40 0x1234 0x200 9).ccBucket 0x1234, 0)] } }
theorem test_iddone : gives (.iddone x40 3 1 2) (pend40 40) (fun t => decide ((t.thread 40).stage.comps = [⟨0x1234, 9, 0⟩])) ∧ faults40 (.iddone x40 3 1 2) (pend40 41) .illegal := by decide +kernel

/-- "123456789" in scratch at 0x200, g1 its place, g2 its length, g3 the CRC register. -/
def crc40 (a n r : Word) : State := r0.setThread 40 ((worker a n r).putScr 0x200 [0x31, 0x32, 0x33, 0x34, 0x35, 0x36, 0x37, 0x38, 0x39])
def g3 (c : Instr) (s : State) (v : Word) : Bool := gives c s (fun t => decide ((t.thread 40).getG 3 = v))
theorem test_crc : g3 (.crc16i x40 3 1 2) (crc40 0x200 9 0xFFFF) 0x6F91 ∧ g3 (.crc16b x40 3 1 2) (crc40 0x200 9 0xFFFF) 0x4B37 ∧ g3 (.crc16m x40 3 1 2) (crc40 0x200 9 0) 0x3D48 ∧
    g3 (.crc32e x40 3 1 2) (crc40 0x200 9 0xFFFFFFFF) 0x340BC6D9 ∧ g3 (.crc32c x40 3 1 2) (crc40 0x200 9 0xFFFFFFFF) 0x1CF96D7C ∧ faults40 (.crc32c x40 3 1 2) (crc40 0x3FF8 9 0) .illegal := by decide +kernel
/-- A parameter block at 0x100: handle, lengths, places. -/
def crypt40 (handle nl tl al dl : Nat) : State := r0.setThread 40 ((((worker 0x100 0 0).putScr 0x100
  (bytesOfNat 2 handle ++ bytesOfNat 1 nl ++ bytesOfNat 1 tl ++ bytesOfNat 2 0x200 ++ bytesOfNat 2 al ++ bytesOfNat 2 0x300 ++ bytesOfNat 2 dl ++ bytesOfNat 2 0x400))).putScr 0x300 [0x61, 0x62, 0x63])
theorem test_hash : gives (.hash x40 4 1) (crypt40 0 0 0 0 3) (fun t => decide ((t.thread 40).scr 0x400 8 = [0xCB, 0x00, 0x75, 0x3F, 0x45, 0xA3, 0x5E, 0x8B]) && decide ((t.thread 40).getG 4 = 0)) ∧
    g4 (.hash x40 4 1) (crypt40 0 0 0 0 4097) 0x13 := by decide +kernel
theorem test_crypto_refusals : g4 (.ccmopen x40 4 1) (crypt40 0x8000 12 16 0 3) 0x0B ∧ g4 (.ccmseal x40 4 1) (crypt40 0x8000 12 16 0 3) 0x0B ∧ g4 (.gcmopen x40 4 1) (crypt40 0x8000 12 16 0 3) 0x0B ∧
    g4 (.ccmopen x40 4 1) (crypt40 0x8000 12 16 1025 3) 0x13 ∧ faults40 (.hash x40 4 1) (t40 0x3FE1 0 0) .illegal ∧ faults40 (.ccmseal x40 4 1) (t40 0x3FE1 0 0) .illegal := by decide +kernel

/-! Request IDs: the bucket of an ID is an opaque hash, so these go through the laws of memory. -/

theorem look_empty (s : State) (g : Nat) (id : Word) (hd : s.mem.dram = []) (hp : s.mem.poison = []) :
    s.idLook g id = if s.quarantined (s.ccBucket id) then .stale
      else if s.ord.pend.any (fun p => decide (p.id = id ∧ p.agent ≠ g ∧ p.epoch = s.epochOf p.agent)) then .retry else .ok := by
  have h0 : ∀ a n, s.ramNat a n = 0 := fun a n => State.ramNat_empty s a n hd
  have c : ∀ a, s.ccAt a = 0#256 := fun a => by simp [State.ccAt, h0]
  have e : ∀ a, s.stAt a = 0#128 := fun a => by simp [State.stAt, h0]
  have hf : s.ccFind id = none := by
    simp only [State.ccFind, c]; rw [List.find?_eq_none]; intro a _; simp [ccValid, bit]
  have hs : s.stFind (reqOrigin id) (reqStream id) = none := by
    simp only [State.stFind, e]; rw [List.find?_eq_none]; intro a _; simp [stValid, bit]
  have hr : (s.stRoom (reqOrigin id) (reqStream id)).isNone = false := by
    simp [State.stRoom, e, stValid, bit, List.range_succ_eq_map]
  have hpo : s.ccPoisoned (s.ccBucket id) = false := by
    simp [State.ccPoisoned, State.poisoned, hp]
  simp [State.idLook, hf, hs, hr, hpo]

theorem ccAddr_congr (s t : State) (id : Word) (h1 : s.ord.key = t.ord.key) (h2 : s.regs = t.regs) :
    s.ccAddr (s.ccBucket id) 0 = t.ccAddr (t.ccBucket id) 0 := by
  simp [State.ccAddr, State.ccBucket, State.ccBase, State.regF, State.reg, h1, h2]

theorem test_idchk_new : Runs x40 (t40 0x1234 0x200 0) ∧ (t40 0x1234 0x200 0).fencedAg 40 = false ∧ (t40 0x1234 0x200 0).idLook 40 0x1234#64 = .ok :=
  ⟨by decide +kernel, by decide +kernel, by rw [look_empty _ _ _ rfl rfl]; decide +kernel⟩
theorem test_idchk_retry : (pend40 41).idLook 40 0x1234#64 = .retry := by rw [look_empty _ _ _ rfl rfl]; decide +kernel
theorem test_idchk_stale : quar40.idLook 40 0x1234#64 = .stale := by
  rw [look_empty _ _ _ rfl rfl]
  have h : quar40.quarantined (quar40.ccBucket 0x1234#64) = true := List.any_eq_true.mpr ⟨_, List.mem_singleton.mpr rfl, decide_eq_true rfl⟩
  rw [if_pos h]
/-- The bucket's first line poisoned. -/
def bad40 : State :=
  let s := t40 0x1234 0x200 9
  { s with mem := { s.mem with poison := [(s.ccAddr (s.ccBucket 0x1234#64) 0 / 64, true)] } }
theorem test_idchk_poisoned : bad40.idLook 40 0x1234#64 = .fault := by
  have h : bad40.ccPoisoned (bad40.ccBucket 0x1234#64) = true := by
    unfold State.ccPoisoned linesOf
    rw [if_neg (by decide), List.any_map, List.any_eq_true]
    refine ⟨0, by simp, ?_⟩
    simp only [Function.comp_apply, Nat.zero_add]
    have e : bad40.ccAddr (bad40.ccBucket 0x1234#64) 0 = (t40 0x1234 0x200 9).ccAddr ((t40 0x1234 0x200 9).ccBucket 0x1234#64) 0 := ccAddr_congr _ _ _ rfl rfl
    rw [e]; simp [State.poisoned, bad40, Tab.get]
  unfold State.idLook; rw [if_pos h]
/-- The ID complete in its bucket's first way, with result 5 and status 9. -/
def done40 : State :=
  let s := t40 0x1234 0x200 9
  s.ccPut (s.ccAddr (s.ccBucket 0x1234#64) 0) (0x1234#256 ||| (5#256 <<< 64) ||| (9#256 <<< 192) ||| (1#256 <<< 200))
theorem test_idchk_duplicate : done40.idLook 40 0x1234#64 = .duplicate 5 9 := by
  have a : done40.ccAt (done40.ccAddr (done40.ccBucket 0x1234#64) 0) = (0x1234#256 ||| (5#256 <<< 64) ||| (9#256 <<< 192) ||| (1#256 <<< 200)) := by
    have e : done40.ccAddr (done40.ccBucket 0x1234#64) 0 = (t40 0x1234 0x200 9).ccAddr ((t40 0x1234 0x200 9).ccBucket 0x1234#64) 0 := ccAddr_congr _ _ _ rfl rfl
    unfold State.ccAt
    rw [e]
    have := State.ramNat_ramPut_same (t40 0x1234 0x200 9) ((t40 0x1234 0x200 9).ccAddr ((t40 0x1234 0x200 9).ccBucket 0x1234#64) 0)
      (bytesOf 32 (0x1234#256 ||| (5#256 <<< 64) ||| (9#256 <<< 192) ||| (1#256 <<< 200)))
    exact (congrArg (BitVec.ofNat 256) this).trans (by decide +kernel)
  have p : done40.ccPoisoned (done40.ccBucket 0x1234#64) = false := by
    have : done40.mem.poison = [] := rfl
    simp [State.ccPoisoned, State.poisoned, this]
  have f : done40.ccFind 0x1234#64 = some (done40.ccAddr (done40.ccBucket 0x1234#64) 0) := by
    unfold State.ccFind
    rw [List.range_succ_eq_map, List.map_cons, List.find?_cons_of_pos]
    rw [a]; decide +kernel
  unfold State.idLook; rw [if_neg (by rw [p]; exact Bool.false_ne_true), f]; simp only [a]; decide +kernel

/-! Crypto, metrology, ledger, the supervisor class, faults -/

/-- A block at 0x100 for slot 5, which holds a data key every cluster may open and seal with. -/
def slot40 : State :=
  let s := crypt40 5 12 16 1 3
  let v : Slot := { key := 7#256, policy := 0x07E00000#32, commit := true, prog := true }
  { s with sec := s.sec.setSlot 5 { v with tag := s.sec.tagOf 5 v } }
theorem test_crypto_usable : Runs x40 slot40 ∧ Reads x40 slot40 1 = 0x100 ∧ slot40.sec.life ≠ 2 ∧ (slot40.sec.slot 5).policy.extractLsb' 28 4 = 0#4 ∧
    (slot40.sec.slot 5).policy.getLsbD (23 + 40 / 32) = true ∧ (slot40.sec.slot 5).policy.getLsbD 22 = true ∧ (slot40.sec.slot 5).policy.getLsbD 21 = true := by decide +kernel
/-- The same slot before its tag is written. -/
def slotV : Slot := { key := 7#256, policy := 0x07E00000#32, commit := true, prog := true }
theorem test_crypto_active : slot40.sec.slotState 5 = .active := by
  have h : slot40.sec.slot 5 = { slotV with tag := r0.sec.tagOf 5 slotV } := rfl
  have e : slot40.sec.tagOf 5 (slot40.sec.slot 5) = r0.sec.tagOf 5 slotV := rfl
  unfold Sec.slotState; simp only [e]; rw [h]; simp [slotV]
theorem test_crypto_block : let k := (slot40.thread 40).cryptBlk 0x100
    k.handle = 5 ∧ k.al ≤ 1024 ∧ k.dl ≤ 4096 ∧ k.rsv = 0 ∧ k.nl = 12 ∧ k.tl = 16 ∧ k.aad + k.al ≤ 0x4000 ∧ k.dat + k.dl + k.tl ≤ 0x4000 ∧ k.out + k.dl + k.tl ≤ 0x4000 := by
  decide +kernel
theorem test_gcm_opens : gcmOpen (bytesOf 32 7#256) (List.replicate 12 0#8) [1] (gcmSeal (bytesOf 32 7#256) (List.replicate 12 0#8) [1] [0x61]).1
    (gcmSeal (bytesOf 32 7#256) (List.replicate 12 0#8) [1] [0x61]).2 = some [0x61] := by decide +kernel
theorem test_ccm_opens : ccmOpen (bytesOf 32 7#256) (List.replicate 7 0#8) [1] ((ccmSeal (bytesOf 32 7#256) (List.replicate 7 0#8) [1] [0x61] 4).take 1)
    ((ccmSeal (bytesOf 32 7#256) (List.replicate 7 0#8) [1] [0x61] 4).drop 1) = some [0x61] := by decide +kernel

/-- Thread 3 in cluster 0 on a table of two nodes at handle 128: 10 at 0, 20 at 1. -/
def table3 (a b d : Word) : State :=
  let s := t3 a b d
  let bs : List Byte := [1, 1, 2, 1] ++ List.replicate 12 0 ++ bytesOfNat 8 0 ++ bytesOfNat 8 0x3FF0000000000000 ++ bytesOfNat 8 0x4024000000000000 ++
    bytesOfNat 8 0x4034000000000000 ++ [0, 0, 0, 0]
  { s.ramPut (s.tblAddr 0 128) bs with flw := { s.flw with loaded := [(128, true)] } }
def g4of3 (c : Instr) (s : State) (v : Word) : Bool := gives c s (fun t => decide ((t.thread 3).getG 4 = v) && decide ((t.thread 3).pc = 0x104#24))
def faults3 (c : Instr) (s : State) (cls : FaultClass) (st : Status) : Bool := becomes c s ((s.issue (.thread 3)).fault (.thread 3) cls st)
theorem test_tbli : Runs x3 (table3 0x3FE0000000000000 128 0) ∧ (table3 0 128 0).tblFor 128 0 = some 0x320800000 ∧ tableLen ((table3 0 128 0).ramBytes 0x320800000 16) = some 52 ∧
    (table3 0 128 0).ramRead 0x320800000 52 = (.ok, (table3 0 128 0).ramBytes 0x320800000 52) ∧ g4of3 (.tbli x3 4 1 2) (table3 0x3FE0000000000000 128 0) 0x402E000000000000 ∧
    interpolate ((table3 0 128 0).ramBytes 0x320800000 52) 0x4000000000000000 0 = none := by decide +kernel
theorem test_metrology_privilege : faults40 (.isocd x40 4 1 2) (t40 0 0 0) .privilege ∧ faults40 (.tbli x40 4 1 2) (t40 0 5 0) .privilege ∧ faults3 (.isocd x3 4 1 2) (t3 32 0 0) .absentUnit .absent ∧
    (t3 0 0 0).custPresent 0 = true ∧ (t3 0 0 0).genFor ((t3 0 0 0).me x3.who).iepoch = some 0 := by decide +kernel
theorem test_sqacc : gives (.sqacc x40 0 1 2) (r0.setThread 40 ((worker 0x200 2 0).putScr 0x200 [4, 0, 0, 0, 0xFF, 0xFF, 0xFF, 0xFF]))
    (fun t => decide ((t.thread 40).getA 0 = 3) && decide ((t.thread 40).getA 1 = 0x20000) && decide ((t.thread 40).pc = 0x104#24)) ∧
    faults40 (.sqacc x40 1 1 2) (t40 0x200 2 0) .illegal ∧ faults40 (.sqacc x40 0 1 2) (t40 0x200 0 0) .illegal ∧
    faults40 (.sqacc x40 0 1 2) (r0.setThread 40 (((worker 0x200 1 0).putScr 0x200 [1]).setA 0 (2 ^ 127 - 1))) .arithmetic := by decide +kernel

/-- Thread 3 with a calendar of zeros in force; g1 the point word, g2 a stamp of zero at 0x200. -/
def book3 (pw : Word) (v : Int) : State :=
  let s := r0.setThread 3 ((worker pw 0x200 0).setA 0 v)
  { s with ldg := { s.ldg with calCur := [⟨[]⟩] } }
theorem test_ladd_look : Runs x3 (book3 5 7) ∧ (book3 5 7).fencedAg 3 = false ∧ (book3 5 7).pair = 0 ∧ wordPair 5#32 = 0 ∧ wordLocal 5#32 = 5 ∧ wordPair 0x2005#32 = 1 ∧
    (book3 5 7).pointAbsent 5#32 = false ∧ rateFor ((book3 5 7).calList 0) 0 true = some (0, true) ∧ x3.who.init.heartwood = true ∧ x40.who.init.heartwood = false := by decide +kernel
theorem test_ladd : gives (.ladd x3 .energy 0 1 2) (book3 5 7) (fun t => decide ((t.thread 3).stage.ladds.map LAdd.amount = [7]) && decide ((t.thread 3).stage.ladds.map LAdd.kind = [2]) && decide ((t.thread 3).pc = 0x104#24)) ∧
    gives (.ladd x3 .energy 0 1 2) (book3 0x2005 7) (fun t => decide ((t.thread 3).lstat = 0x13#64) && decide ((t.thread 3).stage.ladds = [])) := by decide +kernel
/-- The same point with its register already at the top. -/
def top3 : State := (book3 5 1).ramPut (0x300000000 + 5 * 0x800 + 0x400 + 16 * 2) (bytesOfNat 16 (2 ^ 127 - 1))
theorem test_ladd_range : top3.lreg 5 0 2 = 2 ^ 127 - 1 ∧ faults3 (.ladd x3 .energy 0 1 2) top3 .arithmetic .ok ∧
    gives (.lread x3 0 1 2) (top3.setThread 3 (worker 5 (2 * 8) 0)) (fun t => decide ((t.thread 3).getA 0 = 2 ^ 127 - 1)) := by decide +kernel
/-- A -R device has 8 custody points. -/
def small3 (pw : Word) : State := { book3 pw 0 with sys := { r0.sys with variant := .r } }
theorem test_ledger_absent : (small3 8168).pointAbsent 8168#32 = true ∧ faults3 (.lread x3 0 1 2) (small3 8168) .absentUnit .absent ∧
    r0.present 0x0D = true ∧ ({ r0 with sys := { r0.sys with variant := .w } } : State).present 0x0D = false ∧
    faults3 (.balpost x3 4 1 2) { book3 5 0 with sys := { r0.sys with variant := .w } } .absentUnit .absent := by decide +kernel
theorem test_ledger_privilege : faults40 (.ladd x40 .mass 0 1 2) (t40 0 0 0) .privilege ∧ faults40 (.lread x40 0 1 2) (t40 0 0 0) .privilege ∧ faults40 (.balpost x40 4 1 2) (t40 0 0 0) .privilege := by decide +kernel
theorem test_balpost : g4of3 (.balpost x3 4 1 2) (book3 5 0) 0x13 := by decide +kernel
theorem test_evpost : gives (.evpost x40 3 1 5) (t40 9 0 4) (fun t => decide ((t.thread 40).stage.events = [(0x8005#16, 9#32, 4#8)])) ∧
    faults40 (.evpost x40 3 1 5) (r0.setThread 40 { worker 0 0 0 with stage := { ({} : Stage) with events := List.replicate 8 (0, 0, 0) } }) .illegal := by decide +kernel

/-- The supervisor at 0x100 with three registers set. -/
def sup (a b d : Word) : State := r0.setThread 128 (worker a b d)
def supGoes (c : Instr) (s : State) (p : State → Bool) : Bool := gives c s (fun t => p t && decide ((t.thread 128).pc = 0x104#24))
theorem test_fences : Runs xs (sup 40 0 0) ∧ supGoes (.fencea xs 1) (sup 40 0 0) (fun t => t.fencedAg 40 && !t.fencedAg 41) ∧
    supGoes (.unfence xs 1) { sup 0x85 0 0 with ord := { r0.ord with fences := [(0x85, true)] } } (fun t => !t.fencedAg 0x85) := by decide +kernel
theorem test_agreset : supGoes (.agreset xs 1) (sup 40 0 0) (fun t => decide (t.epochOf 40 = 1) && decide (t.epochOf 41 = 0)) ∧
    gives (.agreset xs 1) (sup 128 0 0) (fun t => decide (t.epochOf 128 = 1) && decide ((t.thread 128).pc = 0#24)) := by decide +kernel
/-- Lock 5 held by agent 40, which is fenced where asked. -/
def held (f : Bool) : State := { sup 1 5 0 with ord := { r0.ord with locks := [(5, { owner := some (40, 0#32) })], fences := if f then [(40, true)] else [] } }
theorem test_revoke : (held true).fencedAg 40 = true ∧ supGoes (.revoke xs 4 1 2) (held true) (fun t => decide ((t.lock 5).owner = none) && (t.lock 5).mark && decide (t.epochOf 40 = 1) && decide ((t.thread 128).getG 4 = 0)) ∧
    supGoes (.revoke xs 4 1 2) (held false) (fun t => decide ((t.thread 128).getG 4 = 0x0B)) ∧ supGoes (.revoke xs 4 1 2) (sup 4 0 0) (fun t => decide ((t.thread 128).getG 4 = 0x13)) := by decide +kernel
theorem test_seqopen : seqMayOpen 3 .sup = true ∧ supGoes (.seqopen xs 4 1) (sup 3 0 0) (fun t => decide ((t.seq 3).owner = some .sup) && decide ((t.thread 128).getG 4 = 0)) ∧
    supGoes (.seqopen xs 4 1) { sup 1 0 0 with ord := { r0.ord with seqs := [(1, { owner := some .host })] } } (fun t => decide ((t.seq 1).owner = some .host) && decide ((t.thread 128).getG 4 = 0x10)) := by decide +kernel
theorem test_seqclose : supGoes (.seqclose xs 4 1 2) { sup 3 0 0 with ord := { r0.ord with seqs := [(3, { owner := some .sup, writes := [(0x030020, 9)] })] } }
    (fun t => decide ((t.seq 3).owner = none) && decide ((t.seq 3).writes = []) && decide (t.reg 0x030020 = 0) && decide ((t.thread 128).getG 4 = 0)) := by decide +kernel
theorem test_iret : gives (.iret xs) { sup 0 0 0 with sup := { r0.sup with sepc := 0x40#64, sstatus := 1#64 } } (fun t => decide ((t.thread 128).pc = 0x40#24) && decide (t.sup.sstatus = 2#64)) := by decide +kernel
theorem test_wfi : gives (.wfi xs) (sup 0 0 0) (fun t => decide ((t.thread 128).st = .waitIrq)) ∧
    gives (.wfi xs) { sup 0 0 0 with sup := { r0.sup with sien := 1#64, sipend := 1#64 } } (fun t => decide ((t.thread 128).st = .running)) := by decide +kernel
theorem test_evposts : supGoes (.evposts xs 1 2) (sup 0x9001 7 0) (fun _ => true) := by decide +kernel
theorem test_fault_entries : (r0.engineFault 40 .illegal .ok).fencedAg 43 = true ∧ ((t40 0 0 0).thread 40).st = .running ∧ (t40 0 0 0).ge.flt.length < 16 ∧ assigned 0xFC000000#32 = false ∧
    becomes (.unassignedEncoding (.thread 40) 0xFC000000) (t40 0 0 0) (((t40 0 0 0).issue (.thread 40)).engineFaultAt 0xFC000000 40 .illegal .ok) ∧
    becomes (.unassignedEncoding .sup 0xFC000000) (sup 0 0 0) ((sup 0 0 0).supFault .illegal .ok) := by decide +kernel
/-- A full fault FIFO. -/
def fltFull : State := { t40 0 0 0 with ge := { (t40 0 0 0).ge with flt := List.replicate 16 ⟨.ok, .illegal, 0, 0, 0, 0⟩ } }
theorem test_fault_fifo_full : (fltFull.engineFault 40 .illegal .ok).ge.fltOvf = true := by decide +kernel
/-- An interrupt the supervisor takes. -/
def irq (st : TState) : State := { r0.setThread 128 { worker 0 0 0 with st := st } with sup := { r0.sup with sstatus := 2#64, sien := 4#64, sipend := 4#64, svec := 0x1000#64 } }
theorem test_interrupt : gives .supInterrupt (irq .running) (fun t => decide ((t.thread 128).pc = 0x11C0#24) && decide (t.sup.sepc = 0x100#64) && decide (t.sup.scause = 0xF#64) && decide (t.sup.sstatus = 1#64)) ∧
    gives .supInterrupt (irq .waitIrq) (fun t => decide ((t.thread 128).st = .running) && decide ((t.thread 128).pc = 0x11C0#24)) := by decide +kernel

/-! ## Engines and queues (03_engines_queues.md) -/

/-- Reset with some registers written (offsets rising). -/
def regs (l : List (Nat × W32)) : State := { r0 with regs := l.foldl (fun r p => Tab.set 0#32 r p.1 p.2) parked }
/-- QM_DDSEL selects queue 0x2000; the words of a new queue of 16 slots at 0x1000000, class 1, enabled. -/
def selQ (d : Desc) (w0 : W32) : State :=
  let s := regs [(0x080000, 0x2000), (0x080020, w0), (0x080034, 0x03000000), (0x080038, 0x000001F9)]
  { s with qm := { s.qm with descs := if d = {} then [] else [(0x2000, d)] } }
/-- A sound ring of 16 slots, empty. -/
def ring16 : Desc := { base := 0x4000#24, log2n := 4, cls := 1, en := true }
theorem test_qm_ready : Reaches .sup 0x080004 (selQ {} 0x00400004) ∧ (selQ {} 0x00400004).qm.busyQ = none ∧ ring16.sound = true ∧
    createDenied 0x2000 ((selQ {} 0x00400004).ddCreate {}) = false ∧ ((selQ {} 0x00400004).ddCreate {}).rdlim ≠ 0 ∧ ((selQ {} 0x00400004).ddCreate {}).cls = 1 ∧
    ((selQ ring16 0).ddWrite ring16).rdlim ≠ 0 ∧ ((selQ ring16 0).ddWrite ring16).merge = ring16.merge ∧ ring16.depth = 0 := by decide +kernel
theorem test_descriptor_create : responds (.descriptorCreate .sup) .sup .ok (selQ {} 0x00400004) (fun t => decide (t.qm.busyQ = some 0x2000) && (t.desc 0x2000).filling && decide ((t.desc 0x2000).size = 16) && (t.desc 0x2000).en) ∧
    responds (.descriptorCreate .sup) .sup .retry (selQ ring16 0x00400004) (fun t => decide (t.desc 0x2000 = ring16)) ∧
    responds (.descriptorCreate .sup) .sup .denied (selQ {} 0x00400003) (fun t => decide (t.qm.descs = [])) := by decide +kernel
theorem test_descriptor_commands : responds (.descriptorRead .sup) .sup .ok (selQ ring16 0) (fun t => decide (t.reg 0x080020 = 0x00400004) && decide (t.reg 0x08002C = 0x1FFFFF)) ∧
    responds (.descriptorWrite .sup) .sup .ok (selQ ring16 0) (fun t => decide ((t.desc 0x2000).putc = 0xF#4) && decide (t.qm.dstat = .ok)) ∧
    responds (.descriptorDelete .sup) .sup .ok (selQ ring16 0) (fun t => !(t.desc 0x2000).hasRing) ∧
    responds (.descriptorDelete .sup) .sup .retry (selQ { ring16 with rsv := 1 } 0) (fun t => (t.desc 0x2000).hasRing) := by decide +kernel
/-- A ring of two slots being filled. -/
def filling : State :=
  let s := (selQ { pullD with tail := 0, tailn := 0x1FFFFF, filling := true } 0).ramPut pullD.ring [7]
  { s with qm := { s.qm with busyQ := some 0x2000 } }
theorem test_zero_fill : filling.dramOn = true ∧ gives .createZeroFillDone filling (fun t => decide (t.qm.busyQ = none) && !(t.desc 0x2000).filling && decide (t.ramByte pullD.ring = 0)) := by decide +kernel
/-- A reset queue of two slots to be replayed from 0x2000000. -/
def replayS : State :=
  let s := { regs [(0x080058, 0x2000000), (0x080060, 1), (0x080064, 0x2000)] with qm := { r0.qm with descs := [(0x2000, { pullD with tail := 0, tailn := 0x1FFFFF, state := 1 })], pend := true } }
  s.ramPut 0x2000000 (bytesOf 64 item7)
theorem test_replay : Reaches .sup 0x080068 replayS ∧ responds (.qmRplGo .sup 1) .sup .ok replayS (fun t => decide (t.qm.replay = some ⟨0x2000, 0x2000000, 1⟩)) ∧
    replayS.dramOn = true := by decide +kernel
theorem test_flt_pop : Reaches .host 0x090030 { r0 with hst := { r0.hst with link := true } } ∧ responds (.geFltPop .sup 1) .sup .ok fltFull (fun t => decide (t.ge.flt.length = 15)) := by decide +kernel

/-- A queue of class 3 of cluster 1 with one item and its entry at word 16. -/
def workD : Desc := { pullD with mode := 0#3, cls := 3, entry := 16#16, rdlim := 3 }
theorem test_dispatch_ready : (queue40 workD 0 0 0).canTake 41 = true ∧ ((queue40 workD 0 0 0).refill 41).pickQueue 1 false = some 0x2000 ∧
    (queue40 workD 0 0 0).refill 41 = queue40 workD 0 0 0 ∧ (41 : Nat) ∉ (queue40 workD 0 0 0).ge.reserve ∧
    (queue40 workD 0 0 0).qmAccess 0x2000 = (true, queue40 workD 0 0 0) ∧ (queue40 workD 0 0 0).dispItem 1 false 0x2000 = some ⟨0, 0, item7, false⟩ := by decide +kernel
theorem test_dispatch : gives (.dispatch 41) (queue40 workD 0 0 0) (fun t => decide ((t.thread 41).st = .running) && decide ((t.thread 41).pc = 64#24) &&
    decide ((t.thread 41).getG 1 = 0x2000) && decide ((t.thread 41).scrNat 0 64 = 7) && decide ((t.desc 0x2000).infl = 1)) := by decide +kernel
/-- Thread 40 in a task since reset, 125 edges ago, with a limit of one microsecond. -/
def late40 : State := { r0.setThread 40 { worker 0 0 0 with wdLimit := 1 } with tb := { r0.tb with elapsed := 125 } }
theorem test_watchdog : (late40.thread 40).wdStart + 125 * (late40.thread 40).wdLimit ≤ late40.tb.elapsed ∧ gives (.taskWatchdogExpiry 40) late40 (fun t => decide ((t.thread 40).st = .free) && t.fencedAg 41) := by decide +kernel
/-- Queue 0x2000 waits since reset for a dispatch. -/
def starving : State :=
  let s := queue40 { workD with waitFrom := some 0 } 0 0 0
  { s with regs := [(0x080040, 4)], tb := { r0.tb with elapsed := 500 } }
theorem test_starved : ({ workD with waitFrom := some 0 } : Desc).depth = 1 ∧ gives (.qmStarveExpiry 0x2000) starving (fun t => decide ((t.desc 0x2000).effPrio = 7)) := by decide +kernel
/-- FIFO 3 with `n` items. -/
def fifo3 (n : Nat) : State := { r0 with qm := { r0.qm with fifos := [(3, { items := List.replicate n (2, item7) })] } }
theorem test_arrival : r0.fieldRuns = true ∧ gives (.ingressFifoArrival 3 2 item7 0) r0 (fun t => decide ((t.fifo 3).items.length = 1) && decide (Tab.get 0#32 t.qm.seq 3 = 1)) ∧
    gives (.ingressFifoArrival 3 2 item7 0) (fifo3 32) (fun t => decide ((t.fifo 3).items.length = 32) && (t.fifo 3).ovf && decide ((t.fifo 3).drops = 1)) := by decide +kernel
/-- The same with a ring of 16 slots at its queue. -/
def drains : State := { fifo3 2 with qm := { (fifo3 2).qm with descs := [(26, { ring16 with cls := 0 })] } }
theorem test_drain : drains.qmAccess 26 = (true, drains) ∧ drains.canPut 26 = true ∧ (drains.desc 26).state = 0 ∧
    gives (.fifoDrain 3) drains (fun t => decide ((t.fifo 3).items.length = 1) && decide ((t.desc 26).tail = 1)) ∧ gives (.fifoDrain 3) (fifo3 2) (fun t => decide ((t.fifo 3).items.length = 2)) := by decide +kernel
theorem test_pointer_checks : (queue40 { pullD with headn := 5 } 0 0 0).qmAccess 0x2000 ≠ (true, queue40 { pullD with headn := 5 } 0 0 0) ∧
    ({ pullD with headn := 5 } : Desc).sound = false ∧ ({ pullD with headn := 5 } : Desc).hasRing = true ∧
    (let t := ((queue40 { pullD with headn := 5 } 0 0 0).qmAccess 0x2000).2;
      (t.desc 0x2000).state = 1 ∧ (t.desc 0x2000).tail = 0 ∧ t.qm.rstQ = 0x2000) ∧ pullD.sound = true ∧ (r0.desc 0x2000).hasRing = false := by decide +kernel

/-! ## Ordering, exactly-once and locks (04_order_once.md) -/

/-- Context 3 on queue 0x2000 holds two slots; the first is due at edge 50. -/
def merging : State :=
  let s := queue40 { pullD with merge := true } 0 0 0
  { s with
    tb := { s.tb with elapsed := 51 }
    ord := { s.ord with merges := [(3, { mq := 0x2000, mcfg := 0x80000001#32, held := [⟨0, 10, 0, 50⟩, ⟨1, 20, 1, 90⟩] })] } }
theorem test_merge_window : (merging.merge 3).held.Pairwise (fun a b => a.key ≤ b.key) ∧ gives (.mergeWindowExpiry 3) merging (fun t => decide ((t.merge 3).held = [⟨1, 20, 1, 90⟩]) && decide ((t.desc 0x2000).rel = [0])) := by decide +kernel
/-- ORD_MSEL selects context 4. -/
def sel4 : State := { merging with regs := [(0x0B0000, 4)] }
theorem test_merge_registers : Reaches .sup 0x0B0008 sel4 ∧ sel4.boundElsewhere 4 0x2000 = true ∧ sel4.boundElsewhere 4 0x2001 = false ∧
    responds (.ordMqWrite .sup 0x2000) .sup .denied sel4 (fun t => decide ((t.merge 4).mq = 0)) ∧ responds (.ordMqWrite .sup 0x2001) .sup .ok sel4 (fun t => decide ((t.merge 4).mq = 0x2001)) ∧
    responds (.ordMcfgWrite .sup 0x80000007) .sup .ok sel4 (fun t => decide ((t.merge 4).mcfg = 0x80000007)) ∧
    responds (.ordMcfgWrite .sup 0x8007A121) .sup .outOfRange sel4 (fun t => decide ((t.merge 4).mcfg = 5000)) ∧
    responds (.ordMcfgWrite .sup 0x80000007) .sup .denied { sel4 with ord := { sel4.ord with merges := (sel4.ord.merges ++ [(4, { mq := 0x2000 })]) } } (fun t => decide ((t.merge 4).mcfg = 5000)) ∧
    responds (.ordMcfgWrite .sup 9) .sup .ok { merging with regs := [(0x0B0000, 3)] } (fun t => decide ((t.merge 3).held = []) && decide ((t.desc 0x2000).rel.length = 2)) := by decide +kernel

/-- The PCIe link is up. -/
def linkUp : State := { r0 with hst := { r0.hst with link := true } }
/-- A completion entry in force at CC_BASE, completed 4,000 s ago; one hour of retention for own origins. -/
def swept : State :=
  let s := { regs [(0x0B0010, 0x802#32), (0x0B0020, 1)] with tb := { r0.tb with a := { r0.tb.a with sec := 4000 } } }
  s.ccPut s.ccBase (0x1234#256 ||| (1#256 <<< 200))
theorem test_cc_sweep : swept.ccBase ∈ swept.ccLive ∧ swept.retention (ccReq (swept.ccAt swept.ccBase)) < swept.age (ccTime (swept.ccAt swept.ccBase)) ∧
    ccValid (swept.ccAt swept.ccBase) = true := by decide +kernel
theorem test_cc_repair : Reaches .sup 0x0B0018 r0 ∧ responds (.ordCcRepair .sup 7) .sup .ok r0 (fun t => t.quarantined 7) ∧
    responds (.ordCcRepair .host 7) .host .denied linkUp (fun t => !t.quarantined 7) ∧ Reaches .host 0x0B0018 linkUp ∧
    responds (.ordCcRepair .sup 524288) .sup .outOfRange r0 (fun t => decide (t.ord.quar = [])) := by decide +kernel
/-- Two buckets in quarantine, and one hour gone since the first. -/
def quars : State := { regs [(0x0B0010, 0x802#32)] with tb := { r0.tb with elapsed := 3600 * 125000000 }, ord := { r0.ord with quar := [(7, 0), (8, 9)] } }
theorem test_quarantine_expiry : gives .quarantineExpiry quars (fun t => !t.quarantined 7 && t.quarantined 8) := by decide +kernel
/-- Lock 5 held by agent 41 for longer than its millisecond. -/
def longHeld : State := { r0 with tb := { r0.tb with elapsed := 125001 }, ord := { r0.ord with locks := [(5, { owner := some (41, 0#32), warnMs := 1 })] } }
theorem test_lock_warning : gives (.lockHoldWarning 5) longHeld (fun t => (t.lock 5).warned) ∧ gives (.lockHoldWarning 5) { longHeld with tb := { r0.tb with elapsed := 125000 } } (fun t => !(t.lock 5).warned) := by decide +kernel
/-- Sequence 3 with an owner. -/
def seq3 (o : Init) (n : Nat) : State := { linkUp with ord := { r0.ord with seqs := [(3, { owner := some o, tmo := 1, writes := List.replicate n (0x030020, 9) })] } }
theorem test_seq_open : seqMayOpen 2 (.thread 3) = true ∧ seqMayOpen 3 .sup = true ∧ seqMayOpen 3 .host = false ∧ seqMayOpen 1 .host = true ∧
    responds (.ordSeqOpen .sup 3) .sup .ok r0 (fun t => decide ((t.seq 3).owner = some .sup)) ∧ responds (.ordSeqOpen .host 3) .host .denied linkUp (fun t => decide (t.ord.seqs = [])) ∧
    responds (.ordSeqOpen .sup 3) .sup .retry (seq3 .host 0) (fun t => decide ((t.seq 3).owner = some .host)) := by decide +kernel
theorem test_seq_close : Reaches .sup 0x0B0044 (seq3 .sup 1) ∧ responds (.ordSeqClose .sup 3) .sup .ok (seq3 .sup 1) (fun t => decide ((t.seq 3).owner = none) && decide (t.regs = parked)) ∧
    responds (.ordSeqClose .host 3) .host .denied (seq3 .sup 1) (fun t => decide ((t.seq 3).owner = some .sup)) ∧
    responds (.ordSeqClose .sup 3) .sup .stale { r0 with ord := { r0.ord with seqs := [(3, { expired := [.sup] })] } } (fun t => decide ((t.seq 3).expired = [])) := by decide +kernel
theorem test_seq_write : (regRow 0x030020).map RegRow.acc = some .seq ∧ seqOfUnit 3 = 3 ∧ responds (.seqWrite .sup 0x030020 5) .sup .ok (seq3 .sup 1) (fun t => decide ((t.seq 3).writes.length = 2) && decide (t.regs = parked)) ∧
    responds (.seqWrite .sup 0x030020 5) .sup .outOfRange (seq3 .sup 32) (fun t => (t.seq 3).spoiled) ∧
    responds (.seqWrite .host 0x030020 5) .host .denied (seq3 .sup 1) (fun t => decide ((t.seq 3).writes.length = 1)) := by decide +kernel
theorem test_seq_timeout : gives (.sequenceTimeout 3) { seq3 .sup 1 with tb := { r0.tb with elapsed := 125000 } } (fun t => decide ((t.seq 3).owner = none) && decide ((t.seq 3).expired = [.sup])) := by decide +kernel
/-- A full quarantine list, bucket 7 in it. -/
def quarFull : State := { r0 with ord := { r0.ord with quar := (List.range 256).map (fun k => (k, 0)) } }
theorem test_cc_repair_full : responds (.ordCcRepair .sup 7) .sup .retry quarFull (fun t => decide (t.ord.quar.length = 256)) ∧ responds (.ordCcRepair .sup 300) .sup .retry quarFull (fun t => !t.quarantined 300) := by decide +kernel
theorem test_merge_same_queue : responds (.ordMqWrite .sup 0x2000) .sup .ok { merging with regs := [(0x0B0000, 3)] } (fun t => decide ((t.merge 3).held.length = 2) && decide ((t.merge 3).last = none)) := by decide +kernel

/-! ## Custody inputs, flow and balance, ledger (05 to 08) -/

/-- Point 0 with channel 0 (DP, voltage mode) on, 500 us into second 0, its block begun in that second; the last window centre passed at 375 us. -/
def chan0 (c : Chan) (p : Point) : State := { r0 with
  tb := { r0.tb with a := { r0.tb.a with frac := 0x0020C49BA5E35400#64 } }
  afe := { r0.afe with chans := [(0, { c with cfg := 0x900009C4#32 })], points := [(0, { p with per := some (false, 0) })] } }
theorem test_transfer : (chan0 {} {}).fieldRuns = true ∧ (chan0 {} {}).custPresent 0 = true ∧ (chan0 {} {}).ptActive 0 = true ∧
    (chan0 {} {}).boundaryDue 0 = false ∧ (chan0 {} {}).centre = some 375 ∧
    gives (.dieBridgeTransfer (.point 0) true) (chan0 {} {}) (fun t => decide ((t.pt 0).n = 1) && decide ((t.pt 0).dp = [0x80000000#32]) && decide ((t.pt 0).got = 0#3) && decide ((t.pt 0).ctr = some 375)) ∧
    gives (.dieBridgeTransfer (.point 0) true) (chan0 {} { ctr := some 375 }) (fun t => decide ((t.pt 0).n = 0)) := by decide +kernel
theorem test_transfer_hypotheses : r0.fieldRuns = true ∧ r0.custPresent 4 = true ∧ r0.plcOn 1 = false := by decide +kernel
theorem test_dropped_edges : exec (.dieBridgeTransfer (.edges 9) false) r0 = .next (r0.setPulse 9 { r0.pulse 9 with badE := 1 }).bridgeEvent ∧ exec (.dieBridgeTransfer (.edges 9) true) r0 = .next r0 := by
  constructor <;> rfl
theorem test_sample : chActive ((chan0 {} { got := 0#3 }).chan 0).cfg = true ∧ underF 0x900009C4#32 1000 0 100 = true ∧
    gives (.decimatedSample 0 1000 0 false) (chan0 {} { got := 0#3, n := 1, dp := [0], ctr := some 375 }) (fun t => decide ((t.chan 0).sum = 1000) && decide ((t.chan 0).valid = 1) && decide ((t.pt 0).dp = [1000#32]) && decide ((t.pt 0).got = 1#3)) := by decide +kernel
theorem test_chcfg : Reaches (.thread 3) 0x0F0004 r0 ∧ (Init.thread 3).heartwood = true ∧ chcfgCheck 0 0x900009C4 = .ok ∧
    responds (.afeChcfgWrite (.thread 3) 0x900009C4) (.thread 3) .ok r0 (fun t => decide ((t.chan 0).cfgNew = some 0x900009C4) && decide ((t.chan 0).cfg = 2500)) ∧
    responds (.afeChcfgWrite (.thread 3) 0xD00009C4) (.thread 3) .denied r0 (fun t => decide (t.afe = r0.afe)) ∧
    responds (.afeChcfgWrite (.thread 3) 0x900003E7) (.thread 3) .outOfRange r0 (fun t => decide (t.afe = r0.afe)) ∧
    responds (.afeChcfgWrite .sup 0x900009C4) .sup .denied r0 (fun t => decide (t.afe = r0.afe)) := by decide +kernel
theorem test_low_point : gives (.rtdLowPointExpiry 0) { chan0 { low := some (1, 1, 0, 0) } {} with tb := { r0.tb with elapsed := 600 * 125000000 } } (fun t => decide ((t.chan 0).low = none)) := by decide +kernel
/-- The next second of the stamping domain. -/
def later (s : State) : State := { s with tb := { s.tb with a := { s.tb.a with sec := 1 } } }
/-- A block with one instant in channel 0 and a configuration that waits. -/
def block0 (busy : BitVec 8) : State := chan0 { sum := 9, valid := 1, cfgNew := some 0x900007D0#32 } { n := 1, dp := [9], busy := busy }
theorem test_block : (block0 0).ownsPoint 0 = true ∧ ((block0 0).fifo 10).items.length < 32 ∧ ((block0 1).pt 0).busy.getLsbD 0 = true ∧
    becomes (.blockClose 0) (block0 1) (block0 1) ∧ (later (block0 1)).boundaryDue 0 = true ∧
    gives (.blockClose 0) (later (chan0 { cfgNew := some 0x900007D0#32 } {})) (fun t => decide ((t.chan 0).cfg = 0x900007D0) && decide ((t.pt 0).bseq = 0)) ∧
    gives (.blockClose 0) (later (block0 1)) (fun t => decide ((t.pt 0).lost = 1) && (t.pt 0).gap && decide ((t.pt 0).bseq = 1) && decide ((t.chan 0).sum = 0) && decide ((t.chan 0).cfg = 0x900007D0)) := by decide +kernel
/-- A low-point calibration of channel 2 whose ten blocks are over. -/
def calib (bad : Bool) : State := { r0 with afe := { r0.afe with
    chans := [(2, { calSecs := List.replicate 10 (100, 1), calBad := bad })]
    points := [(0, { cal := some ⟨3, 2, 0, 0, 0, 10, true⟩ })] } }
theorem test_calibration : ((calib false).pt 0).cal = some ⟨3, 2, 0, 0, 0, 10, true⟩ ∧ (calib false).calReasons 0 ⟨3, 2, 0, 0, 0, 10, true⟩ = [] ∧ (calib true).calReasons 0 ⟨3, 2, 0, 0, 0, 10, true⟩ = [5] ∧
    gives (.calibrationVerdict 0) (calib false) (fun t => decide ((t.pt 0).cal = none) && decide (t.afe.calStatus = .ok) && decide ((t.chan 2).low = some (1000, 10, 0, 0))) ∧
    gives (.calibrationVerdict 0) (calib true) (fun t => decide (t.afe.calStatus = .calRejected) && decide (t.afe.calReason = 5)) := by decide +kernel
/-- Pulse input 4 counting both edges, GLITCH 125; an edge captured at edge 1,000. -/
def pulse4 (pend : Bool) (n : Nat) : State := { r0 with
    tb := { r0.tb with elapsed := n }
    afe := { r0.afe with pulses := [(4, { cfg := 0xB080007D#32, pendE := if pend then some ⟨1000, true, 0, {}⟩ else none, sec := some 0, edges := if pend then 0 else 3, first := 2, last := 9 })] } }
theorem test_pulse_edge : pActive ((pulse4 true 0).pulse 4).cfg = true ∧ (pulse4 true 0).pulseOwner 4 = 4 ∧ pMode ((pulse4 true 0).pulse 4).cfg = 3 ∧
    gives (.pulseEdge 4 true) (pulse4 false 1000) (fun t => decide ((t.pulse 4).pendE.map PEdge.at_ = some 1000)) ∧
    gives (.pulseEdge 4 false) (pulse4 true 1124) (fun t => decide ((t.pulse 4).pendE = none) && decide ((t.pulse 4).glitch = 1)) ∧
    gives (.pulseEdge 4 false) (pulse4 true 1125) (fun t => decide ((t.pulse 4).edges = 1) && decide ((t.pulse 4).count = 1)) := by decide +kernel
theorem test_pulse_second : (pulse4 false 1000).ownsPoint 2 = true ∧ becomes (.pulseSecondItem 4) (pulse4 false 1000) (pulse4 false 1000) ∧
    gives (.pulseSecondItem 4) (later (pulse4 false 1000)) (fun t => decide ((t.pulse 4).edges = 0) && decide ((t.pulse 4).sec = some 1) && decide ((t.fifo 11).items.length = 1)) := by decide +kernel
/-- Quadrature on inputs 4 and 5, both lines up and counted, B's fall captured; A falls 200 edges later. -/
def quad4 : State := { r0 with
  tb := { r0.tb with elapsed := 1400 }
  afe := { r0.afe with pulses := [(4, { cfg := 0xC080007D#32, level := true, pendE := some ⟨1200, false, 0, {}⟩, sec := some 0, edges := 2, net := 2 }),
    (5, { cfg := 0x0080007D#32, level := true, pendE := some ⟨1000, false, 0, {}⟩ })] } }
/-- A alone has an edge that has lasted, up and one counted before it. -/
def quadA : State := { quad4 with afe := { quad4.afe with pulses := [(4, { cfg := 0xC080007D#32, level := true, pendE := some ⟨1200, false, 0, {}⟩, sec := some 0, edges := 2, net := 2 }), (5, { cfg := 0x0080007D#32 })] } }
theorem test_quadrature_edge : gives (.pulseEdge 4 true) quadA (fun t => decide ((t.pulse 4).net = 1) && decide ((t.pulse 4).edges = 3) && !(t.pulse 4).level) ∧
    gives (.pulseEdge 4 true) { quadA with afe := { quadA.afe with pulses := quadA.afe.pulses.map (fun e => (e.1, if e.1 = 5 then { e.2 with level := true } else e.2)) } } (fun t => decide ((t.pulse 4).net = 3)) := by decide +kernel
theorem test_quadrature_reversal : gives (.pulseSecondItem 4) quad4 (fun t => decide ((t.pulse 4).net = 0) && decide ((t.pulse 4).edges = 4)) := by decide +kernel

theorem test_table_load : Reaches .sup 0x0E0018 r0 ∧ responds (.flwSldcmd .sup 130) .sup .ok (regs [(0x0E0010, 0x40)]) (fun t => decide (t.flw.sldBusy = some (130, 0x40))) ∧
    responds (.flwSldcmd .sup 127) .sup .outOfRange r0 (fun t => decide (t.flw.sldBusy = none)) ∧ responds (.flwSldcmd .host 130) .host .denied linkUp (fun t => decide (t.flw.sldBusy = none)) ∧
    responds (.flwSldcmd .sup 130) .sup .retry { r0 with flw := { r0.flw with sldBusy := some (130, 0x40) } } (fun t => decide (t.flw.sldBusy = some (130, 0x40))) := by decide +kernel
/-- A table of two nodes in DRAM at 0x40 with its CRC, being loaded for handle 130. -/
def loading (good : Bool) : State :=
  let bs : List Byte := [1, 1, 2, 1] ++ List.replicate 12 0 ++ bytesOfNat 8 0 ++ bytesOfNat 8 0x3FF0000000000000 ++ bytesOfNat 8 0x4024000000000000 ++
    bytesOfNat 8 0x4034000000000000
  let s := r0.ramPut 0x40 (bs ++ bytesOfNat 4 ((if good then 0 else 1) + (crcC bs).toNat))
  { s with flw := { s.flw with sldBusy := some (130, 0x40), ldBusy := some (1, 5, 0) } }
theorem test_load_done : ((loading true).tableRead 0x40).1 = .ok ∧ ((loading false).tableRead 0x40).1 = .integrity ∧
    gives .flwSapwoodLoadDone (loading true) (fun t => t.tblLoaded 0 130 && decide (t.flw.sldBusy = none)) ∧ gives .flwSapwoodLoadDone (loading false) (fun t => decide (t.flw.sldStatus = .integrity)) ∧
    gives .flwLoadDone (loading true) (fun t => decide (t.flw.ldBusy = none) && decide (t.flw.ldIndex = 5)) := by decide +kernel
theorem test_topology_command : Reaches .host 0x0D0008 linkUp ∧ responds (.balTopcmd .host 1) .host .ok { linkUp with regs := [(0x0D0000, 0x40)] } (fun t => decide (t.bal.topBusy = some 0x40)) ∧
    responds (.balTopcmd .host 1) .host .retry { linkUp with bal := { r0.bal with topBusy := some 0x40 } } (fun t => decide (t.bal.topBusy = some 0x40)) ∧
    responds (.balTopcmd (.thread 40) 1) (.thread 40) .denied r0 (fun t => decide (t.bal.topBusy = none)) := by decide +kernel
theorem test_topology_done : gives .balTopologyLoadDone { r0 with bal := { r0.bal with topBusy := some 0x40 } } (fun t => decide (t.bal.topBusy = none) && decide (t.bal.shadow.map Topo.nodes = some [])) := by decide +kernel
/-- The balance engine at UTC second `sec`, interval 0 to close next, time good or not; a dirty pair of it. -/
def bal (sec : Nat) (good : Bool) : State := { r0 with
  tb := { r0.tb with a := { r0.tb.a with sec := BitVec.ofNat 64 sec, cls := if good then 15 else 0 }, b := { r0.tb.b with sec := BitVec.ofNat 64 sec } }
  bal := { r0.bal with nextClose := some 0, dirty := [(3, 0)], defer := true } }
theorem test_balance_close : (bal 2000 true).balRuns = true ∧ (bal 2000 true).timeGood = true ∧ (bal 2000 false).timeGood = false ∧ (bal 2000 true).topoOf 0 = none ∧
    ((0 : Int) + 1) * 900 + (((bal 2000 true).reg 0x0D0018).extractLsb' 12 12).toNat ≤ (bal 2000 true).balUtc ∧
    gives .balIntervalClose (bal 2000 true) (fun t => decide (t.bal.nextClose = some 1)) ∧ gives .balIntervalClose (bal 2000 false) (fun t => decide (t.bal.nextClose = some 0) && t.bal.defer) ∧
    gives .balDeferredClose (bal 2000 true) (fun t => decide (t.bal.nextClose = some 1) && !t.bal.defer) ∧ gives .balIntervalClose r0 (fun t => decide (t.bal.nextClose = some r0.balNow)) := by decide +kernel
/-- The same before any interval has been closed. -/
def balFirst (sec : Nat) (good : Bool) : State := { bal sec good with bal := r0.bal }
theorem test_balance_first_close : (balFirst 2000 true).lastDue = some 0 ∧ (balFirst 2100 false).lastDue = some 1 ∧ (balFirst 2100 false).balUtc = 2100 ∧ r0.lastDue = none ∧ (bal 1199 true).closeDue 0 = false ∧
    gives .balIntervalClose (balFirst 2000 true) (fun t => decide (t.bal.nextClose = some 1)) ∧ gives .balIntervalClose (balFirst 2100 false) (fun t => decide (t.bal.nextClose = some 1) && t.bal.defer) ∧
    gives .balIntervalClose r0 (fun t => decide (t.bal.nextClose = some 0)) := by decide +kernel
theorem test_balance_revision : (bal 2000 true).bal.lastRev = none ∧ gives .balRevisionBoundary (bal 2000 true) (fun t => decide (t.bal.lastRev = some 1980)) ∧
    gives .balIntervalFinal { bal 1000000 true with regs := [(0x0D0018, 0x01000384)] } (fun t => decide (t.bal.finalBelow = 1107) && decide (t.bal.dirty = [])) := by decide +kernel
theorem test_cusum_restart : Reaches .sup 0x0D0014 (bal 2000 true) ∧ (bal 2000 true).balFinal = 0 ∧ (bal 2000 true).balNow = 2 ∧
    responds (.balCusrst .sup 7) .sup .ok { bal 2000 true with regs := [(0x0D0030, 3)] } (fun t => t.cusReset 7 3) ∧
    responds (.balCusrst .sup 7) .sup .outOfRange { bal 2000 true with regs := [(0x0D0030, 4)] } (fun t => !t.cusReset 7 3) := by decide +kernel
/-- Two verdict items held, queue 0x2000 the output queue. -/
def outHeld : State := { queue40 { pullD with tail := 1 } 0 0 0 with regs := [(0x0D0028, 0x2000)], bal := { r0.bal with held := [item7, item7] } }
theorem test_output_retry : outHeld.qmAccess 0x2000 = (true, outHeld) ∧ outHeld.canPut 0x2000 = true ∧ gives .balOutputRetry outHeld (fun t => decide (t.bal.held.length = 1) && decide ((t.desc 0x2000).depth = 2)) := by decide +kernel

/-- A booking of 5 units of energy at rate 1 of point 6. -/
def add5 : LAdd := ⟨6, 2, 1, false, false, 5, 9#96, none, false⟩
theorem test_booking : add5.local_ < 8192 ∧ r0.lreg 6 1 2 = 0 ∧ (r0.bookOne add5).lreg 6 1 2 = 5 ∧ (r0.bookOne add5).lreg 6 0 2 = 0 ∧
    (r0.bookPoint 6 9).ramNat (r0.ptAddr 6 + 0x648) 8 = 1 ∧ (r0.bookPoint 6 9).ramNat (r0.ptAddr 6 + 0x650) 12 = 9 := by decide +kernel
/-- LDG_SNAPADDR at 0x1000000 and the ledger block at 0x2000000. -/
def snap (b : Option (Nat × Nat × Nat)) : State :=
  let s := (regs [(0x0C0000, 0x2000000), (0x0C0004, 0), (0x0C0050, 0x1000000)]).ramPut 0x2000000 [7]
  { s with ldg := { s.ldg with snap := b } }
theorem test_snapshot : Reaches .sup 0x0C0058 (snap none) ∧ (snap none).ptAddr 0 = 0x2000000 ∧ responds (.ldgSnapcmd .sup 0x00010000) .sup .ok (snap none) (fun t => decide (t.ldg.snap = some (0x1000000, 0, 1))) ∧
    responds (.ldgSnapcmd .sup 0x00010000) .sup .retry (snap (some (0, 0, 1))) (fun t => decide (t.ldg.snap = some (0, 0, 1))) ∧ responds (.ldgSnapcmd .sup 0) .sup .outOfRange (snap none) (fun t => decide (t.ldg.snap = none)) ∧
    responds (.ldgSnapcmd (.thread 3) 0x00010000) (.thread 3) .denied (snap none) (fun t => decide (t.ldg.snap = none)) ∧
    (0x1000000 : Nat) + 2048 * 1 ≤ (snap none).ptAddr 0 := by decide +kernel
theorem test_calendar_done : gives .calendarLoadDone { r0 with ldg := { r0.ldg with calBusy := true } } (fun t => !t.ldg.calBusy) := by decide +kernel
/-- The display shows page 0 since edge 0. -/
def showing (n : Nat) : State := { regs [(0x0C0024, 0x0A04)] with ldg := { r0.ldg with show_ := some (0, 0, 0) }, tb := { r0.tb with elapsed := n } }
theorem test_legal_show : gives .legalShowAssert r0 (fun t => decide (t.ldg.show_ = some (0, 0, 0)) && decide (t.out.length = 1)) ∧ gives .legalShowAssert (showing 9) (fun t => decide (t.ldg.show_ = some (9, 0, 0)) && decide (t.out = [])) ∧
    gives .legalShowPage (showing 250000000) (fun t => decide (t.ldg.show_ = some (0, 1, 250000000))) ∧ gives .legalShowEnd (showing 1250000000) (fun t => decide (t.ldg.show_ = none) && t.ldg.showend && decide (t.out = [.display [] true])) := by decide +kernel
/-- A calendar whose one offset entry puts UTC at TAI, with a day gone by since reset; the records of interval 5 are due. -/
def formS : State :=
  let g : List Byte := [0, 0, 0, 0, 1] ++ List.replicate 1200 0
  { r0 with
    tb := { r0.tb with a := { r0.tb.a with sec := 86400 } }
    ldg := { r0.ldg with calCur := [⟨g⟩], formNext := some 5, profiles := [⟨6, 4, 0, 0, 0⟩] } }
theorem test_interval : formS.intervalNow = some 96 ∧ 5 + ((formS.reg 0x0C0020).extractLsb' 16 7).toNat ≤ 96 ∧
    gives .profileRetentionDiscard formS (fun t => decide (t.ldg.profiles.length = 1)) := by decide +kernel

/-! ## Power-line ports (09_powerline.md) -/

/-- Port 0 enabled in a SOLO device, a superframe running since `at_`, its queues 0x2000 (transmit, one item `x`) and 0x2001 (completions). -/
def plc0 (p : Plc) (x : Item) (n : Nat) : State :=
  let s := { regs [(0x100000, 0x80011234), (0x10002C, 0x2000), (0x100030, 0x2001), (0x170000, 0x40000000)] with
    tb := { r0.tb with elapsed := n }
    plc := [(0, { p with sf := some (0, 0) })]
    qm := { r0.qm with descs := [(0x2000, pullD), (0x2001, { pullD with base := 0x3000#24, tail := 0, tailn := 0x1FFFFF })] } }
  s.ramPut pullD.ring (bytesOf 64 x)
/-- A transmit item: request 7, 2 bytes at 0x1000, to address 5, FC with ACKREQ. -/
def txItem : Item := (7#512 <<< 192) ||| (0x1000#512 <<< 320) ||| (2#512 <<< 384) ||| (5#512 <<< 400) ||| (1#512 <<< 416)
/-- A frame of the port. -/
def job (ack : Bool) : TxJob := { reqid := 7, psdu := List.replicate 14 0, dst := 5, ackreq := ack, be := 3 }
theorem test_plc_role : (plc0 {} txItem 0).plcOn 0 = true ∧ (plc0 {} txItem 0).txRole = true ∧ ((plc0 {} txItem 0).hwTake 0x2000).1 = some txItem ∧
    (((plc0 {} txItem 0).hwTake 0x2000).2.unitRead 0x1000 2) = (.ok, [0, 0]) ∧ (plc0 {} txItem 0).jobSyms 0 (job true) ≤ 511 ∧
    (plc0 {} 0 20000000).mayStart 0 (job true) = true ∧ (plc0 {} 0 20000000).qmAccess 0x2001 = (true, plc0 {} 0 20000000) ∧ (plc0 {} 0 20000000).canPut 0x2001 = true := by decide +kernel
theorem test_plc_take : gives (.plcTxTake ⟨0, false⟩) (plc0 {} txItem 0) (fun t => decide (((t.plcAt 0).tx.map TxJob.psdu).map List.length = some 14) && decide ((t.plcAt 0).txseq = [(5, 1#8)]) && decide (t.out = [])) ∧
    gives (.plcTxTake ⟨0, false⟩) (plc0 {} txItem 20000000) (fun t => decide (t.out.length = 1)) ∧
    gives (.plcTxTake ⟨0, true⟩) (plc0 {} txItem 20000000) (fun t => decide (t.out = []) && decide ((t.plcAt 0).tx.map TxJob.be = some 4)) ∧
    becomes (.plcTxTake ⟨0, false⟩) (plc0 { tx := some (job true) } txItem 0) (plc0 { tx := some (job true) } txItem 0) := by decide +kernel
theorem test_plc_backoff : gives (.plcBackoffExpiry 0 false) (plc0 { tx := some (job true) } 0 20000000) (fun t => decide ((t.plcAt 0).tx.map TxJob.sending = some true) && decide (t.out.length = 1)) ∧
    gives (.plcBackoffExpiry 0 true) (plc0 { tx := some (job true) } 0 20000000) (fun t => decide ((t.plcAt 0).tx.map TxJob.be = some 4) && decide (t.out = [])) := by decide +kernel
/-- The completion is in queue 0x2001 and the port free. -/
def completed (t : State) : Bool := decide ((t.plcAt 0).tx = none) && decide ((t.desc 0x2001).tail = 1)
theorem test_plc_end : gives (.plcTxEnd 0) (plc0 { tx := some { job true with sending := true } } 0 50000000) (fun t => decide ((t.plcAt 0).tx.map TxJob.ended = some (some 50000000))) ∧
    gives (.plcTxEnd 0) (plc0 { tx := some { job false with sending := true } } 0 50000000) completed ∧
    gives (.plcAckTimeout ⟨0, false⟩) (plc0 { tx := some { job true with ended := some 20000000 } } 0 22250000) (fun t => decide ((t.plcAt 0).tx.map TxJob.tries = some 1)) ∧
    gives (.plcAckTimeout ⟨0, true⟩) (plc0 { tx := some { job true with ended := some 20000000, tries := 7 } } 0 22250000) completed ∧
    becomes (.plcAckTimeout ⟨0, false⟩) (plc0 { tx := some { job true with ended := some 20000000 } } 0 22249999) (plc0 { tx := some { job true with ended := some 20000000 } } 0 22249999) := by decide +kernel
/-- An FCH with its CRC. -/
def fchOf (v : BitVec 40) : BitVec 48 := v ++ crc8 0x07#8 0#8 ((List.range 5).map (fun k => v.extractLsb' (32 - 8 * k) 8))
/-- A received frame: FT, the low bits of the FCH, PSDU. -/
def rxOf (ft : Nat) (lo : Nat) (psdu : List Byte) : PlcRx := ⟨fchOf (BitVec.ofNat 40 (ft * 2 ^ 38 + 2 ^ 37 + lo * 2 ^ 24)), psdu, 0, 0, [], 0⟩
def withFcs (bs : List Byte) : List Byte := bs ++ bytesOf 4 (crcE bs)
theorem test_plc_ack : crc8 0x07#8 0#8 ((List.range 5).map (fun k => (rxOf 2 9 []).fch.extractLsb' (40 - 8 * k) 8)) = (rxOf 2 9 []).fch.extractLsb' 0 8 ∧ (rxOf 2 9 []).fch.extractLsb' 46 2 = 2#2 ∧
    gives (.plcFrameReceive 0 (rxOf 2 9 [])) (plc0 { tx := some { job true with ended := some 20000000, seq := 9 } } 0 20000001) completed ∧
    gives (.plcAckSend 0) (plc0 { acks := [(5, 1, 20000000)] } 0 20125000) (fun t => decide ((t.plcAt 0).acks = []) && (match t.out with | [.plcAck 0 1#3 _ 5] => true | _ => false)) ∧
    gives (.plcAckSend 0) (plc0 { acks := [(5, 1, 20000000)] } 0 20131251) (fun t => decide ((t.plcAt 0).acks = []) && decide (t.out = [])) ∧
    gives (.plcAckSend 0) (plc0 { acks := [(5, 1, 20000000)] } 0 20118749) (fun t => decide ((t.plcAt 0).acks.length = 1) && decide (t.out = [])) := by decide +kernel
/-- A data frame of PAN 0x1234 from address 6. -/
def dataF (pay : List Byte) : List Byte := withFcs ([0x18, 3, 0x34, 0x12, 5, 0, 6, 0] ++ pay)
theorem test_plc_receive : (rxOf 0 0 (dataF [1])).fch.extractLsb' 46 2 = 0#2 ∧ (rxOf 0 0 (dataF [1])).fch.getLsbD 45 = true ∧ (({} : Plc).nbOf 6) = none ∧ (dataF [1]).length = 13 ∧
    takeBytes (dataF [1]) 9 4 = (crcE ((dataF [1]).take 9)).toNat ∧ takeBytes (dataF [1]) 2 2 = (((plc0 {} 0 0).reg 0x100000).extractLsb' 0 16).toNat ∧
    gives (.plcFrameReceive 0 (rxOf 0 0 (List.replicate 13 1))) (plc0 {} 0 0) (fun t => decide ((t.plcAt 0).badfcs = 1)) := by decide +kernel
/-- Neighbour 4 is address 6; a tone map of plan A, number 1, all tones code 0. -/
def nb6 : Plc := { nbs := [(4, { valid := true, saddr := 6 })] }
def mapF : PlcRx := rxOf 3 0 (dataF (1 :: List.replicate 14 0))
theorem test_plc_map : nb6.nbOf 6 = some 4 ∧ (nb6.nb 4).seq ≠ BitVec.ofNat 8 (takeBytes mapF.psdu 1 1) ∧ decide (takeBytes mapF.psdu 8 1 / 16 % 2 = 1) = (plc0 nb6 0 0).planF 0 ∧
    (unpackMap ((plc0 nb6 0 0).planTones 0) ((((mapF.psdu.drop 8).take (mapF.psdu.length - 12))).drop 1)).all (fun c => decide (c.toNat ≤ 4)) = true ∧
    gives (.plcFrameReceive 0 mapF) (plc0 nb6 0 0) (fun t => decide (((t.plcAt 0).nb 4).rxTm = 1) && decide (((t.plcAt 0).nb 4).rxMap.length = 36)) := by decide +kernel
/-- The same neighbour heard once, loud on every tone. -/
def heard6 : Plc := { nbs := [(4, { valid := true, saddr := 6, toneHist := [List.replicate 36 63] })] }
theorem test_tone_map : (plc0 heard6 0 0).mapDue 0 (heard6.nb 4) = true ∧ (plc0 heard6 0 0).planTones 0 ≤ 4 * (((plc0 heard6 0 0).buildMap 0 (heard6.nb 4)).filter (fun c => decide (c ≠ 0#3))).length ∧
    (plc0 heard6 0 20000000).capOpen 0 ((plc0 heard6 0 20000000).mapSyms 0) = true ∧
    gives (.toneMapRefresh ⟨0, false⟩ 4) (plc0 heard6 0 20000000) (fun t => decide (((t.plcAt 0).nb 4).curTm = 1) && decide (t.out.length = 1)) ∧
    gives (.toneMapRefresh ⟨0, false⟩ 4) (plc0 heard6 0 0) (fun t => decide (((t.plcAt 0).nb 4).curTm = 0)) := by decide +kernel
/-- Fifteen crossings 20 ms apart, the last at 3,000,000 x 0.1 us. -/
def crossed (l : List Nat) : Plc := { zcs := l ++ (List.range 15).map (fun k => 3000000 - 200000 * k) }
theorem test_zero_crossing : gives (.zeroCrossing 0 0 true) (plc0 (crossed []) 0 40000000) (fun t => decide ((t.plcAt 0).zcs.head? = some 3200000) && decide ((t.plcAt 0).period = 20000) && !(t.plcAt 0).zcv) ∧
    gives (.zeroCrossing 0 0 true) (plc0 { zcv := true, zcs := (List.range 16).map (fun k => 3100000 - 100000 * k) } 0 40000000) (fun t => decide ((t.plcAt 0).zcs.length = 17) && decide ((t.plcAt 0).period = 10000) && !(t.plcAt 0).zcv && (t.plcAt 0).zcLost) ∧
    gives (.zeroCrossingLoss 0) (plc0 { zcv := true, zcs := [0], period := 20000 } 0 5000000) (fun t => !(t.plcAt 0).zcv && (t.plcAt 0).zcLost) ∧
    gives (.zeroCrossingLoss 0) (plc0 { zcv := true, zcs := [0], period := 20000 } 0 4999987) (fun t => (t.plcAt 0).zcv) ∧
    becomes (.zeroCrossing 0 0 false) (plc0 {} 0 40000000) (plc0 {} 0 40000000) ∧ becomes (.zeroCrossing 0 1 true) (plc0 {} 0 40000000) (plc0 {} 0 40000000) := by decide +kernel
/-- VNOM 2,300 in a three-phase port; L1 low and L2 high since edge 0, or all within the limits since then. -/
def vnom (miss : Bool) (n : Nat) : State := { r0 with
  regs := [(0x100000, 0x90011234), (0x100014, 2300)]
  tb := { r0.tb with elapsed := n }
  plc := [(0, { neutral := miss, lows := if miss then [] else [some 0, none, none], highs := if miss then [] else [none, some 0, none], within := if miss then some 0 else none })] }
theorem test_neutral : (vnom false 0).watchesNeutral 0 = true ∧
    gives (.neutralMissing 0 1000 2600 2300) (vnom false 125000000) (fun t => (t.plcAt 0).neutral && decide (t.ldg.tdev2 = 1)) ∧
    gives (.neutralMissing 0 1000 2600 2300) (vnom false 124999999) (fun t => !(t.plcAt 0).neutral && decide (t.ldg.tdev2 = 0) && decide ((t.plcAt 0).lows = [some 0, none, none])) ∧
    gives (.neutralClear 0 2300 2300 2300) (vnom true 1250000000) (fun t => !(t.plcAt 0).neutral && decide (t.ldg.tdev2 = 0)) ∧
    gives (.neutralClear 0 2300 2300 1000) (vnom true 1250000000) (fun t => (t.plcAt 0).neutral && decide ((t.plcAt 0).within = none)) := by decide +kernel
theorem test_neighbour : Reaches .sup 0x100044 r0 ∧ responds (.plcNeighbourWrite 0 (.thread 3) 0x80000006) (.thread 3) .ok { r0 with regs := [(0x100040, 9)] } (fun t => decide (((t.plcAt 0).nb 9).saddr = 6)) ∧
    responds (.plcNeighbourWrite 0 (.thread 3) 0x80008000) (.thread 3) .outOfRange r0 (fun t => decide (t.plc = [])) := by decide +kernel
/-- A device whose time is `ms` hundredths into superframe 0, with port 0 as given. -/
def sfAt (p : Plc) (t : Nat) (solo link : Bool) : State := { r0 with
  regs := [(0x100000, 0x80011234)] ++ (if solo then [(0x170000, 0x40000000)] else [])
  tb := { r0.tb with elapsed := 1000000, a := { r0.tb.a with sec := BitVec.ofNat 64 (t / 100), frac := BitVec.ofNat 64 (t % 100 * 2 ^ 64 / 100) } }
  spn := { r0.spn with link := link }
  plc := [(0, p)] }
theorem test_superframe : gives (.superframeStart 0) (sfAt {} 1 true false) (fun t => decide ((t.plcAt 0).sf = some (0, 1000000))) ∧
    gives (.superframeStart 0) (sfAt { armed := some (0, [1]) } 1 true false) (fun t => decide ((t.plcAt 0).sent = some 0) && (match t.out with | [.plcBeacon 0 1#3 h 0 [1] false] => decide (h.extractLsb' 46 2 = 1#2 ∧ h.getLsbD 45 = true) | _ => false)) ∧ (sfAt {} 1 true false).txRole = true := by decide +kernel
theorem test_beacon_arm : 118 * 2 ^ 32 ≤ (sfAt {} 120 true false).sfNow.2 ∧ gives (.beaconArm 0) (sfAt { image := List.replicate 96 0 } 120 true false) (fun t => decide (((t.plcAt 0).armed.map Prod.fst) = some 1)) := by decide +kernel
theorem test_beacon_cover : (sfAt {} 1 false false).txRole = false ∧ (sfAt {} 1 false false).solo = false ∧
    gives (.beaconCover 0 false) (sfAt { sf := some (7, 0), shipped := some (7, [1]) } 1 false false) (fun t => (t.plcAt 0).covering && (match t.out with | [.plcBeacon 0 1#3 h 7 [1] true] => decide (h.extractLsb' 46 2 = 1#2) | _ => false)) ∧
    gives (.beaconMessageReceive 0 8 [2]) (sfAt {} 1 false true) (fun t => decide ((t.plcAt 0).shipped = some (8, [2]))) ∧ gives (.begunReceive 0 8) (sfAt {} 1 false true) (fun t => decide ((t.plcAt 0).begun = some 8)) := by decide +kernel

/-! ## Radio and wired ports (10_radio_wired.md) -/

/-- Radio port 0 of a SOLO device (or not), CCA threshold 60, rate 50 kb/s, four preamble octets; its queues as the power-line port's. -/
def rf0 (solo : Bool) (p : Rf) (x : Item) (n : Nat) : State :=
  let s := { regs ([(0x120000, 0x8034043C), (0x120004, 0x3502003C), (0x12002C, 0x2000), (0x120030, 0x2001)] ++ (if solo then [(0x170000, 0x40000000)] else [])) with
    tb := { r0.tb with elapsed := n }
    rf := [(0, { p with txMac := 0x3552003C#32 })]
    qm := { r0.qm with descs := [(0x2000, pullD), (0x2001, { pullD with base := 0x3000#24, tail := 0, tailn := 0x1FFFFF })] } }
  s.ramPut pullD.ring (bytesOf 64 x)
/-- A transmit item: request 7, 10 bytes at 0x1000, to address 5, data with an acknowledgement. -/
def rfTx : Item := (7#512 <<< 192) ||| (0x1000#512 <<< 320) ||| (10#512 <<< 384) ||| (5#512 <<< 400) ||| (4#512 <<< 416)
def rfJob (ack : Bool) : TxJob := { reqid := 7, psdu := List.replicate 10 0, dst := 5, seq := 9, ackreq := ack, be := 5 }
def rfDone (t : State) : Bool := decide ((t.rfAt 0).tx = none) && decide ((t.desc 0x2001).tail = 1)
theorem test_rf_ready : (rf0 true {} rfTx 0).rfOn 0 = true ∧ (rf0 true {} rfTx 0).txRole = true ∧ (rf0 false {} rfTx 0).txRole = false ∧ ((rf0 true {} rfTx 0).hwTake 0x2000).1 = some rfTx ∧
    ((rf0 true {} rfTx 0).hwTake 0x2000).2.unitRead 0x1000 10 = (.ok, List.replicate 10 0) ∧ ((rf0 true {} rfTx 0).hwTake 0x2000).2.tooLong 0 0 4 14 0 = false ∧
    (rf0 true {} 0 0).qmAccess 0x2001 = (true, rf0 true {} 0 0) ∧ (rf0 true {} 0 0).canPut 0x2001 = true := by decide +kernel
theorem test_rf_take : gives (.rfTxTake 0) (rf0 true {} rfTx 0) (fun t => (t.rfAt 0).cca && decide ((t.rfAt 0).tx.map TxJob.ackreq = some true) && decide ((t.rfAt 0).txseq = [(5, 1#8)])) := by decide +kernel
theorem test_rf_cca : gives (.rfCcaDone 0 (-60)) (rf0 true { tx := some (rfJob true), cca := true } 0 9) (fun t => decide ((t.rfAt 0).tx.map TxJob.at_ = some 9) && decide (t.out = [.rfFrame 0 (rfPsdu (rfJob true)) 0])) ∧
    gives (.rfCcaDone 0 (-59)) (rf0 true { tx := some { rfJob true with busyN := 7 }, cca := true } 0 9) rfDone ∧
    gives (.rfCcaDone 0 (-60)) (rf0 false { tx := some (rfJob true), cca := true } 0 9) rfDone ∧ (-(((rf0 true {} 0 9).reg 0x120000).extractLsb' 0 7).toNat : Int) = -60 := by decide +kernel
theorem test_rf_backoff : gives (.rfBackoffExpiry 0) (rf0 true { tx := some (rfJob true), backoff := some 9 } 0 9) (fun t => (t.rfAt 0).cca && decide ((t.rfAt 0).backoff = none)) := by decide +kernel
theorem test_rf_end : gives (.rfTrainCopy 0) (rf0 true { tx := some { rfJob true with sending := true, wake := 2, copies := 3 } } 0 5000000) (fun t => decide ((t.rfAt 0).tx.map TxJob.copies = some 2)) ∧
    gives (.rfTxEnd 0) (rf0 true { tx := some { rfJob true with sending := true } } 0 5000000) (fun t => decide ((t.rfAt 0).tx.map TxJob.ended = some (some 5000000))) ∧
    gives (.rfTxEnd 0) (rf0 true { tx := some { rfJob false with sending := true } } 0 5000000) rfDone ∧
    gives (.rfAckTimeout 0) (rf0 true { tx := some { rfJob true with ended := some 0 } } 0 250000) (fun t => (t.rfAt 0).cca && decide ((t.rfAt 0).tx.map TxJob.tries = some 1)) ∧
    gives (.rfAckTimeout 0) (rf0 true { tx := some { rfJob true with ended := some 0, tries := 3 } } 0 250000) rfDone := by decide +kernel
/-- A data frame of network 0x34 from address 6. -/
def rfF : RfRx := let q := withFcs ([0x40, 3, 0x34, 0, 0, 6, 0, 1]); ⟨BitVec.ofNat 16 q.length, false, q, 9, 0, 4⟩
def rfNb6 : Rf := { nbs := [(4, { valid := true, saddr := 6, seq := 3, seqAt := some 0 })] }
theorem test_rf_receive : phrBad rfF.phr = false ∧ phrBad 0x800C#16 = true ∧ (rfF.phr.extractLsb' 0 11).toNat = rfF.psdu.length ∧ takeBytes rfF.psdu 8 4 = (crcE (rfF.psdu.take 8)).toNat ∧ ({} : Rf).nbOf 6 = none ∧
    rfNb6.nbOf 6 = some 4 ∧ gives (.rfFrameReceive 0 { rfF with phr := 0x800C#16 }) (rf0 true {} 0 0) (fun t => (t.rfAt 0).badphr) ∧
    gives (.rfFrameReceive 0 rfF) (rf0 true rfNb6 0 9) (fun t => decide ((t.rfAt 0).dupdrop = 1)) := by decide +kernel
theorem test_rf_ack : gives (.rfAckSend 0) (rf0 true { acks := [(6, 3, 0)] } 0 125000) (fun t => decide ((t.rfAt 0).acks = []) && decide (t.out = [.rfAck 0 (withFcs [1, 3, 0x34, 6, 0, 0, 0])])) := by decide +kernel
theorem test_rf_front_end : Reaches .sup 0x120010 r0 ∧ responds (.rfFespi 0 .sup 0x00120000) .sup .ok r0 (fun t => (t.rfAt 0).fespi && decide (t.out.length = 1)) ∧
    responds (.rfFespi 0 .sup 0x00120000) .sup .retry (rf0 true { fespi := true } 0 0) (fun t => decide (t.out = [])) ∧
    gives (.rfFespiDone 0 0xABCD) (rf0 true { fespi := true } 0 0) (fun t => !(t.rfAt 0).fespi && decide ((t.reg 0x120010).extractLsb' 0 16 = 0xABCD#16)) ∧ gives (.rfIqStall 0) (rf0 true {} 0 0) (fun t => (t.rfAt 0).iqerr) := by decide +kernel

/-- Wired port 1 of a SOLO device in Modbus at 9,600 b/s, TURN 16, its queues as above. -/
def wir1 (p : Wir) (x : Item) (n : Nat) : State :=
  let s := { regs [(0x140040, 0xA0032DCD), (0x140044, 0x0B100000), (0x14005C, 0x2000), (0x140060, 0x2001), (0x170000, 0x40000000)] with
    tb := { r0.tb with elapsed := n }
    wir := [(1, p)]
    qm := { r0.qm with descs := [(0x2000, pullD), (0x2001, { pullD with base := 0x3000#24, tail := 0, tailn := 0x1FFFFF })] } }
  (s.ramPut pullD.ring (bytesOf 64 x)).ramPut 0x1000 [1, 2]
/-- Two octets at 0x1000, the CRC appended. -/
def wirTx : Item := (7#512 <<< 192) ||| (0x1000#512 <<< 320) ||| (2#512 <<< 384) ||| (1#512 <<< 400)
/-- Characters with no gap, heard now, and 35 bit times (3.5 characters of 10 bits) of silence after them. -/
def chars (bs : List Byte) : WirRx := ⟨bs.map (fun b => ⟨b, 0, false, false⟩), false, 0, 35⟩
def modbus : List Byte := [1, 2] ++ bytesOf 2 (crc16b 0xFFFF#16 [1, 2])
theorem test_wired_ready : (wir1 {} wirTx 0).wirOn 1 = true ∧ (wir1 {} wirTx 0).modbusOk 1 (chars modbus).chars = true ∧ (wir1 {} wirTx 0).modbusOk 1 (chars [1, 2, 3, 4]).chars = false ∧
    (nativeFrames (fun _ => false) [] (placeChars 11 0 (chars [7, 0xA5, 1, 9, 8, 7, 6]).chars)).map (fun l => l.map (fun x => (x.1, x.2.octet))) = [[(11, 0xA5), (22, 1), (33, 9), (44, 8), (55, 7)]] ∧ ((wir1 {} wirTx 0).hwTake 0x2000).1 = some wirTx := by decide +kernel
theorem test_wired : gives (.wirFrameEnd 1 (chars [1, 2, 3, 4])) (wir1 {} 0 0) (fun t => decide ((t.wirAt 1).badframe = 1)) ∧
    gives (.wirTxStart ⟨1, 34⟩) (wir1 {} wirTx 0) (fun t => decide (t.out = []) && decide ((t.wirAt 1).tx = none)) ∧
    gives (.wirTxStart ⟨1, 35⟩) (wir1 {} wirTx 0) (fun t => decide (t.out = [.wirFrame 1 modbus]) && decide ((t.wirAt 1).tx.map TxJob.sending = some true)) ∧
    gives (.wirTxDone 1) (wir1 { tx := some { reqid := 7, psdu := modbus, sending := true }, turn := 16 } 0 10000000) (fun t => decide ((t.wirAt 1).tx = none) && decide ((t.desc 0x2001).tail = 1) && decide ((t.wirAt 1).blind = 10000000 + 208333)) := by decide +kernel

/-! ## Timebase (11_time.md) -/

theorem test_increment : Reaches .sup 0x030014 r0 ∧ responds (.tbIncrWrite .sup false 34) .sup .ok { r0 with latch := [(Init.sup.key * 2 ^ 24 + 0x030010, some 0x57D5F6AB)] } (fun t => decide (t.incr false = 0x2257D5F6AB)) ∧
    responds (.tbIncrWrite .sup true 35) .sup .outOfRange r0 (fun t => decide (t.regs = parked)) := by decide +kernel
theorem test_quality : Reaches .sup 0x030008 r0 ∧ responds (.tbQualWrite .sup false 0x0000003C) .sup .ok r0 (fun t => decide (t.tb.a.cls = 12) && decide (t.reg 0x030008 = 0x3C)) ∧
    responds (.tbQualWrite .sup true 0x0000000C) .sup .outOfRange r0 (fun t => decide (t.tb.b.cls = 0)) := by decide +kernel
theorem test_select : Reaches .sup 0x030000 r0 ∧ responds (.tbSelWrite .sup 0x80400064) .sup .ok { r0 with tb := { r0.tb with a := { r0.tb.a with sec := 3 }, b := { r0.tb.b with sec := 1 } } }
      (fun t => !t.sel && t.tick.sel && decide (t.tick.tb.swdiff = 0x200000000)) ∧ responds (.tbSelWrite .sup 0x80000064) .sup .outOfRange r0 (fun t => !t.sel && decide (t.tb.selNext = none)) := by decide +kernel
theorem test_snap : Reaches .sup 0x030048 r0 ∧ responds (.tbSnap .sup 1) .sup .ok { r0 with tb := { r0.tb with elapsed := 7, a := { r0.tb.a with sec := 3 } } } (fun t => decide (t.tb.snapA = 3) && decide (t.tb.snapE = 7)) := by decide +kernel
/-- Domain A at a second boundary with a step of -2 s pending, both domains of low class, AUTOSEL on. -/
def stepping : State := { regs [(0x030000, 0x40400064)] with tb := { r0.tb with
  elapsed := 125000000 * 100, a := { r0.tb.a with sec := 9, frac := 5, carry := true, cls := 3, step := some ⟨false, -2, 0, 0⟩ }, b := { r0.tb.b with cls := 8 } } }
theorem test_step_apply : stepping.atSecond false = true ∧ timeOk ((stepping.dom false).stepTo ⟨false, -2, 0, 0⟩) = true ∧ gives (.tbStepApply false) stepping (fun t => decide (t.tb.a.sec = 7) && decide (t.tb.a.frac = 5) && decide (t.tb.a.stepAt = some 12500000000) && decide (t.tb.a.step = none)) ∧
    becomes (.tbStepApply true) stepping stepping := by decide +kernel
theorem test_auto_switch : stepping.cls stepping.sel < stepping.qmin ∧ stepping.qmin ≤ stepping.cls (!stepping.sel) ∧ gives .tbAutoSwitch stepping (fun t => t.sel && t.tb.autosw) := by decide +kernel
theorem test_decay : gives (.qualityDecay true) { stepping with regs := [(0x03000C, 0x648)] } (fun t => decide (t.tb.b.cls = 7) && decide (t.tb.b.clsAt = 12500000000)) := by decide +kernel
theorem test_refclk : gives .refclkLoss stepping (fun t => t.tb.clkLost && decide (t.tb.b.cls = 0)) ∧ gives .refclkReturn { r0 with tb := { r0.tb with clkLost := true } } (fun t => !t.tb.clkLost) ∧
    gives .tsplitConditionChange stepping (fun t => decide (t.tb.split = stepping.splitNow)) := by decide +kernel

/-! ## Ethernet, the tree and configuration epochs (12_hierarchy.md) -/

/-- A device of pair 0x12 under zone manager 1, tree enabled, ports 0 and 2 up. -/
def net (l : List (Nat × W32)) (e : Tab Eth) : State := { regs ([(0x150000, 0x80000000), (0x150080, 0x80000000), (0x1500C0, 0x80000000), (0x180000, 0x97000300), (0x180004, 0x12), (0x180008, 0x88B5), (0x180010, 0x12345600), (0x180014, 0x0200)] ++ l) with
  eth := if e = [] then [(0, { link := true }), (2, { link := true })] else e }
/-- A raw frame; a tree frame of one item from the manager's twin 0. -/
def rawF : EthRx := ⟨List.replicate 12 0 ++ [0x12, 0x34] ++ List.replicate 46 0, true, 0⟩
def treeF : EthRx := ⟨[2, 0, 0x12, 0x34, 0x56, 0x24, 2, 0, 0x12, 0x34, 0x56, 0x02, 0x88, 0xB5] ++ List.replicate 64 0, true, 0⟩
theorem test_eth_receive : (net [] []).ethUp 0 = true ∧ (net [] []).treEn = true ∧ beAt rawF.octets (etypeAt rawF.octets) 2 = 0x1234 ∧ beAt treeF.octets 12 2 = 0x88B5 ∧
    beAt treeF.octets 0 6 = (net [] []).deviceMac (net [] []).device ∧ beAt treeF.octets 6 6 = (net [] []).deviceMac 2 ∧ (net [] []).relOf 1 0 = .manager 0 := by decide +kernel
/-- An item for the manager in queue 0xE000, and PACKWAIT. -/
def packs (wait : W32) (at_ : Option Pack) : State :=
  let s := net [] [(2, { link := true, pack := at_ })]
  let s := { s with
    regs := (s.regs.filter (fun (p : Nat × W32) => decide (p.1 ≠ 0x180000))) ++ [(0x180000, 0x97000000 ||| wait)]
    tb := { r0.tb with elapsed := 1000 }
    qm := { r0.qm with descs := [(0xE000, { pullD with cls := 4 })] } }
  s.ramPut pullD.ring (bytesOf 64 item7)
theorem test_tree_frame : (packs 8 none).treePort 2 = true ∧ (packs 8 none).treeQueues 2 = [0xE000, 0xE001] ∧
    ((packs 8 none).gather 0xE000 2 3 23 none []).1 = false ∧ ((packs 8 none).gather 0xE000 2 3 23 none []).2.2.1 = [item7] ∧
    gives (.treeFrameSend 2) (packs 0 none) (fun t => decide (t.out.length = 1) && decide ((t.ethAt 2).last4.length = 1)) ∧
    gives (.treeFrameSend 2) (packs 8 none) (fun t => decide (t.out = []) && decide ((t.ethAt 2).pack = some ⟨0xE000, 1000, 23, 8⟩)) ∧
    gives (.packwaitExpiry 2) (packs 8 (some ⟨0xE000, 0, 23, 8⟩)) (fun t => decide (t.out.length = 1) && decide ((t.ethAt 2).pack = none)) := by decide +kernel
theorem test_links : gives (.ethLinkDown 2) (net [] [(2, { link := true, last4 := [[item7]] }), (3, { link := true })]) (fun t => !(t.ethAt 2).link && decide (t.out.length = 1)) ∧
    gives (.ethLinkUp 3) (net [] [(2, { last4 := [[item7]] })]) (fun t => (t.ethAt 3).link && decide (t.out.length = 1)) ∧
    gives (.ethPauseRepeat 0) { net [] [] with qm := { r0.qm with fifos := [(12, { hold := true })] } } (fun t => decide (t.out = [.ethPause 0 0xFFFF#16])) := by decide +kernel
/-- A raw item: 60 bytes at 0x1000. -/
def rawItem : Item := (7#512 <<< 192) ||| (0x1000#512 <<< 320) ||| (60#512 <<< 384)
def rawS (e : Eth) : State :=
  let s := { net [(0x15001C, 0x2000), (0x150020, 0x2001)] [(0, { e with link := true })] with
    qm := { r0.qm with descs := [(0x2000, pullD), (0x2001, { pullD with base := 0x3000#24, tail := 0, tailn := 0x1FFFFF })] } }
  s.ramPut pullD.ring (bytesOf 64 rawItem)
theorem test_raw : (rawS {}).ethOn 0 = true ∧ ((rawS {}).hwTake 0x2000).1 = some rawItem ∧ (((rawS {}).hwTake 0x2000).2.unitRead 0x1000 60) = (.ok, List.replicate 60 0) ∧ rawItem.getLsbD 401 = false ∧
    gives (.ethRawTxDone 0) (rawS { raw := some (7, false, 0, 0, 0) }) (fun t => decide ((t.ethAt 0).raw = none) && decide ((t.desc 0x2001).tail = 1)) := by decide +kernel
theorem test_heartbeat_send : (net [] []).treRuns = true ∧ gives .heartbeatSend (net [] []) (fun t => decide (t.out.length = 1) && decide (t.tre.hbAt = some 0)) := by decide +kernel
/-- A heartbeat of device `dev` on port 2: CPSTATE, QCMD. -/
def hb (dev : Nat) (cp q : Item) : HbRx := ⟨2, BitVec.ofNat 512 (dev * 2 ^ 7) <<< 128, (cp <<< 480) ||| (q <<< 496), 0⟩
theorem test_heartbeat : (net [] []).relOf ((itemSrc (hb 2 0 0).hbtime).toNat / 256) ((itemSrc (hb 2 0 0).hbtime).toNat / 128 % 2) = .manager 0 ∧
    gives (.heartbeatReceive (hb 2 0 3)) { net [] [] with tre := { r0.tre with mgrlost := true } } (fun t => t.tre.quar && decide (t.tre.reasons = 3#4) && !t.tre.mgrlost) ∧
    gives (.heartbeatReceive (hb 3 1 3)) (net [] []) (fun t => !t.tre.quar && decide ((t.peer 33).cpstate = 1)) ∧
    gives (.heartbeatReceive (hb 9 0 0)) (net [] []) (fun t => decide (t.tre.foreign_ = 1)) := by decide +kernel
/-- A zone manager of pair 1 with child index 2 in force, port 2 up. -/
def zone (p : Peer) (n : Nat) : State := { net [] [] with
  regs := [(0x150080, 0x80000000), (0x180000, 0x97000300), (0x180004, 0x101), (0x180018, 0x05142802)]
  tb := { r0.tb with elapsed := n }
  tre := { r0.tre with childAct := 4, peers := [(4, p)], xAct := [(10, 0x80000000)] } }
theorem test_child : (zone {} 0).relOf 0x12 0 = .child 2 0 ∧ gives (.heartbeatReceive (hb 0x24 0 0)) (zone {} 9) (fun t => decide ((t.peer 4).seen = some 9) && !(t.peer 4).lost) ∧
    gives (.childLoss 2) (zone {} 1000000000) (fun t => (t.peer 4).lost && (t.peer 5).lost) ∧ (zone {} 1000000000).silent 4 = true ∧
    gives (.configGraceExpiry 2 false) (zone { cfgBad := some 0 } 250000000) (fun t => decide ((t.peer 4).reasons = 1#4)) ∧ (zone {} 0).xValid 2 = true ∧
    (zone {} 1000000000).silent 32 = true ∧ gives .managerLoss (zone {} 1000000000) (fun t => t.tre.mgrlost && decide (t.epochOf 0x85 = 1)) := by decide +kernel
theorem test_role : Reaches .sup 0x180004 r0 ∧ r0.treEn = false ∧ responds (.treRoleWrite .sup 0x101) .sup .ok r0 (fun t => decide (t.role = 1) && decide (t.pair = 1)) ∧
    responds (.treRoleWrite .sup 0x110) .sup .outOfRange r0 (fun t => decide (t.regs = parked)) ∧ responds (.treRoleWrite .sup 0x101) .sup .retry (net [] []) (fun t => decide (t.role = 0)) ∧
    responds (.treRoleWrite .sup 0x101) .sup .denied { r0 with sys := { r0.sys with variant := .w } } (fun t => decide (t.regs = parked)) := by decide +kernel
theorem test_expectation : Reaches .sup 0x18002C r0 ∧ responds (.treXdataWrite .sup 3 9) .sup .ok (regs [(0x180020, 4), (0x180028, 2)]) (fun t => decide (t.tre.xSh = [(13, 9)])) ∧
    responds (.treXdataWrite .sup 3 9) .sup .retry { regs [(0x180020, 4), (0x180028, 2)] with cfg := { r0.cfg with prep := true } } (fun t => decide (t.tre.xSh = [])) ∧
    responds (.treXdataWrite .sup 3 9) .sup .outOfRange (regs [(0x180028, 2)]) (fun t => decide (t.tre.xSh = [])) := by decide +kernel

/-- CFG_NEXT = 1, a calendar, time 1,000 s; CFG_AT the interval start 1,800; the CFG state given. -/
def cfgS (c : Cfg) (l : List (Nat × W32)) : State :=
  let g : List Byte := [0, 0, 0, 0, 1] ++ List.replicate 1200 0
  { regs ([(0x190004, 1), (0x190008, 1800), (0x190014, 5000)] ++ l) with
    cfg := c, tb := { r0.tb with a := { r0.tb.a with sec := 1000 } }, ldg := { r0.ldg with calCur := [⟨g⟩] } }
theorem test_arm : Reaches .sup 0x190010 r0 ∧ intervalOf (cfgS {} []).ldg.calCur 1800 = some 2 ∧ (intervalStart (cfgS {} []).ldg.calCur 2).map (·.1) = some 1800 ∧
    responds (.arm .sup 0) .sup .ok (cfgS {} []) (fun t => decide (t.cfg.armed = some (1, 1800 * 2 ^ 32))) ∧ responds (.arm .sup 1) .sup .ok (cfgS {} []) (fun t => decide (t.cfg.armed = some (1, 1800 * 2 ^ 32))) ∧
    responds (.arm .sup 2) .sup .ok (cfgS {} []) (fun t => decide (t.cfg.armed = some (1, 1005 * 2 ^ 32))) ∧ responds (.arm .sup 3) .sup .outOfRange (cfgS {} []) (fun t => decide (t.cfg.armed = none)) ∧
    responds (.arm .sup 2) .sup .retry (cfgS { armed := some (1, 0) } []) (fun t => decide (t.cfg.status = .retry)) ∧
    responds (.arm .sup 2) .sup .denied { cfgS {} [] with tre := { r0.tre with quar := true } } (fun t => decide (t.cfg.armed = none)) ∧
    responds (.arm .sup 1) .sup .outOfRange { cfgS {} [] with regs := [(0x190004, 1), (0x190008, 900), (0x190014, 5000)] } (fun t => decide (t.cfg.armed = none)) := by decide +kernel
/-- Armed for 1,005 s, participants 0 and 1; READY bits. -/
def armedS (prep : Bool) (rdy : BitVec 7) : State := cfgS { armed := some (1, 1000 * 2 ^ 32), prep := prep, ready := rdy } [(0x19001C, 3)]
theorem test_prepare : (armedS true 0).parts = [0, 1] ∧ (armedS true 0).partReady 0 = true ∧ gives .cfgPrepare (armedS false 0) (fun t => t.cfg.prep) ∧
    gives (.participantReady 0 (.ready 5)) (armedS true 0) (fun t => decide (t.cfg.ready = 1#7) && decide (t.cfg.digests = [(0, 5)])) ∧
    gives (.participantReady 1 (.refuse 0x0B)) (armedS true 0) (fun t => decide (t.cfg.refused = some 1)) ∧ responds (.cancel .sup) .sup .ok (armedS true 0) (fun t => decide (t.cfg.culprit = 0xFF)) ∧
    (cfgS { armed := some (1, 0), prep := true } [(0x19001C, 8)]).parts = [3] ∧ Reaches .sup 0x190020 r0 := by decide +kernel
theorem test_switch : gives .epochSwitch (armedS true 3) (fun t => decide (t.cfg.cur = 1) && decide (t.cfg.armed = none) && decide (t.cfg.status = .ok)) ∧
    gives .epochSwitch (armedS true 1) (fun t => decide (t.cfg.cur = 0) && decide (t.cfg.culprit = 1) && decide (t.cfg.status = .epochAbort)) ∧
    gives .epochSwitch (cfgS { armed := some (1, 1000 * 2 ^ 32), refused := some 4 } []) (fun t => decide (t.cfg.culprit = 4)) := by decide +kernel
/-- TWN enabled and the Spindle link up. -/
def twinUp : State := { regs [(0x170000, 0x80000000)] with spn := { r0.spn with link := true } }
theorem test_cfg_messages : twinUp.twinLink = true ∧ gives (.cfgMessageReceive (.arm 1 0x64)) twinUp (fun t => decide (t.cfg.armed = some (1, 0x64)) && decide (t.reg 0x190004 = 1)) ∧
    gives (.cfgMessageReceive (.ready 1 0x64 5)) twinUp (fun t => decide (t.cfg.twinReady = some (1, 0x64, 5))) ∧
    gives (.cfgMessageReceive (.abort 1)) { twinUp with cfg := { r0.cfg with armed := some (1, 0) } } (fun t => decide (t.cfg.armed = none) && decide (t.cfg.culprit = 6)) := by decide +kernel

/-! ## The twin pair (13_twin_pair.md) -/

/-- TWN enabled, LEASE 100 ms, the link up; state of TWN and of Spindle, edges since reset. -/
def tw (t : Twn) (p : Spn) (n : Nat) : State := { regs [(0x160004, 20), (0x170000, 0x850C8064)] with
  twn := t, spn := { p with link := true, lane0 := true, lane1 := true }, tb := { r0.tb with elapsed := n } }
def hbm (cp : BitVec 2) : HbMsg := { cpstate := cp, cur := 0, next := 0, custown := 5, ckNum := 0, jpos := 0 }
theorem test_spindle_link : (tw {} {} 0).twinLink = true ∧ gives .spindleLinkTrained r0 (fun t => t.spn.link && t.spn.lane0) ∧ gives (.spindleLaneDown true) (tw {} {} 0) (fun t => t.spn.lane0 && !t.spn.lane1 && t.spn.link) ∧
    gives .spindleHbSend (tw { cp := 0 } {} 0) (fun t => decide (t.spn.hbSent = some 0) && decide (t.out.length = 1)) ∧
    gives (.spindleHbReceive (hbm 0)) (tw {} {} 9) (fun t => decide (t.spn.hbAt = some 9) && t.twn.joining && t.twn.custmis && !t.twn.lost) := by decide +kernel
/-- What a device that starts hears of one that has run, and of one that starts too. -/
theorem test_first_heartbeat : hasRun 0 0 0 0 = false ∧ hasRun 4 3 0 0 = true ∧ hasRun 3 3 0 9 = true ∧
    gives (.spindleHbReceive { hbm 1 with jpos := 4 }) (tw { cp := 1 } {} 9) (fun t => t.twn.joining && t.twn.ceded && !t.twn.takeover) ∧
    gives (.spindleHbReceive (hbm 0)) (tw { cp := 1, jpos := 9 } { hbAt := some 0 } 9) (fun t => t.twn.joining) := by decide +kernel
/-- An own item in slot 0 of queue 8 of port 1, waiting for its match, with the FRAME that matches. -/
def ownI (settled : Bool) : OwnItem := ⟨8, 0, 1#512 <<< 128, 7, 2, 0, settled, false⟩
def frm : FrameMsg := { item := 1#512 <<< 128, prio := 0, psdu := [1, 2], digest := 7 }
def pairing (l : List OwnItem) : State := { tw {} { own := l } 0 with qm := { r0.qm with descs := [(8, { ring16 with cls := 0, unsettled := [0] })] } }
theorem test_pairing : (pairing [ownI false]).spn.own.find? (fun o => !o.settled && (pairing [ownI false]).pairs o frm) = some (ownI false) ∧ (pairing [ownI true]).pairs (ownI true) frm = true ∧
    gives (.spnFrameReceive frm) (pairing [ownI false]) (fun t => decide (t.spn.own = []) && decide ((t.desc 8).unsettled = [])) ∧ gives (.spnFrameReceive frm) (pairing []) (fun t => decide (t.spn.frames.length = 1)) ∧
    gives .pairwinExpiry { pairing [ownI false] with tb := { r0.tb with elapsed := 2500 } } (fun t => decide ((t.desc 8).unsettled = []) && decide (t.spn.own.map OwnItem.settled = [true])) := by decide +kernel
/-- The queue for mirrored blocks has a ring. -/
def mirror (b : BitVec 8) : State := { tw {} {} 0 with
  qm := { r0.qm with descs := [(0x56, { ring16 with cls := 0 }), (0x5E, { ring16 with cls := 0 })] }, afe := { r0.afe with points := [(3, { mbusy := b })] } }
theorem test_mirror : (mirror 0).qmAccess 0x56 = (true, mirror 0) ∧ (mirror 0).canPut 0x56 = true ∧ (mirror 0).canPut 0x5E = true ∧
    gives (.blockMessageReceive (.block 3 1 [] 0)) (mirror 2) (fun t => decide ((t.pt 3).lost = 1) && (t.pt 3).gap) ∧
    gives (.blockMessageReceive (.block 3 1 [] 0)) (mirror 0) (fun t => decide ((t.pt 3).mbusy = 2#8) && decide ((t.desc 0x56).tail = 1)) ∧ gives (.blockMessageReceive (.pulse 3 0)) (mirror 0) (fun t => decide ((t.desc 0x5E).tail = 1)) := by decide +kernel
theorem test_twin_loss : (tw { lost := false } { hbAt := some 0 } 37500).waiters = [] ∧ gives .twinLoss (tw { lost := false } { hbAt := some 0 } 37500) (fun t => t.twn.lost && t.twn.takeover && !t.spn.link && decide (t.epochOf 0x84 = 1)) := by decide +kernel
theorem test_lease : gives .leaseExpiry (tw { lease := some 9, cp := 0 } {} 9) (fun t => decide (t.twn.lease = none) && decide (t.twn.cp = 1#2)) ∧ 0 < (tw {} {} 0).leaseCounts := by decide +kernel
/-- A root device. -/
def root : State := { tw {} {} 0 with regs := [(0x170000, 0x850C8064), (0x180004, 0x200)] }
theorem test_host_lease : Reaches .host 0x170040 root ∧ root.role = 2 ∧ root.twinBit = 0 ∧ responds (.twnHlease .host 0x80) .host .ok root (fun t => decide (t.twn.wits = [(0x100, root.leaseCounts)]) && decide (t.twn.lease = some root.leaseCounts)) ∧
    responds (.twnHlease .sup 0x80) .sup .denied root (fun t => decide (t.twn.lease = none)) := by decide +kernel
theorem test_checkpoint : Reaches .sup 0x170008 (tw { cp := 0 } {} 0) ∧ responds (.ckpt .sup) .sup .ok (tw { cp := 0 } {} 9) (fun t => decide (t.twn.capNum = 1) && decide (t.twn.caps = [(1, 0)]) && decide (t.out.length = 1)) ∧
    responds (.handover .sup) .sup .ok (tw { cp := 0, lost := false } {} 9) (fun t => decide (t.twn.hand = some 1)) ∧ responds (.ckpt .sup) .sup .denied (tw { cp := 1 } {} 9) (fun t => decide (t.twn.caps = [])) ∧
    gives .checkpointCapture (tw { cp := 0, ckPer := 1 } {} 12500000) (fun t => decide (t.twn.capNum = 1)) := by decide +kernel
/-- A checkpoint of one byte. -/
def ckh (d : BitVec 384) : BitVec 1024 := 2#1024 ||| (1#1024 <<< 64) ||| (5#1024 <<< 128) ||| (d.setWidth 1024 <<< 256)
theorem test_checkpoint_receive : ((ckh (sha384v [9])).extractLsb' 64 64).toNat = 1 ∧ (ckh (sha384v [9])).extractLsb' 256 384 = sha384v [9] ∧
    gives (.checkpointReceive (ckh (sha384v [9])) [9]) (tw {} {} 0) (fun t => decide (t.twn.ck.map Ckpt.num = some 2) && decide (t.out = [.spnCkack 2])) ∧ gives (.checkpointReceive (ckh 0) [9]) (tw {} {} 0) (fun t => decide (t.twn.ck = none) && decide (t.out = [])) := by decide +kernel
theorem test_handover : (tw { caps := [(3, 5)] } {} 0).twn.caps.find? (fun p => decide (p.1 = 3#32)) = some (3, 5) ∧
    gives (.ckackReceive 3) (tw { cp := 0, hand := some 3, caps := [(3, 5)] } {} 0) (fun t => decide (t.twn.ackJpos = 5) && decide (t.twn.cp = 1#2)) ∧
    gives (.journalReceive [7]) (tw { cp := 1 } {} 0) (fun t => decide (t.twn.jpos = 7) && decide (t.out = [.spnJournalAck 7])) ∧ gives (.journalAck 7) (tw {} {} 0) (fun t => decide (t.twn.jack = 7)) ∧
    gives .promotion (tw { cp := 1, lease := some 9 } {} 0) (fun t => decide (t.twn.cp = 0#2) && decide (t.out = [])) := by decide +kernel
/-- A port whose neighbour 4, address 6, is loud on every tone; the device a Headstock, and a Tailstock with the neighbour alone. -/
def mapHead : State := { tw { cp := 0 } {} 20000000 with
  regs := [(0x100000, 0x80001234), (0x170000, 0x850C8064)]
  plc := [(0, { nbs := [(4, { valid := true, saddr := 6, toneHist := [List.replicate 36 63] })], sf := some (0, 0) })] }
def mapTail : State := { tw { cp := 1 } {} 9 with plc := [(0, { nbs := [(4, { valid := true, saddr := 6, curTm := 2 })] })] }
theorem test_map_journal : mapHead.twinLink = true ∧ gives (.toneMapRefresh ⟨0, false⟩ 4) mapHead (fun t => decide (t.twn.jpos = 1) && decide (t.twn.journal.length = 1) && decide (t.out.length = 2)) ∧
    gives (.journalReceive [mapEntry 0 4 6 false (3 :: packMap 14 (List.replicate 36 4#3))]) mapTail (fun t =>
      decide (((t.plcAt 0).nb 4).curTm = 3) && decide (((t.plcAt 0).nb 4).prevTm = 2) && decide (((t.plcAt 0).nb 4).curMap = List.replicate 36 4#3)) := by decide +kernel
/-- An entry of a checkpoint comes back with its maps. -/
def nbFull : PlcNb := { valid := true, saddr := 6, rxTm := 5, rxMap := List.replicate 36 2#3, seq := 7, seqAt := some 9, cls := 7 }
theorem test_neighbour_record : (((tw {} {} 9).nbRestore ((mapTail.setPlc 0 (nb6.setNb 4 nbFull)).nbRecord 0 4)).plcAt 0).nb 4 = nbFull := by decide +kernel
/-- A record of queue 9 with one output of pair sequence 5 and digest 9, of the current epoch and image; thread 0 runs its replay. -/
def rec5 : ReplayRec := ⟨7, 9, [], [], [(5#48, 9)], 0, 0⟩
def recS : State := tw { replays := [rec5] } {} 0
def repS : State := recS.replayRun 0 5#48 rec5
/-- A request of kind 0x7F2 for a pair sequence. -/
def rplPoint : W32 := 0x7F2#32 <<< 21
theorem test_replay_request : rplPoint.toNat / 2 ^ 21 = 0x7F2 ∧ recS.replayOf 5#48 = some rec5 ∧ recS.replayOf 6#48 = none ∧
    gives (.replayRequest rplPoint 5) recS (fun t => decide (t.out = []) && decide ((t.thread 0).rpl = some (5#48, rec5)) && decide ((t.thread 0).getG 1 = 9)) ∧
    gives (.replayRequest rplPoint 6) recS (fun t => decide (t.out = [.replayAnswer 6 0 0 .stale])) ∧ becomes (.replayRequest 0 5) recS recS ∧
    gives (.replayRequest rplPoint 5) { recS with regs := (0x090000, 0) :: recS.regs, sec := { r0.sec with fail := true } } (fun t => decide (t.twn.rplWait = [5#48])) := by decide +kernel
theorem test_replay_end : (repS.replayEnd 0 5#48 rec5 (some 9)).out = [.replayAnswer 5 9 9 .ok] ∧ (repS.replayEnd 0 5#48 rec5 (some 8)).twn.selfflt = true ∧ (repS.replayEnd 0 5#48 rec5 none).twn.cp = 3#2 ∧
    gives (.tcommit ⟨.thread 0, 0, false⟩) repS (fun t => decide (t.out = [.replayAnswer 5 9 0 .integrity]) && decide ((t.thread 0).st = .free)) := by decide +kernel
theorem test_stream : gives (.streamReceive (.line 64 (List.replicate 64 5))) (tw { joining := true } {} 0) (fun t => decide (t.ramByte 64 = 5)) ∧
    gives (.streamReceive (.work [] [] [(3, 1, 4, 5)] [] [])) (tw { joining := true } {} 0) (fun t => decide (t.bal.states = [(3, 1, 4, 5)])) ∧ becomes (.streamReceive (.line 64 [5])) (tw {} {} 0) (tw {} {} 0) ∧ gives .streamEndMarker (tw { joining := true } {} 0) (fun t => t.twn.twinup && !t.twn.joining) ∧
    gives .streamTimeout (tw { joining := true, streamAt := some 0 } {} 7500000000) (fun t => decide (t.twn.streamAt = some 7500000000)) := by decide +kernel

/-! ## Vault and updates (14_vault.md, 15_updates.md) -/

/-- The SEC unit in a given state. -/
def sec (x : Sec) : State := { regs [(0x1A01A0, 0), (0x1A01A4, 0)] with sec := x }
theorem test_measure : Reaches .sup 0x1A00B0 (sec {}) ∧ (sec {}).secure .sup = true ∧ (sec {}).secure (.thread 40) = false ∧
    responds (.secMrext .sup 0) .sup .ok (sec {}) (fun t => decide (t.sec.mr 0 = sha384v (List.replicate 96 0)) && decide (t.sec.mr 1 = 0)) ∧
    responds (.secMrext .sup 0) .sup .denied (sec { stage := 1 }) (fun t => decide (t.sec.mr 0 = 0)) ∧ responds (.secMrext (.thread 40) 7) (.thread 40) .denied (sec {}) (fun t => decide (t.sec.mr 7 = 0)) := by
  decide +kernel
theorem test_attest_hypotheses : Reaches (.thread 40) 0x1A0180 (sec {}) ∧ (sec {}).reg2 0x1A01A4 % 8 = 0 ∧ (sec { att := some (.sup, 0, [1]) }).sec.att ≠ none ∧
    responds (.secAtcmd (.thread 40) 1) (.thread 40) .ok (regs [(0x1A01A4, 4)]) (fun t => decide (t.sec.attStatus = .outOfRange) && decide (t.sec.att = none)) ∧
    responds (.secAtcmd (.thread 40) 1) (.thread 40) .retry (sec { att := some (.sup, 0, [1]) }) (fun t => decide (t.sec.attStatus = .retry)) := by decide +kernel
/-- A statement that waits at 8 bytes below 512, or above the capacity. -/
def attS (a : Nat) : State := sec { att := some (.thread 40, a, [1, 2, 3]) }
theorem test_attestation : (attS 504).fencedInit (.thread 40) = false ∧ (attS 504).ramWriteRight (.thread 40) 504 3 = .ok ∧ (attS 504).partialBad 504 3 = false ∧
    gives .attestationDone (attS 504) (fun t => decide (t.ramByte 506 = 3) && decide (t.sec.att = none) && decide (t.sec.attStatus = .ok)) ∧ (attS 0x400000000).ramWriteRight (.thread 40) 0x400000000 3 ≠ .ok ∧
    gives .attestationDone (attS 0x400000000) (fun t => decide (t.sec.attStatus = .denied) && decide (t.mem.dram = [])) := by decide +kernel
/-- OTP is programmed for a close of thread 40 that waits. -/
def otpS : State := { sec { otp := some (.thread 40, []) } with ge := { (t40 0 0 9).ge with threads := (r0.setThread 40 { worker 1 2 9 with st := .waitClose 3 }).ge.threads } }
theorem test_otp_done : (otpS.thread 40).st = .waitClose 3 ∧ gives .otpProgrammingDone otpS (fun t => decide (t.sec.otp = none) && decide ((t.thread 40).st = .running) && decide ((t.thread 40).getG 3 = 0)) := by
  decide +kernel

/-- Images of cluster 1 active and kept, and UPD in a given state besides. -/
def im (b : Byte) : Img := ⟨1, 0, [b]⟩
def upd (u : Upd) : State := { r0 with upd := u }
theorem test_upd_cmd : Reaches .sup 0x1B0008 r0 ∧ responds (.huskVerify .sup true) .sup .ok (regs [(0x1B0000, 64)]) (fun t => decide (t.upd.busy = some (64, true))) ∧
    responds (.huskVerify .sup true) .sup .retry (upd { hand := some (0, 2, 0, false) }) (fun t => decide (t.upd.busy = none)) ∧ responds (.discard (.thread 40) 3 2) (.thread 40) .denied r0 (fun t => decide (t.upd = r0.upd)) := by decide +kernel
theorem test_upd_busy : (upd { busy := some (0, false) }).upd.busy ≠ none ∧ (upd { busy := some (0, false) }).upd.hand = none ∧ Reaches .sup 0x1B0008 (upd { busy := some (0, false) }) := by decide +kernel
theorem test_discard_revert : responds (.discard .sup 3 2) .sup .ok (upd { staged := [(1, some (im 7)), (2, some (im 8))] }) (fun t => decide (t.stagedImg 1 = none) && decide (t.stagedImg 2 = some (im 8))) ∧
    responds (.discard .sup 5 2) .sup .outOfRange (upd { staged := [(1, some (im 7))] }) (fun t => decide (t.stagedImg 1 = some (im 7))) ∧ kindKeys 3 2 = [1] ∧ (upd { kept := [(1, some (im 7))] }).tre.quar = false ∧
    responds (.revert .sup 3 2 false) .sup .ok (upd { kept := [(1, some (im 7))] }) (fun t => decide (t.stagedImg 1 = some (im 7))) ∧
    responds (.revert .sup 3 2 false) .sup .denied { upd { kept := [(1, some (im 7))] } with tre := { r0.tre with quar := true } } (fun t => decide (t.stagedImg 1 = none)) := by decide +kernel
theorem test_handover_hypotheses : (upd { hand := some (1, 2, 5, false), staged := [(1, some (im 7))] }).drained 1 = true ∧ (upd { hand := some (1, 2, 5, false), staged := [(1, some (im 7))] }).upd.loadfail = false ∧
    gives (.handoverDrainEnd 0) (upd { hand := some (1, 2, 5, false), gated := true, staged := [(1, some (im 7))], active := [(1, some (im 6))] })
      (fun t => decide (t.activeImg 1 = some (im 7)) && decide (t.keptImg 1 = some (im 6)) && !t.upd.gated && decide (Tab.get 0 t.ge.store 0x40000 = 7)) ∧
    gives (.handoverDrainEnd 2) (upd { hand := some (1, 2, 5, false), gated := true, staged := [(1, some (im 7))] }) (fun t => t.upd.loadfail && decide (t.upd.parked = 2) && t.upd.gated) ∧
    gives .drainwarnExpiry { upd { hand := some (1, 2, 5, false) } with regs := [(0x1B0010, 1)], tb := { r0.tb with elapsed := 125005 } } (fun t => decide (t.upd.hand = some (1, 2, 5, true))) := by decide +kernel

/-- A Husk of a push payload of one byte 0x2A, version 1.3, signed with key 1 (nonce 1), whose public key is the base point. -/
def pubK : List Byte := bytesOfBE 48 p384G.1 ++ bytesOfBE 48 p384G.2
def hdrK : List Byte := bytesOfNat 4 0x4B535548 ++ [1, 0x10, 0, 2] ++ bytesOfNat 2 0x0103 ++ List.replicate 4 0 ++ [0x10, 0] ++ bytesOfNat 4 1 ++ bytesOfNat 4 1 ++ List.replicate 28 0 ++
  bytesOfBE 48 0xf5b83d3f4bd3c29cfc2f499f883a7ae98d6c8fad2ff8b82b2ca7d2f163968ec5ed1abc31a618d82fbc61042632e2c7c6 ++ List.replicate 48 0 ++ pubK ++ List.replicate 12 0
def sigK : List Byte := bytesOfBE 48 (p384G.1 % p384N) ++ bytesOfBE 48 0x6915fc7e2f90d9e8317101e89fdba9121ec1f2544950c898dbe5ff6221ab1899dd4e8abaef11e57cabdeaa015abff89c
def huskK : Husk := ⟨hdrK, [0x2A], sigK⟩
def slotK : Slot := { key := packBytes 256 ((sha384 pubK).take 32), policy := 0x30000000, commit := true, prog := true }
/-- The Husk at address 64, slot 2 active with its signer, and UPD told to verify. -/
def huskS : State := { r0 with
  mem := { r0.mem with dram := ((List.range' 64 353).zip (hdrK ++ [0x2A] ++ sigK)).filter (fun p => decide (p.2 ≠ 0)) }
  upd := { r0.upd with busy := some (64, false) }
  sec := { r0.sec with slots := [(2, { slotK with tag := r0.sec.tagOf 2 slotK })] } }
/-- A slot programmed with its tag is ACTIVE. -/
theorem slot_with_its_tag (x : Sec) (k : Nat) (hv : (x.slot k).tag = x.tagOf k (x.slot k)) (hb : (x.slot k).bad = false) (hp : (x.slot k).prog = true)
    (hc : (x.slot k).commit = true) (hr : (x.slot k).retire = false) : x.slotState k = .active := by
  simp [Sec.slotState, hv, hb, hp, hc, hr]
theorem test_slot_active : huskS.sec.slotState 2 = .active := slot_with_its_tag huskS.sec 2 rfl rfl rfl rfl rfl
theorem test_husk_header : huskS.unitRead 64 256 = (.ok, hdrK) := by decide +kernel
theorem test_husk_rest : huskS.unitRead 320 97 = (.ok, [0x2A] ++ sigK) := by decide +kernel
theorem test_husk_length : huskLen hdrK = 1 := by decide +kernel
theorem husk_read (s : State) (a n : Nat) (hdr rest : List Byte) (h : s.unitRead a 256 = (.ok, hdr)) (hn : huskLen hdr = n)
    (hr : s.unitRead (a + 256) (n + 96) = (.ok, rest)) : s.huskRead a = (.ok, ⟨hdr, rest.take n, rest.drop n⟩) := by
  simp [State.huskRead, State.huskRest, h, hn, hr]
theorem test_husk_read : huskS.huskRead 64 = (.ok, huskK) := husk_read huskS 64 1 hdrK ([0x2A] ++ sigK) test_husk_header test_husk_length test_husk_rest
theorem test_husk_accepted : huskS.huskHead huskK false = .ok := by
  simp only [State.huskHead, show huskK.signer = 2 from by decide +kernel, test_slot_active]
  decide +kernel
theorem test_husk_image : huskS.huskImage huskK = ((.ok, [0x2A]), huskS) := by
  have e : huskK.enc = false := by decide +kernel
  have d : huskK.delta = false := by decide +kernel
  have h : sha384 [0x2A#8] = (huskK.hdr.drop 52).take 48 := by decide +kernel
  have o : imageOk huskK.kind [0x2A#8] = true := by decide +kernel
  have b : huskK.body = [0x2A] := rfl
  simp [State.huskImage, e, d, o, b, h]
theorem test_husk_kind : huskK.kind ≠ 1 ∧ kindKeys huskK.kind huskK.target = [5] := by decide +kernel
/-- The same Husk with another magic word. -/
theorem test_husk_refused : huskS.huskHead { huskK with hdr := 0 :: hdrK.tail } false = .outOfRange := by decide +kernel

/-! ## Storage (16_storage.md) -/

/-- A command item in NFT_CMDQ 0x2000 at 0x800000, completions to 0x2001 at 0x1000000; four working dies in one group. -/
def nCmd (op vol count sector buf : Nat) : Item := BitVec.ofNat 512 (0x55 + (op + vol * 2 ^ 8 + count * 2 ^ 16 + sector * 2 ^ 32 + buf * 2 ^ 64) * 2 ^ 320)
def nftS (n : Nft) (x : Item) : State :=
  let s := regs [(0x1D0004, 0xA02), (0x1D000C, 1000), (0x1D0020, 0x2000), (0x1D0024, 0x2001)]
  let s := { s with
    nft := { n with ready := true, geom := 0x00111004, vsize := [(1, 100)], dies := [0, 1, 2, 3].map (fun d => (d, { spare := 10, spare0 := 10, state := 1 })) }
    qm := { s.qm with descs := [(0x2000, { pullD with cls := 4 }), (0x2001, ring16)] } }
  s.ramPut pullD.ring (bytesOf 64 x)
/-- A page of sector 3 of volume 1, and the stripe it lies in. -/
def page3 : NPage := ⟨some (2 ^ 32 + 3), [9], 0⟩
def openS : Nft := { nextId := 1, stripes := [(0, { pages := [page3] })] }
def taken (x : Item) : Option Ret := some ⟨0, 0, x, false⟩
theorem test_nand_ready : (nftS openS (nCmd 1 1 1 3 0x40000)).nftOn = true ∧ (nftS openS (nCmd 1 1 1 3 0x40000)).headItem 0x2000 = taken (nCmd 1 1 1 3 0x40000) ∧
    ((nftS openS (nCmd 1 1 1 3 0x40000)).hwTake 0x2000).1 = some (nCmd 1 1 1 3 0x40000) ∧ (nftS openS (nCmd 1 1 1 3 0x40000)).nandFormOk (nCmd 1 1 1 3 0x40000) = true ∧
    nOp (nCmd 1 1 1 3 0x40000) = 1 ∧ (nftS openS (nCmd 1 1 1 3 0x40000)).nftGroups = 1 := by decide +kernel
theorem test_nand_read : gives .nandRead (nftS openS (nCmd 1 1 1 3 0x40000)) (fun t => decide (t.nft.cmds.map NCmd.data = [[[9]]])) ∧
    gives .nandRead (nftS { readonly := true } (nCmd 1 1 2 99 0x40000)) (fun t => decide (t.nft.cmds = []) && decide ((t.desc 0x2001).tail = 1)) := by decide +kernel
/-- A WRITE of sector 3 from zeros at 0x40000. -/
def writeS : State := nftS openS (nCmd 2 1 1 3 0x40000)
theorem test_nand_write : writeS.headItem 0x2000 = taken (nCmd 2 1 1 3 0x40000) ∧ (writeS.hwTake 0x2000).1 = some (nCmd 2 1 1 3 0x40000) ∧ writeS.nandFormOk (nCmd 2 1 1 3 0x40000) = true ∧
    nOp (nCmd 2 1 1 3 0x40000) = 2 ∧ writeS.nft.dones = [] ∧ (((writeS.hwTake 0x2000).2).unitRead 0x40000 4096).1 = .ok ∧ ∀ e ∈ writeS.nft.stripes, ∀ p ∈ e.2.pages, p.cmd < writeS.nft.nextId := by decide +kernel
theorem test_nand_readonly : gives .nandWrite { writeS with nft := { writeS.nft with readonly := true } } (fun t => decide (t.nft.stripes = writeS.nft.stripes) && decide ((t.desc 0x2001).tail = 1)) ∧
    gives .trim { nftS openS (nCmd 3 1 1 3 0) with nft := { (nftS openS 0).nft with readonly := true } } (fun t => decide (t.nft.stripes = openS.stripes) && decide ((t.desc 0x2001).tail = 1)) := by decide +kernel
theorem test_trim : (nftS openS (nCmd 3 1 1 3 0)).nandFormOk (nCmd 3 1 1 3 0) = true ∧ ((nftS openS (nCmd 3 1 1 3 0)).hwTake 0x2000).1 = some (nCmd 3 1 1 3 0) ∧ nKeys (nCmd 3 1 1 3 0) = [2 ^ 32 + 3] ∧
    gives .trim (nftS openS (nCmd 3 1 1 3 0)) (fun t => decide ((t.stripe 0).pages.map NPage.key = [none]) && decide ((t.desc 0x2001).tail = 1)) := by decide +kernel
theorem test_flush_hypotheses : (nftS openS (nCmd 4 0 0 0 0)).nandFormOk (nCmd 4 0 0 0 0) = true ∧ (nftS openS (nCmd 4 0 0 0 0)).headItem 0x2000 = taken (nCmd 4 0 0 0 0) ∧ ((nftS openS (nCmd 4 0 0 0 0)).hwTake 0x2000).1 = some (nCmd 4 0 0 0 0) := by decide +kernel
/-- A READ of one sector taken before. -/
def readC : NCmd := { id := 0, agent := none, item := nCmd 1 1 1 3 0x40000, data := [List.replicate 4096 7] }
def deliverS : State := { nftS { openS with cmds := [readC] } 0 with hst := { r0.hst with link := true } }
theorem test_read_done_first : deliverS.nft.cmds.find? (fun c => decide (nOp c.item = 1)) = some readC := by
  rw [show deliverS.nft.cmds = [readC] from rfl]
  exact List.find?_cons_of_pos (by decide +kernel)
theorem test_read_done_queue : deliverS.qmAccess 0x2001 = (true, deliverS) := by
  unfold State.qmAccess
  exact if_neg (by decide +kernel)
theorem test_read_done_hypotheses : readC.data.length = nCount readC.item ∧ nBuf readC.item % 64 = 0 ∧ deliverS.canPut 0x2001 = true ∧ (deliverS.desc 0x2001).slotAddr (deliverS.desc 0x2001).tail = 0x1000000 := by
  decide +kernel
theorem test_read_done_right : deliverS.ramWriteRight (.hw 12) 0x40000 4096 = .ok ∧ ∀ d ∈ readC.data, d.length = 4096 := by decide +kernel
theorem test_stripe_hypotheses : (nftS openS 0).nftOn = true ∧ ((nftS openS 0).stripe 0).pages ≠ [] ∧ { nftS openS 0 with tb := { r0.tb with elapsed := 250000 } }.past ((nftS openS 0).stripe 0).at_ (((nftS openS 0).stripe 0).close * 125000) = true ∧
    ((nftS openS 0).stripe 0).pages.reverse.find? (fun p => decide (p.key = some (2 ^ 32 + 3))) = some page3 := by decide +kernel
theorem test_die_failure : ((nftS openS 0).die 2).state = 1 ∧ gives (.dieFailure 2) (nftS openS 0) (fun t => decide ((t.die 2).state = 2) && t.nft.degraded && t.nft.readonly) ∧
    gives .rebuildDone { nftS openS 0 with nft := { (nftS openS 0).nft with degraded := true } } (fun t => !t.nft.degraded) ∧
    gives .mapCheckpoint { nftS openS 0 with tb := { r0.tb with elapsed := 600 * 125000000 } } (fun t => decide (t.nft.ckAt = 600 * 125000000)) ∧
    r0.dramOn = true ∧ r0.nft.ready = false ∧ gives .nftMapLoaded r0 (fun t => t.nft.ready && decide (t.nft.ckPer = 10)) := by decide +kernel
theorem test_format : Reaches .sup 0x1D0000 r0 ∧ responds (.nftFormat .sup 4) .sup .denied r0 (fun t => decide (t.nft = r0.nft)) ∧ responds (.nftFormat .sup 0x80110004) .sup .retry { r0 with nft := { r0.nft with cmds := [readC] } } (fun t => decide (t.nft.geom = 4)) ∧
    (0x80110404 : W32).getLsbD 31 = true ∧ r0.nft.cmds = [] ∧ (r0.desc ((r0.reg 0x1D0020).extractLsb' 0 16).toNat).depth = 0 ∧ (0x80170404 : W32).extractLsb' 20 4 &&& ~~~((caps1 r0.sys.variant).extractLsb' 20 4) = 0#4 ∧
    geomWidth 0x00170404 = 4 ∧ geomDies 0x00170404 = 8 := by decide +kernel

theorem test_line : r0.dramOn = true ∧ r0.ramFrozen 64 64 = false ∧ r0.lineGate .sup false 64 64 = .ok ∧ r0.poisoned 1 = false ∧ responds (.dramLineRead .sup 1 .oneBit) .sup .ok r0 (fun t => decide (t.mem.corr = 1)) ∧
    responds (.dramLineRead .sup 1 .many) .sup .integrity r0 (fun t => t.poisoned 1 && !t.poisoned 2) ∧ (r0.poisonLine 1).poisoned 1 = true ∧ responds (.dramLineRead .sup 1 .clean) .sup .integrity (r0.poisonLine 1) (fun t => t.poisoned 1) ∧
    r0.lineGate .host false 64 64 ≠ .ok ∧ responds (.dramLineRead .host 1 .clean) .host .denied linkUp (fun t => decide (t.hst.errlog = [(64, .denied, agHost)])) := by decide +kernel
theorem test_line_write : r0.lineGate .sup true 64 64 = .ok ∧ responds (.dramLineWrite .sup 1 0x5) .sup .ok (r0.poisonLine 1) (fun t => !t.poisoned 1 && decide (t.ramByte 64 = 5)) ∧ r0.lineGate .host true 64 64 ≠ .ok ∧
    responds (.dramLineWrite .host 1 0x5) .host .denied linkUp (fun t => decide (t.ramByte 64 = 0)) := by decide +kernel
/-- The host's window 0 open for writes onto the first 16 MiB. -/
def win0 : State := { regs [(0x1E0010, 0xC0000000)] with hst := { r0.hst with link := true } }
theorem test_partial_write : win0.lineGate .host true 68 2 = .ok ∧ r0.lineGate .sup true 68 2 = .ok ∧ responds (.dramPartialWrite .sup 1 4 [5, 6] .clean) .sup .ok r0 (fun t => decide (t.ramByte 69 = 6)) ∧
    responds (.dramPartialWrite .sup 1 4 [5, 6] .many) .sup .integrity r0 (fun t => t.poisoned 1 && decide (t.ramByte 69 = 0)) ∧ gives (.dramPartialWrite .host 1 4 [5, 6] .clean) win0 (fun t => decide (t.ramByte 69 = 6)) ∧
    gives (.dramPartialWrite .host 1 4 [5, 6] .many) win0 (fun t => t.poisoned 1 && decide (t.mem.pwdrop = 1)) := by decide +kernel
def scrubS : State := regs [(0x1C0008, 0x80000018)]
theorem test_scrub : gives (.scrubLine 1 .many false) scrubS (fun t => t.poisoned 1 && t.mem.scrubon) ∧ gives (.scrubLine 1 .many true) scrubS (fun t => !t.poisoned 1 && t.mem.scrubon) ∧ 128 ≤ scrubS.usable ∧
    Reaches .sup 0x1C0008 r0 ∧ responds (.memScrubWrite .sup 0x18) .sup .ok scrubS (fun t => decide (t.reg 0x1C0008 = 0x18) && !t.mem.scrubon) ∧
    responds (.memScrubWrite .sup 0x800000A9) .sup .outOfRange scrubS (fun t => decide (t.reg 0x1C0008 = 0x80000018)) := by decide +kernel

/-! ## Power, resets and the backup domain (17_power_backup.md, 20_registers.md) -/

/-- PWR in a given state. -/
def pw (p : Pwr) : State := { r0 with pwr := p }
theorem test_power_command : Reaches .spi 0x010000 (pw {}) ∧ responds (.retention .spi) .spi .ok (pw {}) (fun t => t.pwr.busy && decide (t.pwr.target = 3) && decide (t.pwr.gate = 0xF)) ∧
    responds (.economy .spi) .spi .ok (pw { state := 1 }) (fun t => !t.pwr.busy && decide (t.pwr.state = 1)) ∧ responds (.run .sup) .sup .denied (pw {}) (fun t => decide (t.pwr = {})) ∧
    responds (.offWithBackup .spi) .spi .retry (pw { busy := true, target := 1 }) (fun t => decide (t.pwr.target = 1) && decide (t.pwr.status = .retry)) := by decide +kernel
/-- A transition to P3 under way with its clusters drained. -/
def toP3 : State := { pw { busy := true, target := 3, gate := 0xF } with hst := { r0.hst with link := true }, eth := [(2, { link := true })] }
theorem test_transition : toP3.pwrDrained = true ∧ gives .pwrTransitionDone toP3 (fun t => decide (t.pwr = { state := 3, target := 3, parked := 0xF }) && !t.hst.link && !(t.ethAt 2).link && decide (t.epochOf 0x81 = 1)) ∧
    gives (.mainSupplyLost 2) r0 (fun t => !t.pwr.mainOn && decide (t.sys.cause = 5) && decide (t.evr.pend = 0x10)) := by decide +kernel
theorem test_cold_reset : r0.sec.otp = none ∧ gives .coldReset { pw { state := 2 } with evr := { r0.evr with opsec := 7 }, ge := (t40 1 2 3).ge }
    (fun t => decide (t.evr.pwrcyc = 1) && decide (t.evr.opsec = 7) && decide (t.pwr = {}) && decide ((t.thread 40).st = .free) && t.sec.fail) := by decide +kernel
theorem test_warm_reset : gives .warmReset { t40 1 2 3 with regs := [(0x010008, 5), (0x080000, 9)], ord := { r0.ord with fences := [7] } }
    (fun t => decide ((t.thread 40).st = .free) && decide (t.epochOf 40 = 1) && decide (t.epochOf 0x85 = 1) && decide (t.reg 0x080000 = 0) && decide (t.reg 0x010008 = 5) && decide (t.sys.cause = 3) && t.fencedAg 7) := by decide +kernel
theorem test_pcie_reset : gives .pcieReset linkUp (fun t => !t.hst.link && decide (t.epochOf 0x81 = 1) && decide (t.regs = parked)) := by decide +kernel

/-- The event recorder in a given state. -/
def ev (e : Evr) : State := { r0 with evr := e }
theorem test_battery : gives (.vbatLow 2300) (ev { vbatlow := true }) (fun t => !t.evr.vbatlow && decide (t.evr.vbat = 2300)) ∧ gives (.vbatLow 2100) r0 (fun t => t.evr.vbatlow && decide (t.evr.pend = 8)) ∧
    gives .backupDomainStop { ev { vbat := 1900, rtcv := true } with pwr := { mainOn := false } } (fun t => !t.evr.running && !t.evr.rtcv) ∧ gives .backupSupplyReturn (ev { running := false }) (fun t => t.evr.running && !t.evr.rtcv) ∧
    gives (.operatingSecond true) (ev { rtcv := true, rtcSec := 5, opsec := 8 }) (fun t => decide (t.evr.rtcSec = 6) && decide (t.evr.opsec = 9)) ∧ gives (.operatingSecond false) (ev { rtcSec := 5, opsec := 8 }) (fun t => decide (t.evr.rtcSec = 5) && decide (t.evr.opsec = 8)) := by
  decide +kernel
/-- Stamps are valid: both domains of class 12, the selected one agreeing. -/
def sharp : State := { r0 with tb := { r0.tb with a := { r0.tb.a with cls := 12 }, b := { r0.tb.b with cls := 12 } } }
theorem test_rtc_set : Reaches .sup 0x07000C r0 ∧ r0.tinv = true ∧ sharp.tinv = false ∧ responds (.evrRtcset .sup 1) .sup .ok sharp (fun t => t.evr.rtcPend) ∧ responds (.evrRtcset .sup 1) .sup .retry r0 (fun t => !t.evr.rtcPend) ∧
    responds (.evrRtcset .host 1) .host .denied sharp (fun t => !t.evr.rtcPend) ∧ responds (.evrAlertWrite .sup 0x1F0003) .sup .ok (ev { pend := 7 }) (fun t => decide (t.evr.pend = 4) && decide (t.reg 0x070008 = 0x1F0000)) ∧
    responds (.evrAlertWrite .spi 3) .spi .denied (ev { pend := 7 }) (fun t => decide (t.evr.pend = 7)) ∧
    gives .rtcSetApply { ev { rtcPend := true } with tb := { r0.tb with elapsed := 1, a := { r0.tb.a with sec := 99, carry := true } } } (fun t => t.evr.rtcv && decide (t.evr.rtcSec = 99) && !t.evr.rtcPend) := by decide +kernel
theorem test_tamper : gives (.tamperInputChange .seal true) r0 (fun t => t.evr.sealLow && decide (t.evr.tcnt2 = 1) && decide (t.evr.pend = 2)) ∧ gives (.tamperInputChange .cover true) r0 (fun t => decide (t.evr.tcnt0 = 1) && decide (t.evr.pend = 1)) ∧
    gives (.tamperInputChange .magnet true) r0 (fun t => decide (t.evr.tcnt1 = 1) && decide (t.evr.pend = 4)) ∧ gives (.tamperInputChange .seal false) (ev { sealLow := true }) (fun t => !t.evr.sealLow && decide (t.evr.tcnt2 = 0)) := by decide +kernel
/-- A bucket of code 0x0201 with 2 records suppressed. -/
def bk : Bucket := { code := 0x0201, tokens := 3, supp := 2 }
theorem test_token : (ev { buckets := [bk] }).evr.buckets.find? (fun b => decide (b.code = 0x0201)) = some bk ∧ ((ev { buckets := [bk] }).rateOf 0x0201).1 ≠ 0 ∧
    gives (.tokenRefill 0x0201) (ev { buckets := [bk] }) (fun t => decide (t.evr.buckets = [{ bk with tokens := 4, supp := 0 }]) && decide (t.evr.total = 1)) := by decide +kernel
theorem test_override : Reaches .sup 0x07003C r0 ∧ responds (.evrRldataWrite .sup 0x02010508) .sup .ok r0 (fun t => decide (t.evr.rl = [(0, 0x02010508)])) ∧ responds (.evrRldataWrite .sup 0x02010508) .sup .denied (ev { rl := [(3, 0x02010101)] }) (fun t => decide (t.evr.rl.length = 1)) ∧
    responds (.evrRldataWrite .sup 0x0201F108) .sup .outOfRange r0 (fun t => decide (t.evr.rl = [])) ∧ responds (.evrRldataWrite .sup 0) .sup .ok (ev { rl := [(0, 0x02010101)] }) (fun t => decide (t.evr.rl = [])) := by decide +kernel
theorem test_freeze : Reaches .sup 0x070024 r0 ∧ responds (.evrFreeze .sup) .sup .ok r0 (fun t => decide (t.evr.frozen = some (0x80, 0, 0))) ∧ responds (.evrFreeze .host) .host .retry (ev { frozen := some (0x80, 0, 0) }) (fun t => decide (t.evr.frozen = some (0x80, 0, 0))) ∧
    responds (.evrRelease .host) .host .denied (ev { frozen := some (0x80, 0, 0) }) (fun t => t.evr.frozen.isSome) ∧ responds (.evrRelease .sup) .sup .ok (ev { frozen := some (0x80, 0, 0), hold := [0], dropped := 2 }) (fun t => t.evr.frozen.isNone && t.evr.hold.isEmpty) ∧
    responds (.evrFreeze .spi) .spi .denied r0 (fun t => t.evr.frozen.isNone) ∧ gives .freezeTimeout { ev { frozen := some (0x80, 0, 0) } with regs := [(0x070028, 10)], tb := { r0.tb with elapsed := 1250000 } } (fun t => t.evr.frozen.isNone && decide (t.evr.total = 1)) := by
  decide +kernel
theorem test_copy_command : Reaches .sup 0x070034 r0 ∧ responds (.evrCpycmd .sup 2) .sup .ok (regs [(0x07002C, 0x1000)]) (fun t => decide (t.evr.copy = some (2, 0x1000, .sup))) ∧ responds (.evrCpycmd .sup 3) .sup .denied r0 (fun t => t.evr.copy.isNone) ∧
    responds (.evrCpycmd .sup 0) .sup .outOfRange (regs [(0x07002C, 0x1004)]) (fun t => t.evr.copy.isNone) ∧ responds (.evrCpycmd .sup 0) .sup .retry (ev { copy := some (1, 0, .sup) }) (fun t => decide (t.evr.copy = some (1, 0, .sup))) ∧
    (ev { copy := some (0, 64, .host) }).ramGate .host true 0x400000000 64 ≠ .ok ∧ gives .areaCopyDone (ev { copy := some (0, 0x400000000, .host) }) (fun t => t.evr.copy.isNone && decide (t.evr.cpyStat = .denied)) := by decide +kernel
/-- An area copy of the supervisor's, and why its lines may be written: every region lies above them. -/
def copyS : State := ev { copy := some (0, 64, .sup) }
theorem no_region (a b n : Nat) (h : a < b) : inRegion a b n = false := by simp [inRegion, Nat.not_le.mpr h]
theorem copy_bases : copyS.ccBase = 0x200000000 ∧ copyS.reg2 Reg.afeBlkbase = 0x330000000 ∧ copyS.reg2 Reg.flwTblbase = 0x320000000 ∧ copyS.reg2 Reg.secKtbase = 0x340000000 ∧
    copyS.reg2 Reg.ldgPtbase = 0x300000000 ∧ copyS.reg2 Reg.ldgPwbase = 0x310000000 := by decide +kernel
theorem copy_unit (k : Nat) (h : k < 0x10000000) : copyS.unitOnly k = false := by
  obtain ⟨h1, h2, h3, h4, -, -⟩ := copy_bases
  simp [State.unitOnly, h1, h2, h3, h4, State.inWork, State.inMirror, show copyS.bal.given = false from rfl, show copyS.twn.mirGiven = false from rfl,
    no_region k _ _ (show k < 0x200000000 by omega), no_region k _ _ (show k < 0x330000000 by omega), no_region k _ _ (show k < 0x320000000 by omega),
    no_region k _ _ (show k < 0x340000000 by omega)]
theorem copy_ledger (k : Nat) (h : k < 0x10000000) : copyS.inLedger k = false ∧ copyS.inSums k = false := by
  obtain ⟨-, -, -, -, h5, h6⟩ := copy_bases
  simp [State.inLedger, State.inSums, h5, h6, no_region k _ _ (show k < 0x300000000 by omega), no_region k _ _ (show k < 0x310000000 by omega)]
theorem test_copy_gates (a : Nat) (h : a + 64 ≤ 0x10000000) : copyS.ramGate .sup true a 64 = .ok := by
  have u : ¬ copyS.usable < a + 64 := by
    rw [show copyS.usable = 0x78000000 from by decide +kernel]
    omega
  have v : (List.range 64).any (fun k => copyS.unitOnly (a + k) || (copyS.inLedger (a + k) && !Init.sup.heartwood
      && !(copyS.ldg.restore && (decide (Init.sup = .sup) || decide (Init.sup = .hw 12)) && decide (a % 64 = 0) && decide (64 % 64 = 0)))
      || copyS.inSums (a + k)) = false := by
    refine List.any_eq_false.mpr fun k hk => ?_
    have := List.mem_range.mp hk
    simp [copy_unit (a + k) (by omega), copy_ledger (a + k) (by omega)]
  have w : copyS.lockStops .sup a 64 = false := List.any_eq_false.mpr fun k _ => by simp [State.lockDenied, show copyS.ord.locks = [] from rfl]
  have r : copyS.ramWriteRight .sup a 64 = .ok := (if_neg u).trans (if_neg (ne_true_of_eq_false v))
  simp [State.ramGate, r, w, show copyS.fencedInit .sup = false from by decide +kernel]

/-! ## Host port, mailboxes, fabric, counters, pins, registers (18_host_fabric.md to 20_registers.md) -/

/-- The HST window in a given state, the link up. -/
def hs (h : Hst) : State := { r0 with hst := { h with link := true } }
/-- A port's item open at priority 2 with `n` words. -/
def itemB (n : Nat) : ItemBuf := ⟨2, List.replicate n 0x5⟩
theorem test_item_pcie : linkUp.frozenTgt 2 = false ∧ linkUp.hst.d3hot = false ∧ (linkUp.fifo 17).hold = false ∧ linkUp.fencedAg 0x081 = false ∧ (linkUp.fifo 17).items.length < 32 ∧
    responds (.itemPortPcieWrite 3 (7 <<< 192)) .host .ok linkUp (fun t => decide ((t.fifo 17).items.map (fun p => (p.1, p.2.extractLsb' 192 64)) = [(3, 7)])) := by decide +kernel
/-- The item FIFO holds. -/
def holding (s : State) : State := { s with qm := { s.qm with fifos := [(17, { hold := true })] } }
theorem test_item_words : Reaches .spi 0x1E1000 (hs {}) ∧ (hs {}).itemOpen .spi = none ∧ responds (.itemPortWordWrite false 128 5) .spi .ok (hs {}) (fun t => decide (t.hst.itemSpi = some (itemB 1))) ∧
    (hs { itemSpi := some (itemB 1) }).itemOpen .spi = some (itemB 1) ∧ responds (.itemPortWordWrite false 132 5) .spi .ok (hs { itemSpi := some (itemB 1) }) (fun t => decide (t.hst.itemSpi = some (itemB 2))) ∧
    responds (.itemPortWordWrite false 188 5) .spi .retry (holding (hs { itemSpi := some (itemB 15) })) (fun t => decide (t.hst.itemSpi = none)) ∧
    responds (.itemPortWordWrite false 188 5) .spi .ok (hs { itemSpi := some (itemB 15) }) (fun t => decide (t.hst.itemSpi = none) && decide ((t.fifo 17).items.map (fun p => (p.1, p.2.extractLsb' 192 32)) = [(2, 5)])) ∧
    responds (.itemPortWordWrite false 132 5) .spi .ok (hs {}) (fun t => decide (t.hst.itembad = 1)) ∧ responds (.itemPortWordWrite false 136 5) .spi .ok (hs { itemSpi := some (itemB 1) }) (fun t => decide (t.hst.itembad = 1) && decide (t.hst.itemSpi = none)) ∧
    gives .itemPortTimeout (hs { itemSpi := some (itemB 1) }) (fun t => decide (t.hst.itembad = 1) && decide (t.epochOf 0x082 = 1)) := by decide +kernel
/-- The I2C target is enabled. -/
def i2cOn : State := regs [(0x1E0080, 0x80320050)]
theorem test_item_i2c : (i2cOn.reg 0x1E0080).getLsbD 31 = true ∧ i2cOn.i2cOn = true ∧ Reaches .i2c 0x1E1000 i2cOn ∧ responds (.itemPortWordWrite true 0 5) .i2c .ok i2cOn (fun t => decide (t.hst.itemI2c = some ⟨0, [5]⟩)) := by decide +kernel
theorem test_link : gives .pcieLinkDown linkUp (fun t => !t.hst.link && decide (t.epochOf 0x081 = 1)) ∧ becomes .pcieLinkDown r0 r0 ∧ gives .pcieLinkUp r0 (fun t => t.hst.link) ∧ gives .functionLevelReset r0 (fun t => decide (t.epochOf 0x081 = 1)) ∧
    gives (.pciePowerStateChange true) linkUp (fun t => t.hst.d3hot) ∧ responds (.outboundTimeout .sup 0x40) .sup .poweredDown r0 (fun t => decide (t.evr.total = 1)) ∧ Reaches .sup 0x1E007C r0 ∧
    responds (.hstErrpop .sup 1) .sup .ok (hs { errlog := [(1, .denied, 2), (3, .denied, 4)], errOvf := true }) (fun t => decide (t.hst.errlog = [(3, .denied, 4)]) && !t.hst.errOvf) ∧
    responds (.hstErrpop .sup 0) .sup .ok (hs { errlog := [(1, .denied, 2)], errOvf := true }) (fun t => decide (t.hst.errlog.length = 1) && t.hst.errOvf) := by decide +kernel
theorem test_spi : r0.spiWaits 64 2 = false ∧ r0.fabRight .spi false 64 4 = .ok ∧ r0.fabRight .spi true 64 4 = .ok ∧ gives (.spiWrite 64 [0x04030201, 5]) r0 (fun t => decide (t.ramBytes 64 5 = [1, 2, 3, 4, 5]) && decide (t.hst.spiStat = .ok)) ∧
    gives (.spiRead 64 1) (r0.ramPut 64 [1, 2, 3, 4]) (fun t => decide (t.hst.rdata = [0x04030201])) ∧ r0.fabRight .spi false 0x3FFFFFFFC 4 ≠ .ok ∧ r0.fabRight .spi true 0x3FFFFFFFC 4 ≠ .ok ∧ r0.spiWaits 0x3FFFFFFFC 1 = false ∧
    gives (.spiWrite 0x3FFFFFFFC [1]) r0 (fun t => decide (t.hst.spiStat = .denied)) ∧ gives .spiStatus (hs { spiStat := .retry }) (fun t => decide (t.hst.rdata = [0x10])) := by decide +kernel
theorem test_i2c_target : gives (.i2cTargetWrite 0x1E0008 [5]) i2cOn (fun t => decide (t.hst.i2cStat = .ok)) ∧ gives (.i2cTargetWrite 0x1E0002 [5, 6]) i2cOn (fun t => decide (t.hst.i2cStat = .denied)) ∧
    gives (.i2cTargetRead 0x1E0080 1) i2cOn (fun t => decide (t.hst.rdata = [0x80320050])) ∧ gives .i2cSclTimeout (hs { i2cBusy := true }) (fun t => !t.hst.i2cBusy && decide (t.epochOf 0x083 = 1)) := by decide +kernel
/-- The I2C controller is enabled with 1 retry and 0x44 in its first data byte. -/
def ctrl (h : Hst) : State := { regs [(0x1E0080, 0x41320050), (0x1E00C0, 0x44), (0x1E0088, 0x40000002)] with hst := h }
theorem test_i2c_go : Reaches .sup 0x1E0088 (ctrl {}) ∧ responds (.go .sup 0x90010000 (.done [])) .sup .ok (ctrl {}) (fun t => t.hst.i2cBusy && decide (t.out = [.i2cStart 0x20 [0x44]]) && decide (t.hst.i2cEnd = some (.ok, [])) && decide (t.reg 0x1E0088 = 0x10010000)) ∧
    responds (.go .sup 0x90010000 (.lost 5)) .sup .ok (ctrl {}) (fun t => t.hst.i2cDue && decide (t.hst.i2cBit = 5)) ∧ responds (.go .sup 0x90010000 .nack) .sup .retry (ctrl { i2cBusy := true }) (fun t => decide (t.out = [])) ∧
    responds (.go .sup 0x90010000 .nack) .sup .denied r0 (fun t => !t.hst.i2cBusy) ∧ responds (.go .sup 0x80410000 .nack) .sup .outOfRange (ctrl {}) (fun t => !t.hst.i2cBusy) ∧
    responds (.go .sup 0x10010000 .nack) .sup .ok (ctrl {}) (fun t => !t.hst.i2cBusy && decide (t.reg 0x1E0088 = 0x10010000)) := by decide +kernel
theorem test_i2c_end : gives (.i2cBackoffExpiry (.lost 9)) (ctrl { i2cBusy := true, i2cDue := true, i2cTries := 1 }) (fun t => !t.hst.i2cDue && decide (t.hst.i2cEnd = some (.arbLost, [])) && decide (t.hst.i2cTries = 2)) ∧
    gives (.i2cBackoffExpiry .nack) (ctrl { i2cBusy := true, i2cDue := true, i2cTries := 1 }) (fun t => decide (t.hst.i2cEnd = some (.retry, []))) ∧
    gives .i2cTransactionDone (ctrl { i2cBusy := true, i2cEnd := some (.ok, [7, 8]) }) (fun t => !t.hst.i2cBusy && decide (t.reg 0x1E00C0 = 0x0807) && t.sup.sipend.getLsbD 7) ∧
    gives .i2cTransactionDone (ctrl { i2cBusy := true, i2cEnd := some (.arbLost, []) }) (fun t => decide (t.hst.i2cStat = .arbLost) && decide (t.reg 0x1E00C0 = 0x44)) := by decide +kernel

/-- Channel 16 from `src` to `dst`, its SQ 0x2000 and DQ 0x2001, with `n` records in its ring. -/
def chan (src dst n : Nat) : State := { regs [(0x050400, BitVec.ofNat 32 (2 ^ 31 + src * 2 ^ 28 + dst * 2 ^ 25)), (0x050404, 0x20002001)] with
  mbx := { chans := if n = 0 then [] else [(16, ⟨List.replicate n (9, 1)⟩)], srec := [(Init.host.key * 4 + 3, 0x00010000)] } }
theorem test_mbx_send : Reaches .host 0x050408 (chan 0 4 0) ∧ (chan 0 4 0).mbxAllowed .host 16 = true ∧ (chan 0 4 0).domDown 16 4 = false ∧ (chan 0 4 0).chEn 16 = true ∧ (r0.mbxAllowed (.thread 40) 0 = false) ∧
    responds (.mbxSend .host 16) .host .ok (chan 0 4 0) (fun t => decide (t.hst.rdata = [0]) && decide ((t.chn 16).ring.map Prod.fst = [0x00010000 <<< 96])) ∧ responds (.mbxSend .host 16) .host .ok (chan 0 4 16) (fun t => decide (t.hst.rdata = [0x10])) ∧
    responds (.mbxSend .sup 16) .sup .ok (chan 0 4 0) (fun t => decide (t.hst.rdata = [0x0B])) ∧ responds (.mbxSend .sup 16) .sup .ok (chan 1 0 0) (fun t => decide (t.hst.rdata = [5])) ∧ (chan 1 0 0).domDown 16 0 = true ∧
    responds (.mbxSend (.thread 40) 0) (.thread 40) .denied r0 (fun t => decide (t.mbx = r0.mbx)) ∧ responds (.mbxSend .sup 16) .sup .ok { chan 1 0 0 with hst := { r0.hst with link := true } } (fun t => decide (t.hst.rdata = [0]) && t.hst.msix.getLsbD 16) := by decide +kernel
def recI : Item := (1#512 <<< 416) ||| item7
/-- The same with a record item in SQ, and DQ able to take one. -/
def chanQ (src dst n : Nat) : State :=
  let s := (chan src dst n).ramPut pullD.ring (bytesOf 64 recI)
  { s with qm := { s.qm with descs := [(0x2000, pullD), (0x2001, ring16)] } }
theorem test_mbx_take : ((chanQ 2 4 0).hwTake 0x2000).1 = some recI ∧ (chanQ 2 4 0).domDown 16 4 = false ∧ gives (.mbxTake 16) (chanQ 2 4 0) (fun t => decide ((t.chn 16).ring.map Prod.fst = [1#128 <<< 96])) ∧
    ((chanQ 2 0 0).hwTake 0x2000).1 = some recI ∧ (chanQ 2 0 0).domDown 16 0 = true ∧ gives (.mbxTake 16) (chanQ 2 0 0) (fun t => decide ((t.chn 17).ring.map Prod.fst = [0x00050001#128 <<< 96])) := by decide +kernel
theorem test_mbx_deliver : (chanQ 2 3 1).domDown 16 3 = false ∧ (chanQ 2 3 1).chDst 16 = 3 ∧ (chanQ 2 3 1).qmAccess 0x2001 = (true, chanQ 2 3 1) ∧ (chanQ 2 3 1).canPut 0x2001 = true ∧ ring16.cls ≠ 4 ∧ ring16.merge = false ∧
    gives (.mbxDeliver 16) (chanQ 2 3 1) (fun t => decide ((t.chn 16).ring = []) && decide ((t.slotItem 0x2001 0).extractLsb' 448 8 = 16)) := by decide +kernel
theorem test_mbx_pop : Reaches .host 0x050420 (chan 0 4 3) ∧ responds (.mbxPop .host 16 1) .host .ok (chan 0 4 3) (fun t => decide ((t.chn 16).ring.length = 2)) ∧ responds (.mbxPop (.thread 40) 0 1) (.thread 40) .denied r0 (fun t => decide (t.mbx = r0.mbx)) := by decide +kernel

/-- Target 0 with the DRAM turn at initiator 2. -/
def arb (x : Tgt) (l : List (Nat × W32)) : State := { regs l with fab := { tgts := [(0, x)] } }
def ags : List (Fin 512) := List.replicate 14 0
theorem test_grant : (∀ a ∈ ags, r0.fencedAg a.val = false) ∧ gives (.fabricGrant 0 0x0104 0x0021 ags) (arb { rrp := 2, used := 1 } [(0x040008, 2)]) (fun t => decide (t.tgt 0 = { cur := some 2, rrp := 2, used := 2, oneAhead := some 5, last4 := [false] })) ∧
    gives (.fabricGrant 0 0x0104 0x0001 ags) (arb { rrp := 2, used := 1 } []) (fun t => decide (t.tgt 0 = { cur := some 8, rrp := 8, used := 1, oneAhead := some 0, last4 := [false] })) ∧
    gives (.fabricGrant 0 0x0041 0x0102 ags) (arb { rrp := 2, used := 1, oneAhead := some 6, last4 := [false, true, true] } []) (fun t => decide (t.tgt 0 = { cur := some 6, rrp := 2, used := 1, oneAhead := none, last4 := [true, true, true] })) ∧
    gives (.fabricGrant 0 0x0041 0x0102 ags) (arb { oneAhead := some 6 } [(0x040040, 1)]) (fun t => decide (t.tgt 0 = { cur := some 6 })) ∧ (arb {} [(0x040040, 1)]).frozenTgt 0 = true := by decide +kernel
theorem test_freeze_write : Reaches .sup 0x040040 r0 ∧ responds (.fabFreezeWrite .sup 0xFF) .sup .ok r0 (fun t => decide (t.reg 0x040040 = 0x3F)) ∧ responds (.fabFreezeWrite .host 1) .host .denied r0 (fun t => decide (t.regs = parked)) := by decide +kernel
/-- Counter 5 at 2^32 + 7; a capture due every 10 us into a ring of 2 records at 0x10000. -/
def pmcS (n : W32) : State := { regs [(0x061064, 10), (0x061070, n), (0x061068, 0x10000), (0x061060, 1), (0x06107C, 10)] with
  pmc := { cnt := [(5, 0x100000007)], bw := true }, tb := { r0.tb with elapsed := 1250 } }
theorem test_counter_read : Reaches .sup 0x060028 (pmcS 2) ∧ responds (.pmcCntlRead .sup 5) .sup .ok (pmcS 2) (fun t => decide (t.hst.rdata = [7]) && decide (t.pmc.hlatch = [(5, 1)])) := by decide +kernel
theorem test_capture_skip : (pmcS 0).dramOn = true ∧ gives .pmcCapture (pmcS 0) (fun t => decide (t.pmc.skip = 1) && decide (t.pmc.capAt = 1250)) := by decide +kernel
theorem test_capture_place : (pmcS 2).ramFrozen 0x10000 1600 = false ∧ (pmcS 2).reg2 0x061068 + 1600 * (pmcS 2).pmc.ringwr = 0x10000 := by decide +kernel
theorem test_capture_gates : ∀ j : Fin 25, (pmcS 2).ramGate (.hw 13) true (0x10000 + 64 * j.val) 64 = .ok := by decide +kernel
theorem test_bandwidth : gives (.pmcBwWindow (List.replicate 16 9)) (pmcS 2) (fun t => decide (t.cnt 191 = 9) && decide (t.cnt 5 = 0x100000007) && decide (Tab.get 0 t.pmc.peak 3 = 9)) := by decide +kernel
theorem test_pin : Reaches .sup 0x020000 r0 ∧ pinNamed 0 = true ∧ (r0.reg 0x020000).extractLsb' 0 2 = 1 ∧ r0.pinBusy 0 = false ∧ responds (.pinFuncWrite .sup 0 0) .sup .ok r0 (fun t => t.pinBusy 0 && decide (t.reg 0x020000 = 0)) ∧
    responds (.pinFuncWrite .sup 0 1) .sup .ok r0 (fun t => !t.pinBusy 0) ∧ responds (.pinFuncWrite .sup 0 2) .sup .denied r0 (fun t => !t.pinBusy 0) ∧ pinNamed 30 = false ∧ responds (.pinFuncWrite .spi 0 1) .spi .denied r0 (fun t => !t.pinBusy 0) ∧
    responds (.pinFuncWrite .sup 150 1) .sup .absent { r0 with sys := { r0.sys with variant := .r } } (fun t => !t.pinBusy 150) ∧ responds (.pinFuncWrite .sup 0 1) .sup .retry { r0 with pin := { r0.pin with busy := [(0, true)] } } (fun t => t.pinBusy 0) ∧
    gives (.pinSwitchDone 0) { r0 with pin := { r0.pin with busy := [(0, true)] } } (fun t => !t.pinBusy 0) ∧ gives (.jtagInstruction .idcode) r0 (fun t => decide (t.pin.jtag = .idcode)) := by decide +kernel
theorem test_register_access : responds (.registerWrite .sup 0x1E0008 3 5) .sup .denied r0 (fun t => decide (t.regs = parked)) ∧ responds (.registerWrite .sup 0x1E000A 4 5) .sup .denied r0 (fun t => decide (t.regs = parked)) ∧
    responds (.registerWrite (.thread 7) 0x1E0008 4 5) (.thread 7) .fenced { r0 with ord := { r0.ord with fences := [7] } } (fun t => decide (t.regs = parked)) ∧ (regRow 0x1E0008).map RegRow.acc = some .rw ∧ (regRow 0x1E0008).map RegRow.words = some 2 ∧
    responds (.registerWrite .sup 0x1E0008 4 5) .sup .ok r0 (fun t => decide (t.latch = [(Init.sup.key * 2 ^ 24 + 0x1E0008, some 5)])) ∧ Reaches .sup 0x1E0008 r0 ∧ responds (.registerWrite .sup 0x1E0008 8 0x600000005) .sup .ok r0 (fun t => decide (t.reg2 0x1E0008 = 0x600000005)) ∧
    responds (.registerWrite .sup 0x1E000C 4 6) .sup .ok { r0 with latch := [(Init.sup.key * 2 ^ 24 + 0x1E0008, some 5)] } (fun t => decide (t.reg2 0x1E0008 = 0x600000005)) := by decide +kernel
theorem test_register_kinds : (regRow 0x000000).map RegRow.acc = some .ro ∧ responds (.registerWrite .sup 0x000000 4 5) .sup .ok r0 (fun t => decide (t.regs = parked)) ∧ (r0.present 0x14 = true) ∧ { r0 with sys := { r0.sys with variant := .w } }.present 0x10 = true ∧
    Reaches .sup 0x040004 r0 ∧ responds (.registerWrite .sup 0x040004 4 0x13) .sup .ok r0 (fun t => decide (t.reg 0x040004 = 3)) ∧ responds (.registerWrite .sup 0x040004 4 0x10) .sup .outOfRange r0 (fun t => decide (t.regs = parked)) ∧ responds (.registerWrite .host 0x040004 4 3) .host .denied r0 (fun t => decide (t.regs = parked)) := by
  decide +kernel

/-! ## The block as a whole -/

theorem test_front : step { r0 with pending := [.fabricGrant 0 0 0 [], .refclkLoss] } = exec (.fabricGrant 0 0 0 []) { r0 with pending := [.refclkLoss] } := rfl
/-- The step on an empty queue answers a state with the given property. -/
def steps (s : State) (p : State → Bool) : Bool := match step s with | .next t => p t | _ => false
theorem test_idle : r0.pending = [] ∧ r0.pwr.mainOn = true ∧ r0.tb.clkLost = false ∧ steps r0 (fun t => decide (t.tb.elapsed = 1) && decide ((t.dom false).frac.toNat = 147573952590)) ∧
    steps { r0 with tb := { r0.tb with clkLost := true } } (fun t => decide (t.tb.elapsed = 1) && decide ((t.dom false).frac = 0)) ∧ steps { r0 with pwr := { mainOn := false } } (fun t => decide (t = { r0 with pwr := { mainOn := false } })) := by decide +kernel
theorem test_memory_form : Machine.MemoryForm r0 := by decide +kernel
theorem test_absent_and_h : (regRow 0x0D0000).isSome = true ∧ { r0 with sys := { r0.sys with variant := .w } }.present 0x0D = false ∧ responds (.registerWrite .sup 0x0D0000 4 0) .sup .absent { r0 with sys := { r0.sys with variant := .w } } (fun t => decide (t.regs = parked)) ∧
    (regRow 0x0C0020).map RegRow.acc = some .h ∧ r0.present 0x0C = true ∧ responds (.registerWrite .sup 0x0C0020 4 0) .sup .denied r0 (fun t => decide (t.regs = parked)) := by decide +kernel

end Sys2Proof.Tests
end

section
/-! ## What an event touches (R393 to R396) -/

namespace Sys2Proof.Machine
open Sys2Proof

/-- From `s` to `u` the backup domain's recorder alone has changed. -/
def EvrOnly (s u : State) : Prop := u = { s with evr := u.evr }

theorem EvrOnly.refl (s : State) : EvrOnly s s := rfl

theorem EvrOnly.with (s : State) (e : Evr) : EvrOnly s { s with evr := e } := rfl

theorem EvrOnly.trans {s t u : State} (h : EvrOnly s t) (g : EvrOnly t u) : EvrOnly s u := by
  unfold EvrOnly at *
  rw [g, h]

theorem State.evPlace_evrOnly (s : State) (r : BitVec 256) : EvrOnly s (s.evPlace r) := by
  unfold State.evPlace
  dsimp only
  split
  · split <;> exact EvrOnly.with s _
  · exact EvrOnly.with s _

theorem State.evPass_evrOnly (s : State) (r : BitVec 256) : EvrOnly s (s.evPass r) := by
  unfold State.evPass
  split
  · exact s.evPlace_evrOnly r
  · split <;> exact EvrOnly.with s _

theorem State.evMakeRoom_evrOnly (s : State) : EvrOnly s s.evMakeRoom := by
  unfold State.evMakeRoom
  split
  · exact EvrOnly.refl s
  · split
    · exact EvrOnly.refl s
    · refine EvrOnly.trans ?_ (EvrOnly.with _ _)
      split
      · exact EvrOnly.refl s
      · exact s.evPass_evrOnly _

theorem State.evAdmit_evrOnly (s : State) (c : Nat) (r : BitVec 256) : EvrOnly s (s.evAdmit c r) := by
  unfold State.evAdmit
  split
  · exact EvrOnly.refl s
  · split
    · exact s.evPass_evrOnly r
    · split
      · split
        · exact EvrOnly.with s _
        · exact (EvrOnly.with s _).trans (State.evPass_evrOnly _ r)
      · exact (s.evMakeRoom_evrOnly.trans (EvrOnly.with _ _)).trans (State.evPass_evrOnly _ r)

/-- Recording an event leaves every other unit alone. -/
theorem State.event_frame (s : State) (c : Nat) (p : W32) : s.event c p = { s with evr := (s.event c p).evr } :=
  s.evAdmit_evrOnly c _

@[simp] theorem State.event_ord (s : State) (c : Nat) (p : W32) : (s.event c p).ord = s.ord := by rw [State.event_frame]

end Sys2Proof.Machine
end

section
/-! ## How a 32-bit register command is answered (R3, R10, R405, R445) -/

namespace Sys2Proof.Machine
open Sys2Proof

theorem State.hostError_frame (s : State) (a : Nat) (st : Status) (g : Nat) :
    s.hostError a st g = { s with hst := (s.hostError a st g).hst } := by
  unfold State.hostError
  split <;> rfl

/-- An access that reaches its unit passes the gate where its register exists and is not H. -/
theorem State.regGate_of_reaches {s : State} {i : Init} {off : Nat} {r : RegRow} (h : Reaches i off s) (ha : off % 4 = 0)
    (hr : regRow off = some r) (hh : r.acc ≠ .h) : s.regGate i off = .ok r := by
  obtain ⟨-, -, hfence, hpresent⟩ := h
  simp [State.regGate, hfence, ha, hr, hpresent, hh]

/-- A register command that reaches its unit answers what the write of the register answers; recording the response and the host's
error touches the responses and the host unit alone. -/
theorem responds_of_regWrite {c : Instr} {i : Init} {off : Nat} {v : W32} {s u : State} {st : Status} {P : State → Prop}
    (hc : exec c s = s.regCmd i off v) (hr : Reaches i off s) (hw : s.regWrite i off v = (st, u))
    (hP : ∀ h r, P { u with hst := h, resp := r }) : Responds c i st s P := by
  obtain ⟨hmain, hfrozen, -, -⟩ := hr
  have hx : exec c s = .next ((if i = .host ∧ st ≠ .ok then u.hostError (0x400000000 + off) st agHost else u).respond i st) := by
    rw [hc]
    simp only [State.regCmd, hmain, hfrozen, hw, Bool.not_true, Bool.or_self, Bool.false_eq_true, if_false]
  refine ⟨_, hx, Tab.get_set_same _ _ _ _, ?_⟩
  split
  · rw [State.hostError_frame]; exact hP _ _
  · exact hP _ _

/-- What one answer says, another says that follows from it. -/
theorem Responds.mono {c : Instr} {i : Init} {st : Status} {s : State} {P Q : State → Prop} (h : Responds c i st s P)
    (hPQ : ∀ t, P t → Q t) : Responds c i st s Q := by
  obtain ⟨t, hstep, hstatus, hP⟩ := h
  exact ⟨t, hstep, hstatus, hPQ t hP⟩

end Sys2Proof.Machine
end

section
/-! ## The locked sequences (R10, R120 to R123) -/

namespace Sys2Proof.Machine
open Sys2Proof

variable {i : Init} {n off : Nat} {v : W32} {s : State}

/-! ### Which operation a write of each register is -/

theorem State.regWrite_seqOpen (h : Reaches i 0x0B0040 s) : s.regWrite i 0x0B0040 v = s.seqOpen i (fld v 0 16).toNat := by
  have hg := State.regGate_of_reaches (r := .one 0x40 .wo 0 allBits) h (by decide) (by decide) (by decide)
  simp [State.regWrite, hg, RegRow.one]

theorem State.regWrite_seqClose {st : Status} {b : Bool} {u : State} (h : Reaches i 0x0B0044 s)
    (hc : s.seqClose i (fld v 0 16).toNat (bit v 16) = (st, b, u)) : s.regWrite i 0x0B0044 v = (st, u) := by
  have hg := State.regGate_of_reaches (r := .one 0x44 .wo 0 allBits) h (by decide) (by decide) (by decide)
  simp [State.regWrite, hg, RegRow.one, hc]

theorem State.regWrite_seqBuffer {r : RegRow} (h : Reaches i off s) (ha : off % 4 = 0) (hr : regRow off = some r) (hq : r.acc = .seq) :
    s.regWrite i off v = s.seqBuffer i off v := by
  have hg := State.regGate_of_reaches h ha hr (by simp [hq])
  simp [State.regWrite, hg, hq]

/-! ### Opens (R120, R121) -/

/-- The sequence as an open of `i` leaves it. -/
def State.opened (s : State) (i : Init) (n : Nat) : Seqn :=
  { owner := some i, epoch := s.epochOf i.key, opened := s.tb.elapsed, tmo := s.regF Reg.ordSeqTmo 0 10,
    expired := (s.seq n).expired.filter (fun j => decide (j ≠ i)) }

theorem State.seqOpen_free (hm : seqMayOpen n i = true) (ho : (s.seq n).owner = none) :
    s.seqOpen i n = (.ok, (s.setSeq n (s.opened i n)).seqNote i n .ok) := by
  simp only [State.seqOpen, hm, ho, Bool.not_true, Bool.false_eq_true, if_false]
  rfl

theorem State.seqOpen_held {o : Init} (hm : seqMayOpen n i = true) (ho : (s.seq n).owner = some o) (hne : o ≠ i) :
    s.seqOpen i n = (.retry, s.seqNote i n .retry) := by
  simp [State.seqOpen, hm, ho, hne]

theorem State.seqOpen_denied (hm : seqMayOpen n i = false) : s.seqOpen i n = (.denied, s.seqNote i n .denied) := by
  simp [State.seqOpen, hm]

/-! ### Closes without apply (R123) -/

theorem State.seqClose_discards (ho : (s.seq n).owner = some i) (hotp : s.sec.otp = none) :
    s.seqClose i n false = (.ok, false, (s.seqFree n).seqNote i n .ok) := by
  simp [State.seqClose, ho, hotp]

theorem State.seqClose_denied {a : Bool} (ho : (s.seq n).owner ≠ some i) (he : i ∉ (s.seq n).expired) :
    s.seqClose i n a = (.denied, false, s.seqNote i n .denied) := by
  simp [State.seqClose, ho, he]

theorem State.seqClose_stale {a : Bool} (ho : (s.seq n).owner ≠ some i) (he : i ∈ (s.seq n).expired) :
    s.seqClose i n a = (.stale, false, (s.setSeq n
      { s.seq n with expired := (s.seq n).expired.filter (fun j => decide (j ≠ i)) }).seqNote i n .stale) := by
  simp [State.seqClose, ho, he]

/-! ### Buffered writes (R10, R122) -/

theorem State.seqBuffer_room {r : RegRow} (hr : regRow off = some r) (hotp : s.sec.otp = none)
    (ho : (s.seq (seqOfUnit (off / 0x10000))).owner = some i) (hl : (s.seq (seqOfUnit (off / 0x10000))).writes.length < 32) :
    s.seqBuffer i off v = (.ok, s.setSeq (seqOfUnit (off / 0x10000))
      { s.seq (seqOfUnit (off / 0x10000)) with writes := (s.seq (seqOfUnit (off / 0x10000))).writes ++ [(off, v &&& r.mask)] }) := by
  simp [State.seqBuffer, hotp, ho, hl, takenBits, hr]

theorem State.seqBuffer_full (hotp : s.sec.otp = none) (ho : (s.seq (seqOfUnit (off / 0x10000))).owner = some i)
    (hl : 32 ≤ (s.seq (seqOfUnit (off / 0x10000))).writes.length) :
    s.seqBuffer i off v = (.outOfRange, s.setSeq (seqOfUnit (off / 0x10000))
      { s.seq (seqOfUnit (off / 0x10000)) with spoiled := true }) := by
  simp [State.seqBuffer, hotp, ho, Nat.not_lt.mpr hl]

theorem State.seqBuffer_denied (hotp : s.sec.otp = none) (ho : (s.seq (seqOfUnit (off / 0x10000))).owner ≠ some i) :
    s.seqBuffer i off v = (.denied, s) := by
  simp [State.seqBuffer, hotp, ho]

/-! ### Expiry (R121) -/

/-- An expired sequence is free and remembers whom to tell, unless its close waits for OTP cells (R339). -/
theorem State.seqExpire_frees {cause : Nat} (ho : (s.seq n).owner = some i) (hotp : s.sec.otp = none) :
    (s.seqExpire n cause).seq n = { expired := i :: (s.seq n).expired.filter (fun j => decide (j ≠ i)) } := by
  unfold State.seq at ho ⊢
  simp [State.seqExpire, ho, hotp]

/-! ### The commands -/

/-- A free sequence opens to those Table 4.10 allows. -/
theorem ordSeqOpen_free (h : Reaches i 0x0B0040 s) (hm : seqMayOpen (v.extractLsb' 0 16).toNat i = true)
    (ho : (s.seq (v.extractLsb' 0 16).toNat).owner = none) :
    Responds (.ordSeqOpen i v) i .ok s (fun t => t.seq (v.extractLsb' 0 16).toNat = s.opened i (v.extractLsb' 0 16).toNat) :=
  responds_of_regWrite rfl h ((State.regWrite_seqOpen h).trans (State.seqOpen_free hm ho)) fun _ _ =>
    s.seq_setSeq_same (v.extractLsb' 0 16).toNat (s.opened i (v.extractLsb' 0 16).toNat)

theorem ordSeqOpen_held {o : Init} (h : Reaches i 0x0B0040 s) (hm : seqMayOpen (v.extractLsb' 0 16).toNat i = true)
    (ho : (s.seq (v.extractLsb' 0 16).toNat).owner = some o) (hne : o ≠ i) :
    Responds (.ordSeqOpen i v) i .retry s (fun t => t.ord.seqs = s.ord.seqs) :=
  responds_of_regWrite rfl h ((State.regWrite_seqOpen h).trans (State.seqOpen_held hm ho hne)) fun _ _ => rfl

theorem ordSeqOpen_denied (h : Reaches i 0x0B0040 s) (hm : seqMayOpen (v.extractLsb' 0 16).toNat i = false) :
    Responds (.ordSeqOpen i v) i .denied s (fun t => t.ord.seqs = s.ord.seqs) :=
  responds_of_regWrite rfl h ((State.regWrite_seqOpen h).trans (State.seqOpen_denied hm)) fun _ _ => rfl

/-- The owner's close without apply frees the sequence with nothing of what it had buffered. -/
theorem ordSeqClose_discards (h : Reaches i 0x0B0044 s) (ho : (s.seq (v.extractLsb' 0 16).toNat).owner = some i)
    (ha : v.getLsbD 16 = false) (hotp : s.sec.otp = none) :
    Responds (.ordSeqClose i v) i .ok s (fun t =>
      t.seq (v.extractLsb' 0 16).toNat = { expired := (s.seq (v.extractLsb' 0 16).toNat).expired } ∧ t.regs = s.regs ∧ t.sec = s.sec) := by
  have hc : s.seqClose i (v.extractLsb' 0 16).toNat (bit v 16) = _ := ha ▸ State.seqClose_discards ho hotp
  exact responds_of_regWrite rfl h (State.regWrite_seqClose h hc) fun _ _ =>
    ⟨s.seq_setSeq_same (v.extractLsb' 0 16).toNat _, rfl, rfl⟩

theorem ordSeqClose_denied (h : Reaches i 0x0B0044 s) (ho : (s.seq (v.extractLsb' 0 16).toNat).owner ≠ some i)
    (he : i ∉ (s.seq (v.extractLsb' 0 16).toNat).expired) :
    Responds (.ordSeqClose i v) i .denied s (fun t => t.ord.seqs = s.ord.seqs) :=
  responds_of_regWrite rfl h (State.regWrite_seqClose h (State.seqClose_denied ho he)) fun _ _ => rfl

/-- A close after an expiry is told STALE, once. -/
theorem ordSeqClose_stale (h : Reaches i 0x0B0044 s) (ho : (s.seq (v.extractLsb' 0 16).toNat).owner ≠ some i)
    (he : i ∈ (s.seq (v.extractLsb' 0 16).toNat).expired) :
    Responds (.ordSeqClose i v) i .stale s (fun t => i ∉ (t.seq (v.extractLsb' 0 16).toNat).expired) := by
  refine responds_of_regWrite rfl h (State.regWrite_seqClose h (State.seqClose_stale ho he)) fun _ _ hin => ?_
  have hs := congrArg Seqn.expired (s.seq_setSeq_same (v.extractLsb' 0 16).toNat { s.seq (v.extractLsb' 0 16).toNat with
    expired := (s.seq (v.extractLsb' 0 16).toNat).expired.filter (fun j => decide (j ≠ i)) })
  have hin' := hs ▸ hin
  simp at hin'

theorem seqWrite_eq_regCmd {a : BitVec 24} {r : RegRow} (hr : regRow a.toNat = some r) (hq : r.acc = .seq) :
    exec (.seqWrite i a v) s = s.regCmd i a.toNat v := by
  simp [exec, execSeqWrite, hr, hq]

/-- The timeout of an open sequence frees it and remembers whom to tell. -/
theorem sequenceTimeout_frees {m : BitVec 16} (hmain : s.pwr.mainOn = true) (ho : (s.seq m.toNat).owner = some i) (hotp : s.sec.otp = none)
    (hpast : (s.seq m.toNat).opened + (s.seq m.toNat).tmo * 125000 ≤ s.tb.elapsed) :
    Gives (.sequenceTimeout m) s (fun t => (t.seq m.toNat).owner = none ∧ i ∈ (t.seq m.toNat).expired) := by
  have hf := State.seqExpire_frees (cause := 1) ho hotp
  have hp : s.past (s.seq m.toNat).opened ((s.seq m.toNat).tmo * msCounts) = true := decide_eq_true hpast
  refine ⟨s.seqExpire m.toNat 1, ?_, ?_, ?_⟩
  · simp [exec, execSequenceTimeout, hmain, ho, hp]
  · rw [hf]
  · rw [hf]; exact List.mem_cons_self

end Sys2Proof.Machine
end

section
open Sys2Proof Sys2Proof.Machine

/-- Settles O25: each open, close, buffered write and timeout is the unit's own operation on the sequence, whose cases are the
clauses. -/
theorem lockedSequences : Obligations.LockedSequences := by
  unfold Obligations.LockedSequences
  refine ⟨fun i v s => ⟨fun h => ⟨fun hm ho => ?_, fun o hne hm ho => ?_, ordSeqOpen_denied h⟩,
      fun h => ⟨fun ho ha hotp => ?_, ordSeqClose_denied h, ordSeqClose_stale h⟩, ?_, ?_, ?_⟩,
    fun i off v s r h ha hr hq hotp => ⟨fun ho hl => ?_, fun ho hl => ?_, fun ho => ?_⟩,
    fun n i s hmain ho hotp hpast => sequenceTimeout_frees hmain ho hotp hpast⟩
  · refine (ordSeqOpen_free h hm ho).mono fun t ht => ?_
    rw [ht]; exact ⟨rfl, rfl, rfl, rfl⟩
  · refine (ordSeqOpen_held h hm ho hne).mono fun t ht => ?_
    exact congrArg (fun l => Tab.get {} l _) ht
  · refine (ordSeqClose_discards h ho ha hotp).mono fun t ht => ?_
    obtain ⟨hseq, hregs, hsec⟩ := ht
    rw [hseq]; exact ⟨rfl, rfl, hregs, hsec⟩
  · simp [seqMayOpen]
  · simp [seqMayOpen]
  · simp [seqMayOpen]
  · exact responds_of_regWrite (seqWrite_eq_regCmd hr hq) h
      ((State.regWrite_seqBuffer h ha hr hq).trans (State.seqBuffer_room hr hotp ho hl)) fun _ _ => ⟨s.seq_setSeq_same _ _, rfl⟩
  · exact responds_of_regWrite (seqWrite_eq_regCmd hr hq) h
      ((State.regWrite_seqBuffer h ha hr hq).trans (State.seqBuffer_full hotp ho hl)) fun _ _ => s.seq_setSeq_same _ _
  · exact responds_of_regWrite (seqWrite_eq_regCmd hr hq) h
      ((State.regWrite_seqBuffer h ha hr hq).trans (State.seqBuffer_denied hotp ho)) fun _ _ => ⟨rfl, rfl⟩
end

section
/-! ## Every command answers, and keeps the queue, the identity and the form of memory

`Kept` is the model's own relation (Laws/Kept.lean), stated there for the shared operations. This part states it for the functions that remain, one
lemma for each, in the order of the model's files: a function from state to state keeps what `Kept` speaks of, and a command's function answers with
a next state that does (`Answers`). `kept_exec` puts them together for every command.

The values the commands store are never looked into. Where the kernel would evaluate one while it compares two forms of a goal, the function that
gives it is first put behind a variable (`exists_eq'`), or its definition is taken as an equation of functions. -/

namespace Sys2Proof.Machine
open Sys2Proof

variable {s t u : State}

/-- A change of fields that `Kept` does not speak of. -/
theorem Kept.other (h : Kept s t)
    (e : (u.pending, u.sys, u.sec.huk, u.mem.dram, u.sup.mem, u.ge.store) = (t.pending, t.sys, t.sec.huk, t.mem.dram, t.sup.mem, t.ge.store)) :
    Kept s u := by
  simp only [Prod.mk.injEq] at e
  obtain ⟨hpending, hsys, hhuk, hdram, hsup, hstore⟩ := e
  exact h.same hpending hsys hhuk hdram hsup hstore

/-- A change of units that hold nothing `Kept` speaks of. The state is written out by its fields, so that a use unifies field with field
and never unfolds the values a command stores. -/
theorem Kept.units {freeCtr regs latch resp out pwr pin tb fab mbx pmc evr qm ord ldg bal flw afe plc rf wir eth spn twn tre cfg upd nft hst}
    (h : Kept s t) :
    Kept s ⟨t.pending, freeCtr, regs, latch, resp, out, t.sys, pwr, pin, tb, fab, mbx, pmc, evr, qm, t.ge, t.sup, ord, ldg, bal, flw, afe, plc,
      rf, wir, eth, spn, twn, tre, cfg, t.sec, upd, t.mem, nft, hst⟩ :=
  h.same rfl rfl rfl rfl rfl rfl

/-- A change of memory that keeps the words of DRAM. -/
theorem Kept.memory {mem : Mem} (h : Kept s t) (e : mem.dram = t.mem.dram) : Kept s { t with mem := mem } :=
  h.same rfl rfl rfl e rfl rfl

/-- A change of the vault's unit that keeps the device key. -/
theorem Kept.vault {sec : Sec} (h : Kept s t) (e : sec.huk = t.sec.huk) : Kept s { t with sec := sec } :=
  h.same rfl rfl e rfl rfl rfl

/-- The reset cause is no part of the identity. -/
theorem Kept.cause (h : Kept s t) (c : W32) : Kept s { t with sys := { t.sys with cause := c } } :=
  h.trans ⟨rfl, rfl, rfl, rfl, rfl, id⟩

/-- The state in a pair that an equation takes apart. -/
theorem Kept.of_snd {α : Type} {p : α × State} {a : α} (h : Kept s p.2) (e : p = (a, u)) : Kept s u := by
  rw [e] at h; exact h

theorem Kept.of_snd_snd {α β : Type} {p : α × β × State} {a : α} {b : β} (h : Kept s p.2.2) (e : p = (a, b, u)) : Kept s u := by
  rw [e] at h; exact h

theorem Kept.ite_snd {α : Type} {c : Prop} [Decidable c] {p q : α × State} (h : Kept s p.2) (g : Kept s q.2) :
    Kept s (if c then p else q).2 := by
  split
  · exact h
  · exact g

theorem Kept.ite_snd_snd {α β : Type} {c : Prop} [Decidable c] {p q : α × β × State} (h : Kept s p.2.2) (g : Kept s q.2.2) :
    Kept s (if c then p else q).2.2 := by
  split
  · exact h
  · exact g

/-- The command is answered with a next state, and that state keeps the queue, the identity and the form of memory of `s`. -/
def Answers (s : State) (o : Answer) : Prop := ∃ u, o = .next u ∧ Kept s u

theorem Kept.next (h : Kept s t) : Answers s (.next t) := ⟨t, rfl, h⟩

theorem Answers.ite {c : Prop} [Decidable c] {o p : Answer} (h : Answers s o) (g : Answers s p) : Answers s (if c then o else p) := by
  split
  · exact h
  · exact g

theorem GRes.kept_ite {c : Prop} [Decidable c] {o p : GRes} (h : o.kept s) (g : p.kept s) : (if c then o else p).kept s := by
  split
  · exact h
  · exact g

theorem GRes.kept_unlessFenced {w : Who} {f : State → GRes} (h : (f t).kept s) : (unlessFenced w f t).kept s :=
  GRes.kept_ite trivial h

/-! ### Shared operations -/

theorem Kept.atEdge (h : Kept s t) : Kept s t.atEdge := by
  unfold State.atEdge
  split
  · exact h.units.setReg _ _
  · exact h.units

theorem Kept.nextSeq (h : Kept s t) (src : ℕ) : Kept s (t.nextSeq src).2 := by
  unfold State.nextSeq
  exact h.units

theorem Mem.logPoison_dram (m : Mem) (l : ℕ) : (m.logPoison l).dram = m.dram := by
  unfold Mem.logPoison
  split
  · rfl
  · split <;> rfl

theorem Kept.poisonLine (h : Kept s t) (l : ℕ) : Kept s (t.poisonLine l) := by
  unfold State.poisonLine
  refine Kept.ite h (Kept.event ?_ _ _)
  exact h.memory (Mem.logPoison_dram _ _)

theorem Kept.lineWrite (h : Kept s t) (l first : ℕ) (bs : List Byte) : Kept s (t.lineWrite l first bs).2 := by
  unfold State.lineWrite
  refine Kept.ite_snd ?_ (Kept.ite_snd h (h.ramPut _ _))
  refine Kept.ramPut ?_ _ _
  exact h.other rfl

/-! ### Tasks and faults -/

theorem Kept.engineFault (h : Kept s t) (agent : ℕ) (cls : FaultClass) (st : Status) : Kept s (t.engineFault agent cls st) :=
  h.engineFaultAt _ _ _ _

theorem Kept.goG (h : Kept s t) (w : Who) (rd : GReg) (v : Word) : (goG w rd v t).kept s := h.putMe _ _

theorem Kept.goP (h : Kept s t) (w : Who) (pd : PReg) (b : Bool) : (goP w pd b t).kept s := h.putMe _ _

/-! ### Floating-point flags -/

theorem Kept.goCmp (h : Kept s t) (w : Who) (k : Comb) (pd : PReg) (c : Bool) : (goCmp w k pd c t).kept s := h.goP _ _ _

/-! ### Operands -/

theorem Kept.jumpTo (h : Kept s t) (w : Who) (t' : ℤ) : (jumpTo w t' t).kept s := GRes.kept_ite h trivial

/-! ### Accumulators -/

theorem Kept.fpDone (h : Kept s t) (w : Who) (fl : ℕ) {k : State → GRes} (hk : ∀ u, Kept s u → (k u).kept s) :
    (fpDone w fl t k).kept s := by
  unfold Machine.fpDone
  extract_lets _ u
  have hu : Kept s u := h.putMe _ _
  exact GRes.kept_ite hu (hk u hu)

theorem kept_fp2 (x : Ix) (rd ra rb : GReg) (f : Word → Word → Word × ℕ) (s : State) : Answers s (fp2 x rd ra rb f s) :=
  kept_garnil _ _ _ fun _ hu => hu.fpDone _ _ fun _ hv => hv.goG _ _ _

theorem kept_fpCmp (x : Ix) (k : Comb) (pd : PReg) (ra rb : GReg) (f : Word → Word → Bool) (g : Word → Word → ℕ) (s : State) :
    Answers s (fpCmp x k pd ra rb f g s) :=
  kept_garnil _ _ _ fun _ hu => hu.fpDone _ _ fun _ hv => hv.goCmp _ _ _ _

theorem Kept.goA (h : Kept s t) (w : Who) (ad : AReg) (v : ℤ) : (goA w ad v t).kept s := GRes.kept_ite (h.putMe _ _) trivial

theorem kept_acc3 (x : Ix) (ad : AReg) (ra rb : GReg) (f : ℤ → Word → Word → ℤ) (s : State) : Answers s (acc3 x ad ra rb f s) :=
  kept_garnil _ _ _ fun u hu => hu.goA _ _ _

theorem kept_accA (x : Ix) (ad as : AReg) (f : ℤ → ℤ → ℤ) (s : State) : Answers s (accA x ad as f s) :=
  kept_garnil _ _ _ fun u hu => hu.goA _ _ _

theorem Kept.goT (h : Kept s t) (w : Who) (f : Thread → Thread) : (goT w f t).kept s := h.putMe _ _

theorem kept_execAld (x : Ix) (ad : AReg) (ra : GReg) (s : State) : Answers s (execAld x ad ra s) := by
  unfold Machine.execAld
  refine kept_garnil _ _ _ fun u hu => ?_
  exact GRes.kept_ite (hu.goT _ _) trivial

theorem kept_execAst (x : Ix) (ad : AReg) (ra : GReg) (s : State) : Answers s (execAst x ad ra s) := by
  unfold Machine.execAst
  refine kept_garnil _ _ _ fun u hu => ?_
  exact GRes.kept_ite (hu.goT _ _) trivial

theorem kept_execFtoa (x : Ix) (ad : AReg) (ra : GReg) (k : Fin 32) (s : State) : Answers s (execFtoa x ad ra k s) := by
  unfold Machine.execFtoa
  refine kept_garnil _ _ _ fun u hu => ?_
  exact GRes.kept_ite trivial (hu.goA _ _ _)

/-! ### Time domains and Tidemark -/

theorem Kept.store (h : Kept s t) (r : RegRow) (o v : ℕ) : Kept s (t.store r o v) := Kept.ite ((h.setReg _ _).setReg _ _) (h.setReg _ _)

theorem Kept.accept (h : Kept s t) (r : RegRow) (o v : ℕ) : Kept s (accept r o v t).2 := h.store _ _ _

theorem Kept.refuse (h : Kept s t) (st : Status) : Kept s (refuse st t).2 := h

theorem Kept.splitTrack (h : Kept s t) : Kept s t.splitTrack := by
  unfold State.splitTrack
  refine Kept.ite h ?_
  refine Kept.event ?_ _ _
  exact h.units

theorem Kept.switchDomain (h : Kept s t) (b : Bool) : Kept s (t.switchDomain b) := by
  unfold State.switchDomain
  extract_lets _ u1
  have hu1 : Kept s u1 := h.setReg _ _
  refine Kept.event ?_ _ _
  exact hu1.units

theorem Kept.tick (h : Kept s t) : Kept s t.tick := by
  unfold State.tick
  refine Kept.ite ?_ h
  refine Kept.ite ?_ ?_
  · exact h.units
  · split
    · exact Kept.ite h.units (h.units.switchDomain _)
    · exact h.units

theorem Kept.cutBlocks (h : Kept s t) (b : Bool) : Kept s (t.cutBlocks b) := h.units

theorem Kept.applyStep (h : Kept s t) (b : Bool) : Kept s (t.applyStep b) := by
  unfold State.applyStep
  extract_lets _ _ u1
  have hu1 : Kept s u1 := h.setDom _ _
  split
  · exact h
  · extract_lets
    exact Kept.ite ((Kept.ite (hu1.cutBlocks _) hu1).event _ _) hu1

theorem Kept.classFall (h : Kept s t) (b : Bool) (new : ℕ) : Kept s (t.classFall b new) := Kept.ite (h.event _ _) h

theorem Kept.writeTb (h : Kept s t) (i : Init) (r : RegRow) (o v : ℕ) : Kept s (writeTb i r o v t).2 := by
  unfold Machine.writeTb
  refine Kept.ite_snd (Kept.ite_snd (h.accept _ _ _) (h.refuse _)) ?_
  refine Kept.ite_snd ?_ ?_
  · refine Kept.ite_snd (h.refuse _) ?_
    extract_lets _ _ _ u1
    have hu1 : Kept s u1 := (h.store _ _ _).setDom _ _
    exact Kept.ite (hu1.classFall _ _) hu1
  · refine Kept.ite_snd ?_ ?_
    · refine Kept.ite_snd (h.refuse _) ?_
      extract_lets _ _ u2
      have hu2 : Kept s u2 := h.setReg _ _
      exact hu2.units
    · refine Kept.ite_snd ?_ ?_
      · refine Kept.ite ?_ h
        exact h.units
      · refine Kept.ite_snd ?_ (h.accept _ _ _)
        refine Kept.ite ?_ h
        exact h.units

theorem Kept.seqApplyTb (h : Kept s t) (ws : List (ℕ × W32)) : Kept s (seqApplyTb ws t).2 := by
  unfold Machine.seqApplyTb
  extract_lets _ _ _ _ _ u1 _ u2
  have hu1 : Kept s u1 := Kept.foldl _ (fun u _ => (Kept.refl u).setReg _ _) _ h
  have hu2 : Kept s u2 := Kept.ite (hu1.setDom _ _) hu1
  exact Kept.ite_snd h (Kept.ite_snd h (Kept.ite_snd h (Kept.ite (hu2.setDom _ _) hu2)))

theorem kept_execTbAutoSwitch (s : State) : Answers s (execTbAutoSwitch s) := by
  have h := Kept.refl s
  unfold Machine.execTbAutoSwitch
  refine Answers.ite ?_ h.next
  refine Kept.next (Kept.switchDomain ?_ _)
  exact h.units

theorem kept_execQualityDecay (domB : Bool) (s : State) : Answers s (execQualityDecay domB s) := by
  have h := Kept.refl s
  unfold Machine.execQualityDecay
  exact Answers.ite ((h.setDom _ _).classFall _ _).next h.next

theorem kept_execRefclkLoss (s : State) : Answers s (execRefclkLoss s) := by
  have h := Kept.refl s
  unfold Machine.execRefclkLoss
  refine Answers.ite ?_ h.next
  refine Kept.next (Kept.event ?_ _ _)
  exact h.units

theorem kept_execRefclkReturn (s : State) : Answers s (execRefclkReturn s) := by
  have h := Kept.refl s
  unfold Machine.execRefclkReturn
  refine Answers.ite ?_ h.next
  refine Kept.next (Kept.event ?_ _ _)
  exact h.units

/-! ### Measurement chains -/

theorem Kept.flwSwitch (h : Kept s t) : Kept s t.flwSwitch := by
  unfold State.flwSwitch
  exact h.units

theorem Kept.tablePut (h : Kept s t) (g h' : ℕ) (bs : List Byte) : Kept s (t.tablePut g h' bs) := by
  unfold State.tablePut
  extract_lets u1
  have hu1 : Kept s u1 := h.ramWrite _ _
  exact hu1.units

theorem Kept.flwLoad (h : Kept s t) (addr : ℕ) (cmd : W32) : Kept s (t.flwLoad addr cmd).2 := by
  unfold State.flwLoad
  obtain ⟨read, hread⟩ := exists_eq' (a' := State.unitRead)
  rw [hread]
  extract_lets
  split
  · next v1 e1 =>
      have hv1 : Kept s v1 := by
        refine Kept.of_snd ?_ e1
        refine Kept.ite_snd ?_ ?_
        · split
          · extract_lets
            exact h.units
          · exact h
        · refine Kept.ite_snd ?_ h
          refine Kept.ite_snd h ?_
          split
          · exact h.tablePut _ _ _
      refine Kept.ite_snd ?_ ?_
      · exact hv1.units
      · exact h.units

theorem Kept.flwWrites (h : Kept s t) (ws : List (ℕ × W32)) : Kept s (State.flwWrites ws t).2 := by
  induction ws generalizing t with
  | nil => exact h
  | cons w ws ih =>
    have hset : Kept s (t.setReg w.1 w.2) := h.setReg _ _
    refine Kept.ite_snd ?_ (ih hset)
    have hload := hset.flwLoad ((t.setReg w.1 w.2).reg2 0x0E0000) w.2
    split
    next u e => exact ih (hload.of_snd e)
    next => exact hload

theorem Kept.flwClose (h : Kept s t) (ws : List (ℕ × W32)) : Kept s (t.flwClose ws).2 := Kept.ite_snd h (h.flwWrites _)

theorem kept_execFlwLoadDone (s : State) : Answers s (execFlwLoadDone s) := by
  have h := Kept.refl s
  unfold Machine.execFlwLoadDone
  split
  · refine Answers.ite ?_ h.next
    refine Kept.next ?_
    exact h.units
  · exact h.next

theorem Kept.writeFlw (h : Kept s t) (i : Init) (r : RegRow) (o v : ℕ) : Kept s (writeFlw i r o v t).2 := by
  unfold Machine.writeFlw
  refine Kept.ite_snd ?_ (Kept.ite_snd (h.accept _ _ _) (h.accept _ _ _))
  split
  · refine Kept.ite_snd (h.accept _ _ _) ?_
    refine Kept.ite_snd (h.refuse _) ?_
    refine Kept.ite_snd (h.refuse _) ?_
    extract_lets u1
    have hu1 : Kept s u1 := h.setReg _ _
    exact hu1.units
  · refine Kept.ite_snd (h.accept _ _ _) ?_
    refine Kept.ite_snd (h.refuse _) ?_
    refine Kept.ite_snd (h.refuse _) ?_
    extract_lets u2
    have hu2 : Kept s u2 := h.setReg _ _
    exact hu2.units
  · exact h.refuse _

theorem kept_execFlwSapwoodLoadDone (s : State) : Answers s (execFlwSapwoodLoadDone s) := by
  have h := Kept.refl s
  unfold Machine.execFlwSapwoodLoadDone
  split
  · exact h.next
  · refine Answers.ite ?_ h.next
    split
    · extract_lets u1
      have hu1 : Kept s u1 := Kept.ite (h.tablePut _ _ _) h
      refine Kept.next ?_
      exact hu1.units

theorem kept_if97Op (x : Ix) (op : ℕ) (rd ra rb : GReg) (region : Word → Word → Option ℕ) (s : State) :
    Answers s (if97Op x op rd ra rb region s) := by
  unfold Machine.if97Op
  refine kept_garnil _ _ _ fun u hu => ?_
  extract_lets
  split
  · exact hu.putMe _ _
  · exact hu.putMe _ _

theorem kept_execIsocd (x : Ix) (rd ra rb : GReg) (s : State) : Answers s (execIsocd x rd ra rb s) := by
  unfold Machine.execIsocd
  refine kept_garnilPriv _ _ _ _ fun u hu => ?_
  exact GRes.kept_ite trivial (hu.putMe _ _)

theorem kept_execTbli (x : Ix) (rd ra rb : GReg) (s : State) : Answers s (execTbli x rd ra rb s) := by
  unfold Machine.execTbli
  refine kept_garnilPriv _ _ _ _ fun u hu => ?_
  extract_lets
  split
  · exact hu.putMe _ _
  · extract_lets
    split
    · split
      · exact hu.putMe _ _
      · exact hu.putMe _ _
    · exact hu.putMe _ _

theorem kept_execSqacc (x : Ix) (ad : AReg) (ra rb : GReg) (s : State) : Answers s (execSqacc x ad ra rb s) := by
  unfold Machine.execSqacc
  refine kept_garnil _ _ _ fun u hu => ?_
  exact GRes.kept_ite trivial (GRes.kept_ite (hu.putMe _ _) trivial)

/-! ### The vault -/

theorem Kept.slotCheck (h : Kept s t) (k : ℕ) : Kept s (t.slotCheck k) := by
  unfold State.slotCheck
  refine Kept.ite ?_ h
  refine Kept.event ?_ _ _
  exact h.other rfl

theorem Kept.ktCache (h : Kept s t) (idx : ℕ) (h' : Item) (key : List Byte) : Kept s (t.ktCache idx h' key) := by
  unfold State.ktCache
  refine Kept.ite h ?_
  exact h.other rfl

theorem Kept.keyLook (h : Kept s t) (w : Who) (handle e : ℕ) (open_ : Bool) : Kept s (t.keyLook w handle e open_).2 := by
  unfold State.keyLook
  extract_lets _ _ u1
  have hu1 : Kept s u1 := h.slotCheck _
  refine Kept.ite_snd ?_ ?_
  · refine Kept.ite_snd h ?_
    split
    · exact hu1
    · exact hu1
    · exact hu1
    · exact Kept.ite_snd hu1 hu1
  · refine Kept.ite_snd ?_ h
    refine Kept.ite_snd h ?_
    split
    · exact h
    · extract_lets
      refine Kept.ite_snd ?_ h
      split
      · exact h.ktCache _ _ _
      · exact h.event _ _

theorem Kept.cw3 (h : Kept s t) (w : Who) : Kept s (t.cw3 w).2 := by
  unfold State.cw3
  split
  · exact h
  · exact h.draw _

theorem Kept.cryptDone (h : Kept s t) (w : Who) (rd : GReg) (st : Status) (gen : Byte) : (cryptDone w rd st gen t).kept s := h.putMe _ _

theorem kept_aead (x : Ix) (rd ra : GReg) (open_ : Bool) (okLen : CryptBlk → Bool)
    (f : CryptBlk → List Byte → List Byte → List Byte → List Byte → Option (List Byte)) (s : State) :
    Answers s (aead x rd ra open_ okLen f s) := by
  unfold Machine.aead
  refine kept_garnil _ _ _ fun u hu => ?_
  refine GRes.kept_ite trivial ?_
  refine GRes.kept_ite trivial ?_
  split
  · next e2 =>
      split
      · next e3 =>
          extract_lets u1
          have hu1 : Kept s u1 := ((((hu.cw3 _).of_snd e2).keyLook _ _ _ _).of_snd e3)
          refine GRes.kept_ite (hu1.cryptDone _ _ _ _) ?_
          refine GRes.kept_ite (hu1.cryptDone _ _ _ _) ?_
          split
          · exact (hu1.putMe _ _).cryptDone _ _ _ _
          · exact (hu1.putMe _ _).cryptDone _ _ _ _

theorem kept_execHash (x : Ix) (rd ra : GReg) (s : State) : Answers s (execHash x rd ra s) := by
  unfold Machine.execHash
  refine kept_garnil _ _ _ fun u hu => ?_
  refine GRes.kept_ite trivial ?_
  exact GRes.kept_ite (hu.cryptDone _ _ _ _) (GRes.kept_ite ((hu.putMe _ _).cryptDone _ _ _ _) trivial)

theorem State.mrExtend_eq : State.mrExtend = fun n m s =>
    { s with sec := { s.sec with mrs := Tab.set 0#384 s.sec.mrs n (sha384v (bytesOf 48 (s.sec.mr n) ++ bytesOf 48 m)) } } := rfl

theorem Kept.mrExtend (h : Kept s t) (n : ℕ) (m : BitVec 384) : Kept s (t.mrExtend n m) := by
  rw [State.mrExtend_eq]
  exact h.vault rfl

theorem Kept.ktWrite (h : Kept s t) (c : KCmd) (key : List Byte) (valid : Bool) : Kept s (t.ktWrite c key valid) := by
  unfold State.ktWrite
  extract_lets
  split
  · next v2 e2 =>
      have hv2 : Kept s v2 := by
        refine Kept.of_snd ?_ e2
        refine Kept.ite_snd ?_ ?_
        · split
          · exact h.units
        · split
          · next e3 => exact (h.units.draw _).of_snd e3
      extract_lets u2
      have hu2 : Kept s u2 := Kept.ite (hv2.ramWrite _ _) hv2
      exact hu2.ramWrite _ _

theorem Kept.kApply (h : Kept s t) (c : KCmd) : Kept s (t.kApply c) := by
  unfold State.kApply
  extract_lets _ _ _ _ u1 u2
  have hu1 : Kept s u1 := by
    unfold u1
    refine Kept.ite ?_ ?_
    · refine Kept.event ?_ _ _
      exact h.other rfl
    · refine Kept.ite (h.ktWrite _ _ _) ?_
      refine Kept.ite ?_ ?_
      · exact h.other rfl
      · exact h.other rfl
  have hu2 : Kept s u2 := hu1.mrExtend _ _
  exact hu2.event _ _

theorem Kept.kRun (h : Kept s t) (cs : List KCmd) : Kept s (State.kRun cs t).2 := by
  induction cs generalizing t with
  | nil => exact h
  | cons c cs ih => exact Kept.ite_snd (ih (h.kApply c)) h

theorem Kept.kProbe (h : Kept s t) (cs : List KCmd) : Kept s (t.kProbe cs) := by
  unfold State.kProbe
  refine Kept.foldl _ (fun u b => ?_) _ h
  extract_lets u1
  have hu1 : Kept u u1 := Kept.ite ((Kept.refl _).slotCheck _) (Kept.refl _)
  exact Kept.ite hu1 (hu1.slotCheck _)

theorem Kept.seqApplySec (h : Kept s t) (i : Init) (ws : List (ℕ × W32)) : Kept s (seqApplySec i ws t).2.2 := by
  unfold Machine.seqApplySec
  extract_lets _ u1
  have hu1 : Kept s u1 := h.kProbe _
  split
  · next e2 =>
      refine Kept.ite_snd_snd hu1 ?_
      refine Kept.ite_snd_snd ?_ ?_
      · exact hu1.other rfl
      · exact Kept.foldl _ (fun u _ => (Kept.refl u).setReg _ _) _ ((hu1.kRun _).of_snd e2)

theorem Kept.otpApply (h : Kept s t) : Kept s t.otpApply := by
  unfold State.otpApply
  split
  · exact h
  · extract_lets _ u1
    have hu1 : Kept s u1 := by
      unfold u1
      refine Kept.foldl _ (fun u _ => (Kept.refl u).kApply _) _ ?_
      exact h.other rfl
    exact Kept.foldl _ (fun u _ => (Kept.refl u).setReg _ _) _ hu1

theorem Kept.otpLost (h : Kept s t) : Kept s t.otpLost := by
  unfold State.otpLost
  split
  · exact h
  · split
    · next e1 =>
        extract_lets
        split
        · extract_lets u1
          have hu1 : Kept s u1 := by
            unfold u1
            refine Kept.foldl _ (fun u _ => (Kept.refl u).kApply _) _ ?_
            exact ((h.draw _).of_snd e1).other rfl
          split
          · refine Kept.ite hu1 ?_
            refine Kept.ite ?_ ?_
            · exact hu1.other rfl
            · exact hu1.other rfl
          · exact hu1

theorem Kept.statement (h : Kept s t) : Kept s t.statement.2 := by
  unfold State.statement
  exact h.units

theorem Kept.acceptAligned (h : Kept s t) (n : ℕ) (r : RegRow) (o v : ℕ) : Kept s (acceptAligned n r o v t).2 := h.accept _ _ _

theorem Kept.writeSec (h : Kept s t) (i : Init) (r : RegRow) (o v : ℕ) : Kept s (writeSec i r o v t).2 := by
  unfold Machine.writeSec
  refine Kept.ite_snd (h.refuse _) ?_
  refine Kept.ite_snd ?_ ?_
  · refine Kept.ite ?_ h
    exact h.other rfl
  · refine Kept.ite_snd (h.acceptAligned _ _ _ _) ?_
    refine Kept.ite_snd (Kept.ite_snd (h.mrExtend _ _) (h.refuse _)) ?_
    refine Kept.ite_snd ?_ ?_
    · refine Kept.ite_snd h ?_
      refine Kept.ite_snd ?_ ?_
      · exact h.other rfl
      · refine Kept.ite_snd ?_ ?_
        · exact h.other rfl
        · split
          · next e2 => exact ((h.statement).of_snd e2).other rfl
    · refine Kept.ite_snd ?_ (h.accept _ _ _)
      exact h.other rfl

theorem kept_execAttestationDone (s : State) : Answers s (execAttestationDone s) := by
  have h := Kept.refl s
  unfold Machine.execAttestationDone
  split
  · exact h.next
  · refine Answers.ite h.next ?_
    extract_lets _ _ _ u1
    have hu1 : Kept s u1 := Kept.ite (h.ramWrite _ _) h
    refine Kept.next ?_
    exact hu1.other rfl

/-! ### The ledger -/

theorem Kept.calLoad (h : Kept s t) (addr : ℕ) (cmd : W32) : Kept s (t.calLoad addr cmd).2 := by
  unfold State.calLoad
  extract_lets
  split
  · refine Kept.ite_snd ?_ ?_
    · extract_lets
      exact h.units
    · exact h.units

theorem Kept.ldgWrites (h : Kept s t) (ws : List (ℕ × W32)) : Kept s (State.ldgWrites ws t).2 := by
  induction ws generalizing t with
  | nil => exact h
  | cons w ws ih =>
    have hset : Kept s (t.setReg w.1 w.2) := h.setReg _ _
    refine Kept.ite_snd ?_ (ih hset)
    have hload := hset.calLoad ((t.setReg w.1 w.2).reg2 Reg.ldgCaladdr) w.2
    split
    next u e => exact ih (hload.of_snd e)
    next => exact hload

theorem Kept.ldgClose (h : Kept s t) (ws : List (ℕ × W32)) : Kept s (t.ldgClose ws).2 := Kept.ite_snd h (h.ldgWrites _)

theorem kept_execCalendarLoadDone (s : State) : Answers s (execCalendarLoadDone s) := by
  have h := Kept.refl s
  unfold Machine.execCalendarLoadDone
  refine Answers.ite ?_ h.next
  refine Kept.next ?_
  exact h.units

theorem Kept.ldgSwitch (h : Kept s t) : Kept s t.ldgSwitch := h.units

theorem kept_execLadd (x : Ix) (k : LKind) (ad : AReg) (ra rb : GReg) (s : State) : Answers s (execLadd x k ad ra rb s) := by
  unfold Machine.execLadd
  obtain ⟨rate, hrate⟩ := exists_eq' (a' := @rateFor)
  rw [hrate]
  refine kept_garnilPriv _ _ _ _ fun u hu => GRes.kept_unlessFenced ?_
  extract_lets
  refine GRes.kept_ite trivial ?_
  refine GRes.kept_ite (hu.putMe _ _) ?_
  refine GRes.kept_ite trivial ?_
  split
  · next v2 e2 =>
      have hv2 : Kept s v2 := by
        refine Kept.of_snd_snd ?_ e2
        split
        · exact hu
        · split
          · next e2 => exact (hu.draw _).of_snd e2
      extract_lets
      generalize in128 _ = fits
      split
      · exact hv2.putMe _ _
      · trivial

theorem kept_execLread (x : Ix) (ad : AReg) (ra rb : GReg) (s : State) : Answers s (execLread x ad ra rb s) := by
  unfold Machine.execLread
  refine kept_garnilPriv _ _ _ _ fun u hu => GRes.kept_ite trivial ?_
  refine GRes.kept_ite trivial ?_
  refine GRes.kept_ite ?_ ?_
  · split
    · next e2 => exact ((hu.draw _).of_snd e2).putMe _ _
  · split
    · exact hu.putMe _ _
    · split
      · exact hu.putMe _ _
      · trivial

theorem Kept.setPw (h : Kept s t) (l i : ℕ) (v : W32) : Kept s (t.setPw l i v) := h.units

theorem Kept.profOvf (h : Kept s t) (l : ℕ) : Kept s (t.profOvf l) := by
  unfold State.profOvf
  refine Kept.event ?_ _ _
  exact h.units

theorem Kept.formStart (h : Kept s t) : Kept s t.formStart := by
  unfold State.formStart
  split
  · exact h.units
  · exact h

theorem Kept.formOne (h : Kept s t) (i l : ℕ) : Kept s (t.formOne i l) := by
  unfold State.formOne
  refine Kept.ite h ?_
  extract_lets
  split
  · next v2 e2 =>
      have hv2 : Kept s v2 := by
        refine Kept.of_snd ?_ e2
        split
        · exact h
        · split
          · next e2 => exact (h.draw _).of_snd e2
      extract_lets _ _ u1
      have hu1 : Kept s u1 := (hv2.ramWrite _ _).setPw _ _ _
      exact hu1.units

theorem Kept.formEmpty (h : Kept s t) (l i : ℕ) : Kept s (t.formEmpty l i) := by
  unfold State.formEmpty
  split
  · next v1 e1 =>
      have hv1 : Kept s v1 := by
        refine Kept.of_snd ?_ e1
        split
        · exact h
        · split
          · next e1 => exact (h.draw _).of_snd e1
      exact hv1.units

theorem Kept.profLate (h : Kept s t) (x : LAdd) (i : ℕ) (en : Bool) (c : ℤ) : Kept s (t.profLate x i en c) := by
  unfold State.profLate
  extract_lets u1
  have hu1 : Kept s u1 := Kept.ite h (h.formEmpty _ _)
  split
  · exact hu1
  · extract_lets _ bits
    split
    · extract_lets _ bits
      exact Kept.ite (hu1.units.profOvf _) hu1.units

theorem Kept.profOpen (h : Kept s t) (x : LAdd) (i : ℕ) (en : Bool) (c : ℤ) : Kept s (t.profOpen x i en c) := by
  unfold State.profOpen
  extract_lets
  refine Kept.ite (h.setPw _ _ _) ?_
  split
  · extract_lets u1
    have hu1 : Kept s u1 := (h.ramPut _ _).setPw _ _ _
    exact Kept.ite (hu1.profOvf _) hu1

theorem Kept.bookOne (h : Kept s t) (x : LAdd) : Kept s (t.bookOne x) := by
  unfold State.bookOne
  extract_lets _ u1 _ _ u2
  have hu1 : Kept s u1 := h.ramPut _ _
  have hu2 : Kept s u2 := by
    unfold u2
    split
    · exact hu1
    · exact Kept.ite (hu1.profLate _ _ _ _) (hu1.profOpen _ _ _ _)
  refine Kept.ite ?_ hu2
  refine Kept.event ?_ _ _
  exact hu2.units

theorem Kept.bookPoint (h : Kept s t) (l : ℕ) (st : Stamp) : Kept s (t.bookPoint l st) := by
  unfold State.bookPoint
  extract_lets _ u1
  have hu1 : Kept s u1 := h.ramPut _ _
  exact Kept.ite (hu1.ramPut _ _) hu1

theorem Kept.book (h : Kept s t) (ls : List LAdd) : Kept s (t.book ls) := by
  unfold State.book
  extract_lets u1 _ u2 u3
  have hu1 : Kept s u1 := Kept.ite h (h.formStart)
  have hu2 : Kept s u2 := Kept.foldl _ (fun u _ => (Kept.refl u).bookOne _) _ hu1
  have hu3 : Kept s u3 := Kept.foldl _ (fun u _ => (Kept.refl u).bookPoint _ _) _ hu2
  exact hu3.units

theorem kept_execProfileRecordForm (s : State) : Answers s (execProfileRecordForm s) := by
  have h := Kept.refl s
  unfold Machine.execProfileRecordForm
  split
  · exact h.next
  · extract_lets _ _ u1
    have hu1 : Kept s u1 := Kept.foldl _ (fun u _ => (Kept.refl u).formOne _ _) _ h
    refine Answers.ite ?_ h.next
    refine Kept.next ?_
    exact hu1.units

theorem kept_execProfileRetentionDiscard (s : State) : Answers s (execProfileRetentionDiscard s) := by
  have h := Kept.refl s
  unfold Machine.execProfileRetentionDiscard
  split
  · exact h.next
  · extract_lets
    refine Answers.ite ?_ h.next
    refine Kept.next ?_
    exact h.units

theorem Kept.copyLines (h : Kept s t) (src dst n : ℕ) : Kept s (State.copyLines src dst n t) := by
  induction n generalizing t src dst with
  | zero => exact h
  | succ n ih => exact ih (Kept.ite h (h.ramWrite _ _)) _ _

theorem kept_execSnapshotDone (s : State) : Answers s (execSnapshotDone s) := by
  have h := Kept.refl s
  unfold Machine.execSnapshotDone
  split
  · exact h.next
  · refine Answers.ite ?_ h.next
    extract_lets u1
    have hu1 : Kept s u1 := h.copyLines _ _ _
    refine Kept.next ?_
    exact hu1.units

theorem Kept.heartLoaded (h : Kept s t) (img params : List Byte) : Kept s (t.heartLoaded img params) := by
  unfold State.heartLoaded
  refine Kept.event ?_ _ _
  exact h.units

theorem kept_execLegalShowAssert (s : State) : Answers s (execLegalShowAssert s) := by
  have h := Kept.refl s
  unfold Machine.execLegalShowAssert
  refine Answers.ite h.next ?_
  split
  · refine Kept.next ?_
    exact h.units
  · refine Kept.next ?_
    exact h.units

theorem kept_execLegalShowPage (s : State) : Answers s (execLegalShowPage s) := by
  have h := Kept.refl s
  unfold Machine.execLegalShowPage
  split
  · exact h.next
  · extract_lets
    refine Answers.ite ?_ h.next
    refine Kept.next ?_
    exact h.units

theorem kept_execLegalShowEnd (s : State) : Answers s (execLegalShowEnd s) := by
  have h := Kept.refl s
  unfold Machine.execLegalShowEnd
  split
  · exact h.next
  · refine Answers.ite ?_ h.next
    refine Kept.next (Kept.event ?_ _ _)
    exact h.units

theorem Kept.writeLdg (h : Kept s t) (i : Init) (r : RegRow) (o v : ℕ) : Kept s (writeLdg i r o v t).2 := by
  unfold Machine.writeLdg
  refine Kept.ite_snd (h.accept _ _ _) ?_
  refine Kept.ite_snd ?_ ?_
  · refine Kept.ite_snd (h.refuse _) ?_
    extract_lets _ u1
    have hu1 : Kept s u1 := by
      unfold u1
      split
      · exact h.units
      · exact h
    exact hu1.accept _ _ _
  · refine Kept.ite_snd (Kept.ite_snd (h.refuse _) (h.accept _ _ _)) ?_
    refine Kept.ite_snd ?_ ?_
    · extract_lets
      exact h.units
    · refine Kept.ite_snd ?_ ?_
      · extract_lets _ x2
        refine Kept.ite_snd (h.refuse _) ?_
        exact h.units
      · refine Kept.ite_snd (Kept.ite_snd (h.accept _ _ _) (h.refuse _)) ?_
        refine Kept.ite_snd ?_ (h.accept _ _ _)
        refine Kept.ite_snd (h.refuse _) ?_
        refine Kept.ite_snd (h.refuse _) ?_
        refine Kept.ite_snd (h.refuse _) ?_
        exact h.units

/-! ### Converters, points and pulse inputs -/

theorem Kept.openInstant (h : Kept s t) (p c : ℕ) : Kept s (t.openInstant p c) := by
  unfold State.openInstant
  exact h.setPt _ _

theorem Kept.markBad (h : Kept s t) (p : ℕ) : Kept s (t.markBad p) := by
  unfold State.markBad
  refine Kept.ite ?_ h
  exact Kept.foldl _ (fun u _ => (Kept.refl u).setChan _ _) _ h

theorem Kept.calReject (h : Kept s t) (p reason : ℕ) : Kept s (t.calReject p reason) := by
  unfold State.calReject
  split
  · exact h
  · extract_lets _ u1
    have hu1 : Kept s u1 := h.setPt _ _
    exact hu1.units.event _ _

theorem Kept.faultEdge (h : Kept s t) (ch idx : ℕ) (was now : Bool) : Kept s (t.faultEdge ch idx was now) := Kept.ite h (h.event _ _)

theorem Kept.openRound (h : Kept s t) (n : ℤ) (d : ℕ) : Kept s (t.openRound n d).2 := by
  unfold State.openRound
  refine Kept.ite_snd h ?_
  split
  · next e2 => exact (h.draw _).of_snd e2

theorem Kept.chanFaults (h : Kept s t) (ch : ℕ) : Kept s (t.chanFaults ch) := by
  unfold State.chanFaults
  extract_lets
  split
  · extract_lets u1 u2
    have hu1 : Kept s u1 := h.setChan _ _
    have hu2 : Kept s u2 := (hu1.faultEdge _ _ _ _).faultEdge _ _ _ _
    exact hu2.faultEdge _ _ _ _

theorem Kept.blockRecord (h : Kept s t) (p : ℕ) : Kept s (t.blockRecord p).2 := by
  unfold State.blockRecord
  extract_lets
  split
  · next e1 => exact (Kept.ite_snd h (h.openRound _ _)).of_snd e1

theorem Kept.spnBlock (h : Kept s t) (m : BlockMsg) : Kept s (t.spnBlock m) := by
  unfold State.spnBlock
  refine Kept.ite ?_ h
  exact h.units

theorem Kept.blockLost (h : Kept s t) (p : ℕ) : Kept s (t.blockLost p) := by
  unfold State.blockLost
  exact (h.setPt _ _).event _ _

theorem Kept.closeBlock (h : Kept s t) (p : ℕ) : Kept s (t.closeBlock p) := by
  unfold State.closeBlock
  extract_lets _ _ _ _ u1
  have hu1 : Kept s u1 := by
    unfold u1
    refine Kept.ite (h.blockLost _) ?_
    refine Kept.ite ((h.blockLost _).markBad _) ?_
    split
    · next e2 =>
        extract_lets u2 _ _ u3 _ u4
        have hu2 : Kept s u2 := ((h.blockRecord _).of_snd e2).ramWrite _ _
        have hu3 : Kept s u3 := hu2.setPt _ _
        have hu4 : Kept s u4 := hu3.setPt _ _
        refine Kept.ite ?_ (hu3.setPt _ _)
        split
        · next e6 =>
            extract_lets u5
            have hu5 : Kept s u5 := ((hu4.stampAs _ _ _).of_snd e6).fifoPush _ _ _
            exact hu5.spnBlock _
  exact hu1.setPt _ _

theorem Kept.chanBoundary (h : Kept s t) (ch : ℕ) : Kept s (t.chanBoundary ch) := by
  unfold State.chanBoundary
  extract_lets _ _ _ u1 _ _ u2
  have hu1 : Kept s u1 := h.setChan _ _
  have hu2 : Kept s u2 := by
    unfold u2
    split
    · extract_lets u3
      have hu3 : Kept s u3 := hu1.setChan _ _
      exact (hu3.setPt _ _).event _ _
    · exact hu1
  split
  · extract_lets u4
    have hu4 : Kept s u4 := hu2.setChan _ _
    exact (hu4.setPt _ _).event _ _
  · exact hu2

theorem Kept.calBoundary (h : Kept s t) (p : ℕ) : Kept s (t.calBoundary p) := by
  unfold State.calBoundary
  split
  · exact h
  · refine Kept.ite ?_ ?_
    · refine Kept.ite ?_ (h.setPt _ _)
      extract_lets u1
      have hu1 : Kept s u1 := Kept.foldl _ (fun u _ => (Kept.refl u).setChan _ _) _ h
      exact hu1.setPt _ _
    · extract_lets u2
      have hu2 : Kept s u2 := Kept.foldl _ (fun u _ => (Kept.refl u).setChan _ _) _ h
      exact hu2.setPt _ _

theorem Kept.boundary (h : Kept s t) (p : ℕ) : Kept s (t.boundary p) := by
  unfold State.boundary
  extract_lets u1 _ u2 u3
  have hu1 : Kept s u1 := by
    unfold u1
    refine Kept.ite h ?_
    refine Kept.closeBlock ?_ _
    exact Kept.foldl _ (fun u _ => (Kept.refl u).chanFaults _) _ h
  have hu2 : Kept s u2 := hu1.setPt _ _
  have hu3 : Kept s u3 := Kept.foldl _ (fun u b => ((Kept.refl _).setChan _ _).chanBoundary _) _ hu2
  exact hu3.calBoundary _

/-- The boundary that is due runs before a sample (R131). -/
theorem Kept.sampleState (h : Kept s t) {p c : ℕ} {u : State} (e : t.sampleState p = some (c, u)) : Kept s u := by
  unfold State.sampleState at e
  split at e
  · simp at e
  · split at e
    · split at e
      · simp only [Option.some.injEq, Prod.mk.injEq] at e
        exact e.2 ▸ h
      · simp at e
    · simp only [Option.some.injEq, Prod.mk.injEq] at e
      exact e.2 ▸ Kept.ite (h.boundary p) h

theorem Kept.bridgeEvent (h : Kept s t) : Kept s t.bridgeEvent := by
  unfold State.bridgeEvent
  split
  · next e1 => exact ((h.draw _).of_snd e1).event _ _

theorem kept_execDieBridgeTransfer (load : BridgeLoad) (ok : Bool) (s : State) : Answers s (execDieBridgeTransfer load ok s) := by
  have h := Kept.refl s
  unfold Machine.execDieBridgeTransfer
  split
  · extract_lets p
    refine Answers.ite ?_ h.next
    split
    · exact h.next
    · next c u e =>
      have hu : Kept s (u.openInstant p c) := (h.sampleState e).openInstant _ _
      refine Answers.ite (Answers.ite hu.next ?_) h.next
      extract_lets _ bad last
      have hbad : Kept s bad := (hu.setPt _ _).markBad _
      refine Kept.next (Kept.bridgeEvent ?_)
      unfold last
      split
      · exact Kept.ite (hbad.calReject _ _) hbad
      · exact hbad
  · exact Answers.ite (h.setPulse _ _).bridgeEvent.next h.next
  · refine Answers.ite (Kept.next (Kept.bridgeEvent ?_)) h.next
    exact h.units

theorem Kept.takeSample (h : Kept s t) (ch : ℕ) (x th : ℤ) (openLead : Bool) : Kept s (t.takeSample ch x th openLead) := by
  unfold State.takeSample
  extract_lets
  split
  · extract_lets _ u1 _ u2 _ _ u4
    have hu1 : Kept s u1 := h.setChan _ _
    have hu2 : Kept s u2 := hu1.setPt _ _
    have hu4 : Kept s u4 := hu2.units.faultEdge _ _ _ _
    exact hu4.faultEdge _ _ _ _

theorem kept_execDecimatedSample (ch : Fin 96) (x : ℤ) (theta : BitVec 16) (lead : Bool) (s : State) :
    Answers s (execDecimatedSample ch x theta lead s) := by
  have h := Kept.refl s
  unfold Machine.execDecimatedSample
  refine Answers.ite ?_ h.next
  split
  · exact h.next
  · next e =>
    have hu := h.sampleState e
    exact Answers.ite h.next (Answers.ite (hu.takeSample _ _ _ _).next (Answers.ite ((hu.openInstant _ _).takeSample _ _ _ _).next h.next))

theorem Kept.openDiv (h : Kept s t) (n d : ℤ) : Kept s (t.openDiv n d).2 := Kept.ite_snd (h.openRound _ _) (h.openRound _ _)

theorem Kept.calCoef (h : Kept s t) (c : Calib) : Kept s (t.calCoef c).2 := by
  unfold State.calCoef
  extract_lets
  split
  · refine Kept.ite_snd ?_ ?_
    · split
      · next e2 => exact (h.openDiv _ _).of_snd e2
    · refine Kept.ite_snd ?_ ?_
      · split
        · next e2 => exact (h.openDiv _ _).of_snd e2
      · split
        · exact h
        · split
          · next e2 =>
              split
              · next e3 => exact (((h.openDiv _ _).of_snd e2).openDiv _ _).of_snd e3

theorem kept_execCalibrationVerdict (point : Fin 32) (s : State) : Answers s (execCalibrationVerdict point s) := by
  have h := Kept.refl s
  unfold Machine.execCalibrationVerdict
  extract_lets _ _ u1
  have hu1 : Kept s u1 := h.setPt _ _
  split
  · exact h.next
  · refine Answers.ite ?_ h.next
    split
    · extract_lets
      refine Answers.ite ?_ ?_
      · split
        · exact (hu1.units.setChan _ _).next
      · split
        · next e3 => exact (((hu1.units.calCoef _).of_snd e3).setChan _ _).next
    · exact (h.calReject _ _).next
    · split
      · next e2 => exact (((h.draw _).of_snd e2).calReject _ _).next

theorem kept_execRtdLowPointExpiry (ch : Fin 96) (s : State) : Answers s (execRtdLowPointExpiry ch s) := by
  have h := Kept.refl s
  unfold Machine.execRtdLowPointExpiry
  split
  · exact Answers.ite (h.setChan _ _).next h.next
  · exact h.next

theorem Kept.calAbortAll (h : Kept s t) : Kept s t.calAbortAll := by
  unfold State.calAbortAll
  exact Kept.foldl _ (fun u _ => (Kept.refl u).calReject _ _) _ h

theorem Kept.blobLoad (h : Kept s t) (addr ch : ℕ) : Kept s (t.blobLoad addr ch).2 := by
  unfold State.blobLoad
  refine Kept.ite_snd h ?_
  refine Kept.ite_snd h ?_
  split
  · extract_lets
    exact Kept.ite_snd h (Kept.ite_snd h (h.setChan _ _))
  · exact h

theorem Kept.calStart (h : Kept s t) (ref cmd : W32) : Kept s (t.calStart ref cmd).2 := by
  unfold State.calStart
  exact Kept.ite_snd h (Kept.ite_snd h (Kept.ite_snd h (Kept.ite_snd h (h.setPt _ _))))

theorem Kept.afeClose (h : Kept s t) (ws : List (ℕ × W32)) : Kept s (State.afeClose ws t).2 := by
  induction ws generalizing t with
  | nil => exact h
  | cons w ws ih =>
    unfold State.afeClose
    extract_lets u r
    have hu : Kept s u := h.setReg _ _
    have hr : Kept s r.2 := Kept.ite_snd (hu.blobLoad _ _) (Kept.ite_snd (hu.calStart _ _) hu)
    clear_value r
    split
    · next v => exact ih hr
    · exact hr

theorem Kept.calRefused (h : Kept s t) (st : Status) (ws : List (ℕ × W32)) : Kept s (t.calRefused st ws) := by
  unfold State.calRefused
  split
  · refine Kept.ite ?_ h
    exact h.units
  · exact h

theorem Kept.writeAfe (h : Kept s t) (i : Init) (r : RegRow) (o v : ℕ) : Kept s (writeAfe i r o v t).2 := by
  unfold Machine.writeAfe
  extract_lets _ _ _ u1
  have hu1 : Kept s u1 := h.setChan _ _
  refine Kept.ite_snd (h.refuse _) ?_
  refine Kept.ite_snd (h.store _ _ _) ?_
  refine Kept.ite_snd (h.store _ _ _) ?_
  refine Kept.ite_snd ?_ ?_
  · split
    · split
      · exact Kept.ite (hu1.calReject _ _) hu1
      · exact hu1
    · exact h.refuse _
  · refine Kept.ite_snd (Kept.ite_snd (h.refuse _) (h.accept _ _ _)) ?_
    refine Kept.ite_snd (Kept.ite_snd (h.refuse _) (Kept.ite_snd (h.refuse _) (h.setPulse _ _))) ?_
    refine Kept.ite_snd (h.accept _ _ _) ?_
    refine Kept.ite_snd ?_ (h.accept _ _ _)
    split
    · exact Kept.ite_snd (h.refuse _) (h.setPt _ _)

theorem Kept.pulseBody (h : Kept s t) (i : ℕ) : Kept s (t.pulseBody i).2 := by
  unfold State.pulseBody
  extract_lets
  split
  · next e1 => exact (Kept.ite_snd h (h.draw _)).of_snd e1

theorem Kept.pulseIssue (h : Kept s t) (i : ℕ) : Kept s (t.pulseIssue i) := by
  unfold State.pulseIssue
  extract_lets
  split
  · next e1 =>
      extract_lets u1
      have hu1 : Kept s u1 := Kept.ite (((h.pulseBody _).of_snd e1).event _ _) ((h.pulseBody _).of_snd e1)
      refine Kept.ite ?_ (hu1.setPulse _ _)
      split
      · next e4 => exact (((hu1.stampAs _ _ _).of_snd e4).fifoPush _ _ _).spnBlock _

theorem Kept.pulseRoll (h : Kept s t) (i sec : ℕ) : Kept s (t.pulseRoll i sec) := by
  unfold State.pulseRoll
  refine Kept.ite h ?_
  extract_lets u1
  have hu1 : Kept s u1 := Kept.ite h (h.pulseIssue _)
  exact hu1.setPulse _ _

theorem Kept.pulseAccept (h : Kept s t) (i : ℕ) (e : PEdge) : Kept s (t.pulseAccept i e) := by
  unfold State.pulseAccept
  extract_lets _ _ _ u1 _ u2
  have hu1 : Kept s u1 := h.setPulse _ _
  have hu2 : Kept s u2 := hu1.pulseRoll _ _
  exact Kept.ite (hu2.setPulse _ _) (Kept.ite (hu2.setPulse _ _) (hu2.setPulse _ _))

theorem Kept.pulseFlush (h : Kept s t) (i : ℕ) : Kept s (t.pulseFlush i) := by
  unfold State.pulseFlush
  extract_lets
  split
  · exact Kept.ite ((h.setPulse _ _).pulseAccept _ _) h
  · exact h

theorem Kept.pulseSettle (h : Kept s t) (i : ℕ) : Kept s (t.pulseSettle i) := by
  unfold State.pulseSettle
  refine Kept.ite (h.pulseFlush _) ?_
  split
  · extract_lets u1
    have hu1 : Kept s u1 := h.pulseFlush _
    exact Kept.ite hu1 (hu1.pulseFlush _)

theorem kept_execPulseEdge (inp : Fin 64) (rising : Bool) (s : State) : Answers s (execPulseEdge inp rising s) := by
  have h := Kept.refl s
  unfold Machine.execPulseEdge
  extract_lets _ _ u1 _ _ u2 u3
  have hu1 : Kept s u1 := h.pulseSettle _
  have hu2 : Kept s u2 := hu1.setPulse _ _
  have hu3 : Kept s u3 := Kept.ite hu2 (hu2.pulseRoll _ _)
  refine Answers.ite ?_ h.next
  split
  · exact (hu1.setPulse _ _).next
  · refine Answers.ite ?_ (hu3.setPulse _ _).next
    extract_lets u4
    have hu4 : Kept s u4 := (hu1.setPulse _ _).pulseAccept _ _
    exact (hu4.setPulse _ _).next

theorem kept_execPulseSecondItem (inp : Fin 64) (s : State) : Answers s (execPulseSecondItem inp s) := by
  have h := Kept.refl s
  unfold Machine.execPulseSecondItem
  extract_lets _ u1
  have hu1 : Kept s u1 := h.pulseSettle _
  exact Answers.ite (Answers.ite hu1.next (hu1.pulseRoll _ _).next) h.next

theorem Kept.issueBlock (h : Kept s t) (p : ℕ) (k : TimeRec × Item) : Kept s (t.issueBlock p k) := by
  unfold State.issueBlock
  refine Kept.ite h ?_
  extract_lets _ u1
  have hu1 : Kept s u1 := h.setPt _ _
  split
  · next e3 => exact ((hu1.stampAs _ _ _).of_snd e3).fifoPush _ _ _

theorem Kept.issuePulse (h : Kept s t) (i : ℕ) (k : TimeRec × Item) : Kept s (t.issuePulse i k) := by
  unfold State.issuePulse
  refine Kept.ite h ?_
  extract_lets _ u1
  have hu1 : Kept s u1 := h.setPulse _ _
  split
  · next e3 => exact ((hu1.stampAs _ _ _).of_snd e3).fifoPush _ _ _

theorem Kept.custodyTakeover (h : Kept s t) : Kept s t.custodyTakeover := by
  unfold State.custodyTakeover
  extract_lets _ u1
  have hu1 : Kept s u1 := Kept.foldl _ (fun u _ => (Kept.refl u).issueBlock _ _) _ h
  exact Kept.foldl _ (fun u _ => (Kept.refl u).issuePulse _ _) _ hu1

theorem Kept.custForget (h : Kept s t) : Kept s t.custForget := by
  unfold State.custForget
  refine Kept.ite h ?_
  extract_lets u1
  have hu1 : Kept s u1 := Kept.foldl _ (fun u _ => (Kept.refl u).setPt _ _) _ h
  exact Kept.foldl _ (fun u _ => (Kept.refl u).setPulse _ _) _ hu1

/-! ### The balance -/

theorem Kept.balSwitch (h : Kept s t) (b32 : ℕ) : Kept s (t.balSwitch b32) := by
  unfold State.balSwitch
  split
  · exact h
  · extract_lets
    exact h.units

theorem kept_execBalTopologyLoadDone (s : State) : Answers s (execBalTopologyLoadDone s) := by
  have h := Kept.refl s
  unfold Machine.execBalTopologyLoadDone
  split
  · exact h.next
  · refine Answers.ite ?_ h.next
    split
    · extract_lets
      refine Kept.next ?_
      exact h.units

theorem kept_execBalpost (x : Ix) (rd ra rb : GReg) (s : State) : Answers s (execBalpost x rd ra rb s) := by
  unfold Machine.execBalpost
  refine kept_garnilPriv _ _ _ _ fun u hu => GRes.kept_ite trivial ?_
  exact GRes.kept_ite trivial (GRes.kept_ite trivial (hu.putMe _ _))

theorem Kept.markDirty (h : Kept s t) (n i : ℕ) : Kept s (t.markDirty n i) := by
  unfold State.markDirty
  refine Kept.ite h ?_
  exact h.units

theorem Kept.postEdge (h : Kept s t) (p : Posting) (t' : Topo) (e : BitVec 64) : Kept s (t.postEdge p t' e) := by
  unfold State.postEdge
  refine Kept.ite ?_ (Kept.ite (h.units.markDirty _ _) h.units)
  exact h.units

theorem Kept.postBook (h : Kept s t) (p : Posting) : Kept s (t.postBook p) := by
  unfold State.postBook
  extract_lets
  refine Kept.ite ?_ ?_
  · exact h.units
  · split
    · exact h
    · refine Kept.ite ?_ ?_
      · extract_lets u2
        have hu2 : Kept s u2 := Kept.foldl _ (fun u _ => (Kept.refl u).markDirty _ _) _ h.units
        split
        · exact Kept.foldl _ (fun u _ => (Kept.refl u).markDirty _ _) _ hu2
        · exact hu2
      · extract_lets u3
        have hu3 : Kept s u3 := Kept.foldl _ (fun u _ => (Kept.refl u).postEdge _ _ _) _ h
        refine Kept.ite ?_ hu3
        exact hu3.units

theorem Kept.balItem (h : Kept s t) (t' : Topo) (i n : ℕ) (r : BitVec 1024) : Kept s (t.balItem t' i n r) := by
  unfold State.balItem
  split
  · next e1 =>
      extract_lets _ u1
      have hu1 : Kept s u1 := by
        unfold u1
        refine Kept.ite ?_ ((h.nextSeq _).of_snd e1)
        exact ((h.nextSeq _).of_snd e1).units
      refine Kept.ite ?_ ?_
      · split
        · next e4 =>
            refine Kept.ite ((hu1.hwPut _ _).of_snd e4) ?_
            exact ((hu1.hwPut _ _).of_snd e4).units
      · exact hu1.units

theorem State.verdictPut_eq : State.verdictPut = fun i n r s =>
    let bs := bytesOf 124 r
    (s.ramWrite (s.verdictAddr i n) (bs ++ bytesOf 4 (crcC bs))).2 := rfl

theorem Kept.verdictPut (h : Kept s t) (i n : ℕ) (r : BitVec 1024) : Kept s (t.verdictPut i n r) := by
  rw [State.verdictPut_eq]
  exact h.ramWrite _ _

theorem Kept.cusPut (h : Kept s t) (i n : ℕ) (v : Word) (crc : W32) : Kept s (t.cusPut i n v crc) := h.units

theorem Kept.closeNode (h : Kept s t) (t' : Topo) (i n : ℕ) : Kept s (t.closeNode t' i n) := by
  unfold State.closeNode
  refine Kept.ite h ?_
  exact ((h.cusPut _ _ _ _).verdictPut _ _ _).balItem _ _ _ _

theorem Kept.closeFrom (h : Kept s t) (tp : Topo) (i k n : ℕ) : Kept s (State.closeFrom tp i k n t).2 := by
  induction k generalizing t n with
  | zero => exact h
  | succ k ih => exact Kept.ite_snd h (ih (h.closeNode _ _ _) _)

theorem Kept.closeInterval (h : Kept s t) (i : ℕ) : Kept s (t.closeInterval i) := by
  unfold State.closeInterval
  split
  · exact h.units
  · next tp _ =>
    extract_lets _ u
    have hu : Kept s u := Kept.ite h h.units
    split
    next e =>
    have hv := (hu.closeFrom _ _ _ _).of_snd e
    split
    · exact hv.units
    · exact hv.units

theorem Kept.closeStart (h : Kept s t) : Kept s t.closeStart := by
  unfold State.closeStart
  exact h.units

theorem Kept.closeAllDue (h : Kept s t) (k : ℕ) : Kept s (State.closeAllDue k t) := by
  induction k generalizing t with
  | zero => exact h
  | succ k ih =>
    unfold State.closeAllDue
    split
    · exact h
    · refine Kept.ite h (Kept.ite ?_ (Kept.ite (h.closeInterval _) (ih (h.closeInterval _))))
      exact h.units

theorem Kept.postCommit (h : Kept s t) (p : Posting) : Kept s (t.postCommit p) := (h.closeAllDue _).postBook _

theorem kept_execBalIntervalClose (s : State) : Answers s (execBalIntervalClose s) := by
  have h := Kept.refl s
  unfold Machine.execBalIntervalClose
  refine Answers.ite h.next ?_
  extract_lets u1
  have hu1 : Kept s u1 := Kept.ite (h.closeStart) h
  exact (hu1.closeAllDue _).next

theorem kept_execBalDeferredClose (s : State) : Answers s (execBalDeferredClose s) := by
  have h := Kept.refl s
  unfold Machine.execBalDeferredClose
  refine Answers.ite h.next ?_
  split
  · refine Kept.next ?_
    exact h.units
  · extract_lets u1
    have hu1 : Kept s u1 := Kept.ite (h.closeInterval _) h
    refine Kept.next ?_
    exact hu1.units

theorem Kept.reviseNode (h : Kept s t) (i n : ℕ) : Kept s (t.reviseNode i n).2 := by
  unfold State.reviseNode
  split
  · exact h
  · refine Kept.ite_snd h ?_
    extract_lets _ _ _ u1
    have hu1 : Kept s u1 := h.cusPut _ _ _ _
    refine Kept.ite_snd hu1 ?_
    refine Kept.ite_snd ?_ ((hu1.verdictPut _ _ _).balItem _ _ _ _)
    split
    · next e3 =>
        refine Kept.event ?_ _ _
        extract_lets u2
        have hu2 : Kept s u2 := ((hu1.draw _).of_snd e3).verdictPut _ _ _
        exact hu2.units

theorem Kept.reviseFrom (h : Kept s t) (n k i : ℕ) (carry : Bool) : Kept s (State.reviseFrom n k i carry t) := by
  induction k generalizing t i carry with
  | zero => exact h
  | succ k ih =>
    unfold State.reviseFrom
    refine Kept.ite ?_ (Kept.ite ?_ (ih h _ _))
    · have hm : Kept s (if carry then t.markDirty n i else t) := Kept.ite (h.markDirty _ _) h
      exact hm.units
    · refine ih (Kept.reviseNode ?_ i n) _ _
      exact h.units

theorem Kept.reviseAll (h : Kept s t) (l : List (ℕ × ℕ)) : Kept s (t.reviseAll l) := by
  unfold State.reviseAll
  refine Kept.foldl _ (fun u _ => (Kept.refl u).reviseFrom _ _ _ _) _ ?_
  exact h.units

theorem kept_execBalRevisionBoundary (s : State) : Answers s (execBalRevisionBoundary s) := by
  have h := Kept.refl s
  unfold Machine.execBalRevisionBoundary
  extract_lets _ _ _ _ u1
  have hu1 : Kept s u1 := h.units
  exact Answers.ite (hu1.reviseAll _).next h.next

theorem kept_execBalIntervalFinal (s : State) : Answers s (execBalIntervalFinal s) := by
  have h := Kept.refl s
  unfold Machine.execBalIntervalFinal
  refine Answers.ite h.next ?_
  refine Kept.next ?_
  exact h.units

theorem Kept.balDrain (h : Kept s t) (k : ℕ) : Kept s (State.balDrain k t) := by
  induction k generalizing t with
  | zero => exact h
  | succ k ih =>
    unfold State.balDrain
    split
    · exact h
    · split
      next ok u e =>
      have hu : Kept s u := (h.hwPut _ _).of_snd e
      exact Kept.ite (ih hu.units) hu

theorem kept_execBalOutputRetry (s : State) : Answers s (execBalOutputRetry s) := by
  have h := Kept.refl s
  unfold Machine.execBalOutputRetry
  refine Answers.ite h.next ?_
  extract_lets u1 u2
  have hu1 : Kept s u1 := h.balDrain _
  have hu2 : Kept s u2 := Kept.ite (hu1.closeAllDue _) hu1
  exact (Kept.ite hu2 (hu2.reviseAll _)).next

theorem Kept.writeBal (h : Kept s t) (i : Init) (r : RegRow) (o v : ℕ) : Kept s (writeBal i r o v t).2 := by
  unfold Machine.writeBal
  refine Kept.ite_snd ?_ ?_
  · refine Kept.ite_snd (h.refuse _) ?_
    refine Kept.ite_snd (h.accept _ _ _) ?_
    refine Kept.ite_snd (h.refuse _) ?_
    exact h.units
  · refine Kept.ite_snd ?_ ?_
    · refine Kept.ite_snd (h.refuse _) ?_
      exact h.units.accept _ _ _
    · refine Kept.ite_snd ?_ ?_
      · extract_lets x2
        exact h.units
      · refine Kept.ite_snd ?_ ?_
        · split
          · next e2 => exact ((h.accept _ _ _).of_snd e2).units
        · refine Kept.ite_snd (Kept.ite_snd (h.accept _ _ _) (h.refuse _)) ?_
          refine Kept.ite_snd ?_ (h.accept _ _ _)
          extract_lets _ _ x2 u2
          have hu2 : Kept s u2 := by
            unfold u2
            refine Kept.ite h ?_
            exact h.units
          exact Kept.ite_snd (h.refuse _) (Kept.ite (hu2.markDirty _ _) hu2)

/-! ### Port pools -/

theorem Kept.poolTake (h : Kept s t) (port : ℕ) (used : List ℕ) : Kept s (t.poolTake port used).2 := by
  unfold State.poolTake
  extract_lets free
  cases free with
  | nil => exact h
  | cons k ks => exact h.draw 32

theorem Kept.putCompletion (h : Kept s t) (cq : ℕ) (reqid : Word) (st : Status) : Kept s (t.putCompletion cq reqid st).2 := h.hwPut _ _

theorem Kept.toTwin (h : Kept s t) (o : Out) : Kept s (t.toTwin o) := by
  unfold State.toTwin
  refine Kept.ite ?_ h
  exact h.units

theorem Kept.journalPut (h : Kept s t) (e : JEntry) : Kept s (t.journalPut e) := by
  unfold State.journalPut
  refine Kept.toTwin ?_ _
  exact h.units

/-! ### Updates -/

theorem Kept.norPut (h : Kept s t) (a : ℕ) (bs : List Byte) : Kept s (t.norPut a bs) := h.units

theorem Kept.bootWrite (h : Kept s t) (version : ℕ) (img : List Byte) : Kept s (t.bootWrite version img) := by
  unfold State.bootWrite
  exact (h.norPut _ _).norPut _ _

theorem Kept.huskImage (h : Kept s t) (k : Husk) : Kept s (t.huskImage k).2 := by
  unfold State.huskImage
  split
  next l u e =>
  have hu : Kept s u := Kept.of_snd (Kept.ite_snd (h.keyLook _ _ _ _) h) e
  refine Kept.ite_snd hu ?_
  extract_lets clear
  clear_value clear
  split
  · exact hu
  · split
    exact Kept.ite_snd hu (Kept.ite_snd hu (Kept.ite_snd hu hu))

theorem Kept.stageImg (h : Kept s t) (h' : Husk) (img : List Byte) : Kept s (t.stageImg h' img) := by
  unfold State.stageImg
  refine Kept.ite (h.bootWrite _ _) ?_
  refine Kept.foldl _ (fun u b => ?_) _ h
  exact (Kept.refl _).units

theorem Kept.updDone (h : Kept s t) (kind : ℕ) (st : Status) : Kept s (t.updDone kind st) := h.units

theorem kept_execHuskVerifyDone (s : State) : Answers s (execHuskVerifyDone s) := by
  have h := Kept.refl s
  unfold Machine.execHuskVerifyDone
  split
  · exact h.next
  · refine Answers.ite h.next ?_
    split
    · extract_lets _ u1
      have hu1 : Kept s u1 := Kept.ite (h.slotCheck _) h
      split
      · next e2 =>
          extract_lets u2 u3
          have hu2 : Kept s u2 := ((Kept.ite_snd (hu1.huskImage _) hu1).of_snd e2).updDone _ _
          have hu3 : Kept s u3 := (hu2.stageImg _ _).event _ _
          exact Answers.ite (hu2.event _ _).next (Kept.ite (hu3.event _ _) hu3).next

theorem Kept.updDiscard (h : Kept s t) (kind clusters : ℕ) : Kept s (t.updDiscard kind clusters).2 := by
  unfold State.updDiscard
  split
  · exact h.updDone _ _
  · refine Kept.updDone ?_ _ _
    refine Kept.foldl _ (fun u b => ?_) _ h
    exact (Kept.refl _).units

theorem Kept.reconTaken (h : Kept s t) (recon : Bool) : Kept s (t.reconTaken recon) := h.units

theorem Kept.updRevert (h : Kept s t) (kind clusters : ℕ) (recon : Bool) : Kept s (t.updRevert kind clusters recon).2 := by
  unfold State.updRevert
  extract_lets _ u1
  have hu1 : Kept s u1 := by
    unfold u1
    refine Kept.foldl _ (fun u b => ?_) _ h
    exact (Kept.refl _).units
  exact Kept.ite_snd (h.updDone _ _) (Kept.ite_snd (h.updDone _ _) ((hu1.updDone _ _).reconTaken _))

theorem Kept.updCmd (h : Kept s t) (v : ℕ) : Kept s (t.updCmd v).2 := by
  unfold State.updCmd
  refine Kept.ite_snd h ?_
  refine Kept.ite_snd ?_ ?_
  · refine Kept.ite_snd ?_ h
    split
    · next e2 =>
        refine Kept.event ?_ _ _
        exact ((h.draw _).of_snd e2).units
  · refine Kept.ite_snd ?_ (Kept.ite_snd (h.updDiscard _ _) (Kept.ite_snd (h.updRevert _ _ _) h))
    exact h.units

theorem Kept.writeUpd (h : Kept s t) (i : Init) (r : RegRow) (o v : ℕ) : Kept s (writeUpd i r o v t).2 := by
  unfold Machine.writeUpd
  refine Kept.ite_snd (h.refuse _) ?_
  refine Kept.ite_snd (h.updCmd _) ?_
  exact Kept.ite_snd (Kept.ite_snd (h.refuse _) (h.accept _ _ _)) (h.accept _ _ _)

theorem Kept.handoverGate (h : Kept s t) : Kept s t.handoverGate := by
  unfold State.handoverGate
  refine Kept.ite h ?_
  exact h.units

theorem Tab.wfFrom_append {α : Type} [DecidableEq α] (d : α) {lo mid : ℕ} (t r : Tab α) (hlo : lo ≤ mid) (ht : Tab.wfFrom d lo t = true)
    (hkeys : ∀ p ∈ t, p.1 < mid) (hr : Tab.wfFrom d mid r = true) : Tab.wfFrom d lo (t ++ r) = true := by
  induction t generalizing lo with
  | nil => exact Tab.wfFrom_mono d hlo r hr
  | cons p t ih =>
    obtain ⟨k, v⟩ := p
    simp only [List.cons_append, Tab.wfFrom, Bool.and_eq_true, decide_eq_true_eq] at ht ⊢
    have hk : k < mid := hkeys _ List.mem_cons_self
    exact ⟨ht.1, ih hk ht.2 fun p hp => hkeys p (List.mem_cons_of_mem _ hp)⟩

theorem Tab.wfFrom_of_keys {α : Type} [DecidableEq α] (d : α) {lo mid : ℕ} (t : Tab α) (ht : Tab.wfFrom d lo t = true)
    (hkeys : ∀ p ∈ t, mid ≤ p.1) : Tab.wfFrom d mid t = true := by
  cases t with
  | nil => rfl
  | cons p t =>
    simp only [Tab.wfFrom, Bool.and_eq_true, decide_eq_true_eq] at ht ⊢
    exact ⟨⟨hkeys _ List.mem_cons_self, ht.1.2⟩, ht.2⟩

theorem Tab.wfFrom_zip_range' {α : Type} [DecidableEq α] (d : α) (a n : ℕ) (bs : List α) :
    Tab.wfFrom d a (((List.range' a n).zip bs).filter fun p => decide (p.2 ≠ d)) = true := by
  induction n generalizing a bs with
  | zero => rfl
  | succ n ih =>
    cases bs with
    | nil => rfl
    | cons b bs =>
      have hrest := ih (a + 1) bs
      rw [List.range'_succ, List.zip_cons_cons, List.filter_cons]
      split
      · next hb => simp_all [Tab.wfFrom]
      · exact Tab.wfFrom_mono d (Nat.le_succ a) _ hrest

/-- A span written into a table keeps the canonical form. -/
theorem wf_tabSpan (d : Byte) (t : Tab Byte) (a n : ℕ) (bs : List Byte) (h : Tab.wf d t = true) : Tab.wf d (tabSpan d t a n bs) = true := by
  have hlow := Tab.wf_filter d (fun p => decide (p.1 < a)) t h
  have hhigh := Tab.wf_filter d (fun p => decide (a + n ≤ p.1)) t h
  unfold Tab.wf tabSpan at *
  refine Tab.wfFrom_append d (mid := a + n) _ _ (Nat.zero_le _) (Tab.wfFrom_append d (mid := a) _ _ (Nat.zero_le _) hlow ?_ ?_) ?_ ?_
  · simp
  · exact Tab.wfFrom_zip_range' d a _ _
  · intro p hp
    simp only [List.mem_append, List.mem_filter, decide_eq_true_eq] at hp
    obtain hp | ⟨hp, -⟩ := hp
    · omega
    · have hk := (List.of_mem_zip hp).1
      simp only [List.mem_range'_1, List.length_take] at hk
      omega
  · exact Tab.wfFrom_of_keys d _ hhigh fun p hp => by simpa using (List.mem_filter.1 hp).2

theorem Kept.loadStore (h : Kept s t) (c : ℕ) (img : List Byte) : Kept s (t.loadStore c img) := by
  unfold State.loadStore
  have hu : Kept s { t with ge := { t.ge with store := tabSpan 0#8 t.ge.store (c * 0x40000) 0x40000 img } } :=
    h.trans ⟨rfl, rfl, rfl, rfl, rfl, fun f => ⟨f.1, f.2.1, wf_tabSpan _ _ _ _ _ f.2.2⟩⟩
  exact Kept.ite (hu.mrExtend _ _) (hu.mrExtend _ _)

theorem Kept.activate (h : Kept s t) (k : ℕ) : Kept s (t.activate k) := by
  unfold State.activate
  split
  · exact h
  · exact h.units

theorem Kept.handoverLoad (h : Kept s t) (cl bad : BitVec 4) : Kept s (t.handoverLoad cl bad) := by
  unfold State.handoverLoad
  extract_lets u1 u2 _ _ u3 u4
  have hu1 : Kept s u1 := by
    unfold u1
    refine Kept.foldl _ (fun u b => ?_) _ h
    split
    · exact (Kept.refl _).loadStore _ _
    · exact Kept.refl _
  have hu2 : Kept s u2 := by
    unfold u2
    split
    · exact hu1.mrExtend _ _
    · exact hu1
  have hu3 : Kept s u3 := Kept.foldl _ (fun u _ => (Kept.refl u).activate _) _ hu2
  have hu4 : Kept s u4 := by
    unfold u4
    split
    · exact hu3.heartLoaded _ _
    · exact hu3
  refine Kept.ite ?_ ?_
  · refine Kept.event ?_ _ _
    exact hu2.units
  · refine Kept.event ?_ _ _
    exact hu4.units

theorem kept_execHandoverDrainEnd (bad : BitVec 4) (s : State) : Answers s (execHandoverDrainEnd bad s) := by
  have h := Kept.refl s
  unfold Machine.execHandoverDrainEnd
  split
  · exact Answers.ite (h.handoverLoad _ _).next h.next
  · exact h.next

theorem kept_execDrainwarnExpiry (s : State) : Answers s (execDrainwarnExpiry s) := by
  have h := Kept.refl s
  unfold Machine.execDrainwarnExpiry
  split
  · refine Answers.ite ?_ h.next
    refine Kept.next (Kept.event ?_ _ _)
    exact h.units
  · exact h.next

/-! ### DRAM lines -/

theorem Kept.hostError (h : Kept s t) (addr : ℕ) (st : Status) (agent : ℕ) : Kept s (t.hostError addr st agent) := by
  unfold State.hostError
  refine Kept.ite ?_ ?_
  · exact h.units
  · exact h.units

theorem Kept.dramAnswer (h : Kept s t) (i : Init) (a : ℕ) (st : Status) : Kept s (t.dramAnswer i a st) :=
  (Kept.ite (h.hostError _ _ _) h).respond _ _

theorem Kept.lineVerify (h : Kept s t) (l : ℕ) (c : LineCond) : Kept s (t.lineVerify l c).2 := by
  unfold State.lineVerify
  refine Kept.ite_snd h ?_
  split
  · exact h
  · refine Kept.count ?_ _ _ _
    exact h.other rfl
  · exact h.poisonLine _

theorem kept_execDramLineRead (i : Init) (line : BitVec 28) (c : LineCond) (s : State) : Answers s (execDramLineRead i line c s) := by
  have h := Kept.refl s
  unfold Machine.execDramLineRead
  extract_lets _ _ u1
  have hu1 : Kept s u1 := h.count _ _ _
  refine Answers.ite h.next ?_
  refine Answers.ite (h.dramAnswer _ _ _).next ?_
  split
  · next e2 => exact (((hu1.lineVerify _ _).of_snd e2).dramAnswer _ _ _).next

theorem Kept.restoreCount (h : Kept s t) (l : ℕ) : Kept s (t.restoreCount l) := by
  unfold State.restoreCount
  refine Kept.ite ?_ h
  exact h.units

theorem kept_execDramLineWrite (i : Init) (line : BitVec 28) (v : Item) (s : State) : Answers s (execDramLineWrite i line v s) := by
  have h := Kept.refl s
  unfold Machine.execDramLineWrite
  extract_lets _ _ u1
  have hu1 : Kept s u1 := (h.restoreCount _).count _ _ _
  refine Answers.ite h.next ?_
  exact Answers.ite (h.dramAnswer _ _ _).next ((hu1.lineWrite _ _ _).respond _ _).next

theorem kept_execDramPartialWrite (i : Init) (line : BitVec 28) (first : Fin 64) (data : List Byte) (c : LineCond) (s : State) :
    Answers s (execDramPartialWrite i line first data c s) := by
  have h := Kept.refl s
  unfold Machine.execDramPartialWrite
  extract_lets _ _ _ _ _ u1
  have hu1 : Kept s u1 := h.count _ _ _
  refine Answers.ite h.next ?_
  refine Answers.ite (h.dramAnswer _ _ _).next ?_
  refine Answers.ite ?_ ?_
  · exact ((((h.restoreCount _).count _ _ _).lineWrite _ _ _).respond _ _).next
  · split
    · next e2 =>
        refine Answers.ite ?_ ?_
        · extract_lets u2
          have hu2 : Kept s u2 := ((hu1.lineVerify _ _).of_snd e2).ramPut _ _
          exact (Kept.ite hu2 (hu2.respond _ _)).next
        · refine Answers.ite ?_ (((hu1.lineVerify _ _).of_snd e2).dramAnswer _ _ _).next
          refine Kept.next (Kept.event ?_ _ _)
          exact ((hu1.lineVerify _ _).of_snd e2).other rfl

theorem kept_execScrubLine (line : BitVec 28) (c : LineCond) (written : Bool) (s : State) : Answers s (execScrubLine line c written s) := by
  have h := Kept.refl s
  unfold Machine.execScrubLine
  extract_lets _ _ _ u1 u2
  have hu1 : Kept s u1 := h.other rfl
  have hu2 : Kept s u2 := Kept.ite hu1 (hu1.lineVerify _ _)
  refine Answers.ite h.next ?_
  refine Kept.next (Kept.ite ?_ hu2)
  exact hu2.other rfl

theorem Kept.writeMem (h : Kept s t) (i : Init) (r : RegRow) (o v : ℕ) : Kept s (writeMem i r o v t).2 := by
  unfold Machine.writeMem
  refine Kept.ite_snd ?_ ?_
  · refine Kept.ite_snd (h.refuse _) ?_
    extract_lets _ u1
    have hu1 : Kept s u1 := by
      unfold u1
      refine Kept.ite ?_ h
      exact h.other rfl
    exact hu1.accept _ _ _
  · refine Kept.ite_snd ?_ ?_
    · exact h.other rfl
    · exact Kept.ite_snd (Kept.ite_snd (h.refuse _) (h.accept _ _ _)) (h.accept _ _ _)

/-! ### The NAND layer -/

theorem Kept.lifeCheck (h : Kept s t) : Kept s t.lifeCheck := by
  unfold State.lifeCheck
  refine Kept.ite ?_ h
  refine Kept.event ?_ _ _
  exact h.units

theorem Kept.wearDie (h : Kept s t) (d : ℕ) : Kept s (t.wearDie d) := by
  unfold State.wearDie
  split
  · next e1 => exact ((h.draw _).of_snd e1).setDie _ _

theorem Kept.nandFlush (h : Kept s t) (fuel : ℕ) : Kept s (State.nandFlush fuel t) := by
  induction fuel generalizing t with
  | zero => exact h
  | succ fuel ih =>
    unfold State.nandFlush
    split
    · exact h
    · split
      next ok u e =>
      have hu : Kept s u := (h.hwPut _ _).of_snd e
      exact Kept.ite (ih hu.units) hu

theorem Kept.nandComplete (h : Kept s t) (x : Item) (st : Status) (n : ℕ) : Kept s (t.nandComplete x st n) := by
  unfold State.nandComplete
  exact h.units.nandFlush _

theorem Kept.nandWritesDone (h : Kept s t) : Kept s t.nandWritesDone := by
  unfold State.nandWritesDone
  exact Kept.foldl _ (fun u _ => (Kept.refl u).nandComplete _ _ _) _ h.units

theorem Kept.closeStripe (h : Kept s t) (g : ℕ) : Kept s (t.closeStripe g) := by
  unfold State.closeStripe
  extract_lets _ u1 _ _ u3
  have hu1 : Kept s u1 := h.setStripe _ _
  have hu3 : Kept s u3 := Kept.foldl _ (fun u _ => (Kept.refl u).wearDie _) _ hu1.units
  exact Kept.ite h ((hu3.nandWritesDone).lifeCheck)

theorem Kept.closeAll (h : Kept s t) : Kept s t.closeAll := by
  unfold State.closeAll
  exact Kept.foldl _ (fun u _ => (Kept.refl u).closeStripe _) _ h

theorem Kept.dropPages (h : Kept s t) (ids : List ℕ) : Kept s (t.dropPages ids) := h.units

theorem Kept.nandAbort (h : Kept s t) (st : Status) (f : NCmd → Bool) : Kept s (t.nandAbort st f) := by
  unfold State.nandAbort
  extract_lets _ u1
  have hu1 : Kept s u1 := h.dropPages _
  exact Kept.foldl _ (fun u _ => (Kept.refl u).nandComplete _ _ _) _ hu1.units

theorem Kept.placeSector (h : Kept s t) (id : ℕ) (k : ℕ × List Byte) : Kept s (t.placeSector id k) := by
  unfold State.placeSector
  extract_lets
  split
  · next e1 =>
      extract_lets _ _ _ _ u1
      have hu1 : Kept s u1 := ((h.draw _).of_snd e1).setStripe _ _
      exact Kept.ite (hu1.closeStripe _) hu1

theorem Kept.nandRun (h : Kept s t) (x : Item) (who : Option ℕ) : Kept s (t.nandRun x who) := by
  unfold State.nandRun
  obtain ⟨read, hread⟩ := exists_eq' (a' := State.unitRead)
  rw [hread]
  extract_lets _ _ u1 _ _ u2 u3
  have hu1 : Kept s u1 := h.units
  have hu2 : Kept s u2 := hu1.units
  have hu3 : Kept s u3 := hu1.units
  refine Kept.ite (hu1.nandComplete _ _ _) ?_
  refine Kept.ite hu1.units ?_
  refine Kept.ite (hu1.closeAll.nandComplete _ _ _) ?_
  refine Kept.ite (hu1.nandComplete _ _ _) ?_
  refine Kept.ite (hu2.nandComplete _ _ _) ?_
  split
  refine Kept.ite (hu1.nandComplete _ _ _) ?_
  exact Kept.foldl _ (fun u _ => (Kept.refl u).placeSector _ _) _ hu3

theorem Kept.nandTake (h : Kept s t) (op : ℕ) : Kept s (t.nandTake op) := by
  unfold State.nandTake
  refine Kept.ite h ?_
  extract_lets u1
  have hu1 : Kept s u1 := h.nandFlush _
  split
  · exact hu1
  · refine Kept.ite ?_ hu1
    split
    · next e3 => exact (hu1.hwTake _).of_snd e3
    · next e3 =>
        extract_lets _ _ u2
        have hu2 : Kept s u2 := ((hu1.hwTake _).of_snd e3).units
        exact hu2.nandRun _ _

theorem Kept.nandDeliver (h : Kept s t) (a : ℕ) (bs : List Byte) : Kept s (t.nandDeliver a bs).2 := by
  unfold State.nandDeliver
  refine Kept.ite_snd h ?_
  extract_lets u1
  have hu1 : Kept s u1 := Kept.foldl _ (fun u _ => (Kept.refl u).restoreCount _) _ h
  exact hu1.ramWrite _ _

theorem kept_execNandReadDone (bad rebuilt : List ℕ) (s : State) : Answers s (execNandReadDone bad rebuilt s) := by
  have h := Kept.refl s
  unfold Machine.execNandReadDone
  have hd {v : State} (hv : Kept s v) (a : ℕ) (bs : List Byte) : Kept s (v.nandDeliver a bs).2 := hv.nandDeliver a bs
  obtain ⟨deliver, hdeliver⟩ := exists_eq' (a' := State.nandDeliver)
  rw [hdeliver] at hd ⊢
  split
  · exact h.next
  · refine Answers.ite h.next ?_
    extract_lets _ bad _ _ u1
    have hu1 : Kept s u1 := h.units
    split
    · next e2 =>
        extract_lets u2 u3
        have hu2 : Kept s u2 := by
          unfold u2
          refine Kept.foldl _ (fun u b => ?_) _ ((hd hu1 _ _).of_snd e2)
          extract_lets
          split
          · next e4 =>
              extract_lets _ v u4
              have hu4 : Kept u u4 := Kept.ite (((Kept.refl _).draw _).of_snd e4) ((((Kept.refl _).draw _).of_snd e4).setDie _ _)
              exact hu4.event _ _
        have hu3 : Kept s u3 := by
          unfold u3
          refine Kept.foldl _ (fun u b => Kept.event ?_ _ _) _ hu2
          exact (Kept.refl _).units
        exact (hu3.nandComplete _ _ _).next

theorem kept_execStripeClose (grp : Fin 16) (s : State) : Answers s (execStripeClose grp s) := by
  have h := Kept.refl s
  unfold Machine.execStripeClose
  exact Answers.ite (h.closeStripe _).next h.next

theorem Kept.readonlyCheck (h : Kept s t) : Kept s t.readonlyCheck := by
  unfold State.readonlyCheck
  exact Kept.ite h (h.units.nandAbort _ _)

theorem kept_execDieFailure (die : Fin 64) (s : State) : Answers s (execDieFailure die s) := by
  have h := Kept.refl s
  unfold Machine.execDieFailure
  extract_lets _ u1 _ u2
  have hu1 : Kept s u1 := h.setDie _ _
  have hu2 : Kept s u2 := by
    unfold u2
    refine Kept.event ?_ _ _
    exact hu1.units
  exact Answers.ite h.next ((hu2.readonlyCheck).lifeCheck).next

theorem kept_execRebuildDone (s : State) : Answers s (execRebuildDone s) := by
  have h := Kept.refl s
  unfold Machine.execRebuildDone
  refine Answers.ite ?_ h.next
  refine Kept.next ?_
  exact h.units

theorem kept_execMapCheckpoint (s : State) : Answers s (execMapCheckpoint s) := by
  have h := Kept.refl s
  unfold Machine.execMapCheckpoint
  refine Answers.ite ?_ h.next
  refine Kept.next ?_
  exact h.units

theorem kept_execNftMapLoaded (s : State) : Answers s (execNftMapLoaded s) := by
  have h := Kept.refl s
  unfold Machine.execNftMapLoaded
  refine Answers.ite h.next ?_
  refine Kept.next (Kept.readonlyCheck ?_)
  exact h.units

theorem Kept.formatDie (h : Kept s t) (d : ℕ) : Kept s (t.formatDie d) := by
  unfold State.formatDie
  split
  · next e1 =>
      split
      · next e2 =>
          split
          · next e3 => exact ((((((h.draw _).of_snd e1).draw _).of_snd e2).draw _).of_snd e3).setDie _ _

theorem Kept.nandFormat (h : Kept s t) (g : W32) : Kept s (t.nandFormat g) := by
  unfold State.nandFormat
  refine Kept.lifeCheck (Kept.readonlyCheck ?_)
  exact Kept.foldl _ (fun u _ => (Kept.refl u).formatDie _) _ h.units

theorem Kept.geomWrite (h : Kept s t) (v : ℕ) : Kept s (t.geomWrite v).2 := by
  unfold State.geomWrite
  exact Kept.ite_snd h (Kept.ite_snd h (Kept.ite_snd h (Kept.ite_snd h (h.nandFormat _))))

theorem Kept.writeNft (h : Kept s t) (i : Init) (r : RegRow) (o v : ℕ) : Kept s (writeNft i r o v t).2 := by
  unfold Machine.writeNft
  refine Kept.ite_snd (h.geomWrite _) ?_
  refine Kept.ite_snd (Kept.ite_snd (h.refuse _) (h.accept _ _ _)) ?_
  refine Kept.ite_snd ?_ ?_
  · refine Kept.ite ?_ h
    exact h.units
  · refine Kept.ite_snd ?_ (h.accept _ _ _)
    refine Kept.ite_snd (h.refuse _) ?_
    exact h.units

/-! ### Ordering, commits and completions -/

theorem Kept.ccRetire (h : Kept s t) (a : ℕ) : Kept s (t.ccRetire a) := by
  unfold State.ccRetire
  extract_lets _ _ u1
  have hu1 : Kept s u1 := h.ccPut _ _
  split
  · exact hu1
  · extract_lets
    exact hu1.stPut _ _

theorem Kept.ccCommit (h : Kept s t) (c : Comp) : Kept s (t.ccCommit c) := by
  unfold State.ccCommit
  extract_lets _ _ _ u1 _ u2 _ u3 u4 x5
  have hu1 : Kept s u1 := h.ccRetire _
  have hu2 : Kept s u2 := by
    unfold u2
    refine Kept.ite ?_ h
    refine Kept.ite ?_ hu1
    exact hu1.units
  have hu3 : Kept s u3 := hu2.ccPut _ _
  have hu4 : Kept s u4 := by
    unfold u4
    split
    · exact hu3
    · extract_lets x5
      exact hu3.stPut _ _
  exact hu4.units

theorem Kept.idMark (h : Kept s t) (agent : ℕ) (id : Word) : Kept s (t.idMark agent id) := by
  unfold State.idMark
  extract_lets u1
  have hu1 : Kept s u1 := by
    unfold u1
    split
    · exact h
    · split
      · exact h.stPut _ _
      · exact h
  refine Kept.ite hu1 ?_
  exact hu1.units

theorem Kept.ccSweep (h : Kept s t) : Kept s t.ccSweep := by
  unfold State.ccSweep
  extract_lets u1
  have hu1 : Kept s u1 := Kept.foldl _ (fun u b => Kept.ite ((Kept.refl _).ccRetire _) (Kept.refl _)) _ h
  refine Kept.foldl _ (fun u b => ?_) _ hu1
  exact Kept.ite ((Kept.refl _).stPut _ _) ((Kept.refl _).stPut _ _)

theorem Kept.seqOpen (h : Kept s t) (i : Init) (n : ℕ) : Kept s (t.seqOpen i n).2 := by
  unfold State.seqOpen
  extract_lets _ u1
  have hu1 : Kept s u1 := h.setSeq _ _
  refine Kept.ite_snd (h.seqNote _ _ _) ?_
  split
  · exact Kept.ite_snd (h.seqNote _ _ _) (h.seqNote _ _ _)
  · exact hu1.seqNote _ _ _

theorem Kept.seqBuffer (h : Kept s t) (i : Init) (off : ℕ) (v : W32) : Kept s (t.seqBuffer i off v).2 := by
  unfold State.seqBuffer
  exact Kept.ite_snd h (Kept.ite_snd (Kept.ite_snd (h.setSeq _ _) (h.setSeq _ _)) h)

theorem Kept.ctxClear (h : Kept s t) (c : ℕ) : Kept s (t.ctxClear c) := by
  unfold State.ctxClear
  extract_lets u1
  have hu1 : Kept s u1 := h.releaseAll _
  exact hu1.setMerge _ _

theorem Kept.ctxBound (h : Kept s t) (c : ℕ) : Kept s (t.ctxBound c) := by
  unfold State.ctxBound
  exact Kept.ite (h.setDesc _ _) h

theorem Kept.writeOrd (h : Kept s t) (i : Init) (r : RegRow) (o v : ℕ) : Kept s (writeOrd i r o v t).2 := by
  unfold Machine.writeOrd
  extract_lets _ _ _ _ u1 _ u2 _ _ u3 _ _ _ _ u4 _ u5 _ u6
  have hu1 : Kept s u1 := Kept.ite (h.setMerge _ _) (h.ctxClear _)
  have hu2 : Kept s u2 := Kept.ite (h.ctxClear _) h
  have hu3 : Kept s u3 := by
    unfold u3
    refine Kept.ite ?_ h
    exact h.units
  have hu4 : Kept s u4 := by
    unfold u4
    refine Kept.ite ?_ h
    exact h.units
  have hu5 : Kept s u5 := by
    unfold u5
    refine Kept.ite ?_ hu4
    exact hu4.units
  have hu6 : Kept s u6 := h.ramWrite _ _
  refine Kept.ite_snd (Kept.ite_snd (h.refuse _) ((hu1.setMerge _ _).ctxBound _)) ?_
  refine Kept.ite_snd ?_ ?_
  · exact Kept.ite_snd (h.refuse _) (Kept.ite_snd (h.refuse _) ((hu2.setMerge _ _).ctxBound _))
  · refine Kept.ite_snd (Kept.ite (hu3.setMerge _ _) hu3) ?_
    refine Kept.ite_snd (Kept.ite_snd (h.refuse _) (h.accept _ _ _)) ?_
    refine Kept.ite_snd ?_ ?_
    · refine Kept.ite ?_ hu5
      exact hu5.units
    · refine Kept.ite_snd ?_ ?_
      · refine Kept.ite_snd (h.refuse _) ?_
        refine Kept.ite_snd (h.refuse _) ?_
        refine Kept.ite_snd (h.refuse _) ?_
        exact hu6.units
      · refine Kept.ite_snd (Kept.ite_snd (h.refuse _) (Kept.ite_snd (h.refuse _) (h.accept _ _ _))) ?_
        refine Kept.ite_snd ?_ ?_
        · exact Kept.ite_snd (h.refuse _) (Kept.ite_snd (h.refuse _) (Kept.ite_snd (h.refuse _) (h.setLock _ _)))
        · refine Kept.ite_snd (Kept.ite_snd (h.refuse _) (h.accept _ _ _)) ?_
          exact Kept.ite_snd (Kept.ite_snd (h.refuse _) (h.accept _ _ _)) (h.accept _ _ _)

theorem kept_execMergeWindowExpiry (ctx : Fin 1024) (s : State) : Answers s (execMergeWindowExpiry ctx s) := by
  have h := Kept.refl s
  unfold Machine.execMergeWindowExpiry
  split
  · exact Answers.ite (h.releaseUpTo _ _).next h.next
  · exact h.next

theorem kept_execQuarantineExpiry (s : State) : Answers s (execQuarantineExpiry s) := by
  have h := Kept.refl s
  unfold Machine.execQuarantineExpiry
  refine Answers.ite ?_ h.next
  refine Kept.next ?_
  exact h.units

theorem kept_execLockHoldWarning (l : Fin 4096) (s : State) : Answers s (execLockHoldWarning l s) := by
  have h := Kept.refl s
  unfold Machine.execLockHoldWarning
  extract_lets
  split
  · exact Answers.ite ((h.setLock _ _).event _ _).next h.next
  · exact h.next

theorem kept_execSequenceTimeout (n : BitVec 16) (s : State) : Answers s (execSequenceTimeout n s) := by
  have h := Kept.refl s
  unfold Machine.execSequenceTimeout
  exact Answers.ite (h.seqExpire _ _).next h.next

/-! ### Powerline -/

theorem Kept.plcEvent (h : Kept s t) (n code : ℕ) (param : W32) : Kept s (t.plcEvent n code param) := h.event _ _

theorem Kept.plcDrive (h : Kept s t) (n syms : ℕ) (o : Out) : Kept s (t.plcDrive n syms o) := by
  unfold State.plcDrive
  extract_lets _ u1
  have hu1 : Kept s u1 := h.setPlc _ _
  exact hu1.units

theorem Kept.deferTo (h : Kept s t) (be : ℕ) : Kept s (t.deferTo be).2 := by
  unfold State.deferTo
  split
  · next e1 => exact (h.draw _).of_snd e1

theorem Kept.plcStart (h : Kept s t) (n : ℕ) (j : TxJob) : Kept s (t.plcStart n j) := by
  unfold State.plcStart
  extract_lets _ _ _ _ _ u1
  have hu1 : Kept s u1 := h.setPlc _ _
  exact hu1.plcDrive _ _ _

theorem Kept.plcComplete (h : Kept s t) (n : ℕ) (j : TxJob) (st : Status) : Kept s (t.plcComplete n j st) := by
  unfold State.plcComplete
  split
  · next e1 => exact ((h.putCompletion _ _ _).of_snd e1).setPlc _ _

theorem Kept.plcTry (h : Kept s t) (n : ℕ) (busy : Bool) (j : TxJob) : Kept s (t.plcTry n busy j) := by
  unfold State.plcTry
  refine Kept.ite (h.plcComplete _ _ _) ?_
  refine Kept.ite (h.setPlc _ _) ?_
  refine Kept.ite ?_ (h.plcStart _ _)
  split
  · next e2 => exact ((h.deferTo _).of_snd e2).setPlc _ _

theorem kept_execPlcTxTake (c : PlcSense) (s : State) : Answers s (execPlcTxTake c s) := by
  have h := Kept.refl s
  unfold Machine.execPlcTxTake
  obtain ⟨read, hread⟩ := exists_eq' (a' := State.unitRead)
  rw [hread]
  refine Answers.ite ?_ h.next
  split
  · next e1 => exact ((h.hwTake _).of_snd e1).next
  · next e1 =>
      extract_lets
      split
      · extract_lets _ _ _ u1
        have hu1 : Kept s u1 := Kept.ite (((h.hwTake _).of_snd e1).setPlc _ _) ((h.hwTake _).of_snd e1)
        exact (hu1.plcTry _ _ _).next
      · exact (((h.hwTake _).of_snd e1).plcComplete _ _ _).next

theorem kept_execPlcBackoffExpiry (n : Fin 2) (busy : Bool) (s : State) : Answers s (execPlcBackoffExpiry n busy s) := by
  have h := Kept.refl s
  unfold Machine.execPlcBackoffExpiry
  extract_lets
  split
  · exact Answers.ite (h.plcTry _ _ _).next h.next
  · exact h.next

theorem kept_execPlcTxEnd (n : Fin 2) (s : State) : Answers s (execPlcTxEnd n s) := by
  have h := Kept.refl s
  unfold Machine.execPlcTxEnd
  extract_lets
  split
  · split
    · exact Answers.ite (h.plcComplete _ _ _).next h.next
    · refine Answers.ite ?_ h.next
      exact Answers.ite (h.setPlc _ _).next (h.plcComplete _ _ _).next
  · exact h.next

theorem kept_execPlcAckTimeout (c : PlcSense) (s : State) : Answers s (execPlcAckTimeout c s) := by
  have h := Kept.refl s
  unfold Machine.execPlcAckTimeout
  extract_lets
  split
  · split
    · refine Answers.ite ?_ h.next
      refine Answers.ite ?_ (h.plcComplete _ _ _).next
      exact (Kept.ite (h.plcTry _ _ _) (h.setPlc _ _)).next
    · exact h.next
  · exact h.next

theorem Kept.plcAckIn (h : Kept s t) (n : ℕ) (fch : BitVec 48) : Kept s (t.plcAckIn n fch) := by
  unfold State.plcAckIn
  extract_lets
  split
  · refine Kept.ite ?_ h
    extract_lets u1
    have hu1 : Kept s u1 := by
      unfold u1
      split
      · exact Kept.ite (h.setPlc _ _) h
      · exact h
    exact hu1.plcComplete _ _ _
  · exact h

theorem Kept.plcHear (h : Kept s t) (n k : ℕ) (f : PlcRx) : Kept s (t.plcHear n k f) := by
  unfold State.plcHear
  extract_lets
  split
  · next e1 =>
      extract_lets _ _ _ u1
      have hu1 : Kept s u1 := ((h.openRound _ _).of_snd e1).setPlc _ _
      exact Kept.ite hu1 (hu1.plcEvent _ _ _)

theorem Kept.journalMap (h : Kept s t) (n k : ℕ) (a : BitVec 16) (rx : Bool) (pay : List Byte) : Kept s (t.journalMap n k a rx pay) :=
  Kept.ite (h.journalPut _) h

theorem Kept.mapFrom (h : Kept s t) (e : JEntry) : Kept s (t.mapFrom e) := by
  unfold State.mapFrom
  split
  · exact h
  · extract_lets
    exact Kept.ite h (Kept.ite (h.setPlc _ _) (h.setPlc _ _))

theorem Kept.plcMapIn (h : Kept s t) (n : ℕ) (src : BitVec 16) (pay : List Byte) : Kept s (t.plcMapIn n src pay) := by
  unfold State.plcMapIn
  refine Kept.ite (h.setPlc _ _) ?_
  split
  · exact (h.setPlc _ _).journalMap _ _ _ _ _
  · exact h

theorem Kept.plcAckDue (h : Kept s t) (n : ℕ) (src : BitVec 16) (seq : Byte) (endAt : ℕ) : Kept s (t.plcAckDue n src seq endAt) :=
  h.setPlc _ _

theorem Kept.plcDeliver (h : Kept s t) (n prio : ℕ) (src : BitVec 16) (seq fc : Byte) (cls : ℕ) (f : PlcRx) :
    Kept s (t.plcDeliver n prio src seq fc cls f).2 := by
  unfold State.plcDeliver
  extract_lets
  split
  next b u e =>
  have hu : Kept s u := (h.poolTake _ _).of_snd e
  cases b with
  | none => exact hu.setPlc _ _
  | some k =>
    dsimp only
    generalize hi : State.ingress _ _ _ _ _ = r
    have hr : Kept s r.2 := by rw [← hi]; exact (hu.ramWrite _ _).ingress _ _ _ _
    exact Kept.ite (hr.setPlc _ _) hr

theorem Kept.plcFrame (h : Kept s t) (n : ℕ) (f : PlcRx) : Kept s (t.plcFrame n f) := by
  unfold State.plcFrame
  extract_lets _ _ _ _ _ _ _ _ k _ _ _ _ heard seen _ drop
  have hheard : Kept s heard := by
    unfold heard
    cases k with
    | none => exact h
    | some k => exact h.plcHear _ _ _
  have hseen {u : State} (hu : Kept s u) : Kept s (seen u) := by
    unfold seen
    cases k with
    | none => exact hu
    | some k => exact hu.setPlc _ _
  have hdrop : Kept s drop := hheard.setPlc _ _
  refine Kept.ite h (Kept.ite (h.setPlc _ _) ?_)
  refine Kept.ite (Kept.ite (hdrop.plcAckDue _ _ _ _) hdrop) ?_
  refine Kept.ite (hseen (hheard.plcMapIn _ _ _)) ?_
  split
  next ok u e =>
  have hu : Kept s u := (hheard.plcDeliver _ _ _ _ _ _ _).of_snd e
  exact Kept.ite (Kept.ite ((hseen hu).plcAckDue _ _ _ _) (hseen hu)) hu

theorem Kept.zcSample (h : Kept s t) (n : ℕ) (d : ℤ) : Kept s (t.zcSample n d) := by
  unfold State.zcSample
  refine Kept.ite ?_ h
  extract_lets
  split
  · next e2 => exact ((h.openRound _ _).of_snd e2).setPlc _ _

theorem Kept.plcBeaconIn (h : Kept s t) (n : ℕ) (f : PlcRx) : Kept s (t.plcBeaconIn n f) := by
  unfold State.plcBeaconIn
  extract_lets _ u since
  have hu : Kept s u := h.setPlc _ _
  refine Kept.ite (h.plcDeliver _ _ _ _ _ _ _) (Kept.ite h ?_)
  cases since with
  | none => exact hu.setPlc _ _
  | some d => exact Kept.ite (hu.zcSample _ _) (hu.setPlc _ _)

theorem kept_execPlcFrameReceive (n : Fin 2) (f : PlcRx) (s : State) : Answers s (execPlcFrameReceive n f s) := by
  have h := Kept.refl s
  unfold Machine.execPlcFrameReceive
  refine Answers.ite h.next ?_
  refine Answers.ite (h.plcAckIn _ _).next ?_
  refine Answers.ite (h.plcBeaconIn _ _).next ?_
  exact Answers.ite (h.plcFrame _ _).next (h.setPlc _ _).next

theorem kept_execPlcAckSend (n : Fin 2) (s : State) : Answers s (execPlcAckSend n s) := by
  have h := Kept.refl s
  unfold Machine.execPlcAckSend
  extract_lets owed keep
  have hkeep {u : State} (l : List (BitVec 16 × Byte × ℕ)) (hu : Kept s u) : Kept s (keep l u) := hu.setPlc _ _
  cases owed with
  | nil => exact (hkeep _ h).next
  | cons a rest =>
    refine Answers.ite ?_ (hkeep _ h).next
    exact ((hkeep _ (h.draw 1)).plcDrive _ _ _).next

theorem kept_execToneMapRefresh (c : PlcSense) (entry : Fin 2048) (s : State) : Answers s (execToneMapRefresh c entry s) := by
  have h := Kept.refl s
  unfold Machine.execToneMapRefresh
  extract_lets _ _ _ _ _ _ _ _ _ _ u1
  have hu1 : Kept s u1 := h.setPlc _ _
  refine Answers.ite ?_ h.next
  refine Answers.ite h.next ?_
  refine Answers.ite ?_ ((hu1.plcDrive _ _ _).journalMap _ _ _ _ _).next
  split
  · next e2 => exact (((h.deferTo _).of_snd e2).setPlc _ _).next

theorem kept_execZeroCrossing (n : Fin 2) (phase : Fin 3) (rising : Bool) (s : State) : Answers s (execZeroCrossing n phase rising s) := by
  have h := Kept.refl s
  unfold Machine.execZeroCrossing
  refine Answers.ite ?_ h.next
  extract_lets _ _ _ _ u1
  have hu1 : Kept s u1 := h.setPlc _ _
  exact (Kept.ite (hu1.plcEvent _ _ _) hu1).next

theorem kept_execZeroCrossingLoss (n : Fin 2) (s : State) : Answers s (execZeroCrossingLoss n s) := by
  have h := Kept.refl s
  unfold Machine.execZeroCrossingLoss
  extract_lets
  split
  · exact Answers.ite ((h.setPlc _ _).plcEvent _ _ _).next h.next
  · exact h.next

theorem Kept.neutralWatch (h : Kept s t) (n : ℕ) (vs : List ℕ) : Kept s (t.neutralWatch n vs) := by
  unfold State.neutralWatch
  exact h.setPlc _ _

theorem kept_execNeutralMissing (n : Fin 2) (v1 v2 v3 : BitVec 16) (s : State) : Answers s (execNeutralMissing n v1 v2 v3 s) := by
  have h := Kept.refl s
  unfold Machine.execNeutralMissing
  refine Answers.ite ?_ h.next
  extract_lets u1 _ u2
  have hu1 : Kept s u1 := h.neutralWatch _ _
  have hu2 : Kept s u2 := hu1.setPlc _ _
  refine Answers.ite ?_ hu1.next
  refine Kept.next (Kept.event ?_ _ _)
  exact hu2.units

theorem kept_execNeutralClear (n : Fin 2) (v1 v2 v3 : BitVec 16) (s : State) : Answers s (execNeutralClear n v1 v2 v3 s) := by
  have h := Kept.refl s
  unfold Machine.execNeutralClear
  refine Answers.ite ?_ h.next
  extract_lets u1
  have hu1 : Kept s u1 := h.neutralWatch _ _
  exact (Kept.ite (hu1.setPlc _ _) hu1).next

theorem Kept.plcBeacon (h : Kept s t) (n : ℕ) (k : W32) (psdu : List Byte) (cover : Bool) : Kept s (t.plcBeacon n k psdu cover) := by
  unfold State.plcBeacon
  extract_lets _ u1 _ u2
  have hu1 : Kept s u1 := h.setPlc _ _
  have hu2 : Kept s u2 := hu1.plcDrive _ _ _
  refine Kept.ite ?_ hu2
  exact hu2.units

theorem Kept.sfBegin (h : Kept s t) (n : ℕ) (num : W32) : Kept s (t.sfBegin n num) := by
  unfold State.sfBegin
  extract_lets _ _ u1
  have hu1 : Kept s u1 := h.setPlc _ _
  split
  · exact Kept.ite hu1 (hu1.zcSample _ _)
  · exact hu1

theorem Kept.beaconStart (h : Kept s t) (n : ℕ) : Kept s (t.beaconStart n) := by
  unfold State.beaconStart
  extract_lets
  split
  · refine Kept.ite h ?_
    refine Kept.ite (h.setPlc _ _) ?_
    exact Kept.ite ((h.setPlc _ _).plcEvent _ _ _) (Kept.ite ((h.setPlc _ _).plcBeacon _ _ _ _) h)
  · exact h

theorem kept_execSuperframeStart (n : Fin 2) (s : State) : Answers s (execSuperframeStart n s) := by
  have h := Kept.refl s
  unfold Machine.execSuperframeStart
  split
  · extract_lets
    refine Answers.ite h.next ?_
    exact Answers.ite ((h.sfBegin _ _).beaconStart _).next (h.beaconStart _).next

theorem kept_execBeaconArm (n : Fin 2) (s : State) : Answers s (execBeaconArm n s) := by
  have h := Kept.refl s
  unfold Machine.execBeaconArm
  extract_lets
  split
  · extract_lets _ _ _ u1
    have hu1 : Kept s u1 := h.setPlc _ _
    refine Answers.ite ?_ h.next
    refine Answers.ite (h.setPlc _ _).next ?_
    refine Kept.next (Kept.ite ?_ hu1)
    exact hu1.units

theorem kept_execBeaconCover (n : Fin 2) (energy : Bool) (s : State) : Answers s (execBeaconCover n energy s) := by
  have h := Kept.refl s
  unfold Machine.execBeaconCover
  extract_lets _ u1
  have hu1 : Kept s u1 := h.setPlc _ _
  split
  · extract_lets
    refine Answers.ite ?_ h.next
    refine Answers.ite (h.setPlc _ _).next ?_
    refine Answers.ite ((h.plcBeacon _ _ _ _).plcEvent _ _ _).next ?_
    refine Answers.ite ((hu1.plcBeacon _ _ _ _).plcEvent _ _ _).next ?_
    exact Answers.ite h.next ((h.setPlc _ _).plcEvent _ _ _).next
  · exact h.next

theorem Kept.writePlc (h : Kept s t) (n : ℕ) (x1 : Init) (x2 : RegRow) (x3 x4 : ℕ) : Kept s (writePlc n x1 x2 x3 x4 t).2 := by
  unfold Machine.writePlc
  refine Kept.ite_snd ?_ ?_
  · exact Kept.ite_snd (h.refuse _) (Kept.ite_snd (h.refuse _) (Kept.ite_snd (h.refuse _) (h.accept _ _ _)))
  · refine Kept.ite_snd (Kept.ite_snd (h.refuse _) (h.accept _ _ _)) ?_
    refine Kept.ite_snd (Kept.ite_snd (h.refuse _) (h.accept _ _ _)) ?_
    refine Kept.ite_snd (h.setPlc _ _) ?_
    refine Kept.ite_snd ((h.store _ _ _).setPlc _ _) ?_
    refine Kept.ite_snd (h.setPlc _ _) ?_
    exact Kept.ite_snd (Kept.ite_snd (h.refuse _) (Kept.ite_snd (h.refuse _) (h.setPlc _ _))) (Kept.ite_snd h (h.accept _ _ _))

theorem Kept.nbRestore (h : Kept s t) (bs : List Byte) : Kept s (t.nbRestore bs) := by
  unfold State.nbRestore
  exact h.setPlc _ _

/-! ### Radio -/

theorem Kept.rfDrive (h : Kept s t) (n d : ℕ) (o : Out) : Kept s (t.rfDrive n d o) := by
  unfold State.rfDrive
  extract_lets _ u1
  have hu1 : Kept s u1 := h.setRf _ _
  exact hu1.units

theorem Kept.rfSend (h : Kept s t) (n : ℕ) (j : TxJob) : Kept s (t.rfSend n j) := by
  unfold State.rfSend
  extract_lets _ u1
  have hu1 : Kept s u1 := h.setRf _ _
  exact hu1.rfDrive _ _ _

theorem Kept.rfComplete (h : Kept s t) (n : ℕ) (j : TxJob) (st : Status) : Kept s (t.rfComplete n j st) := by
  unfold State.rfComplete
  split
  · next e1 => exact ((h.putCompletion _ _ _).of_snd e1).setRf _ _

theorem Kept.rfAttempt (h : Kept s t) (n : ℕ) (j : TxJob) : Kept s (t.rfAttempt n j) := by
  unfold State.rfAttempt
  exact h.setRf _ _

theorem kept_execRfTxTake (n : Fin 2) (s : State) : Answers s (execRfTxTake n s) := by
  have h := Kept.refl s
  unfold Machine.execRfTxTake
  obtain ⟨read, hread⟩ := exists_eq' (a' := State.unitRead)
  rw [hread]
  refine Answers.ite ?_ h.next
  split
  · next e1 => exact ((h.hwTake _).of_snd e1).next
  · next e1 =>
      extract_lets _ _ _ _ _ _ _ _ _ u1
      have hu1 : Kept s u1 := ((h.hwTake _).of_snd e1).setRf _ _
      refine Answers.ite (((h.hwTake _).of_snd e1).rfComplete _ _ _).next ?_
      refine Answers.ite (((h.hwTake _).of_snd e1).rfComplete _ _ _).next ?_
      split
      · exact (hu1.rfAttempt _ _).next
      · exact (((h.hwTake _).of_snd e1).rfComplete _ _ _).next

theorem kept_execRfCcaDone (n : Fin 2) (powerDbfs : ℤ) (s : State) : Answers s (execRfCcaDone n powerDbfs s) := by
  have h := Kept.refl s
  unfold Machine.execRfCcaDone
  extract_lets
  split
  · refine Answers.ite ?_ h.next
    refine Answers.ite (h.rfComplete _ _ _).next ?_
    refine Answers.ite (h.rfSend _ _).next ?_
    refine Answers.ite (h.rfComplete _ _ _).next ?_
    split
    · next e1 => exact (((h.draw _).of_snd e1).setRf _ _).next
  · exact h.next

theorem kept_execRfBackoffExpiry (n : Fin 2) (s : State) : Answers s (execRfBackoffExpiry n s) := by
  have h := Kept.refl s
  unfold Machine.execRfBackoffExpiry
  extract_lets
  split
  · exact Answers.ite (h.setRf _ _).next h.next
  · exact h.next

theorem kept_execRfTrainCopy (n : Fin 2) (s : State) : Answers s (execRfTrainCopy n s) := by
  have h := Kept.refl s
  unfold Machine.execRfTrainCopy
  split
  · exact Answers.ite (h.rfSend _ _).next h.next
  · exact h.next

theorem kept_execRfTxEnd (n : Fin 2) (s : State) : Answers s (execRfTxEnd n s) := by
  have h := Kept.refl s
  unfold Machine.execRfTxEnd
  extract_lets
  split
  · split
    · exact Answers.ite (h.rfComplete _ _ _).next h.next
    · refine Answers.ite ?_ h.next
      exact Answers.ite (h.setRf _ _).next (h.rfComplete _ _ _).next
  · exact h.next

theorem kept_execRfAckTimeout (n : Fin 2) (s : State) : Answers s (execRfAckTimeout n s) := by
  have h := Kept.refl s
  unfold Machine.execRfAckTimeout
  extract_lets
  split
  · split
    · refine Answers.ite ?_ h.next
      exact Answers.ite (h.rfAttempt _ _).next (h.rfComplete _ _ _).next
    · exact h.next
  · exact h.next

theorem Kept.rfFrame (h : Kept s t) (n : ℕ) (f : RfRx) : Kept s (t.rfFrame n f) := by
  unfold State.rfFrame
  extract_lets _ _ _ _ _ k _ due
  have hdue {u : State} (hu : Kept s u) : Kept s (due u) := Kept.ite (hu.setRf _ _) hu
  refine Kept.ite (hdue (h.setRf _ _)) ?_
  split
  next bf u e =>
  have hu : Kept s u := (h.poolTake _ _).of_snd e
  cases bf with
  | none => exact hu.setRf _ _
  | some i =>
    dsimp only
    generalize hi : State.ingress _ _ _ _ _ = r
    have hr : Kept s r.2 := by rw [← hi]; exact (hu.ramWrite _ _).ingress _ _ _ _
    refine Kept.ite (hdue ?_) hr
    cases k with
    | none => exact hr.setRf _ _
    | some k => exact (hr.setRf _ _).setRf _ _

theorem Kept.rfAckIn (h : Kept s t) (n : ℕ) (seq : Byte) (src : BitVec 16) : Kept s (t.rfAckIn n seq src) := by
  unfold State.rfAckIn
  split
  · exact Kept.ite (h.rfComplete _ _ _) h
  · exact h

theorem kept_execRfFrameReceive (n : Fin 2) (f : RfRx) (s : State) : Answers s (execRfFrameReceive n f s) := by
  have h := Kept.refl s
  unfold Machine.execRfFrameReceive
  refine Answers.ite h.next ?_
  refine Answers.ite (h.setRf _ _).next ?_
  refine Answers.ite h.next ?_
  refine Answers.ite h.next ?_
  exact Answers.ite (h.rfAckIn _ _ _).next (h.rfFrame _ _).next

theorem kept_execRfAckSend (n : Fin 2) (s : State) : Answers s (execRfAckSend n s) := by
  have h := Kept.refl s
  unfold Machine.execRfAckSend
  extract_lets _ owed keep
  have hkeep (l : List (BitVec 16 × Byte × ℕ)) : Kept s (keep l) := h.setRf _ _
  cases owed with
  | nil => exact (hkeep _).next
  | cons a rest => exact Answers.ite ((hkeep _).rfDrive _ _ _).next (hkeep _).next

theorem kept_execRfFespiDone (n : Fin 2) (rdata : BitVec 16) (s : State) : Answers s (execRfFespiDone n rdata s) := by
  have h := Kept.refl s
  unfold Machine.execRfFespiDone
  extract_lets _ u1
  have hu1 : Kept s u1 := h.setReg _ _
  exact Answers.ite (hu1.setRf _ _).next h.next

theorem Kept.writeRf (h : Kept s t) (n : ℕ) (x1 : Init) (x2 : RegRow) (x3 x4 : ℕ) : Kept s (writeRf n x1 x2 x3 x4 t).2 := by
  unfold Machine.writeRf
  extract_lets _ _ u1
  have hu1 : Kept s u1 := (h.store _ _ _).setRf _ _
  refine Kept.ite_snd ?_ ?_
  · exact Kept.ite_snd (h.refuse _) (Kept.ite_snd (h.refuse _) ((Kept.ite (h.setRf _ _) h).accept _ _ _))
  · refine Kept.ite_snd (Kept.ite_snd (h.refuse _) (h.accept _ _ _)) ?_
    refine Kept.ite_snd (Kept.ite_snd (h.refuse _) (h.accept _ _ _)) ?_
    refine Kept.ite_snd (h.setRf _ _) ?_
    refine Kept.ite_snd ?_ ?_
    · refine Kept.ite_snd (h.refuse _) ?_
      exact hu1.units
    · exact Kept.ite_snd (h.setRf _ _) (Kept.ite_snd (h.setRf _ _) (h.accept _ _ _))

/-! ### The twin -/

theorem Kept.journalAt (h : Kept s t) (addr : ℕ) : Kept s (t.journalAt addr) := h.journalPut _

theorem Kept.journalComp (h : Kept s t) (c : Comp) : Kept s (t.journalComp c) := Kept.ite (h.journalPut _) h

theorem Kept.capture (h : Kept s t) : Kept s t.capture := by
  unfold State.capture
  refine Kept.toTwin ?_ _
  exact h.units

theorem kept_execCheckpointReceive (hdr : BitVec 1024) (body : List Byte) (s : State) : Answers s (execCheckpointReceive hdr body s) := by
  have h := Kept.refl s
  unfold Machine.execCheckpointReceive
  refine Answers.ite ?_ h.next
  refine Answers.ite ?_ (h.event _ _).next
  refine Kept.next (Kept.toTwin ?_ _)
  exact h.units

theorem kept_execCkackReceive (num : W32) (s : State) : Answers s (execCkackReceive num s) := by
  have h := Kept.refl s
  unfold Machine.execCkackReceive
  refine Answers.ite ?_ h.next
  split
  · exact h.next
  · extract_lets
    refine Kept.next ?_
    exact h.units

theorem kept_execSpindleHbSend (s : State) : Answers s (execSpindleHbSend s) := by
  have h := Kept.refl s
  unfold Machine.execSpindleHbSend
  refine Answers.ite ?_ h.next
  refine Kept.next (Kept.toTwin ?_ _)
  exact h.units

theorem Kept.serveRejoin (h : Kept s t) (all : Bool) : Kept s (t.serveRejoin all) := by
  unfold State.serveRejoin
  extract_lets _ u2 u3
  have hu2 : Kept s u2 := Kept.foldl _ (fun u _ => (Kept.refl u).toTwin _) _ h.capture
  have hu3 : Kept s u3 := (hu2.toTwin _).toTwin _
  refine Kept.event ?_ _ _
  exact hu3.units

theorem Kept.twinArrives (h : Kept s t) (fresh : Bool) (m : HbMsg) : Kept s (t.twinArrives fresh m) := by
  unfold State.twinArrives
  refine Kept.ite ?_ (h.serveRejoin _)
  exact h.units

theorem kept_execSpindleHbReceive (m : HbMsg) (s : State) : Answers s (execSpindleHbReceive m s) := by
  have h := Kept.refl s
  unfold Machine.execSpindleHbReceive
  refine Answers.ite ?_ h.next
  extract_lets _ _ _ _ _ _ u1 u2 u3
  have hu1 : Kept s u1 := h.units
  have hu2 : Kept s u2 := Kept.ite (hu1.event _ _) hu1
  have hu3 : Kept s u3 := Kept.ite (hu2.twinArrives _ _) hu2
  refine Answers.ite ?_ hu3.next
  refine Kept.next (Kept.custodyTakeover ?_)
  exact hu3.units

theorem kept_execSpindleLinkTrained (s : State) : Answers s (execSpindleLinkTrained s) := by
  have h := Kept.refl s
  unfold Machine.execSpindleLinkTrained
  refine Answers.ite ?_ h.next
  refine Kept.next ?_
  exact h.units

theorem kept_execSpindleLaneDown (lane1 : Bool) (s : State) : Answers s (execSpindleLaneDown lane1 s) := by
  have h := Kept.refl s
  unfold Machine.execSpindleLaneDown
  refine Answers.ite ?_ h.next
  refine Kept.next ?_
  exact h.units

theorem Kept.streamStore (h : Kept s t) (m : StreamMsg) : Kept s (t.streamStore m) := by
  unfold State.streamStore
  split
  · exact h.ramWrite _ _
  · exact h.units

theorem kept_execStreamEndMarker (s : State) : Answers s (execStreamEndMarker s) := by
  have h := Kept.refl s
  unfold Machine.execStreamEndMarker
  refine Answers.ite ?_ h.next
  refine Kept.next (Kept.event ?_ _ _)
  exact h.units

theorem kept_execStreamTimeout (s : State) : Answers s (execStreamTimeout s) := by
  have h := Kept.refl s
  unfold Machine.execStreamTimeout
  split
  · refine Answers.ite ?_ h.next
    refine Kept.next (Kept.event ?_ _ _)
    exact h.units
  · exact h.next

theorem Kept.rekey (h : Kept s t) (q ptr key : ℕ) : Kept s (t.rekey q ptr key) := by
  unfold State.rekey
  split
  · exact h
  · extract_lets
    split
    · exact h
    · exact h.setMerge _ _

theorem Kept.pairMatch (h : Kept s t) (o : OwnItem) (m : FrameMsg) : Kept s (t.pairMatch o m) := by
  unfold State.pairMatch
  extract_lets _ _ _ _ _ _ u2
  have hu2 : Kept s u2 := Kept.ite ((h.units.ramPut _ _).rekey _ _ _) h.units
  exact hu2.settle _ _

theorem Kept.adopt (h : Kept s t) (m : FrameMsg) : Kept s (t.adopt m) := by
  unfold State.adopt
  split
  · next e1 => exact (h.poolTake _ _).of_snd e1
  · next e1 =>
      extract_lets _ u1
      have hu1 : Kept s u1 := ((h.poolTake _ _).of_snd e1).ramWrite _ _
      split
      · next e3 => exact ((hu1.fifoPush _ _ _).of_snd e3).units

theorem Kept.adoptRoom (h : Kept s t) (f : PairFrame) : Kept s (t.adoptRoom f) := by
  unfold State.adoptRoom
  refine Kept.ite (h.adopt _) ?_
  exact h.units

theorem kept_execSpnFrameReceive (m : FrameMsg) (s : State) : Answers s (execSpnFrameReceive m s) := by
  have h := Kept.refl s
  unfold Machine.execSpnFrameReceive
  refine Answers.ite ?_ h.next
  split
  · exact (h.pairMatch _ _).next
  · split
    · extract_lets _ u1
      have hu1 : Kept s u1 := h.units
      exact ((hu1.adoptRoom _).event _ _).next
    · refine Kept.next ?_
      exact h.units

theorem Kept.pairNewest (h : Kept s t) : Kept s t.pairNewest := by
  unfold State.pairNewest
  split
  · exact h
  · refine Kept.ite h ?_
    split
    · exact h
    · refine Kept.pairMatch ?_ _ _
      exact h.units

theorem kept_execPairwinExpiry (s : State) : Answers s (execPairwinExpiry s) := by
  have h := Kept.refl s
  unfold Machine.execPairwinExpiry
  refine Answers.ite ?_ h.next
  extract_lets _ _ u1
  have hu1 : Kept s u1 := Kept.foldl _ (fun u _ => (Kept.refl u).settle _ _) _ h
  split
  · extract_lets
    refine Kept.next ?_
    exact Kept.foldl _ (fun u _ => (Kept.refl u).adoptRoom _) _ hu1.units

theorem kept_execBlockMessageReceive (m : BlockMsg) (s : State) : Answers s (execBlockMessageReceive m s) := by
  have h := Kept.refl s
  unfold Machine.execBlockMessageReceive
  refine Answers.ite ?_ h.next
  split
  · extract_lets _ _ u1
    have hu1 : Kept s u1 := h.ramWrite _ _
    refine Answers.ite (h.blockLost _).next ?_
    split
    · next e2 => exact (((hu1.hwPut _ _).of_snd e2).setPt _ _).next
    · next e2 => exact (((hu1.hwPut _ _).of_snd e2).blockLost _).next
  · exact (h.hwPut _ _).next

theorem Kept.leaseEnd (h : Kept s t) : Kept s t.leaseEnd := by
  unfold State.leaseEnd
  refine Kept.event ?_ _ _
  exact h.units

theorem Kept.grantIn (h : Kept s t) (wit : ℕ) (b : Byte) : Kept s (t.grantIn wit b) := by
  unfold State.grantIn
  refine Kept.ite h ?_
  refine Kept.ite (h.units.leaseEnd) ?_
  exact h.units.units

theorem kept_execLeaseExpiry (s : State) : Answers s (execLeaseExpiry s) := by
  have h := Kept.refl s
  unfold Machine.execLeaseExpiry
  split
  · exact Answers.ite (h.leaseEnd).next h.next
  · exact h.next

theorem Kept.rfRestore (h : Kept s t) (bs : List Byte) : Kept s (t.rfRestore bs) := by
  unfold State.rfRestore
  exact Kept.ite h (h.setRf _ _)

theorem Kept.restoreNbs (h : Kept s t) (fuel : ℕ) (bs : List Byte) : Kept s (State.restoreNbs fuel bs t) := by
  induction fuel generalizing t bs with
  | zero => exact h
  | succ fuel ih => exact Kept.ite h (ih (Kept.ite (h.nbRestore _) (h.rfRestore _)) _)

theorem Kept.restoreCk (h : Kept s t) (c : Ckpt) : Kept s (t.restoreCk c) := by
  unfold State.restoreCk
  extract_lets _ _ u1 u2 u3
  have hu1 : Kept s u1 := h.ramWrite _ _
  have hu2 : Kept s u2 := hu1.restoreNbs _ _
  have hu3 : Kept s u3 := hu2.setReg _ _
  exact Kept.foldl _ (fun u b => Kept.ite ((Kept.refl _).mapFrom _) ((Kept.refl _).ramWrite _ _)) _ hu3

theorem kept_execPromotion (s : State) : Answers s (execPromotion s) := by
  have h := Kept.refl s
  unfold Machine.execPromotion
  refine Answers.ite ?_ h.next
  extract_lets
  split
  · refine Kept.next (Kept.event (Kept.event ?_ _ _) _ _)
    exact h.units
  · extract_lets u1
    have hu1 : Kept s u1 := by
      unfold u1
      refine Kept.event ?_ _ _
      exact (h.restoreCk _).units
    refine Kept.next ?_
    exact hu1.units.units

theorem Kept.writeSpn (h : Kept s t) (i : Init) (r : RegRow) (o v : ℕ) : Kept s (writeSpn i r o v t).2 := by
  unfold Machine.writeSpn
  refine Kept.ite_snd ?_ ?_
  · exact h.units
  · refine Kept.ite_snd (Kept.ite_snd (h.refuse _) (h.accept _ _ _)) ?_
    refine Kept.ite_snd ?_ (h.accept _ _ _)
    exact h.units

theorem Kept.twnCmd (h : Kept s t) (hand ck : Bool) : Kept s (t.twnCmd hand ck).2 := by
  unfold State.twnCmd
  refine Kept.ite_snd h ?_
  refine Kept.ite_snd h ?_
  refine Kept.ite ?_ h.capture
  exact h.capture.units

theorem Kept.writeTwn (h : Kept s t) (i : Init) (r : RegRow) (o v : ℕ) : Kept s (writeTwn i r o v t).2 := by
  unfold Machine.writeTwn
  refine Kept.ite_snd ?_ ?_
  · refine Kept.ite_snd (h.refuse _) ?_
    refine Kept.ite_snd (h.refuse _) ?_
    extract_lets u1
    have hu1 : Kept s u1 := h.store _ _ _
    exact hu1.units
  · refine Kept.ite_snd (Kept.ite_snd (h.refuse _) (h.accept _ _ _)) ?_
    refine Kept.ite_snd ?_ ?_
    · split
      · next e2 => exact ((h.accept _ _ _).of_snd e2).units
    · refine Kept.ite_snd (h.refuse _) ?_
      refine Kept.ite_snd (h.twnCmd _ _) ?_
      refine Kept.ite_snd ?_ ?_
      · split
        · extract_lets
          exact h.setPt _ _
      · refine Kept.ite_snd (Kept.ite_snd (h.refuse _) (h.accept _ _ _)) ?_
        refine Kept.ite_snd (Kept.ite_snd h (Kept.ite_snd (h.refuse _) (h.journalAt _))) ?_
        exact Kept.ite_snd (Kept.ite_snd (Kept.ite (h.grantIn _ _) h) (h.refuse _)) (h.accept _ _ _)

/-! ### The tree -/

theorem Kept.grantOut (h : Kept s t) (g k : ℕ) : Kept s (t.grantOut g k).2 := by
  unfold State.grantOut
  extract_lets _ _ _ _ _ _ give
  have hgive (i : ℕ) (new : Bool) : Kept s (give i new t).2 := by
    refine Kept.ite ((Kept.units h).setPeer _ _) (Kept.units h)
  refine Kept.ite_snd h ?_
  split
  · extract_lets
    refine Kept.ite_snd (Kept.ite_snd h (hgive _ _)) ?_
    refine Kept.ite_snd (hgive _ _) ?_
    exact Kept.ite_snd (Kept.ite_snd h (hgive _ _)) h
  · exact Kept.ite_snd h (Kept.ite_snd (hgive _ _) (Kept.ite_snd (hgive _ _) h))

theorem Kept.hbSend (h : Kept s t) (up : Bool) (idx pair k : ℕ) (st : State → Item) : Kept s (t.hbSend up idx pair k st) := by
  unfold State.hbSend
  refine Kept.ite h ?_
  split
  · next e2 => exact ((h.draw _).of_snd e2).units

theorem Kept.hbUp (h : Kept s t) : Kept s t.hbUp := by
  unfold State.hbUp
  split
  · exact h
  · split
    · next e1 => exact ((Kept.ite_snd (h.grantOut _ _) h).of_snd e1).hbSend _ _ _ _ _

theorem Kept.hbDown (h : Kept s t) (c : ℕ) : Kept s (t.hbDown c) := by
  unfold State.hbDown
  split
  · next e1 => exact ((h.grantOut _ _).of_snd e1).hbSend _ _ _ _ _

theorem kept_execHeartbeatSend (s : State) : Answers s (execHeartbeatSend s) := by
  have h := Kept.refl s
  unfold Machine.execHeartbeatSend
  extract_lets _ _ u1
  have hu1 : Kept s u1 := h.units
  refine Answers.ite ?_ h.next
  refine Kept.next ?_
  exact Kept.foldl _ (fun u _ => (Kept.refl u).hbDown _) _ (hu1.hbUp)

theorem Kept.thetaSample (h : Kept s t) (arr : Stamp) (hbtime hbstate : Item) : Kept s (t.thetaSample arr hbtime hbstate).2 := by
  unfold State.thetaSample
  extract_lets
  refine Kept.ite_snd h ?_
  split
  · next e2 => exact (h.openRound _ _).of_snd e2

theorem Kept.judgeChild (h : Kept s t) (c t' : ℕ) (theta : Option ℤ) (st : Item) : Kept s (t.judgeChild c t' theta st) := by
  unfold State.judgeChild
  extract_lets
  split
  · split
    · split
      · split
        · extract_lets
          exact h.setPeer _ _

theorem Kept.obey (h : Kept s t) (r : BitVec 4) : Kept s (t.obey r) := by
  unfold State.obey
  exact Kept.ite (h.units.event _ _) (Kept.ite (h.units.event _ _) h.units)

theorem Kept.fromManager (h : Kept s t) (t' : ℕ) (arr : Stamp) (hbtime hbstate : Item) : Kept s (t.fromManager t' arr hbtime hbstate) := by
  unfold State.fromManager
  extract_lets _ u1 _ u2 _ _ u3
  have hu1 : Kept s u1 := h.setPeer _ _
  have hu2 : Kept s u2 := by
    unfold u2
    refine Kept.ite ?_ hu1
    refine Kept.event ?_ _ _
    exact hu1.units
  have hu3 : Kept s u3 := hu2.obey _
  exact Kept.ite (Kept.ite (hu3.grantIn _ _) hu3) hu2

theorem Kept.fromChild (h : Kept s t) (c t' : ℕ) (arr : Stamp) (hbtime hbstate : Item) : Kept s (t.fromChild c t' arr hbtime hbstate) := by
  unfold State.fromChild
  extract_lets
  split
  · next e1 =>
      extract_lets _ u1
      have hu1 : Kept s u1 := (((h.thetaSample _ _ _).of_snd e1).setPeer _ _).judgeChild _ _ _ _
      exact Kept.ite (hu1.grantIn _ _) hu1

theorem Kept.hbIn (h : Kept s t) (sub : ℕ) (hbtime hbstate : Item) : Kept s (t.hbIn sub hbtime hbstate) := by
  unfold State.hbIn
  extract_lets
  split
  · exact h.fromManager _ _ _ _
  · exact h.fromChild _ _ _ _ _
  · exact h.units

theorem kept_execManagerLoss (s : State) : Answers s (execManagerLoss s) := by
  have h := Kept.refl s
  unfold Machine.execManagerLoss
  refine Answers.ite ?_ h.next
  refine Kept.next (Kept.event (Kept.raiseEpoch ?_ _) _ _)
  exact h.units

theorem kept_execChildLoss (idx : Fin 16) (s : State) : Answers s (execChildLoss idx s) := by
  have h := Kept.refl s
  unfold Machine.execChildLoss
  extract_lets _ _ u1 _ u2
  have hu1 : Kept s u1 := h.setPeer _ _
  have hu2 : Kept s u2 := hu1.setPeer _ _
  split
  · exact h.next
  · exact Answers.ite (hu2.event _ _).next h.next

theorem kept_execConfigGraceExpiry (idx : Fin 16) (twinB : Bool) (s : State) : Answers s (execConfigGraceExpiry idx twinB s) := by
  have h := Kept.refl s
  unfold Machine.execConfigGraceExpiry
  extract_lets
  split
  · exact Answers.ite (h.setPeer _ _).next h.next
  · exact h.next

theorem Kept.treShadow (h : Kept s t) {f : State → State} (hf : ∀ u, Kept s u → Kept s (f u)) : Kept s (t.treShadow f).2 :=
  Kept.ite_snd h (hf _ h.units)

theorem Kept.pmcChoose (h : Kept s t) : Kept s t.pmcChoose := h.units

theorem Kept.writeTre (h : Kept s t) (i : Init) (r : RegRow) (o v : ℕ) : Kept s (writeTre i r o v t).2 := by
  unfold Machine.writeTre
  refine Kept.ite_snd (Kept.ite_snd (h.refuse _) ((Kept.ite h.pmcChoose h).accept _ _ _)) ?_
  refine Kept.ite_snd ?_ ?_
  · refine Kept.ite_snd (h.refuse _) ?_
    exact Kept.ite_snd (h.refuse _) (Kept.ite_snd (h.refuse _) ((Kept.ite (h.obey _) h).accept _ _ _))
  · refine Kept.ite_snd (Kept.ite_snd (h.refuse _) (h.accept _ _ _)) ?_
    refine Kept.ite_snd (Kept.ite_snd (h.refuse _) (h.accept _ _ _)) ?_
    refine Kept.ite_snd (Kept.ite_snd (h.refuse _) (h.accept _ _ _)) ?_
    refine Kept.ite_snd (h.treShadow fun _ hu => hu.store _ _ _) ?_
    refine Kept.ite_snd (Kept.ite h.units h) ?_
    refine Kept.ite_snd ?_ (h.accept _ _ _)
    refine Kept.ite_snd (h.refuse _) (h.treShadow fun u hu => ?_)
    exact hu.units

/-! ### Ethernet and the tree's frames -/

theorem Kept.ethDeliver (h : Kept s t) (n dev k len sub : ℕ) (buf : List Byte) : Kept s (t.ethDeliver n dev k len sub buf) := by
  unfold State.ethDeliver
  split
  · next e1 => exact (h.poolTake _ _).of_snd e1
  · next e1 =>
      extract_lets _ u1
      have hu1 : Kept s u1 := ((h.poolTake _ _).of_snd e1).ramWrite _ _
      split
      · next e3 => exact Kept.ite (((hu1.ingress _ _ _ _).of_snd e3).setEth _ _) ((hu1.ingress _ _ _ _).of_snd e3)

theorem Kept.treeIn (h : Kept s t) (n : ℕ) (f : EthRx) : Kept s (t.treeIn n f) := by
  unfold State.treeIn
  refine Kept.ite ?_ (Kept.ite (h.hbIn _ _ _) (h.ethDeliver _ _ _ _ _ _))
  exact h.units

theorem kept_execEthFrameReceive (n : Fin 4) (f : EthRx) (s : State) : Answers s (execEthFrameReceive n f s) := by
  have h := Kept.refl s
  unfold Machine.execEthFrameReceive
  refine Answers.ite ?_ h.next
  refine Answers.ite (Kept.ite (h.treeIn _ _) h).next ?_
  exact (h.ethDeliver _ _ _ _ _ _).next

theorem Kept.gather (h : Kept s t) (q n fuel k : ℕ) (d : Option ℕ) (acc : List Item) :
    Kept s (State.gather q n fuel k d acc t).2.2.2 := by
  induction fuel generalizing t k d acc with
  | zero => exact h
  | succ fuel ih =>
    have htake := h.hwTake q
    unfold State.gather
    split
    · exact h
    · split
      · next u e => exact htake.of_snd e
      · next x u e =>
        have hu : Kept s u := htake.of_snd e
        split
        · exact ih (hu.event _ _) _ _ _
        · split
          · exact ih hu _ _ _
          · exact h

theorem Kept.treeSend (h : Kept s t) (n q : ℕ) (d : Option ℕ) (items : List Item) : Kept s (t.treeSend n q d items) := by
  unfold State.treeSend
  extract_lets items _ _ u1
  have hu1 : Kept s u1 := h.setEth _ _
  exact hu1.units

theorem Kept.packFrom (h : Kept s t) (n : ℕ) (k : Pack) (force : Bool) : Kept s (t.packFrom n k force).2 := by
  unfold State.packFrom
  have hg := h.gather k.q n ((t.desc k.q).size + 1) k.max none []
  split
  next full d items u e =>
  have hu : Kept s u := by
    rw [e] at hg
    exact hg
  exact Kept.ite_snd hu (Kept.ite_snd (hu.treeSend _ _ _ _) (h.setEth _ _))

theorem Kept.packFirst (h : Kept s t) (n : ℕ) (qs : List ℕ) : Kept s (State.packFirst n qs t) := by
  induction qs generalizing t with
  | nil => exact h
  | cons q qs ih =>
    unfold State.packFirst
    split
    next got u e =>
    have hu : Kept s u := (h.packFrom _ _ _).of_snd e
    exact Kept.ite hu (ih hu)

theorem Kept.treePack (h : Kept s t) (n : ℕ) (force : Bool) : Kept s (t.treePack n force) := by
  unfold State.treePack
  split
  · split
    · next e1 => exact Kept.ite ((h.packFrom _ _ _).of_snd e1) (((h.packFrom _ _ _).of_snd e1).setEth _ _)
  · exact h.packFirst _ _

theorem kept_execPackwaitExpiry (n : Fin 4) (s : State) : Answers s (execPackwaitExpiry n s) := by
  have h := Kept.refl s
  unfold Machine.execPackwaitExpiry
  split
  · exact Answers.ite (h.treePack _ _).next h.next
  · exact h.next

theorem Kept.resend (h : Kept s t) : Kept s t.resend := by
  unfold State.resend
  refine Kept.ite ?_ h
  extract_lets _ _ u1
  have hu1 : Kept s u1 := h.setEth _ _
  exact hu1.units

theorem Kept.upMoved (h : Kept s t) (old : State) : Kept s (old.upMoved t) := by
  unfold State.upMoved
  exact Kept.ite h ((h.setEth _ _).setEth _ _).resend

theorem Kept.rawComplete (h : Kept s t) (n : ℕ) (reqid : Word) (st : Status) (t' : Option (Stamp × ℤ × Stamp)) :
    Kept s (t.rawComplete n reqid st t') := by
  unfold State.rawComplete
  split
  · next e1 => exact ((h.hwPut _ _).of_snd e1).setEth _ _

theorem kept_execEthRawTx (n : Fin 4) (s : State) : Answers s (execEthRawTx n s) := by
  have h := Kept.refl s
  unfold Machine.execEthRawTx
  refine Answers.ite ?_ h.next
  split
  · next e1 => exact ((h.hwTake _).of_snd e1).next
  · next e1 =>
      refine Answers.ite (((h.hwTake _).of_snd e1).rawComplete _ _ _ _).next ?_
      split
      · refine Answers.ite (((h.hwTake _).of_snd e1).rawComplete _ _ _ _).next ?_
        refine Answers.ite (((h.hwTake _).of_snd e1).rawComplete _ _ _ _).next ?_
        split
        · next e2 =>
            extract_lets _ _ _ _ u1
            have hu1 : Kept s u1 := ((((h.hwTake _).of_snd e1).draw _).of_snd e2).setEth _ _
            refine Kept.next ?_
            exact hu1.units
      · exact (((h.hwTake _).of_snd e1).rawComplete _ _ _ _).next

theorem kept_execEthRawTxDone (n : Fin 4) (s : State) : Answers s (execEthRawTxDone n s) := by
  have h := Kept.refl s
  unfold Machine.execEthRawTxDone
  refine Answers.ite ?_ h.next
  split
  · exact (h.rawComplete _ _ _ _).next
  · exact Answers.ite (h.rawComplete _ _ _ _).next (h.rawComplete _ _ _ _).next
  · exact h.next

theorem Kept.writeEth (h : Kept s t) (i : Init) (r : RegRow) (o v : ℕ) : Kept s (writeEth i r o v t).2 := by
  unfold Machine.writeEth
  refine Kept.ite_snd (h.setEth _ _) ?_
  split
  · next e2 => exact ((h.accept _ _ _).of_snd e2).upMoved _

/-! ### The wired bus -/

theorem Kept.wirDeliver (h : Kept s t) (n : ℕ) (cs : List WirChar) (coll : Bool) (prio : ℕ) (m : TimeRec) :
    Kept s (t.wirDeliver n cs coll prio m) := by
  unfold State.wirDeliver
  extract_lets
  split
  next b u e =>
  have hu : Kept s u := (h.poolTake _ _).of_snd e
  cases b with
  | none => exact hu.setWir _ _
  | some k =>
    dsimp only
    generalize hi : State.ingress _ _ _ _ _ = r
    have hr : Kept s r.2 := by rw [← hi]; exact (hu.ramWrite _ _).ingress _ _ _ _
    exact Kept.ite (hr.setWir _ _) hr

theorem Kept.wirFrame (h : Kept s t) (n : ℕ) (f : WirRx) (space : Bool) (fr : List AtBit) : Kept s (t.wirFrame n f space fr) := by
  unfold State.wirFrame
  extract_lets _ _ _ _ _ _ _ u1
  have hu1 : Kept s u1 := Kept.ite (h.setWir _ _) h
  split
  · exact Kept.ite (h.wirDeliver _ _ _ _ _) (h.setWir _ _)
  · exact Kept.ite (h.wirDeliver _ _ _ _ _) (h.setWir _ _)
  · exact hu1.wirDeliver _ _ _ _ _

theorem Kept.wirEach (h : Kept s t) (n : ℕ) (f : WirRx) (xs : List (List AtBit)) : Kept s (State.wirEach n f xs t) := by
  induction xs generalizing t with
  | nil => exact h
  | cons x xs ih =>
    cases xs with
    | nil => exact h.wirFrame _ _ _ _
    | cons y ys => exact ih (h.wirFrame _ _ _ _)

theorem kept_execWirFrameEnd (n : Fin 6) (f : WirRx) (s : State) : Answers s (execWirFrameEnd n f s) := by
  have h := Kept.refl s
  unfold Machine.execWirFrameEnd
  extract_lets
  refine Answers.ite h.next ?_
  split
  · exact h.next
  · exact Answers.ite (h.wirEach _ _ _).next h.next

theorem Kept.wirComplete (h : Kept s t) (n : ℕ) (j : TxJob) (st : Status) : Kept s (t.wirComplete n j st) := by
  unfold State.wirComplete
  split
  · next e1 => exact ((h.putCompletion _ _ _).of_snd e1).setWir _ _

theorem Kept.wirStart (h : Kept s t) (n : ℕ) (j : TxJob) : Kept s (t.wirStart n j) := by
  unfold State.wirStart
  refine Kept.ite (h.wirComplete _ _ _) ?_
  refine Kept.ite (h.setWir _ _) ?_
  extract_lets _ u1
  have hu1 : Kept s u1 := h.setWir _ _
  exact hu1.units

theorem kept_execWirTxStart (c : WirSense) (s : State) : Answers s (execWirTxStart c s) := by
  have h := Kept.refl s
  unfold Machine.execWirTxStart
  refine Answers.ite ?_ h.next
  split
  · exact Answers.ite h.next (h.wirStart _ _).next
  · refine Answers.ite h.next ?_
    split
    · next e1 => exact ((h.hwTake _).of_snd e1).next
    · next e1 =>
        refine Answers.ite (((h.hwTake _).of_snd e1).wirComplete _ _ _).next ?_
        split
        · exact (((h.hwTake _).of_snd e1).wirStart _ _).next
        · exact (((h.hwTake _).of_snd e1).wirComplete _ _ _).next

theorem kept_execWirTxDone (n : Fin 6) (s : State) : Answers s (execWirTxDone n s) := by
  have h := Kept.refl s
  unfold Machine.execWirTxDone
  split
  · split
    · exact Answers.ite (h.wirComplete _ _ _).next h.next
    · refine Answers.ite ?_ h.next
      extract_lets _ u1
      have hu1 : Kept s u1 := h.setWir _ _
      exact (hu1.wirComplete _ _ _).next
  · exact h.next

theorem Kept.writeWir (h : Kept s t) (i : Init) (r : RegRow) (o v : ℕ) : Kept s (writeWir i r o v t).2 := by
  unfold Machine.writeWir
  refine Kept.ite_snd ?_ ?_
  · exact Kept.ite_snd (h.refuse _) (Kept.ite_snd (h.refuse _) (Kept.ite_snd (h.refuse _) (h.accept _ _ _)))
  · refine Kept.ite_snd (Kept.ite_snd (h.refuse _) ((h.setWir _ _).accept _ _ _)) ?_
    exact Kept.ite_snd (h.setWir _ _) (Kept.ite_snd (h.setWir _ _) (h.accept _ _ _))

/-! ### Power -/

theorem Kept.pwrStart (h : Kept s t) (t' : ℕ) : Kept s (t.pwrStart t') := h.units

theorem Kept.pwrOut (h : Kept s t) (st : Status) : Kept s (t.pwrOut st).2 := h.units

theorem Kept.pwrCmd (h : Kept s t) (i : Init) (v : ℕ) : Kept s (t.pwrCmd i v).2 := by
  unfold State.pwrCmd
  refine Kept.ite_snd h ?_
  refine Kept.ite_snd (h.pwrOut _) ?_
  refine Kept.ite_snd (h.pwrOut _) ?_
  refine Kept.ite_snd (h.pwrOut _) ?_
  exact Kept.ite_snd (h.pwrOut _) (Kept.ite_snd (h.pwrOut _) ((h.pwrStart _).pwrOut _))

theorem Kept.writePwr (h : Kept s t) (i : Init) (r : RegRow) (o v : ℕ) : Kept s (writePwr i r o v t).2 := by
  unfold Machine.writePwr
  refine Kept.ite_snd (h.pwrCmd _ _) ?_
  exact Kept.ite_snd (h.refuse _) (Kept.ite_snd (h.refuse _) (h.accept _ _ _))

theorem Kept.pcieDown (h : Kept s t) : Kept s t.pcieDown := by
  unfold State.pcieDown
  refine Kept.ite ?_ h
  refine Kept.raiseEpoch ?_ _
  exact h.units

theorem Kept.serdesDown (h : Kept s t) : Kept s t.serdesDown := by
  unfold State.serdesDown
  extract_lets _ u2
  have hu2 : Kept s u2 := Kept.foldl _ (fun u _ => (Kept.refl u).setEth _ _) _ h.pcieDown
  exact hu2.units

theorem Kept.blockAbandon (h : Kept s t) (p : ℕ) : Kept s (t.blockAbandon p) := by
  unfold State.blockAbandon
  extract_lets _ u1
  have hu1 : Kept s u1 := h.setPt _ _
  exact Kept.foldl _ (fun u _ => (Kept.refl u).setChan _ _) _ hu1

theorem kept_execPwrTransitionDone (s : State) : Answers s (execPwrTransitionDone s) := by
  have h := Kept.refl s
  unfold Machine.execPwrTransitionDone
  refine Answers.ite h.next ?_
  extract_lets _ _ u1 _ u2 u3 _ u4
  have hu1 : Kept s u1 := Kept.ite (((h.calAbortAll).closeAll).serdesDown) h
  have hu2 : Kept s u2 := by
    unfold u2
    refine Kept.ite ?_ hu1
    exact hu1.other rfl
  have hu3 : Kept s u3 := by
    unfold u3
    refine Kept.ite ?_ hu2
    exact Kept.foldl _ (fun u _ => (Kept.refl u).blockAbandon _) _ hu2
  have hu4 : Kept s u4 := by
    unfold u4
    refine Kept.ite ?_ hu3
    exact hu3.units
  exact (hu4.units.event _ _).next

theorem kept_execMainSupplyLost (below : BitVec 3) (s : State) : Answers s (execMainSupplyLost below s) := by
  unfold Machine.execMainSupplyLost
  refine Answers.ite (Kept.refl s).next (Kept.next (Kept.pend (Kept.freezeEnd (Kept.event ?_ _ _) _) _))
  exact ⟨rfl, rfl, rfl, rfl, rfl, id⟩

theorem kept_execVbatLow (mv : BitVec 16) (s : State) : Answers s (execVbatLow mv s) := by
  unfold Machine.execVbatLow
  extract_lets _ u1 _ u2
  have hu1 : Kept s u1 := (Kept.refl s).units
  have hu2 : Kept s u2 := by
    unfold u2
    refine Kept.event ?_ _ _
    exact hu1.units
  refine Answers.ite hu1.next ?_
  refine Answers.ite ?_ (Answers.ite hu1.next (hu2.pend _).next)
  refine Kept.next ?_
  exact hu1.units

theorem kept_execBackupDomainStop (s : State) : Answers s (execBackupDomainStop s) := by
  have h := Kept.refl s
  unfold Machine.execBackupDomainStop
  refine Answers.ite h.next ?_
  refine Kept.next ?_
  exact h.units

theorem kept_execBackupSupplyReturn (s : State) : Answers s (execBackupSupplyReturn s) := by
  have h := Kept.refl s
  unfold Machine.execBackupSupplyReturn
  refine Answers.ite h.next ?_
  refine Kept.next ?_
  exact h.units

theorem kept_execRtcSetApply (s : State) : Answers s (execRtcSetApply s) := by
  have h := Kept.refl s
  unfold Machine.execRtcSetApply
  refine Answers.ite ?_ h.next
  refine Kept.next ?_
  exact h.units

theorem kept_execOperatingSecond (mainThroughout : Bool) (s : State) : Answers s (execOperatingSecond mainThroughout s) := by
  have h := Kept.refl s
  unfold Machine.execOperatingSecond
  refine Answers.ite h.next ?_
  refine Kept.next ?_
  exact h.units

theorem kept_execTamperInputChange (inp : Tamper) (low : Bool) (s : State) : Answers s (execTamperInputChange inp low s) := by
  have h := Kept.refl s
  unfold Machine.execTamperInputChange
  refine Answers.ite h.next ?_
  split
  · refine Answers.ite h.next ?_
    extract_lets _ u1 u2
    have hu1 : Kept s u1 := h.units
    have hu2 : Kept s u2 := hu1.event _ _
    exact (Kept.ite (hu2.pend _) hu2).next
  · refine Answers.ite h.next ?_
    extract_lets _ u3 u4
    have hu3 : Kept s u3 := h.units
    have hu4 : Kept s u4 := hu3.event _ _
    exact (Kept.ite (hu4.pend _) hu4).next
  · refine Answers.ite h.next ?_
    extract_lets _ u5 u6
    have hu5 : Kept s u5 := h.units
    have hu6 : Kept s u6 := hu5.event _ _
    exact (Kept.ite (hu6.pend _) hu6).next

theorem kept_execTokenRefill (code : BitVec 16) (s : State) : Answers s (execTokenRefill code s) := by
  have h := Kept.refl s
  unfold Machine.execTokenRefill
  extract_lets
  split
  · exact h.next
  · refine Answers.ite h.next ?_
    extract_lets _ u1
    have hu1 : Kept s u1 := h.units
    exact (Kept.ite hu1 (hu1.evSummary _ _)).next

theorem Kept.clipBucket (h : Kept s t) (c : ℕ) : Kept s (t.clipBucket c) := h.units

theorem Kept.rlWrite (h : Kept s t) (v : ℕ) : Kept s (t.rlWrite v).2 := by
  unfold State.rlWrite
  refine Kept.ite_snd ?_ ?_
  · refine Kept.clipBucket ?_ _
    exact h.units
  · refine Kept.ite_snd h ?_
    refine Kept.ite_snd h ?_
    refine Kept.clipBucket (Kept.clipBucket ?_ _) _
    exact h.units

theorem Kept.freezeWrite (h : Kept s t) (i : Init) (on : Bool) : Kept s (t.freezeWrite i on).2 := by
  unfold State.freezeWrite
  refine Kept.ite_snd h ?_
  split
  · exact h.units
  · exact h
  · exact Kept.ite_snd h h
  · exact Kept.ite_snd (h.freezeEnd _) h

theorem Kept.copyStart (h : Kept s t) (i : Init) (area : ℕ) : Kept s (t.copyStart i area).2 := by
  unfold State.copyStart
  refine Kept.ite_snd h ?_
  refine Kept.ite_snd h ?_
  refine Kept.ite_snd h ?_
  exact h.units

theorem Kept.writeEvr (h : Kept s t) (i : Init) (r : RegRow) (o v : ℕ) : Kept s (writeEvr i r o v t).2 := by
  unfold Machine.writeEvr
  refine Kept.ite_snd ?_ ?_
  · refine Kept.ite ?_ h
    exact h.units
  · refine Kept.ite_snd ?_ ?_
    · refine Kept.ite_snd (h.refuse _) ?_
      split
      · next e2 => exact ((h.accept _ _ _).of_snd e2).units
    · refine Kept.ite_snd ?_ ?_
      · refine Kept.ite_snd (h.refuse _) ?_
        refine Kept.ite_snd h ?_
        refine Kept.ite_snd (h.refuse _) ?_
        exact h.units
      · refine Kept.ite_snd (h.freezeWrite _ _) ?_
        refine Kept.ite_snd (Kept.ite_snd (h.refuse _) (h.accept _ _ _)) ?_
        refine Kept.ite_snd (Kept.ite_snd (h.refuse _) (h.accept _ _ _)) ?_
        exact Kept.ite_snd (h.copyStart _ _) (Kept.ite_snd (h.rlWrite _) (h.accept _ _ _))

theorem kept_execFreezeTimeout (s : State) : Answers s (execFreezeTimeout s) := by
  have h := Kept.refl s
  unfold Machine.execFreezeTimeout
  split
  · exact Answers.ite (h.freezeEnd _).next h.next
  · exact h.next

theorem Kept.copyOut (h : Kept s t) (i : Init) (a : ℕ) (xs : List (List Byte)) : Kept s (State.copyOut i a xs t).2 := by
  induction xs generalizing t a with
  | nil => exact h
  | cons x xs ih =>
    unfold State.copyOut
    refine Kept.ite_snd h ?_
    split
    next st u e =>
    have hu : Kept s u := (h.ramWrite _ _).of_snd e
    exact Kept.ite_snd hu (ih hu _)

theorem kept_execAreaCopyDone (s : State) : Answers s (execAreaCopyDone s) := by
  have h := Kept.refl s
  unfold Machine.execAreaCopyDone
  split
  · refine Answers.ite h.next ?_
    extract_lets
    split
    · next e1 =>
        refine Kept.next ?_
        exact ((h.copyOut _ _ _).of_snd e1).units
  · exact h.next

/-! ### The host interface and the mailboxes -/

theorem kept_execFabricGrant (tgt : Fin 6) (reqs nextReqs : BitVec 14) (agents : List (Fin 512)) (s : State) :
    Answers s (execFabricGrant tgt reqs nextReqs agents s) := by
  have h := Kept.refl s
  unfold Machine.execFabricGrant
  extract_lets _ _ _ _ u1 _ _ u2
  have hu1 : Kept s u1 := Kept.ite h (h.count _ _ _)
  have hu2 : Kept s u2 := Kept.ite (hu1.count _ _ _) hu1
  refine Answers.ite h.next ?_
  refine Answers.ite (h.setTgt _ _).next ?_
  split
  · extract_lets u3 _ _ next
    have hu3 : Kept s u3 := by
      unfold u3
      split
      · exact hu2.count _ _ _
      · exact hu2
    exact (hu3.setTgt _ _).next

theorem Kept.writeFab (h : Kept s t) (i : Init) (r : RegRow) (o v : ℕ) : Kept s (writeFab i r o v t).2 :=
  Kept.ite_snd (h.refuse _) (Kept.ite_snd (h.refuse _) (h.accept _ _ _))

theorem Kept.raiseMsix (h : Kept s t) (k : ℕ) : Kept s (t.raiseMsix k) := h.units

theorem Kept.i2cCmd (h : Kept s t) (r : RegRow) (v : ℕ) : Kept s (t.i2cCmd r v).2 := by
  unfold State.i2cCmd
  refine Kept.ite_snd h ?_
  refine Kept.ite_snd h ?_
  refine Kept.ite_snd h ?_
  split
  · next e2 =>
      refine Kept.ite_snd ((h.accept _ _ _).of_snd e2) ?_
      exact ((h.accept _ _ _).of_snd e2).units

theorem Kept.i2cAttempt (h : Kept s t) (bus : I2cBus) : Kept s (t.i2cAttempt bus) := by
  unfold State.i2cAttempt
  refine Kept.ite h ?_
  split
  · exact h.units.units
  · exact h.units.units
  · exact h.units.units

theorem Kept.i2cFill (h : Kept s t) (bs : List Byte) : Kept s (t.i2cFill bs) := by
  unfold State.i2cFill
  refine Kept.foldl _ (fun u b => ?_) _ h
  exact Kept.ite (Kept.refl _) ((Kept.refl _).setReg _ _)

theorem kept_execI2cTransactionDone (s : State) : Answers s (execI2cTransactionDone s) := by
  have h := Kept.refl s
  unfold Machine.execI2cTransactionDone
  split
  · refine Answers.ite h.next ?_
    extract_lets u1
    have hu1 : Kept s u1 := Kept.ite (h.i2cFill _) h
    exact (hu1.units.irq _).next
  · exact h.next

theorem kept_execI2cSclTimeout (s : State) : Answers s (execI2cSclTimeout s) := by
  have h := Kept.refl s
  unfold Machine.execI2cSclTimeout
  refine Answers.ite ?_ h.next
  refine Kept.next (Kept.raiseEpoch ?_ _)
  exact h.units

theorem Kept.itemBad (h : Kept s t) (i : Init) : Kept s (t.itemBad i) := h.units

theorem Kept.setItem (h : Kept s t) (i : Init) (b : Option ItemBuf) : Kept s (t.setItem i b) := by
  unfold State.setItem
  refine Kept.ite ?_ ?_
  · exact h.units
  · exact h.units

theorem Kept.itemIn (h : Kept s t) (prio : ℕ) (body : Item) : Kept s (t.itemIn prio body) := h.ingress _ _ _ _

theorem Kept.itemWord (h : Kept s t) (i : Init) (d : ℕ) (v : W32) : Kept s (t.itemWord i d v).2 := by
  unfold State.itemWord
  refine Kept.ite_snd (h.itemBad _) ?_
  split
  · exact Kept.ite_snd (h.setItem _ _) (h.itemBad _)
  · refine Kept.ite_snd (h.itemBad _) ?_
    exact Kept.ite_snd (h.setItem _ _) (Kept.ite_snd (h.setItem _ _) ((h.setItem _ _).itemIn _ _))

theorem kept_execItemPortTimeout (s : State) : Answers s (execItemPortTimeout s) := by
  have h := Kept.refl s
  unfold Machine.execItemPortTimeout
  split
  · exact Answers.ite ((h.itemBad _).raiseEpoch _).next h.next
  · exact h.next

theorem kept_execItemPortPcieWrite (prio : Fin 8) (body : Item) (s : State) : Answers s (execItemPortPcieWrite prio body s) := by
  have h := Kept.refl s
  unfold Machine.execItemPortPcieWrite
  refine Answers.ite h.next ?_
  exact Answers.ite ((h.hostError _ _ _).respond _ _).next ((h.itemIn _ _).respond _ _).next

theorem kept_execPcieLinkUp (s : State) : Answers s (execPcieLinkUp s) := by
  have h := Kept.refl s
  unfold Machine.execPcieLinkUp
  refine Answers.ite ?_ h.next
  refine Kept.next ?_
  exact h.units

theorem kept_execPciePowerStateChange (d3hot : Bool) (s : State) : Answers s (execPciePowerStateChange d3hot s) := by
  have h := Kept.refl s
  unfold Machine.execPciePowerStateChange
  refine Answers.ite ?_ h.next
  refine Kept.next ?_
  exact h.units

theorem Kept.norCmd (h : Kept s t) (i : Init) (r : RegRow) (v : ℕ) : Kept s (t.norCmd i r v).2 := by
  unfold State.norCmd
  refine Kept.ite_snd h ?_
  split
  · next e2 =>
      split
      · next e3 =>
          split
          · next e4 =>
              refine Kept.ite ?_ ?_
              · exact ((((((h.accept _ _ _).of_snd e2).draw _).of_snd e3).draw _).of_snd e4).norPut _ _
              · refine Kept.ite ?_ ?_
                · exact Kept.foldl _ (fun u _ => (Kept.refl u).setReg _ _) _ ((((((h.accept _ _ _).of_snd e2).draw _).of_snd e3).draw _).of_snd e4)
                · refine Kept.ite ?_ ((((((h.accept _ _ _).of_snd e2).draw _).of_snd e3).draw _).of_snd e4)
                  exact ((((((h.accept _ _ _).of_snd e2).draw _).of_snd e3).draw _).of_snd e4).norPut _ _

theorem Kept.writeHst (h : Kept s t) (i : Init) (r : RegRow) (o v : ℕ) : Kept s (writeHst i r o v t).2 := by
  unfold Machine.writeHst
  refine Kept.ite_snd (h.itemWord _ _ _) ?_
  refine Kept.ite_snd (Kept.ite_snd (h.refuse _) (h.accept _ _ _)) ?_
  refine Kept.ite_snd (Kept.ite_snd (h.refuse _) (Kept.ite_snd (h.refuse _) (h.raiseMsix _))) ?_
  refine Kept.ite_snd ?_ ?_
  · refine Kept.ite ?_ h
    exact h.units
  · refine Kept.ite_snd (Kept.ite_snd (h.refuse _) (Kept.ite_snd (h.refuse _) (h.accept _ _ _))) ?_
    refine Kept.ite_snd (h.i2cCmd _ _) ?_
    refine Kept.ite_snd (Kept.ite_snd (h.refuse _) (h.accept _ _ _)) ?_
    refine Kept.ite_snd (h.norCmd _ _ _) ?_
    exact Kept.ite_snd (Kept.ite_snd (h.refuse _) (h.accept _ _ _)) (h.accept _ _ _)

theorem Kept.mbxArrive (h : Kept s t) (n : ℕ) (rec_ : BitVec 128) (key : Item) : Kept s (t.mbxArrive n rec_ key) := by
  unfold State.mbxArrive
  extract_lets u1
  have hu1 : Kept s u1 := h.setChn _ _
  exact Kept.ite (hu1.raiseMsix _) hu1

theorem Kept.mbxSend (h : Kept s t) (i : Init) (n : ℕ) : Kept s (t.mbxSend i n).2 := by
  unfold State.mbxSend
  refine Kept.ite_snd h ?_
  refine Kept.ite_snd h ?_
  refine Kept.ite_snd h ?_
  split
  · next e2 => exact ((h.stampAs _ _ _).of_snd e2).mbxArrive _ _ _

theorem kept_execMbxTake (n : Fin 32) (s : State) : Answers s (execMbxTake n s) := by
  have h := Kept.refl s
  unfold Machine.execMbxTake
  refine Answers.ite h.next ?_
  split
  · next e1 => exact ((h.hwTake _).of_snd e1).next
  · next e1 => exact (Kept.ite (((h.hwTake _).of_snd e1).mbxArrive _ _ _) (((h.hwTake _).of_snd e1).mbxArrive _ _ _)).next

theorem kept_execMbxDeliver (n : Fin 32) (s : State) : Answers s (execMbxDeliver n s) := by
  have h := Kept.refl s
  unfold Machine.execMbxDeliver
  split
  · exact h.next
  · refine Answers.ite h.next ?_
    extract_lets
    split
    · next e1 => exact (Kept.ite (((h.hwPut _ _).of_snd e1).setChn _ _) ((h.hwPut _ _).of_snd e1)).next

theorem Kept.writeMbx (h : Kept s t) (i : Init) (r : RegRow) (o v : ℕ) : Kept s (writeMbx i r o v t).2 := by
  unfold Machine.writeMbx
  dsimp only
  refine Kept.ite_snd h.units ?_
  refine Kept.ite_snd (h.refuse _) ?_
  refine Kept.ite_snd ?_ ?_
  · exact Kept.ite (h.setChn _ _) h
  · exact Kept.ite_snd (h.refuse _) (Kept.ite_snd (h.refuse _) (Kept.ite_snd (h.refuse _) (h.accept _ _ _)))

theorem Kept.writePmc (h : Kept s t) (i : Init) (r : RegRow) (o v : ℕ) : Kept s (writePmc i r o v t).2 := by
  unfold Machine.writePmc
  refine Kept.ite_snd ?_ ?_
  · exact h.units
  · refine Kept.ite_snd (Kept.ite_snd (h.refuse _) (Kept.ite_snd h (h.accept _ _ _))) ?_
    refine Kept.ite_snd ?_ ?_
    · exact h.units
    · refine Kept.ite_snd (Kept.ite_snd (h.refuse _) (h.accept _ _ _)) ?_
      refine Kept.ite_snd (h.acceptAligned _ _ _ _) ?_
      refine Kept.ite_snd ?_ ?_
      · refine Kept.ite ?_ h
        exact h.units
      · refine Kept.ite_snd (Kept.ite_snd (h.refuse _) (h.accept _ _ _)) ?_
        refine Kept.ite_snd ?_ (h.accept _ _ _)
        exact h.units

theorem Kept.cntlLatch (h : Kept s t) (n : ℕ) : Kept s (t.cntlLatch n) := h.units

theorem kept_execPmcCapture (s : State) : Answers s (execPmcCapture s) := by
  have h := Kept.refl s
  unfold Machine.execPmcCapture
  extract_lets _ _ _ _ u1
  have hu1 : Kept s u1 := h.copyOut _ _ _
  refine Answers.ite h.next ?_
  refine Answers.ite ?_ ?_
  · refine Kept.next ?_
    exact h.units
  · refine Kept.next ?_
    exact hu1.units

theorem kept_execPmcBwWindow (bytes : List W32) (s : State) : Answers s (execPmcBwWindow bytes s) := by
  have h := Kept.refl s
  unfold Machine.execPmcBwWindow
  extract_lets _ u1
  have hu1 : Kept s u1 := by
    unfold u1
    refine Kept.foldl _ (fun u b => ?_) _ h
    exact (Kept.refl _).units
  refine Answers.ite h.next ?_
  refine Kept.next ?_
  exact hu1.units

/-! ### Pins and JTAG -/

theorem Kept.pinFuncWrite (h : Kept s t) (p v : ℕ) (r : RegRow) : Kept s (t.pinFuncWrite p v r).2 := by
  unfold State.pinFuncWrite
  refine Kept.ite_snd h ?_
  refine Kept.ite_snd h ?_
  refine Kept.ite_snd h ?_
  refine Kept.ite_snd h ?_
  split
  · next e2 => exact ((h.accept _ _ _).of_snd e2).units

theorem Kept.writePin (h : Kept s t) (i : Init) (r : RegRow) (o v : ℕ) : Kept s (writePin i r o v t).2 := by
  unfold Machine.writePin
  refine Kept.ite_snd (Kept.ite_snd (h.accept _ _ _) (h.refuse _)) ?_
  refine Kept.ite_snd (h.refuse _) ?_
  exact Kept.ite_snd (h.pinFuncWrite _ _ _) (Kept.ite_snd (h.refuse _) (Kept.ite_snd (h.refuse _) (h.accept _ _ _)))

theorem Kept.readPin (h : Kept s t) (o : ℕ) : Kept s (readPin o t).2 := by
  unfold Machine.readPin
  refine Kept.ite_snd ?_ (Kept.ite_snd h h)
  split
  · next e2 => exact (h.draw _).of_snd e2

theorem kept_execPinSwitchDone (p : Fin 192) (s : State) : Answers s (execPinSwitchDone p s) := by
  have h := Kept.refl s
  unfold Machine.execPinSwitchDone
  refine Answers.ite ?_ h.next
  refine Kept.next ?_
  exact h.units

theorem Kept.writeSys (h : Kept s t) (i : Init) (r : RegRow) (o v : ℕ) : Kept s (writeSys i r o v t).2 := h.cause _

/-! ### Dispatch and replay -/

theorem Kept.mergeChange (h : Kept s t) (q : ℕ) (was now : Bool) : Kept s (t.mergeChange q was now) := by
  unfold State.mergeChange
  refine Kept.ite h ?_
  refine Kept.ite ?_ ?_
  · extract_lets
    exact h.setDesc _ _
  · split
    · exact h.releaseAll _
    · exact h

theorem Kept.ddOut (h : Kept s t) (st : Status) : Kept s (t.ddOut st).2 := h.units

theorem Kept.ddCmdCreate (h : Kept s t) (q : ℕ) : Kept s (t.ddCmdCreate q).2 := by
  unfold State.ddCmdCreate
  extract_lets _ _ u1
  have hu1 : Kept s u1 := h.setDesc _ _
  refine Kept.ite_snd (h.ddOut _) ?_
  refine Kept.ite_snd (h.ddOut _) ?_
  refine Kept.ite_snd (h.ddOut _) ?_
  refine Kept.ddOut ?_ _
  exact hu1.units

theorem Kept.ddCmdWrite (h : Kept s t) (q : ℕ) : Kept s (t.ddCmdWrite q).2 := by
  unfold State.ddCmdWrite
  extract_lets _ _ u1
  have hu1 : Kept s u1 := (h.setDesc _ _).mergeChange _ _ _
  exact Kept.ite_snd (h.ddOut _) (Kept.ite_snd (h.ddOut _) ((hu1.setAside _).ddOut _))

theorem Kept.ddCmdDelete (h : Kept s t) (q : ℕ) : Kept s (t.ddCmdDelete q).2 := by
  unfold State.ddCmdDelete
  exact Kept.ite_snd (h.ddOut _) ((h.setDesc _ _).ddOut _)

theorem Kept.ddCmdRead (h : Kept s t) (q : ℕ) : Kept s (t.ddCmdRead q).2 := by
  unfold State.ddCmdRead
  split
  · next e1 =>
      refine Kept.ddOut ?_ _
      exact Kept.foldl _ (fun u _ => (Kept.refl u).setReg _ _) _ ((h.qmAccess _).of_snd e1)

theorem Kept.ddCmd (h : Kept s t) (i : Init) (op : ℕ) : Kept s (t.ddCmd i op).2 := by
  unfold State.ddCmd
  refine Kept.ite_snd h ?_
  refine Kept.ite_snd (h.ddOut _) ?_
  refine Kept.ite_snd (h.ddCmdRead _) ?_
  exact Kept.ite_snd (h.ddCmdCreate _) (Kept.ite_snd (h.ddCmdWrite _) (h.ddCmdDelete _))

theorem kept_execCreateZeroFillDone (s : State) : Answers s (execCreateZeroFillDone s) := by
  have h := Kept.refl s
  unfold Machine.execCreateZeroFillDone
  split
  · exact h.next
  · refine Answers.ite h.next (Kept.next (Kept.setDesc ?_ _ _))
    exact ⟨rfl, rfl, rfl, rfl, rfl, fun f => ⟨Tab.wf_filter _ _ _ f.1, f.2⟩⟩

theorem Kept.rplGo (h : Kept s t) (i : Init) : Kept s (t.rplGo i).2 := by
  unfold State.rplGo
  refine Kept.ite_snd h ?_
  refine Kept.ite_snd h ?_
  refine Kept.ite_snd h ?_
  refine Kept.ite_snd h ?_
  exact h.units

theorem kept_execQueueReplayDone (s : State) : Answers s (execQueueReplayDone s) := by
  have h := Kept.refl s
  unfold Machine.execQueueReplayDone
  split
  · exact h.next
  · refine Answers.ite h.next ?_
    split
    · next e1 =>
        refine Answers.ite ?_ ?_
        · extract_lets _ u1
          have hu1 : Kept s u1 := ((h.qmAccess _).of_snd e1).units
          exact (hu1.event _ _).next
        · extract_lets _ u2 u3
          have hu2 : Kept s u2 := ((h.qmAccess _).of_snd e1).setDesc _ _
          have hu3 : Kept s u3 := Kept.foldl _ (fun u _ => (Kept.refl u).publish _ _ _) _ hu2
          exact (hu3.units.event _ _).next

theorem Kept.taskStart (h : Kept s t) (t' q : ℕ) (r : Ret) : Kept s (t.taskStart t' q r) := by
  unfold State.taskStart
  exact h.setThread _ _

theorem Kept.restoreClose (h : Kept s t) : Kept s t.restoreClose := by
  unfold State.restoreClose
  refine Kept.ite ?_ h
  refine Kept.event ?_ _ _
  exact h.units

theorem Kept.refill (h : Kept s t) (t' : ℕ) : Kept s (t.refill t') := by
  unfold State.refill
  refine Kept.ite h ?_
  refine Kept.reserveCheck ?_ _
  exact h.other rfl

theorem Kept.replayRun (h : Kept s t) (t' : ℕ) (ps : BitVec 48) (r : ReplayRec) : Kept s (t.replayRun t' ps r) := by
  unfold State.replayRun
  extract_lets u1
  have hu1 : Kept s u1 := h.taskStart _ _ _
  exact hu1.setThread _ _

theorem Kept.replayStart (h : Kept s t) (ps : BitVec 48) : Kept s (t.replayStart ps) := by
  unfold State.replayStart
  split
  · extract_lets
    exact h.replayAnswer _ _ _ _
  · split
    · exact h.replayRun _ _ _
    · exact h.units

theorem Kept.dispatchFrom (h : Kept s t) (t' q : ℕ) (r : Ret) : Kept s (t.dispatchFrom t' q r) := by
  unfold State.dispatchFrom
  extract_lets _ _ _ _ u1 u2 _ u3 u4
  have hu1 : Kept s u1 := h.other rfl
  have hu2 : Kept s u2 := hu1.takeHead _
  have hu3 : Kept s u3 := hu2.setDesc _ _
  have hu4 : Kept s u4 := (hu3.taskStart _ _ _).count _ _ _
  exact Kept.ite (hu4.restoreClose) hu4

theorem kept_execDispatch (t' : Fin 128) (s : State) : Answers s (execDispatch t' s) := by
  have h := Kept.refl s
  unfold Machine.execDispatch
  refine Answers.ite h.next ?_
  extract_lets u1
  have hu1 : Kept s u1 := h.refill _
  refine Answers.ite ?_ ?_
  · refine Kept.next (Kept.replayStart ?_ _)
    exact hu1.units
  · split
    · exact hu1.next
    · split
      · next e2 =>
          refine Answers.ite ((hu1.qmAccess _).of_snd e2).next ?_
          split
          · exact (((hu1.qmAccess _).of_snd e2).dispatchFrom _ _ _).next
          · exact ((hu1.qmAccess _).of_snd e2).next

theorem kept_execTaskWatchdogExpiry (t' : Fin 128) (s : State) : Answers s (execTaskWatchdogExpiry t' s) := by
  have h := Kept.refl s
  unfold Machine.execTaskWatchdogExpiry
  exact Answers.ite (h.engineFault _ _ _).next h.next

theorem kept_execQmStarveExpiry (q : BitVec 16) (s : State) : Answers s (execQmStarveExpiry q s) := by
  have h := Kept.refl s
  unfold Machine.execQmStarveExpiry
  extract_lets
  split
  · exact Answers.ite (h.setDesc _ _).next h.next
  · exact h.next

theorem kept_execIngressFifoArrival (fifo : Fin 18) (prio : Fin 8) (body : Item) (sub : Fin 32) (s : State) :
    Answers s (execIngressFifoArrival fifo prio body sub s) := by
  have h := Kept.refl s
  unfold Machine.execIngressFifoArrival
  refine Answers.ite ?_ h.next
  exact Answers.ite (h.fifoPush _ _ _).next (h.ingress _ _ _ _).next

theorem kept_execFifoDrain (fifo : Fin 18) (s : State) : Answers s (execFifoDrain fifo s) := by
  have h := Kept.refl s
  unfold Machine.execFifoDrain
  refine Answers.ite h.next ?_
  extract_lets u1
  have hu1 : Kept s u1 := (h.fifoDrain _).pairNewest
  exact (Kept.ite (hu1.custodyTakeover) hu1).next

theorem Kept.writeQm (h : Kept s t) (i : Init) (r : RegRow) (o v : ℕ) : Kept s (writeQm i r o v t).2 := by
  unfold Machine.writeQm
  refine Kept.ite_snd (h.ddCmd _ _) ?_
  refine Kept.ite_snd (Kept.ite_snd (h.refuse _) (h.accept _ _ _)) ?_
  refine Kept.ite_snd (Kept.ite_snd (h.rplGo _) (Kept.ite_snd (h.refuse _) h)) ?_
  refine Kept.ite_snd ?_ (h.accept _ _ _)
  refine Kept.ite_snd ?_ ?_
  · extract_lets
    exact Kept.ite_snd (h.refuse _) (h.accept _ _ _)
  · extract_lets
    exact Kept.ite (h.setFifo _ _) h

theorem Kept.writeGe (h : Kept s t) (i : Init) (r : RegRow) (o v : ℕ) : Kept s (writeGe i r o v t).2 := by
  unfold Machine.writeGe
  refine Kept.ite_snd ?_ ?_
  · refine Kept.ite ?_ h
    exact h.other rfl
  · refine Kept.ite_snd ?_ (Kept.ite_snd (h.refuse _) (h.accept _ _ _))
    refine Kept.ite ?_ h
    exact h.other rfl

/-! ### Configuration epochs -/

theorem Kept.freeStart (h : Kept s t) (t' : ℕ) : Kept s (t.freeStart t').2 := by
  unfold State.freeStart
  split
  · next e1 => exact (h.draw _).of_snd e1

theorem Kept.nextStart (h : Kept s t) : Kept s t.nextStart.2 := by
  unfold State.nextStart
  split
  · extract_lets
    split
    · exact h
    · exact h.freeStart _
  · exact h.freeStart _

theorem Kept.isStart (h : Kept s t) (t' : ℕ) : Kept s (t.isStart t').2 := by
  unfold State.isStart
  split
  · exact h
  · split
    · next e1 => exact (h.draw _).of_snd e1

theorem Kept.armCheck (h : Kept s t) (when_ : ℕ) : Kept s (t.armCheck when_).2.2 := by
  unfold State.armCheck
  refine Kept.ite_snd_snd h ?_
  refine Kept.ite_snd_snd h ?_
  extract_lets
  split
  · next e2 =>
      refine Kept.ite_snd_snd (Kept.ite h ((h.isStart _).of_snd e2)) ?_
      refine Kept.ite_snd_snd h ?_
      refine Kept.ite_snd_snd ((h.isStart _).of_snd e2) ?_
      refine Kept.ite_snd_snd ?_ h
      split
      · next e3 => exact (h.nextStart).of_snd e3

theorem Kept.cfgArm (h : Kept s t) (when_ : ℕ) : Kept s (t.cfgArm when_).2 := by
  unfold State.cfgArm
  split
  · next e1 =>
      refine Kept.ite_snd ?_ ?_
      · extract_lets next _ u1
        have hu1 : Kept s u1 := ((h.armCheck _).of_snd_snd e1).units
        exact hu1.toTwin _
      · exact ((h.armCheck _).of_snd_snd e1).units

theorem Kept.cfgAbort (h : Kept s t) (culprit : ℕ) (tell : Bool) : Kept s (t.cfgAbort culprit tell) := by
  unfold State.cfgAbort
  split
  · exact h
  · extract_lets u1
    have hu1 : Kept s u1 := Kept.ite (h.toTwin _) h
    refine Kept.event ?_ _ _
    exact hu1.units

theorem Kept.cfgCancel (h : Kept s t) : Kept s t.cfgCancel := h.cfgAbort _ _

theorem Kept.tellReady (h : Kept s t) : Kept s t.tellReady := by
  unfold State.tellReady
  split
  · exact h.toTwin _
  · exact h

theorem kept_execCfgPrepare (s : State) : Answers s (execCfgPrepare s) := by
  have h := Kept.refl s
  unfold Machine.execCfgPrepare
  split
  · refine Answers.ite ?_ h.next
    extract_lets _ u1
    have hu1 : Kept s u1 := h.units
    exact (Kept.ite (hu1.tellReady) hu1).next
  · exact h.next

theorem Kept.cfgReady (h : Kept s t) (k : ℕ) (digest : BitVec 384) : Kept s (t.cfgReady k digest) := by
  unfold State.cfgReady
  split
  · exact h
  · extract_lets
    exact Kept.ite (h.units.tellReady) h.units

theorem kept_execParticipantReady (p : Fin 7) (a : PartAns) (s : State) : Answers s (execParticipantReady p a s) := by
  have h := Kept.refl s
  unfold Machine.execParticipantReady
  refine Answers.ite ?_ h.next
  split
  · exact (Kept.ite (h.cfgReady _ _) h).next
  · refine Kept.next (Kept.ite ?_ h)
    exact h.units

theorem Kept.swReady (h : Kept s t) (v : ℕ) : Kept s (t.swReady v) := by
  unfold State.swReady
  refine Kept.foldl _ (fun u b => Kept.ite ?_ (Kept.refl _)) _ h
  split
  · next e2 => exact (((Kept.refl _).draw _).of_snd e2).cfgReady _ _

theorem Kept.treSwitch (h : Kept s t) : Kept s t.treSwitch := h.units

theorem Kept.custSwitch (h : Kept s t) : Kept s t.custSwitch := by
  unfold State.custSwitch
  refine Kept.custForget ?_
  exact h.units

theorem Kept.cfgSwitch (h : Kept s t) (next : W32) (b : ℕ) : Kept s (t.cfgSwitch next b) := by
  unfold State.cfgSwitch
  extract_lets _ _ _ u2 u3
  have hu2 : Kept s u2 := ((((h.units.flwSwitch).ldgSwitch).balSwitch _).treSwitch).custSwitch
  have hu3 : Kept s u3 := hu2.mrExtend _ _
  exact (hu3.event _ _).handoverGate

theorem kept_execEpochSwitch (s : State) : Answers s (execEpochSwitch s) := by
  have h := Kept.refl s
  unfold Machine.execEpochSwitch
  split
  · exact h.next
  · refine Answers.ite ?_ h.next
    split
    · exact (h.cfgAbort _ _).next
    · split
      · exact (h.cfgAbort _ _).next
      · exact (h.cfgSwitch _ _).next

theorem kept_execCfgMessageReceive (m : CfgMsg) (s : State) : Answers s (execCfgMessageReceive m s) := by
  have h := Kept.refl s
  unfold Machine.execCfgMessageReceive
  refine Answers.ite h.next ?_
  split
  · split
    · exact (Kept.ite h (h.toTwin _)).next
    · refine Answers.ite (h.toTwin _).next ?_
      extract_lets u1
      have hu1 : Kept s u1 := h.setReg _ _
      refine Kept.next ?_
      exact hu1.units
  · refine Kept.next ?_
    exact h.units
  · split
    · exact (Kept.ite (h.cfgAbort _ _) h).next
    · exact h.next

theorem Kept.writeCfg (h : Kept s t) (i : Init) (r : RegRow) (o v : ℕ) : Kept s (writeCfg i r o v t).2 := by
  unfold Machine.writeCfg
  refine Kept.ite_snd ?_ ?_
  · split
    · next e2 => exact Kept.ite (((Kept.ite_snd (h.cfgArm _) h).of_snd e2).cfgCancel) ((Kept.ite_snd (h.cfgArm _) h).of_snd e2)
  · exact Kept.ite_snd (Kept.ite_snd (h.refuse _) (h.accept _ _ _)) (Kept.ite_snd (Kept.ite (h.swReady _) h) (h.accept _ _ _))

/-! ### Register access -/

theorem Kept.seqApplyLegal (h : Kept s t) (ws : List (ℕ × W32)) : Kept s (t.seqApplyLegal ws).2 := by
  unfold State.seqApplyLegal
  split
  · next e1 =>
      split
      · next e2 =>
          split
          · next e3 => exact (((((h.flwClose _).of_snd e1).ldgClose _).of_snd e2).afeClose _).of_snd e3
          · next e3 => exact h.calRefused _ _
      · next e2 => exact h.units
  · next e1 => exact h.units

theorem Kept.seqFree (h : Kept s t) (n : ℕ) : Kept s (t.seqFree n) := h.setSeq _ _

theorem Kept.seqClose (h : Kept s t) (i : Init) (n : ℕ) (apply : Bool) : Kept s (t.seqClose i n apply).2.2 := by
  unfold State.seqClose
  refine Kept.ite_snd_snd (Kept.ite_snd_snd ((h.setSeq _ _).seqNote _ _ _) (h.seqNote _ _ _)) ?_
  refine Kept.ite_snd_snd (h.seqNote _ _ _) ?_
  refine Kept.ite_snd_snd ((h.seqFree _).seqNote _ _ _) ?_
  refine Kept.ite_snd_snd ((h.seqFree _).seqNote _ _ _) ?_
  refine Kept.ite_snd_snd ?_ ?_
  · split
    · next e2 => exact (h.seqApplySec _ _).of_snd_snd e2
    · next e2 => exact (((h.seqApplySec _ _).of_snd_snd e2).seqFree _).seqNote _ _ _
  · refine Kept.ite_snd_snd ?_ ?_
    · split
      · next e2 => exact (((h.seqApplyTb _).of_snd e2).seqFree _).seqNote _ _ _
    · split
      · next e2 => exact (((h.seqApplyLegal _).of_snd e2).seqFree _).seqNote _ _ _

theorem Kept.windowWrite (h : Kept s t) (u : ℕ) (x1 : Init) (x2 : RegRow) (x3 x4 : ℕ) : Kept s (windowWrite u x1 x2 x3 x4 t).2 := by
  unfold Machine.windowWrite
  split
  · exact h.writeSys _ _ _ _
  · exact h.writePwr _ _ _ _
  · exact h.writePin _ _ _ _
  · exact h.writeTb _ _ _ _
  · exact h.writeFab _ _ _ _
  · exact h.writeMbx _ _ _ _
  · exact h.writePmc _ _ _ _
  · exact h.writeEvr _ _ _ _
  · exact h.writeQm _ _ _ _
  · exact h.writeGe _ _ _ _
  · exact h.writeOrd _ _ _ _
  · exact h.writeLdg _ _ _ _
  · exact h.writeBal _ _ _ _
  · exact h.writeFlw _ _ _ _
  · exact h.writeAfe _ _ _ _
  · exact h.writePlc _ _ _ _ _
  · exact h.writePlc _ _ _ _ _
  · exact h.writeRf _ _ _ _ _
  · exact h.writeRf _ _ _ _ _
  · exact h.writeWir _ _ _ _
  · exact h.writeEth _ _ _ _
  · exact h.writeSpn _ _ _ _
  · exact h.writeTwn _ _ _ _
  · exact h.writeTre _ _ _ _
  · exact h.writeCfg _ _ _ _
  · exact h.writeSec _ _ _ _
  · exact h.writeUpd _ _ _ _
  · exact h.writeMem _ _ _ _
  · exact h.writeNft _ _ _ _
  · exact h.writeHst _ _ _ _
  · exact h.accept _ _ _

theorem Kept.regWrite (h : Kept s t) (i : Init) (off : ℕ) (v : W32) : Kept s (t.regWrite i off v).2 := by
  unfold State.regWrite
  split
  · exact h
  · extract_lets
    refine Kept.ite_snd h ?_
    refine Kept.ite_snd (h.seqBuffer _ _ _) ?_
    refine Kept.ite_snd ?_ ?_
    · refine Kept.ite_snd ?_ (h.units.windowWrite _ _ _ _ _)
      refine Kept.ite_snd h ?_
      exact h.units
    · refine Kept.ite_snd (h.seqOpen _ _) ?_
      refine Kept.ite_snd ?_ (h.windowWrite _ _ _ _ _)
      split
      · next e3 => exact (h.seqClose _ _ _).of_snd_snd e3

theorem Kept.regRead (h : Kept s t) (i : Init) (off : ℕ) : Kept s (t.regRead i off).2.2 := by
  unfold State.regRead
  split
  · exact h
  · extract_lets
    refine Kept.ite_snd_snd h ?_
    refine Kept.ite_snd_snd h ?_
    refine Kept.ite_snd_snd h ?_
    refine Kept.ite_snd_snd ?_ ?_
    · split
      · next e2 => exact (h.mbxSend _ _).of_snd e2
    · refine Kept.ite_snd_snd (h.cntlLatch _) ?_
      refine Kept.ite_snd_snd ?_ h
      split
      · next e2 => exact (h.readPin _).of_snd e2

theorem Kept.regWriteN (h : Kept s t) (i : Init) (off n : ℕ) (v : Word) : Kept s (t.regWriteN i off n v).2 := by
  unfold State.regWriteN
  refine Kept.ite_snd h ?_
  refine Kept.ite_snd (h.regWrite _ _ _) ?_
  refine Kept.ite_snd ?_ h
  refine Kept.ite_snd h ?_
  split
  · next e2 => exact ((h.regWrite _ _ _).of_snd e2).regWrite _ _ _
  · exact h.regWrite _ _ _

theorem Kept.regReadN (h : Kept s t) (i : Init) (off n : ℕ) : Kept s (t.regReadN i off n).2.2 := by
  unfold State.regReadN
  refine Kept.ite_snd_snd h ?_
  refine Kept.ite_snd_snd ?_ ?_
  · split
    · next e2 => exact (h.regRead _ _).of_snd_snd e2
  · refine Kept.ite_snd_snd ?_ h
    refine Kept.ite_snd_snd h ?_
    split
    · next e2 =>
        split
        · next e3 => exact (((h.regRead _ _).of_snd_snd e2).regRead _ _).of_snd_snd e3
    · next e2 => exact (h.regRead _ _).of_snd_snd e2

theorem kept_regCmd (i : Init) (off : ℕ) (v : W32) (s : State) : Answers s (s.regCmd i off v) := by
  have h := Kept.refl s
  unfold State.regCmd
  refine Answers.ite h.next ?_
  split
  · next e1 =>
      extract_lets u1
      have hu1 : Kept s u1 := Kept.ite (((h.regWrite _ _ _).of_snd e1).hostError _ _ _) ((h.regWrite _ _ _).of_snd e1)
      exact (hu1.respond _ _).next

theorem Kept.outGate (h : Kept s t) (i : Init) (a : ℕ) : Kept s (t.outGate i a).2 := Kept.ite_snd h (Kept.ite_snd (h.event _ _) h)

theorem Kept.memStore (h : Kept s t) (a : ℕ) (bs : List Byte) : Kept s (t.memStore a bs).2 := by
  unfold State.memStore
  split
  · exact Kept.ramWrite (Kept.foldl _ (fun u l => Kept.ite (Kept.refl u) ((Kept.refl u).restoreCount l)) _ h) _ _
  · exact h.trans ⟨rfl, rfl, rfl, rfl, rfl, fun f => ⟨f.1, wf_ramPutTab _ _ _ f.2.1, f.2.2⟩⟩
  · exact h.trans ⟨rfl, rfl, rfl, rfl, rfl, fun f => ⟨f.1, f.2.1, wf_ramPutTab _ _ _ f.2.2⟩⟩
  · exact h

theorem Kept.fabWrite4 (h : Kept s t) (i : Init) (a : ℕ) (v : W32) : Kept s (t.fabWrite4 i a v).2 := by
  unfold State.fabWrite4
  split
  · exact h.regWrite _ _ _
  · refine Kept.ite_snd h ?_
    refine Kept.ite_snd h ?_
    split
    · next e2 =>
        refine Kept.ite ?_ ((h.outGate _ _).of_snd e2)
        exact ((h.outGate _ _).of_snd e2).units
  · refine Kept.ite_snd h ?_
    split
    · exact h.memStore _ _
    · exact h

theorem Kept.fabRead4 (h : Kept s t) (i : Init) (a : ℕ) : Kept s (t.fabRead4 i a).2.2 := by
  unfold State.fabRead4
  split
  · exact h.regRead _ _
  · refine Kept.ite_snd_snd h ?_
    refine Kept.ite_snd_snd h ?_
    split
    · next e2 =>
        refine Kept.ite_snd_snd ?_ ((h.outGate _ _).of_snd e2)
        split
        · next e3 => exact (((h.outGate _ _).of_snd e2).draw _).of_snd e3
  · refine Kept.ite_snd_snd h ?_
    split
    · extract_lets
      exact Kept.ite_snd_snd h h
    · exact h

/-! ### Loads and stores -/

theorem Kept.afterRegw (h : Kept s t) (i : Init) (ws : List RegW) : Kept s (t.afterRegw i ws) := by
  unfold State.afterRegw
  exact Kept.foldl _ (fun u _ => (Kept.refl u).regWriteN _ _ _ _) _ h

theorem Kept.stageReg (h : Kept s t) (w : Who) (off n : ℕ) (v : Word) : Kept s (t.stageReg w off n v).2 := by
  unfold State.stageReg
  extract_lets
  split
  · next e1 => exact Kept.ite_snd (h.putMe _ _) h

theorem Kept.stageWords (h : Kept s t) (w : Who) (off : ℕ) (bs : List Byte) (k : ℕ) : Kept s (State.stageWords w off bs k t).2 := by
  induction k generalizing t off bs with
  | zero => exact h
  | succ k ih =>
    have hreg := h.stageReg w off 4 (BitVec.ofNat 64 (natOfBytes (bs.take 4)))
    unfold State.stageWords
    split
    next u e => exact ih (hreg.of_snd e) _ _
    next => exact hreg

theorem Kept.accFault (h : Kept s t) (st : Status) : (accFault st t).kept s := by
  unfold Machine.accFault
  split
  · exact h
  · exact h
  · exact h
  · exact h
  · exact h
  · trivial
  · exact h

theorem kept_garnilAt (x : Ix) (place : Thread → Option (Bool × ℕ)) (n : ℕ) (f : State → Bool × ℕ → GRes) (s : State)
    (hf : ∀ u p, Kept s u → (f u p).kept s) : Answers s (garnilAt x place n f s) := by
  unfold garnilAt
  refine Answers.ite (Kept.refl s).next (kept_garnil _ _ _ fun u hu => ?_)
  split
  · exact hf u _ hu
  · trivial

theorem Kept.wordsRead (h : Kept s t) (i : Init) (off k : ℕ) : Kept s (State.wordsRead i off k t).s := by
  induction k generalizing t off with
  | zero => exact h
  | succ k ih =>
    have hread := h.regRead i off
    unfold State.wordsRead
    split
    next v u e => exact ih (hread.of_snd_snd e) _
    next st v u _ e => exact hread.of_snd_snd e

theorem Kept.ite_acc {c : Prop} [Decidable c] {p q : AccRes} (h : Kept s p.s) (g : Kept s q.s) : Kept s (if c then p else q).s := by
  split
  · exact h
  · exact g

theorem Kept.loadAt (h : Kept s t) (w : Who) (block : Bool) (a n : ℕ) : Kept s (t.loadAt w block a n).s := by
  unfold State.loadAt
  extract_lets i st me
  clear_value st me
  split
  · refine Kept.ite_acc (Kept.ite_acc h (Kept.ite_acc h (h.wordsRead _ _ _))) ?_
    split
    next e => exact (h.regReadN _ _ _).of_snd_snd e
  · refine Kept.ite_acc h ?_
    split
    next u e =>
    have hu : Kept s u := (h.outGate _ _).of_snd e
    exact Kept.ite_acc (hu.draw (8 * n)) hu
  · refine Kept.ite_acc h ?_
    extract_lets b lines bs
    exact Kept.ite_acc h (Kept.ite h (h.putMe _ _))

theorem kept_loadG (x : Ix) (sp : Space) (n : ℕ) (signed : Bool) (rd : GReg) (addr : Thread → Word) (s : State) :
    Answers s (loadG x sp n signed rd addr s) := by
  unfold Machine.loadG
  refine kept_garnilAt _ _ _ _ _ fun u p hu => GRes.kept_ite ?_ ?_
  · exact hu.goG _ _ _
  · have hr := hu.loadAt x.who false p.2 n
    exact GRes.kept_ite (hr.goG _ _ _) (hr.accFault _)

/-- A store's result: the state it gives, where it gives one, keeps what `Kept` speaks of. -/
def PutRes.keeps (s : State) : PutRes → Prop
  | .ok u => Kept s u
  | .limit => True
  | .err _ u => Kept s u

theorem PutRes.keeps_ite {c : Prop} [Decidable c] {p q : PutRes} (h : p.keeps s) (g : q.keeps s) : (if c then p else q).keeps s := by
  split
  · exact h
  · exact g

theorem Kept.storeAt (h : Kept s t) (w : Who) (block : Bool) (a : ℕ) (bs : List Byte) : (t.storeAt w block a bs).keeps s := by
  unfold State.storeAt
  extract_lets i n st me g
  clear_value st me g
  split
  · split
    next st' u e =>
    have hu : Kept s u :=
      Kept.of_snd (Kept.ite_snd (Kept.ite_snd h (Kept.ite_snd h (h.stageWords _ _ _ _))) (h.stageReg _ _ _ _)) e
    exact PutRes.keeps_ite hu h
  · refine PutRes.keeps_ite h ?_
    split
    next st' u e =>
    have hu : Kept s u := (h.outGate _ _).of_snd e
    exact PutRes.keeps_ite (hu.putMe _ _) hu
  · exact PutRes.keeps_ite h (PutRes.keeps_ite trivial (h.putMe _ _))

theorem kept_storeG (x : Ix) (sp : Space) (n : ℕ) (rd : GReg) (addr : Thread → Word) (s : State) : Answers s (storeG x sp n rd addr s) := by
  unfold Machine.storeG
  refine kept_garnilAt _ _ _ _ _ fun u p hu => GRes.kept_ite (hu.putMe _ _) ?_
  have hput := hu.storeAt x.who false p.2 (regBytes ((u.me x.who).getG rd) n)
  split
  · next e => rw [e] at hput; exact hput
  · trivial
  · next e => rw [e] at hput; exact Kept.accFault hput _

theorem kept_copyIn (x : Ix) (rec_ : Bool) (rd ra rb : GReg) (s : State) : Answers s (copyIn x rec_ rd ra rb s) := by
  unfold Machine.copyIn
  extract_lets n
  refine kept_garnilAt _ _ _ _ _ fun u p hu => GRes.kept_ite hu ?_
  have hr := hu.loadAt x.who true p.2 n
  exact GRes.kept_ite (hr.putMe _ _) (hr.accFault _)

theorem kept_copyOutScr (x : Ix) (rec_ : Bool) (rd ra rb : GReg) (s : State) : Answers s (copyOutScr x rec_ rd ra rb s) := by
  unfold Machine.copyOutScr
  extract_lets n
  refine kept_garnilAt _ _ _ _ _ fun u p hu => GRes.kept_ite hu ?_
  have hput := hu.storeAt x.who true p.2 ((u.me x.who).scr ((u.me x.who).getG ra).toNat n)
  dsimp only
  split
  · next e => rw [e] at hput; exact hput
  · trivial
  · next e => rw [e] at hput; exact Kept.accFault hput _

theorem kept_execBcpySs (x : Ix) (rd ra rb : GReg) (s : State) : Answers s (execBcpySs x rd ra rb s) := by
  unfold Machine.execBcpySs
  refine kept_garnil _ _ _ fun u hu => ?_
  exact GRes.kept_ite trivial (GRes.kept_ite hu (GRes.kept_ite (hu.putMe _ _) trivial))

theorem Kept.cwRead (h : Kept s t) (w : Who) (k : ℕ) : Kept s (t.cwRead w k).2 := by
  unfold State.cwRead
  extract_lets _ _ read
  have hread (v : Word) : Kept s (read v).2 := by
    cases w with
    | thread n => exact h
    | sup => exact h.draw 64
  split <;> simp only [hread, h]

theorem Kept.cwWrite (h : Kept s t) (w : Who) (k : ℕ) (v : Word) : Kept s (t.cwWrite w k v) := by
  unfold State.cwWrite
  split
  · exact h.putMe _ _
  · exact h.putMe _ _
  · exact h.putMe _ _
  · exact h.putMe _ _
  · exact h.putMe _ _
  · exact h.other rfl
  · exact h.other rfl
  · exact h.other rfl
  · exact h.other rfl
  · exact h.other rfl
  · exact h.other rfl
  · exact h

theorem kept_execMfc (x : Ix) (rd : GReg) (cw : Fin 64) (s : State) : Answers s (execMfc x rd cw s) := by
  unfold Machine.execMfc
  refine kept_garnilPriv _ _ _ _ fun u hu => ?_
  split
  · next e2 => exact ((hu.cwRead _ _).of_snd e2).goG _ _ _

theorem kept_execMtc (x : Ix) (ra : GReg) (cw : Fin 64) (s : State) : Answers s (execMtc x ra cw s) := by
  unfold Machine.execMtc
  refine kept_garnilPriv _ _ _ _ fun u hu => ?_
  split
  · exact GRes.kept_ite (hu.cwWrite _ _ _) trivial
  · trivial

/-! ### The Garnil instructions -/

theorem kept_execQtake (x : Ix) (rd ra rb : GReg) (s : State) : Answers s (execQtake x rd ra rb s) := by
  unfold Machine.execQtake
  refine kept_garnilPriv _ _ _ _ fun u hu => GRes.kept_unlessFenced ?_
  extract_lets _ _ _ u1
  have hu1 : Kept s u1 := hu.qmAccess _
  refine GRes.kept_ite trivial ?_
  split
  · refine GRes.kept_ite trivial ?_
    exact (hu1.takeHead _).putMe _ _
  · exact hu1.goG _ _ _

theorem kept_execQput (x : Ix) (rd ra rb : GReg) (s : State) : Answers s (execQput x rd ra rb s) := by
  unfold Machine.execQput
  refine kept_garnilPriv _ _ _ _ fun u hu => GRes.kept_unlessFenced ?_
  extract_lets _ _ _ u1 _ _ _ u2
  have hu1 : Kept s u1 := hu.qmAccess _
  have hu2 : Kept s u2 := Kept.ite hu1 (hu1.setDesc _ _)
  refine GRes.kept_ite trivial ?_
  split
  · exact GRes.kept_ite trivial (hu2.putMe _ _)
  · extract_lets u3
    have hu3 : Kept s u3 := hu1.putMe _ _
    exact Kept.ite (hu3.count _ _ _) hu3

theorem kept_execQpeek (x : Ix) (rd ra rb : GReg) (s : State) : Answers s (execQpeek x rd ra rb s) := by
  unfold Machine.execQpeek
  refine kept_garnil _ _ _ fun u hu => GRes.kept_ite trivial ?_
  exact GRes.kept_ite trivial (GRes.kept_ite (hu.goG _ _ _) (hu.putMe _ _))

theorem kept_execTabort (x : Ix) (x1 : GReg) (s : State) : Answers s (execTabort x x1 s) := by
  unfold Machine.execTabort
  refine kept_garnil _ _ _ fun u hu => ?_
  split
  · exact hu.endTask _ _ _ _
  · exact (hu.dropLocks _).dropStage _

theorem Kept.yieldTask (h : Kept s t) (agent : ℕ) : Kept s (t.yieldTask agent) := by
  unfold State.yieldTask
  split
  · exact h.replayCut _ _ _ _
  · extract_lets u1
    have hu1 : Kept s u1 := (h.dropLocks _).dropStage _
    split
    · next e2 =>
        extract_lets _ u2 _ u3 u4 u5 u6
        have hu2 : Kept s u2 := ((hu1.qmAccess _).of_snd e2).publish _ _ _
        have hu3 : Kept s u3 := hu2.setDesc _ _
        have hu4 : Kept s u4 := by
          unfold u4
          refine Kept.ite ?_ ((hu1.qmAccess _).of_snd e2)
          exact Kept.ite (hu3.consume _ _ _) (((hu1.qmAccess _).of_snd e2).returnItem _ _ _)
        have hu5 : Kept s u5 := hu4.inflDown _ _
        have hu6 : Kept s u6 := (hu5.classIssued _ _).count _ _ _
        exact hu6.freeThread _

theorem kept_execYield (x : Ix) (s : State) : Answers s (execYield x s) := by
  unfold Machine.execYield
  refine kept_garnil _ _ _ fun u hu => ?_
  split
  · exact hu.yieldTask _
  · trivial

theorem Kept.waitFor (h : Kept s t) (x : Ix) (rd : GReg) (ns : Word) (now : Bool) (st : ℕ → TState) : (waitFor x rd ns now st t).kept s :=
  GRes.kept_ite (h.goG _ _ _) (GRes.kept_ite (h.goG _ _ _) (h.putMe _ _))

theorem kept_execWaitq (x : Ix) (rd ra rb : GReg) (s : State) : Answers s (execWaitq x rd ra rb s) := by
  unfold Machine.execWaitq
  refine kept_garnil _ _ _ fun u hu => ?_
  exact hu.waitFor _ _ _ _ _

theorem kept_execWaitl (x : Ix) (rd ra rb : GReg) (s : State) : Answers s (execWaitl x rd ra rb s) := by
  unfold Machine.execWaitl
  refine kept_garnil _ _ _ fun u hu => ?_
  exact hu.waitFor _ _ _ _ _

theorem kept_execWaitEnd (who : Who) (s : State) : Answers s (execWaitEnd who s) := by
  have h := Kept.refl s
  unfold Machine.execWaitEnd
  refine Answers.ite h.next ?_
  split
  · exact h.next
  · exact (h.putMe _ _).next
  · exact (h.putMe _ _).next

theorem kept_execEvpost (x : Ix) (rd ra : GReg) (imm : BitVec 12) (s : State) : Answers s (execEvpost x rd ra imm s) := by
  unfold Machine.execEvpost
  refine kept_garnil _ _ _ fun u hu => ?_
  exact GRes.kept_ite trivial (hu.putMe _ _)

theorem Kept.fence (h : Kept s t) (a : ℕ) : Kept s (t.fence a) := by
  unfold State.fence
  refine Kept.ite ?_ h.units
  refine Kept.reserveCheck ?_ _
  exact h.units.other rfl

theorem Kept.unfence (h : Kept s t) (a : ℕ) : Kept s (t.unfence a) := by
  unfold State.unfence
  exact Kept.ite (h.units.reserveCheck _) h.units

theorem kept_execFencea (x : Ix) (ra : GReg) (s : State) : Answers s (execFencea x ra s) := by
  unfold Machine.execFencea
  refine kept_garnilSup _ _ _ fun u hu => ?_
  exact Kept.ite (hu.fence _) hu

theorem kept_execUnfence (x : Ix) (ra : GReg) (s : State) : Answers s (execUnfence x ra s) := by
  unfold Machine.execUnfence
  refine kept_garnilSup _ _ _ fun u hu => ?_
  exact Kept.ite (hu.unfence _) hu

theorem Kept.supRestart (h : Kept s t) : Kept s t.supRestart := by
  unfold State.supRestart
  extract_lets u1 u2
  have hu1 : Kept s u1 := h.dropStage _
  have hu2 : Kept s u2 := hu1.setThread _ _
  exact hu2.other rfl

theorem Kept.loseTask (h : Kept s t) (a : ℕ) : Kept s (t.loseTask a) := by
  unfold State.loseTask
  exact Kept.ite h (Kept.ite (h.dropStage _) (Kept.ite (h.endTask _ _ _ _) h))

theorem Kept.agentReset (h : Kept s t) (a : ℕ) : Kept s (t.agentReset a) := by
  unfold State.agentReset
  refine Kept.ite ?_ ?_
  · extract_lets
    exact Kept.ite (h.setThread _ _) ((Kept.ite (h.endTask _ _ _ _) h).raiseEpoch _)
  · refine Kept.ite ((h.supRestart).raiseEpoch _) ?_
    refine Kept.ite ?_ ?_
    · refine Kept.raiseEpoch ?_ _
      exact h.units
    · refine Kept.ite ?_ (h.raiseEpoch _)
      refine Kept.raiseEpoch ?_ _
      exact h.units

theorem kept_execAgreset (x : Ix) (ra : GReg) (s : State) : Answers s (execAgreset x ra s) := by
  unfold Machine.execAgreset
  refine kept_garnilSup _ _ _ fun u hu => ?_
  exact GRes.kept_ite hu.units (GRes.kept_ite (hu.units.agentReset _) (hu.units.agentReset _))

theorem Kept.revokeQueue (h : Kept s t) (q : ℕ) : Kept s (t.revokeQueue q).2.2 := by
  unfold State.revokeQueue
  extract_lets _ _ _ u1 _ u2
  have hu1 : Kept s u1 := Kept.foldr _ (fun b u => Kept.ite ((Kept.refl _).endTask _ _ _ _) ((Kept.refl _).dropStage _)) _ h
  have hu2 : Kept s u2 := Kept.ite (hu1.setDesc _ _) hu1
  exact Kept.ite_snd_snd h (Kept.ite_snd_snd h hu2)

theorem Kept.revokeLock (h : Kept s t) (l : ℕ) : Kept s (t.revokeLock l).2.2 := by
  unfold State.revokeLock
  extract_lets
  split
  · exact h
  · refine Kept.ite_snd_snd ?_ (Kept.ite_snd_snd h h)
    extract_lets u1
    have hu1 : Kept s u1 := Kept.ite (h.loseTask _) h
    exact (hu1.setLock _ _).freeLock _

theorem Kept.revokeNand (h : Kept s t) (ch : ℕ) : Kept s (t.revokeNand ch).2.2 := by
  unfold State.revokeNand
  exact Kept.ite_snd_snd h (Kept.ite_snd_snd h (h.nandAbort _ _))

theorem Kept.revokeSpindle (h : Kept s t) (a : ℕ) : Kept s (t.revokeSpindle a).2.2 := by
  unfold State.revokeSpindle
  refine Kept.ite_snd_snd h ?_
  refine Kept.ite_snd_snd ?_ h
  exact h.units

theorem Kept.revoke (h : Kept s t) (kind : ℕ) (r : Word) : Kept s (t.revoke kind r).2.2 := by
  unfold State.revoke
  split
  · exact h.revokeQueue _
  · exact h.revokeLock _
  · exact h.revokeNand _
  · exact h.revokeSpindle _
  · exact h

theorem kept_execRevoke (x : Ix) (rd ra rb : GReg) (s : State) : Answers s (execRevoke x rd ra rb s) := by
  unfold Machine.execRevoke
  refine kept_garnilSup _ _ _ fun u hu => ?_
  extract_lets
  split
  · next e2 =>
      refine Kept.goG ?_ _ _ _
      exact Kept.foldl _ (fun u b => (Kept.ite (Kept.refl _) ((Kept.refl _).loseTask _)).raiseEpoch _) _ ((hu.revoke _ _).of_snd_snd e2)

theorem kept_execSeqopen (x : Ix) (rd ra : GReg) (s : State) : Answers s (execSeqopen x rd ra s) := by
  unfold Machine.execSeqopen
  refine kept_garnilSup _ _ _ fun u hu => ?_
  split
  · next e2 => exact ((hu.seqOpen _ _).of_snd e2).goG _ _ _

theorem kept_execSeqclose (x : Ix) (rd ra rb : GReg) (s : State) : Answers s (execSeqclose x rd ra rb s) := by
  unfold Machine.execSeqclose
  refine kept_garnilSup _ _ _ fun u hu => ?_
  extract_lets
  split
  · next e2 => exact GRes.kept_ite (((hu.seqClose _ _ _).of_snd_snd e2).putMe _ _) (((hu.seqClose _ _ _).of_snd_snd e2).goG _ _ _)

theorem kept_execIret (x : Ix) (s : State) : Answers s (execIret x s) := by
  unfold Machine.execIret
  refine kept_garnilSup _ _ _ fun u hu => Kept.jumpTo ?_ _ _
  exact hu.other rfl

theorem kept_execEvposts (x : Ix) (ra rb : GReg) (s : State) : Answers s (execEvposts x ra rb s) := by
  unfold Machine.execEvposts
  refine kept_garnilSup _ _ _ fun u hu => ?_
  exact hu.eventAs _ _ _ _

theorem kept_execSupInterrupt (s : State) : Answers s (execSupInterrupt s) := by
  have h := Kept.refl s
  unfold Machine.execSupInterrupt
  extract_lets _ _ u1
  have hu1 : Kept s u1 := h.other rfl
  exact Answers.ite (hu1.setThread _ _).next h.next

theorem kept_execUnassignedEncoding (who : Who) (w : W32) (s : State) : Answers s (execUnassignedEncoding who w s) := by
  have h := Kept.refl s
  unfold Machine.execUnassignedEncoding
  refine Answers.ite ?_ h.next
  split
  · exact ((h.issue _).engineFaultAt _ _ _ _).next
  · exact ((h.issue _).supFault _ _).next

/-! ### The commit -/

theorem Kept.putsOk (h : Kept s t) (ps : List Put) : Kept s (State.putsOk ps t).2 := by
  induction ps generalizing t with
  | nil => exact h
  | cons p ps ih => exact Kept.ite_snd (ih (h.qmAccess _)) (h.qmAccess _)

theorem Kept.outsOk (h : Kept s t) (i : Init) (xs : List (ℕ × ℕ × Word)) : Kept s (State.outsOk i xs t).2 := by
  induction xs generalizing t with
  | nil => exact h
  | cons x xs ih =>
    have hgate := h.outGate i x.1
    unfold State.outsOk
    split
    next u e => exact ih (hgate.of_snd e)
    next st u _ e => exact hgate.of_snd e

theorem Kept.commitLook (h : Kept s t) (w : Who) (late : Bool) : Kept s (t.commitLook w late).2 := by
  unfold State.commitLook
  refine Kept.ite_snd h ?_
  split
  · next e2 =>
      refine Kept.ite_snd ((h.putsOk _).of_snd e2) ?_
      refine Kept.ite_snd ((h.putsOk _).of_snd e2) ?_
      split
      · exact (h.putsOk _).of_snd e2
      · refine Kept.ite_snd ((h.putsOk _).of_snd e2) ?_
        split
        · next e3 => exact (((h.putsOk _).of_snd e2).outsOk _ _).of_snd e3

theorem Kept.applyLine (h : Kept s t) (g : Stage) (l : ℕ) : Kept s (t.applyLine g l) := by
  unfold State.applyLine
  refine Kept.ite (h.memStore _ _) ?_
  exact Kept.foldl _ (fun u _ => (Kept.refl u).memStore _ _) _ h

theorem Kept.applyPut (h : Kept s t) (agent : ℕ) (p : Put × ℕ) : Kept s (t.applyPut agent p) := by
  unfold State.applyPut
  extract_lets _ u1 u2
  have hu1 : Kept s u1 := h.setDesc _ _
  have hu2 : Kept s u2 := hu1.publish _ _ _
  refine Kept.ite ?_ hu2
  exact hu2.units

theorem Kept.applyReg (h : Kept s t) (i : Init) (x : RegW) : Kept s (t.applyReg i x) := h.regWriteN _ _ _ _

theorem Kept.applyOut (h : Kept s t) (x : ℕ × ℕ × Word) : Kept s (t.applyOut x) := h.units

theorem Kept.applyComp (h : Kept s t) (c : Comp) : Kept s (t.applyComp c) := (h.ccCommit _).journalComp _

theorem Kept.noteCommit (h : Kept s t) (ls : List ℕ) : Kept s (t.noteCommit ls) := by
  unfold State.noteCommit
  exact h.units

theorem Kept.unmark (h : Kept s t) (l : ℕ) : Kept s (t.unmark l) := h.setLock _ _

theorem Kept.keepReplay (h : Kept s t) (agent : ℕ) (x : Thread) (outs : List Item) : Kept s (t.keepReplay agent x outs) := by
  unfold State.keepReplay
  refine Kept.ite ?_ h
  exact h.units

theorem Kept.applyStage (h : Kept s t) (w : Who) (x : Thread) : Kept s (t.applyStage w x) := by
  unfold State.applyStage
  extract_lets _ u1 u2 u3 u4 u5 u6
  have hu1 : Kept s u1 := by
    unfold u1
    refine Kept.book ?_ _
    exact Kept.foldl _ (fun u _ => (Kept.refl u).applyLine _ _) _ h
  have hu2 : Kept s u2 := Kept.foldl _ (fun u _ => (Kept.refl u).postCommit _) _ hu1
  have hu3 : Kept s u3 := by
    unfold u3
    split
    · exact hu2.consume _ _ _
    · exact hu2
  have hu4 : Kept s u4 := Kept.foldl _ (fun u _ => (Kept.refl u).consume _ _ _) _ hu3
  have hu5 : Kept s u5 := Kept.foldl _ (fun u _ => (Kept.refl u).applyPut _ _) _ hu4
  have hu6 : Kept s u6 := Kept.foldl _ (fun u _ => (Kept.refl u).applyReg _ _) _ hu5
  exact Kept.foldl _ (fun u _ => (Kept.refl u).applyOut _) _ hu6

theorem Kept.applyCommit (h : Kept s t) (w : Who) : Kept s (t.applyCommit w) := by
  unfold State.applyCommit
  extract_lets _ _ _ _ _ u1 u2 u3 u4 u5
  have hu1 : Kept s u1 := (h.applyStage _ _).noteCommit _
  have hu2 : Kept s u2 := by
    unfold u2
    refine Kept.dropPend ?_ _
    exact Kept.foldl _ (fun u _ => (Kept.refl u).applyComp _) _ hu1
  have hu3 : Kept s u3 := Kept.foldl _ (fun u _ => (Kept.refl u).unmark _) _ hu2
  have hu4 : Kept s u4 := Kept.foldl _ (fun u b => Kept.ite ((Kept.refl _).freeLock _) (Kept.refl _)) _ hu3
  have hu5 : Kept s u5 := Kept.foldl _ (fun u _ => (Kept.refl u).eventAs _ _ _ _) _ hu4
  exact hu5.keepReplay _ _ _

theorem Kept.commitEnd (h : Kept s t) (w : Who) : Kept s (t.commitEnd w) := by
  unfold State.commitEnd
  split
  · extract_lets _ u1
    have hu1 : Kept s u1 := h.inflDown _ _
    exact ((hu1.classIssued _ _).count _ _ _).freeThread _
  · exact h.putMe _ _

theorem Kept.commitConflict (h : Kept s t) (w : Who) (st : Status) : Kept s (t.commitConflict w st) := by
  unfold State.commitConflict
  split
  · exact (h.respond _ _).endTask _ _ _ _
  · exact ((h.respond _ _).dropLocks _).dropStage _

theorem Kept.commitGo (h : Kept s t) (w : Who) : (commitGo w t).kept s := by
  unfold Machine.commitGo
  split
  · exact h
  · exact h

theorem Kept.commitRun (h : Kept s t) (w : Who) : (commitRun w t).kept s := by
  unfold Machine.commitRun
  refine GRes.kept_ite trivial ?_
  refine GRes.kept_ite trivial ?_
  split
  · exact h.replayEnd _ _ _ _
  · split
    · next e2 => exact (h.commitLook _ _).of_snd e2
    · next e2 => exact (((h.commitLook _ _).of_snd e2).commitConflict _ _).commitGo _
    · next e2 =>
        extract_lets _ u1
        have hu1 : Kept s u1 := Kept.foldl _ (fun u _ => (Kept.refl u).journalPut _) _ ((h.commitLook _ _).of_snd e2)
        refine GRes.kept_ite ?_ ?_
        · exact ((((h.commitLook _ _).of_snd e2).applyCommit _).commitEnd _).commitGo _
        · exact GRes.kept_ite (((hu1.applyCommit _).commitEnd _).commitGo _) (hu1.putMe _ _)

theorem kept_execTcommit (x : Ix) (s : State) : Answers s (execTcommit x s) :=
  Answers.ite (Kept.refl s).next (kept_garnil _ _ _ fun _ hu => hu.commitRun _)

theorem Kept.resetLate (h : Kept s t) (agent : ℕ) : Kept s (t.resetLate agent) := by
  unfold State.resetLate
  exact Kept.ite ((h.setThread _ _).raiseEpoch _) h

theorem Kept.journalDrop (h : Kept s t) (j n : ℕ) : Kept s (t.journalDrop j n) := h.units

theorem Kept.commitPc (h : Kept s t) (w : Who) : Kept s (t.commitPc w) := by
  unfold State.commitPc
  split
  · exact h
  · exact h.setPc _ _

theorem Kept.commitLate (h : Kept s t) (agent : ℕ) : Kept s (t.commitLate agent) := by
  unfold State.commitLate
  extract_lets _ _ u1
  have hu1 : Kept s u1 := h.setThread _ _
  split
  · next e2 => exact ((((hu1.commitLook _ _).of_snd e2).journalDrop _ _).fault _ _ _).resetLate _
  · next e2 => exact (((((hu1.commitLook _ _).of_snd e2).journalDrop _ _).commitConflict _ _).commitPc _).resetLate _
  · next e2 => exact (((((hu1.commitLook _ _).of_snd e2).applyCommit _).commitEnd _).commitPc _).resetLate _

theorem kept_execJournalAck (pos : Word) (s : State) : Answers s (execJournalAck pos s) := by
  have h := Kept.refl s
  unfold Machine.execJournalAck
  refine Answers.ite ?_ h.next
  extract_lets _ u1
  have hu1 : Kept s u1 := h.units
  refine Kept.next ?_
  exact Kept.foldl _ (fun u _ => (Kept.refl u).commitLate _) _ hu1

theorem Kept.streamFor (h : Kept s t) (id : Word) : Kept s (t.streamFor id) := by
  unfold State.streamFor
  split
  · exact h
  · split
    · exact h.stPut _ _
    · exact h

theorem Kept.journalIn (h : Kept s t) (e : JEntry) : Kept s (t.journalIn e) := by
  unfold State.journalIn
  extract_lets _ _ u1
  have hu1 : Kept s u1 := by
    unfold u1
    refine Kept.mapFrom ?_ _
    exact h.units
  exact Kept.ite ((hu1.streamFor _).ccCommit _) hu1

theorem kept_execJournalReceive (es : List JEntry) (s : State) : Answers s (execJournalReceive es s) := by
  have h := Kept.refl s
  unfold Machine.execJournalReceive
  refine Answers.ite ?_ h.next
  split
  · exact h.next
  · refine Kept.next (Kept.toTwin ?_ _)
    exact Kept.foldl _ (fun u _ => (Kept.refl u).journalIn _) _ h

theorem kept_execTwinLoss (s : State) : Answers s (execTwinLoss s) := by
  have h := Kept.refl s
  unfold Machine.execTwinLoss
  extract_lets _ _ _ _ u1 u2 u3
  have hu1 : Kept s u1 := h.units
  have hu2 : Kept s u2 := (hu1.raiseEpoch _).event _ _
  have hu3 : Kept s u3 := Kept.foldl _ (fun u _ => (Kept.refl u).settle _ _) _ hu2
  refine Answers.ite ?_ h.next
  refine Kept.next ?_
  exact Kept.foldl _ (fun u _ => (Kept.refl u).commitLate _) _ hu3.custodyTakeover

/-! ### Integer instructions -/

theorem kept_alu2 (x : Ix) (rd ra rb : GReg) (f : Word → Word → Word) (s : State) : Answers s (alu2 x rd ra rb f s) :=
  kept_garnil _ _ _ fun u hu => hu.goG _ _ _

theorem kept_alu1 (x : Ix) (rd ra : GReg) (f : Word → Word) (s : State) : Answers s (alu1 x rd ra f s) :=
  kept_garnil _ _ _ fun u hu => hu.goG _ _ _

theorem kept_aluDiv (x : Ix) (rd ra rb : GReg) (f : Word → Word → Word) (s : State) : Answers s (aluDiv x rd ra rb f s) :=
  kept_garnil _ _ _ fun u hu => GRes.kept_ite trivial (hu.goG _ _ _)

theorem kept_execLdl (x : Ix) (rd : GReg) (imm : BitVec 17) (s : State) : Answers s (execLdl x rd imm s) := by
  unfold Machine.execLdl
  refine kept_garnil _ _ _ fun u hu => ?_
  exact GRes.kept_ite (hu.goG _ _ _) trivial

theorem kept_cmp2 (x : Ix) (k : Comb) (pd : PReg) (ra rb : GReg) (f : Word → Word → Bool) (s : State) : Answers s (cmp2 x k pd ra rb f s) :=
  kept_garnil _ _ _ fun u hu => hu.goCmp _ _ _ _

theorem kept_pred2 (x : Ix) (pd pa pb : PReg) (f : Bool → Bool → Bool) (s : State) : Answers s (pred2 x pd pa pb f s) :=
  kept_garnil _ _ _ fun u hu => hu.goP _ _ _

theorem kept_execPput (x : Ix) (ra : GReg) (s : State) : Answers s (execPput x ra s) := by
  unfold Machine.execPput
  refine kept_garnil _ _ _ fun u hu => ?_
  exact hu.putMe _ _

theorem Kept.linkTo (h : Kept s t) (w : Who) (rd : GReg) (t' : ℤ) : (linkTo w rd t' t).kept s := (h.putMe _ _).jumpTo _ _

/-! ### Management commands -/

theorem Kept.returned (h : Kept s t) (ws : List W32) : Kept s (t.returned ws) := h.units

theorem Kept.portStatus (h : Kept s t) (i : Init) (st : Status) : Kept s (t.portStatus i st) := by
  unfold State.portStatus
  refine Kept.respond ?_ _ _
  exact h.units

theorem Kept.spiFetch (h : Kept s t) (a : BitVec 40) (n k : ℕ) : Kept s (State.spiFetch a n k t).2 := by
  induction n generalizing t k with
  | zero => exact h
  | succ n ih =>
    have hr := h.fabRead4 .spi (spiAddr a k)
    unfold State.spiFetch
    split
    next st v u e =>
    have hu : Kept s u := hr.of_snd_snd e
    split
    next v' w e' =>
    have hw : Kept s w := Kept.of_snd (Kept.ite_snd hu (hu.draw 32)) e'
    exact ih (hw.portStatus _ _) _

theorem kept_execSpiRead (addr : BitVec 40) (words : Fin 65) (s : State) : Answers s (execSpiRead addr words s) := by
  have h := Kept.refl s
  unfold Machine.execSpiRead
  refine Answers.ite h.next ?_
  split
  · next e1 => exact (((h.spiFetch _ _ _).of_snd e1).returned _).next

theorem Kept.spiStore (h : Kept s t) (a : BitVec 40) (vs : List W32) (k : ℕ) : Kept s (State.spiStore a vs k t) := by
  induction vs generalizing t k with
  | nil => exact h
  | cons v vs ih => exact ih ((h.fabWrite4 _ _ _).portStatus _ _) _

theorem kept_execSpiWrite (addr : BitVec 40) (data : List W32) (s : State) : Answers s (execSpiWrite addr data s) := by
  have h := Kept.refl s
  unfold Machine.execSpiWrite
  exact Answers.ite h.next (h.spiStore _ _ _).next

theorem Kept.i2cStore (h : Kept s t) (off : BitVec 24) (vs : List W32) (k : ℕ) : Kept s (State.i2cStore off vs k t) := by
  induction vs generalizing t k with
  | nil => exact h
  | cons v vs ih =>
    have hw := h.regWrite .i2c (i2cOff off k) v
    unfold State.i2cStore
    split
    next u e => exact ih ((hw.of_snd e).portStatus _ _) _
    next st u _ e => exact (hw.of_snd e).portStatus _ _

theorem Kept.i2cFetch (h : Kept s t) (off : BitVec 24) (n k : ℕ) : Kept s (State.i2cFetch off n k t).2 := by
  induction n generalizing t k with
  | zero => exact h
  | succ n ih =>
    have hr := h.regRead .i2c (i2cOff off k)
    unfold State.i2cFetch
    split
    next v u e => exact ih ((hr.of_snd_snd e).portStatus _ _) _
    next st v u _ e => exact (hr.of_snd_snd e).portStatus _ _

theorem kept_execI2cTargetRead (off : BitVec 24) (words : ℕ) (s : State) : Answers s (execI2cTargetRead off words s) := by
  have h := Kept.refl s
  unfold Machine.execI2cTargetRead
  refine Answers.ite ?_ h.next
  split
  · next e1 => exact (((h.i2cFetch _ _ _).of_snd e1).returned _).next

theorem kept_execItemPortWordWrite (viaI2c : Bool) (off : BitVec 9) (v : W32) (s : State) :
    Answers s (execItemPortWordWrite viaI2c off v s) := by
  have h := Kept.refl s
  unfold Machine.execItemPortWordWrite
  refine Answers.ite h.next ?_
  split
  · next e1 => exact (((h.regWrite _ _ _).of_snd e1).portStatus _ _).next

theorem kept_execGo (i : Init) (v : W32) (bus : I2cBus) (s : State) : Answers s (execGo i v bus s) := by
  obtain ⟨u, e, hu⟩ := kept_regCmd i 0x1E0088 v s
  unfold Machine.execGo
  rw [e]
  exact (Kept.ite (hu.i2cAttempt _) hu).next

theorem kept_readCmd (i : Init) (off : ℕ) (s : State) : Answers s (s.readCmd i off) := by
  have h := Kept.refl s
  unfold State.readCmd
  refine Answers.ite h.next ?_
  split
  · next e1 =>
      extract_lets u1
      have hu1 : Kept s u1 := Kept.ite (((h.regRead _ _).of_snd_snd e1).hostError _ _ _) ((h.regRead _ _).of_snd_snd e1)
      exact ((Kept.ite (hu1.returned _) hu1).respond _ _).next

/-! ### Register commands -/

theorem kept_execSeqWrite (i : Init) (off : BitVec 24) (v : W32) (s : State) : Answers s (execSeqWrite i off v s) := by
  have h := Kept.refl s
  unfold Machine.execSeqWrite
  split
  · exact Answers.ite (kept_regCmd _ _ _ _) h.next
  · exact h.next

theorem kept_execRegisterWrite (i : Init) (addr : BitVec 24) (bytes : Fin 65) (v : Word) (s : State) :
    Answers s (execRegisterWrite i addr bytes v s) := by
  have h := Kept.refl s
  unfold Machine.execRegisterWrite
  refine Answers.ite h.next ?_
  split
  · next e1 =>
      extract_lets u1
      have hu1 : Kept s u1 := Kept.ite (((h.regWriteN _ _ _ _).of_snd e1).hostError _ _ _) ((h.regWriteN _ _ _ _).of_snd e1)
      exact (hu1.respond _ _).next

/-! ### Resets and boot -/

/-- A cold reset keeps the queue and the identity; its memory is the empty one. -/
theorem Kept.coldBase (h : Kept s t) : Kept s t.coldBase :=
  h.trans ⟨rfl, rfl, rfl, rfl, rfl, fun _ => ⟨rfl, rfl, rfl⟩⟩

theorem Kept.bootTry (h : Kept s t) (fw : Bool) (cs : List (ℕ × Option Boot)) : Kept s (State.bootTry fw cs t).2 := by
  induction cs generalizing t with
  | nil => exact h
  | cons c cs ih => exact Kept.ite_snd h (ih (h.event _ _))

theorem Kept.bootFail (h : Kept s t) : Kept s t.bootFail := h.other rfl

theorem Kept.bootImages (h : Kept s t) : Kept s t.bootImages := by
  unfold State.bootImages
  extract_lets u1 u2
  have hu1 : Kept s u1 := by
    unfold u1
    refine Kept.foldl _ (fun u b => ?_) _ h
    split
    · exact (Kept.refl _).loadStore _ _
    · exact Kept.refl _
  have hu2 : Kept s u2 := by
    unfold u2
    split
    · exact hu1.mrExtend _ _
    · exact hu1
  split
  · exact hu2.heartLoaded _ _
  · exact hu2

theorem Kept.measuredBoot (h : Kept s t) : Kept s t.measuredBoot := by
  have hm {u : State} (hu : Kept s u) (n : ℕ) (m : BitVec 384) : Kept s (u.mrExtend n m) := hu.mrExtend n m
  obtain ⟨extend, hextend⟩ := exists_eq' (a' := State.mrExtend)
  unfold State.measuredBoot
  rw [hextend] at hm ⊢
  extract_lets
  split
  · next u e => exact ((h.bootTry _ _).of_snd e).bootFail
  · next b u e =>
    have hu : Kept s u := (h.bootTry _ _).of_snd e
    extract_lets v _ w
    have hw : Kept s w := (hm hu _ _).vault rfl
    split
    · next v e' => exact ((hw.bootTry _ _).of_snd e').bootFail
    · next v e' =>
      have hv : Kept s v := (hw.bootTry _ _).of_snd e'
      exact Kept.bootImages hv.units

theorem kept_execColdReset (s : State) : Answers s (execColdReset s) := by
  have h := Kept.refl s
  unfold Machine.execColdReset
  extract_lets lost
  have hlost : Kept s lost := Kept.ite (h.otpLost.freezeEnd _) h.otpLost
  split
  next key u e =>
  have hu : Kept s u := (hlost.draw 64).of_snd e
  refine Kept.next (Kept.measuredBoot (Kept.foldl _ (fun u k => (Kept.refl u).slotCheck k) _ ?_))
  have hcold : Kept s (State.event 0x0103 u.coldBase.evr.pwrcyc { u.coldBase with ord := { u.coldBase.ord with key := key } }) :=
    Kept.event hu.coldBase.units _ _
  refine Kept.ite (Kept.event ?_ _ _) hcold
  exact hcold.units

theorem Kept.endAllTasks (h : Kept s t) : Kept s t.endAllTasks := by
  unfold State.endAllTasks
  exact Kept.foldr _ (fun b u => Kept.ite ((Kept.refl _).endTask _ _ _ _) (Kept.refl _)) _ h

theorem Kept.mergesReset (h : Kept s t) : Kept s t.mergesReset := by
  unfold State.mergesReset
  extract_lets u1
  have hu1 : Kept s u1 := Kept.foldl _ (fun u b => ((Kept.refl _).ctxBound _).ctxClear _) _ h
  exact hu1.units

theorem Kept.readyReset (h : Kept s t) : Kept s t.readyReset := by
  unfold State.readyReset
  split
  · refine Kept.ite ?_ h
    exact h.units
  · exact h

theorem Kept.unitsWarm (h : Kept s t) : Kept s t.unitsWarm := h.trans ⟨rfl, rfl, rfl, rfl, rfl, id⟩

theorem kept_execWarmReset (s : State) : Answers s (execWarmReset s) := by
  have h := Kept.refl s
  unfold Machine.execWarmReset
  refine Answers.ite h.next ?_
  extract_lets u1 u2
  have hu1 : Kept s u1 := ((h.endAllTasks).readyReset).supRestart
  have hu2 : Kept s u2 := Kept.foldl _ (fun u _ => (Kept.refl u).raiseEpoch _) _ hu1
  exact ((hu2.mergesReset).unitsWarm).next

theorem kept_execPcieReset (s : State) : Answers s (execPcieReset s) := by
  have h := Kept.refl s
  unfold Machine.execPcieReset
  refine Answers.ite ?_ h.next
  refine Kept.next (Kept.raiseEpoch ?_ _)
  exact h.units

theorem Kept.closeDone (h : Kept s t) (i : Init) (st : Status) : Kept s (t.closeDone i st) := by
  unfold State.closeDone
  extract_lets
  split
  · exact h.setThread _ _
  · exact h

theorem kept_execOtpProgrammingDone (s : State) : Answers s (execOtpProgrammingDone s) := by
  have h := Kept.refl s
  unfold Machine.execOtpProgrammingDone
  split
  · exact h.next
  · refine Answers.ite h.next ?_
    exact ((((h.otpApply).seqFree _).seqNote _ _ _).closeDone _ _).next

/-! ### Time instructions -/

theorem Kept.setMe (h : Kept s t) (w : Who) (f : Thread → Thread) : (execTstamp.setMe w f t).kept s := h.putMe _ _

theorem kept_execTstamp (x : Ix) (rd : GReg) (dom : Fin 32) (s : State) : Answers s (execTstamp x rd dom s) := by
  unfold Machine.execTstamp
  refine kept_garnil _ _ _ fun u hu => GRes.kept_ite trivial ?_
  exact hu.setMe _ _

theorem kept_execTscmp (x : Ix) (rd ra rb : GReg) (s : State) : Answers s (execTscmp x rd ra rb s) := by
  unfold Machine.execTscmp
  refine kept_garnil _ _ _ fun u hu => ?_
  exact GRes.kept_ite (hu.goG _ _ _) trivial

theorem kept_execTssub (x : Ix) (rd ra rb : GReg) (s : State) : Answers s (execTssub x rd ra rb s) := by
  unfold Machine.execTssub
  refine kept_garnil _ _ _ fun u hu => ?_
  exact GRes.kept_ite (hu.goG _ _ _) trivial

theorem kept_execIdchk (x : Ix) (rd ra rb : GReg) (s : State) : Answers s (execIdchk x rd ra rb s) := by
  unfold Machine.execIdchk
  obtain ⟨look, hlook⟩ := exists_eq' (a' := State.idLook)
  rw [hlook]
  refine kept_garnil _ _ _ fun u hu => GRes.kept_unlessFenced ?_
  extract_lets _ _ _ _ _ u1 _ _ _ u2 _ u3
  have hu1 : Kept s u1 := by
    unfold u1
    refine Kept.count ?_ _ _ _
    exact hu.units
  have hu2 : Kept s u2 := hu1.putMe _ _
  have hu3 : Kept s u3 := hu1.putMe _ _
  refine GRes.kept_ite trivial ?_
  split
  · exact hu1.putMe _ _
  · split
    · exact hu1
    · extract_lets
      exact (hu1.putMe _ _).count _ _ _
    · exact (hu1.putMe _ _).count _ _ _
    · exact hu1.putMe _ _
    · refine Kept.event ?_ _ _
      exact hu2.units
    · exact hu3.idMark _ _

theorem kept_execIddone (x : Ix) (rd ra rb : GReg) (s : State) : Answers s (execIddone x rd ra rb s) := by
  unfold Machine.execIddone
  refine kept_garnil _ _ _ fun u hu => GRes.kept_ite trivial ?_
  exact GRes.kept_ite trivial (GRes.kept_ite (hu.putMe _ _) trivial)

theorem kept_execLkacq (x : Ix) (rd ra : GReg) (s : State) : Answers s (execLkacq x rd ra s) := by
  unfold Machine.execLkacq
  refine kept_garnil _ _ _ fun u hu => GRes.kept_ite trivial ?_
  refine GRes.kept_ite (hu.goG _ _ _) ?_
  split
  · refine GRes.kept_ite ((hu.putMe _ _).count _ _ _) ?_
    refine GRes.kept_ite trivial ?_
    exact (hu.setLock _ _).putMe _ _

theorem kept_execLkrel (x : Ix) (ra : GReg) (s : State) : Answers s (execLkrel x ra s) := by
  unfold Machine.execLkrel
  refine kept_garnil _ _ _ fun u hu => GRes.kept_ite trivial ?_
  exact GRes.kept_ite (hu.putMe _ _) hu

theorem kept_crcOp (x : Ix) (rd ra rb : GReg) (f : Word → List Byte → Word) (s : State) : Answers s (crcOp x rd ra rb f s) := by
  unfold Machine.crcOp
  refine kept_garnil _ _ _ fun u hu => ?_
  exact GRes.kept_ite (hu.goG _ _ _) trivial

/-! ### Every command -/

/-- Every command answers with a next state that keeps what `Kept` speaks of. -/
theorem kept_exec (c : Instr) (s : State) : Answers s (exec c s) := by
  have h := Kept.refl s
  unfold exec
  cases c with
  | add => exact kept_alu2 _ _ _ _ _ _
  | sub => exact kept_alu2 _ _ _ _ _ _
  | and => exact kept_alu2 _ _ _ _ _ _
  | or => exact kept_alu2 _ _ _ _ _ _
  | xor => exact kept_alu2 _ _ _ _ _ _
  | andn => exact kept_alu2 _ _ _ _ _ _
  | sll => exact kept_alu2 _ _ _ _ _ _
  | srl => exact kept_alu2 _ _ _ _ _ _
  | sra => exact kept_alu2 _ _ _ _ _ _
  | ror => exact kept_alu2 _ _ _ _ _ _
  | mul => exact kept_alu2 _ _ _ _ _ _
  | mulh => exact kept_alu2 _ _ _ _ _ _
  | mulhu => exact kept_alu2 _ _ _ _ _ _
  | div => exact kept_aluDiv _ _ _ _ _ _
  | divu => exact kept_aluDiv _ _ _ _ _ _
  | rem => exact kept_aluDiv _ _ _ _ _ _
  | remu => exact kept_aluDiv _ _ _ _ _ _
  | min => exact kept_alu2 _ _ _ _ _ _
  | max => exact kept_alu2 _ _ _ _ _ _
  | minu => exact kept_alu2 _ _ _ _ _ _
  | maxu => exact kept_alu2 _ _ _ _ _ _
  | clz => exact kept_alu1 _ _ _ _ _
  | ctz => exact kept_alu1 _ _ _ _ _
  | popc => exact kept_alu1 _ _ _ _ _
  | bswap => exact kept_alu1 _ _ _ _ _
  | sxb => exact kept_alu1 _ _ _ _ _
  | sxh => exact kept_alu1 _ _ _ _ _
  | sxw => exact kept_alu1 _ _ _ _ _
  | zxw => exact kept_alu1 _ _ _ _ _
  | bfx => exact kept_alu2 _ _ _ _ _ _
  | addi => exact kept_alu1 _ _ _ _ _
  | andi => exact kept_alu1 _ _ _ _ _
  | ori => exact kept_alu1 _ _ _ _ _
  | xori => exact kept_alu1 _ _ _ _ _
  | slli => exact kept_alu1 _ _ _ _ _
  | srli => exact kept_alu1 _ _ _ _ _
  | srai => exact kept_alu1 _ _ _ _ _
  | rori => exact kept_alu1 _ _ _ _ _
  | cmpi => exact kept_garnil _ _ _ fun u hu => hu.goP _ _ _
  | cmpEq => exact kept_cmp2 _ _ _ _ _ _ _
  | cmpNe => exact kept_cmp2 _ _ _ _ _ _ _
  | cmpLt => exact kept_cmp2 _ _ _ _ _ _ _
  | cmpGe => exact kept_cmp2 _ _ _ _ _ _ _
  | cmpLtu => exact kept_cmp2 _ _ _ _ _ _ _
  | cmpGeu => exact kept_cmp2 _ _ _ _ _ _ _
  | cmpTst => exact kept_cmp2 _ _ _ _ _ _ _
  | lui => exact kept_garnil _ _ _ fun u hu => hu.goG _ _ _
  | ldl x rd imm => exact kept_execLdl x rd imm s
  | mfc x rd cw => exact kept_execMfc x rd cw s
  | mtc x ra cw => exact kept_execMtc x ra cw s
  | pmov => exact kept_pred2 _ _ _ _ _ _
  | pand => exact kept_pred2 _ _ _ _ _ _
  | por => exact kept_pred2 _ _ _ _ _ _
  | pxor => exact kept_pred2 _ _ _ _ _ _
  | pnot => exact kept_pred2 _ _ _ _ _ _
  | pget => exact kept_garnil _ _ _ fun u hu => hu.goG _ _ _
  | pput x ra => exact kept_execPput x ra s
  | br => exact kept_garnil _ _ _ fun u hu => hu.jumpTo _ _
  | call => exact kept_garnil _ _ _ fun u hu => hu.linkTo _ _ _
  | jr => exact kept_garnil _ _ _ fun u hu => hu.jumpTo _ _
  | jalr => exact kept_garnil _ _ _ fun u hu => hu.linkTo _ _ _
  | lds => exact kept_loadG _ _ _ _ _ _ _
  | sts => exact kept_storeG _ _ _ _ _ _
  | ldr => exact kept_loadG _ _ _ _ _ _ _
  | str => exact kept_storeG _ _ _ _ _ _
  | ldf => exact kept_loadG _ _ _ _ _ _ _
  | stf => exact kept_storeG _ _ _ _ _ _
  | ldx => exact kept_loadG _ _ _ _ _ _ _
  | stx => exact kept_storeG _ _ _ _ _ _
  | ldsx => exact kept_loadG _ _ _ _ _ _ _
  | stsx => exact kept_storeG _ _ _ _ _ _
  | bcpyFs => exact kept_copyIn _ _ _ _ _ _
  | bcpySf => exact kept_copyOutScr _ _ _ _ _ _
  | bcpyRs => exact kept_copyIn _ _ _ _ _ _
  | bcpySr => exact kept_copyOutScr _ _ _ _ _ _
  | bcpySs x rd ra rb => exact kept_execBcpySs x rd ra rb s
  | aclr => exact kept_accA _ _ _ _ _
  | amov => exact kept_acc3 _ _ _ _ _ _
  | aadd => exact kept_acc3 _ _ _ _ _ _
  | asub => exact kept_acc3 _ _ _ _ _ _
  | amac => exact kept_acc3 _ _ _ _ _ _
  | amacu => exact kept_acc3 _ _ _ _ _ _
  | aadda => exact kept_accA _ _ _ _ _
  | asuba => exact kept_accA _ _ _ _ _
  | aglo => exact kept_garnil _ _ _ fun u hu => hu.goG _ _ _
  | aghi => exact kept_garnil _ _ _ fun u hu => hu.goG _ _ _
  | aslo => exact kept_garnil _ _ _ fun u hu => hu.goT _ _
  | ashi => exact kept_garnil _ _ _ fun u hu => hu.goT _ _
  | ald x ad ra => exact kept_execAld x ad ra s
  | ast x ad ra => exact kept_execAst x ad ra s
  | asra => exact kept_accA _ _ _ _ _
  | ftoa x ad ra k => exact kept_execFtoa x ad ra k s
  | atof => exact kept_garnil _ _ _ fun u hu => hu.goG _ _ _
  | fadd => exact kept_fp2 _ _ _ _ _ _
  | fsub => exact kept_fp2 _ _ _ _ _ _
  | fmul => exact kept_fp2 _ _ _ _ _ _
  | fdiv => exact kept_fp2 _ _ _ _ _ _
  | fsqrt => exact kept_fp2 _ _ _ _ _ _
  | fma => exact kept_fp2 _ _ _ _ _ _
  | fmin => exact kept_fp2 _ _ _ _ _ _
  | fmax => exact kept_fp2 _ _ _ _ _ _
  | fabs => exact kept_fp2 _ _ _ _ _ _
  | fneg => exact kept_fp2 _ _ _ _ _ _
  | fcvtif => exact kept_fp2 _ _ _ _ _ _
  | fcvtfi => exact kept_fp2 _ _ _ _ _ _
  | fceq => exact kept_fpCmp _ _ _ _ _ _ _ _
  | fclt => exact kept_fpCmp _ _ _ _ _ _ _ _
  | fcle => exact kept_fpCmp _ _ _ _ _ _ _ _
  | fcun => exact kept_fpCmp _ _ _ _ _ _ _ _
  | qtake x rd ra rb => exact kept_execQtake x rd ra rb s
  | qput x rd ra rb => exact kept_execQput x rd ra rb s
  | qpeek x rd ra rb => exact kept_execQpeek x rd ra rb s
  | tcommit x => exact kept_execTcommit x s
  | tabort x ra => exact kept_execTabort x ra s
  | yield x => exact kept_execYield x s
  | waitt => exact kept_garnil _ _ _ fun u hu => hu.waitFor _ _ _ _ _
  | waitq x rd ra rb => exact kept_execWaitq x rd ra rb s
  | waitl x rd ra rb => exact kept_execWaitl x rd ra rb s
  | waitEnd who => exact kept_execWaitEnd who s
  | tstamp x rd dom => exact kept_execTstamp x rd dom s
  | tscmp x rd ra rb => exact kept_execTscmp x rd ra rb s
  | tssub x rd ra rb => exact kept_execTssub x rd ra rb s
  | idchk x rd ra rb => exact kept_execIdchk x rd ra rb s
  | iddone x rd ra rb => exact kept_execIddone x rd ra rb s
  | lkacq x rd ra => exact kept_execLkacq x rd ra s
  | lkrel x ra => exact kept_execLkrel x ra s
  | ccmopen => exact kept_aead _ _ _ _ _ _ _
  | ccmseal => exact kept_aead _ _ _ _ _ _ _
  | gcmopen => exact kept_aead _ _ _ _ _ _ _
  | hash x rd ra => exact kept_execHash x rd ra s
  | crc16i => exact kept_crcOp _ _ _ _ _ _
  | crc16m => exact kept_crcOp _ _ _ _ _ _
  | crc16b => exact kept_crcOp _ _ _ _ _ _
  | crc32e => exact kept_crcOp _ _ _ _ _ _
  | crc32c => exact kept_crcOp _ _ _ _ _ _
  | if97VPt => exact kept_if97Op _ _ _ _ _ _ _
  | if97HPt => exact kept_if97Op _ _ _ _ _ _ _
  | if97SPt => exact kept_if97Op _ _ _ _ _ _ _
  | if97CpPt => exact kept_if97Op _ _ _ _ _ _ _
  | if97KappaPt => exact kept_if97Op _ _ _ _ _ _ _
  | if97WPt => exact kept_if97Op _ _ _ _ _ _ _
  | if97TsatP => exact kept_if97Op _ _ _ _ _ _ _
  | if97PsatT => exact kept_if97Op _ _ _ _ _ _ _
  | if97VgP => exact kept_if97Op _ _ _ _ _ _ _
  | if97HgP => exact kept_if97Op _ _ _ _ _ _ _
  | if97VfP => exact kept_if97Op _ _ _ _ _ _ _
  | if97HfP => exact kept_if97Op _ _ _ _ _ _ _
  | isocd x rd ra rb => exact kept_execIsocd x rd ra rb s
  | tbli x rd ra rb => exact kept_execTbli x rd ra rb s
  | sqacc x ad ra rb => exact kept_execSqacc x ad ra rb s
  | ladd x k ad ra rb => exact kept_execLadd x k ad ra rb s
  | lread x ad ra rb => exact kept_execLread x ad ra rb s
  | balpost x rd ra rb => exact kept_execBalpost x rd ra rb s
  | evpost x rd ra imm => exact kept_execEvpost x rd ra imm s
  | fencea x ra => exact kept_execFencea x ra s
  | unfence x ra => exact kept_execUnfence x ra s
  | revoke x rd ra rb => exact kept_execRevoke x rd ra rb s
  | seqopen x rd ra => exact kept_execSeqopen x rd ra s
  | seqclose x rd ra rb => exact kept_execSeqclose x rd ra rb s
  | agreset x ra => exact kept_execAgreset x ra s
  | iret x => exact kept_execIret x s
  | wfi => exact kept_garnilSup _ _ _ fun u hu => GRes.kept_ite hu (hu.putMe _ _)
  | evposts x ra rb => exact kept_execEvposts x ra rb s
  | unassignedEncoding who w => exact kept_execUnassignedEncoding who w s
  | supInterrupt => exact kept_execSupInterrupt s
  | dispatch t => exact kept_execDispatch t s
  | taskWatchdogExpiry t => exact kept_execTaskWatchdogExpiry t s
  | qmStarveExpiry q => exact kept_execQmStarveExpiry q s
  | ingressFifoArrival fifo prio body sub => exact kept_execIngressFifoArrival fifo prio body sub s
  | fifoDrain fifo => exact kept_execFifoDrain fifo s
  | descriptorRead => exact kept_regCmd _ _ _ _
  | descriptorCreate => exact kept_regCmd _ _ _ _
  | descriptorWrite => exact kept_regCmd _ _ _ _
  | descriptorDelete => exact kept_regCmd _ _ _ _
  | createZeroFillDone => exact kept_execCreateZeroFillDone s
  | qmRplGo => exact kept_regCmd _ _ _ _
  | queueReplayDone => exact kept_execQueueReplayDone s
  | geFltPop => exact kept_regCmd _ _ _ _
  | mergeWindowExpiry ctx => exact kept_execMergeWindowExpiry ctx s
  | ordMcfgWrite => exact kept_regCmd _ _ _ _
  | ordMqWrite => exact kept_regCmd _ _ _ _
  | ccSweep => exact Answers.ite h.ccSweep.next h.next
  | ordCcRepair => exact kept_regCmd _ _ _ _
  | quarantineExpiry => exact kept_execQuarantineExpiry s
  | lockHoldWarning l => exact kept_execLockHoldWarning l s
  | ordSeqOpen => exact kept_regCmd _ _ _ _
  | ordSeqClose => exact kept_regCmd _ _ _ _
  | seqWrite ini off v => exact kept_execSeqWrite ini off v s
  | sequenceTimeout n => exact kept_execSequenceTimeout n s
  | dieBridgeTransfer load crcOk => exact kept_execDieBridgeTransfer load crcOk s
  | decimatedSample ch x theta openLead => exact kept_execDecimatedSample ch x theta openLead s
  | blockClose => exact Answers.ite (h.boundary _).next h.next
  | afeChcfgWrite => exact kept_regCmd _ _ _ _
  | calibrationVerdict point => exact kept_execCalibrationVerdict point s
  | rtdLowPointExpiry ch => exact kept_execRtdLowPointExpiry ch s
  | pulseEdge inp rising => exact kept_execPulseEdge inp rising s
  | pulseSecondItem inp => exact kept_execPulseSecondItem inp s
  | flwSldcmd => exact kept_regCmd _ _ _ _
  | flwSapwoodLoadDone => exact kept_execFlwSapwoodLoadDone s
  | balTopcmd => exact kept_regCmd _ _ _ _
  | balTopologyLoadDone => exact kept_execBalTopologyLoadDone s
  | balIntervalClose => exact kept_execBalIntervalClose s
  | balDeferredClose => exact kept_execBalDeferredClose s
  | balRevisionBoundary => exact kept_execBalRevisionBoundary s
  | balIntervalFinal => exact kept_execBalIntervalFinal s
  | balCusrst => exact kept_regCmd _ _ _ _
  | balOutputRetry => exact kept_execBalOutputRetry s
  | ldgSnapcmd => exact kept_regCmd _ _ _ _
  | snapshotDone => exact kept_execSnapshotDone s
  | profileRecordForm => exact kept_execProfileRecordForm s
  | profileRetentionDiscard => exact kept_execProfileRetentionDiscard s
  | legalShowAssert => exact kept_execLegalShowAssert s
  | legalShowPage => exact kept_execLegalShowPage s
  | legalShowEnd => exact kept_execLegalShowEnd s
  | plcFrameReceive n f => exact kept_execPlcFrameReceive n f s
  | plcAckSend n => exact kept_execPlcAckSend n s
  | plcTxTake c => exact kept_execPlcTxTake c s
  | plcAckTimeout c => exact kept_execPlcAckTimeout c s
  | plcTxEnd n => exact kept_execPlcTxEnd n s
  | toneMapRefresh c entry => exact kept_execToneMapRefresh c entry s
  | zeroCrossing n phase rising => exact kept_execZeroCrossing n phase rising s
  | zeroCrossingLoss n => exact kept_execZeroCrossingLoss n s
  | superframeStart n => exact kept_execSuperframeStart n s
  | beaconArm n => exact kept_execBeaconArm n s
  | beaconCover n energy => exact kept_execBeaconCover n energy s
  | neutralMissing n v1 v2 v3 => exact kept_execNeutralMissing n v1 v2 v3 s
  | neutralClear n v1 v2 v3 => exact kept_execNeutralClear n v1 v2 v3 s
  | plcNeighbourWrite => exact kept_regCmd _ _ _ _
  | rfFrameReceive n f => exact kept_execRfFrameReceive n f s
  | rfAckSend n => exact kept_execRfAckSend n s
  | rfTxTake n => exact kept_execRfTxTake n s
  | rfCcaDone n powerDbfs => exact kept_execRfCcaDone n powerDbfs s
  | rfBackoffExpiry n => exact kept_execRfBackoffExpiry n s
  | rfTrainCopy n => exact kept_execRfTrainCopy n s
  | rfAckTimeout n => exact kept_execRfAckTimeout n s
  | rfTxEnd n => exact kept_execRfTxEnd n s
  | rfFespi => exact kept_regCmd _ _ _ _
  | rfFespiDone n rdata => exact kept_execRfFespiDone n rdata s
  | rfIqStall => exact Answers.ite (h.setRf _ _).next h.next
  | wirFrameEnd n f => exact kept_execWirFrameEnd n f s
  | wirTxStart c => exact kept_execWirTxStart c s
  | wirTxDone n => exact kept_execWirTxDone n s
  | tbIncrWrite => exact kept_regCmd _ _ _ _
  | tbStepApply => exact Answers.ite (h.applyStep _).next h.next
  | tbSelWrite => exact kept_regCmd _ _ _ _
  | tbAutoSwitch => exact kept_execTbAutoSwitch s
  | tbQualWrite => exact kept_regCmd _ _ _ _
  | qualityDecay domB => exact kept_execQualityDecay domB s
  | refclkLoss => exact kept_execRefclkLoss s
  | refclkReturn => exact kept_execRefclkReturn s
  | tbSnap => exact kept_regCmd _ _ _ _
  | ethFrameReceive n f => exact kept_execEthFrameReceive n f s
  | treeFrameSend => exact Answers.ite (h.treePack _ _).next h.next
  | packwaitExpiry n => exact kept_execPackwaitExpiry n s
  | ethRawTx n => exact kept_execEthRawTx n s
  | ethRawTxDone n => exact kept_execEthRawTxDone n s
  | ethLinkDown => exact Answers.ite ((h.setEth _ _).upMoved _).next h.next
  | ethLinkUp => exact Answers.ite ((h.setEth _ _).upMoved _).next h.next
  | heartbeatSend => exact kept_execHeartbeatSend s
  | heartbeatReceive => exact Answers.ite (h.hbIn _ _ _).next h.next
  | managerLoss => exact kept_execManagerLoss s
  | childLoss idx => exact kept_execChildLoss idx s
  | configGraceExpiry idx twinB => exact kept_execConfigGraceExpiry idx twinB s
  | treRoleWrite => exact kept_regCmd _ _ _ _
  | treXdataWrite => exact kept_regCmd _ _ _ _
  | arm => exact kept_regCmd _ _ _ _
  | cancel => exact kept_regCmd _ _ _ _
  | cfgPrepare => exact kept_execCfgPrepare s
  | participantReady p a => exact kept_execParticipantReady p a s
  | cfgSwrdy => exact kept_regCmd _ _ _ _
  | epochSwitch => exact kept_execEpochSwitch s
  | spindleHbSend => exact kept_execSpindleHbSend s
  | spindleHbReceive m => exact kept_execSpindleHbReceive m s
  | twinLoss => exact kept_execTwinLoss s
  | spindleLinkTrained => exact kept_execSpindleLinkTrained s
  | spindleLaneDown lane1 => exact kept_execSpindleLaneDown lane1 s
  | spnFrameReceive m => exact kept_execSpnFrameReceive m s
  | pairwinExpiry => exact kept_execPairwinExpiry s
  | blockMessageReceive m => exact kept_execBlockMessageReceive m s
  | beaconMessageReceive => exact Answers.ite (h.setPlc _ _).next h.next
  | begunReceive => exact Answers.ite (h.setPlc _ _).next h.next
  | cfgMessageReceive m => exact kept_execCfgMessageReceive m s
  | replayRequest => exact Answers.ite (h.replayStart _).next h.next
  | leaseExpiry => exact kept_execLeaseExpiry s
  | twnHlease => exact kept_regCmd _ _ _ _
  | handover => exact kept_regCmd _ _ _ _
  | ckpt => exact kept_regCmd _ _ _ _
  | checkpointCapture => exact Answers.ite h.capture.next h.next
  | checkpointReceive hdr body => exact kept_execCheckpointReceive hdr body s
  | ckackReceive num => exact kept_execCkackReceive num s
  | journalReceive es => exact kept_execJournalReceive es s
  | journalAck pos => exact kept_execJournalAck pos s
  | promotion => exact kept_execPromotion s
  | streamReceive => exact Answers.ite (h.streamStore _).next h.next
  | streamEndMarker => exact kept_execStreamEndMarker s
  | streamTimeout => exact kept_execStreamTimeout s
  | secMrext => exact kept_regCmd _ _ _ _
  | secAtcmd => exact kept_regCmd _ _ _ _
  | attestationDone => exact kept_execAttestationDone s
  | huskVerify => exact kept_regCmd _ _ _ _
  | huskVerifyDone => exact kept_execHuskVerifyDone s
  | discard => exact kept_regCmd _ _ _ _
  | revert => exact kept_regCmd _ _ _ _
  | handoverDrainEnd bad => exact kept_execHandoverDrainEnd bad s
  | drainwarnExpiry => exact kept_execDrainwarnExpiry s
  | nandRead => exact (h.nandTake _).next
  | nandReadDone bad rebuilt => exact kept_execNandReadDone bad rebuilt s
  | nandWrite => exact (h.nandTake _).next
  | trim => exact (h.nandTake _).next
  | flush => exact (h.nandTake _).next
  | stripeClose grp => exact kept_execStripeClose grp s
  | dieFailure die => exact kept_execDieFailure die s
  | rebuildDone => exact kept_execRebuildDone s
  | mapCheckpoint => exact kept_execMapCheckpoint s
  | nftMapLoaded => exact kept_execNftMapLoaded s
  | nftFormat => exact kept_regCmd _ _ _ _
  | dramLineRead ini line c => exact kept_execDramLineRead ini line c s
  | dramLineWrite ini line v => exact kept_execDramLineWrite ini line v s
  | dramPartialWrite ini line first data c => exact kept_execDramPartialWrite ini line first data c s
  | scrubLine line c written => exact kept_execScrubLine line c written s
  | memScrubWrite => exact kept_regCmd _ _ _ _
  | run => exact kept_regCmd _ _ _ _
  | economy => exact kept_regCmd _ _ _ _
  | listen => exact kept_regCmd _ _ _ _
  | retention => exact kept_regCmd _ _ _ _
  | offWithBackup => exact kept_regCmd _ _ _ _
  | pwrTransitionDone => exact kept_execPwrTransitionDone s
  | mainSupplyLost below => exact kept_execMainSupplyLost below s
  | coldReset => exact kept_execColdReset s
  | warmReset => exact kept_execWarmReset s
  | pcieReset => exact kept_execPcieReset s
  | vbatLow mv => exact kept_execVbatLow mv s
  | backupDomainStop => exact kept_execBackupDomainStop s
  | evrRtcset => exact kept_regCmd _ _ _ _
  | rtcSetApply => exact kept_execRtcSetApply s
  | operatingSecond mainThroughout => exact kept_execOperatingSecond mainThroughout s
  | tamperInputChange inp low => exact kept_execTamperInputChange inp low s
  | evrAlertWrite => exact kept_regCmd _ _ _ _
  | tokenRefill code => exact kept_execTokenRefill code s
  | evrRldataWrite => exact kept_regCmd _ _ _ _
  | evrFreeze => exact kept_regCmd _ _ _ _
  | evrRelease => exact kept_regCmd _ _ _ _
  | freezeTimeout => exact kept_execFreezeTimeout s
  | evrCpycmd => exact kept_regCmd _ _ _ _
  | areaCopyDone => exact kept_execAreaCopyDone s
  | itemPortPcieWrite prio body => exact kept_execItemPortPcieWrite prio body s
  | itemPortWordWrite viaI2c off v => exact kept_execItemPortWordWrite viaI2c off v s
  | itemPortTimeout => exact kept_execItemPortTimeout s
  | outboundTimeout => exact Answers.ite ((h.event _ _).respond _ _).next h.next
  | hstErrpop => exact kept_regCmd _ _ _ _
  | spiRead addr words => exact kept_execSpiRead addr words s
  | spiWrite addr data => exact kept_execSpiWrite addr data s
  | spiStatus => exact Answers.ite h.next (h.returned _).next
  | i2cTargetWrite => exact Answers.ite (h.i2cStore _ _ _).next h.next
  | i2cTargetRead off words => exact kept_execI2cTargetRead off words s
  | i2cSclTimeout => exact kept_execI2cSclTimeout s
  | go ini v bus => exact kept_execGo ini v bus s
  | i2cBackoffExpiry => exact Answers.ite (h.i2cAttempt _).next h.next
  | i2cTransactionDone => exact kept_execI2cTransactionDone s
  | mbxSend => exact kept_readCmd _ _ _
  | mbxTake n => exact kept_execMbxTake n s
  | mbxDeliver n => exact kept_execMbxDeliver n s
  | mbxPop => exact kept_regCmd _ _ _ _
  | fabricGrant tgt reqs nextReqs agents => exact kept_execFabricGrant tgt reqs nextReqs agents s
  | fabFreezeWrite => exact kept_regCmd _ _ _ _
  | pmcCntlRead => exact kept_readCmd _ _ _
  | pmcCapture => exact kept_execPmcCapture s
  | pmcBwWindow bytes => exact kept_execPmcBwWindow bytes s
  | pinFuncWrite => exact kept_regCmd _ _ _ _
  | pinSwitchDone p => exact kept_execPinSwitchDone p s
  | registerWrite ini addr bytes v => exact kept_execRegisterWrite ini addr bytes v s
  | tsplitConditionChange => exact Answers.ite h.splitTrack.next h.next
  | pcieLinkDown => exact Answers.ite h.pcieDown.next h.next
  | pcieLinkUp => exact kept_execPcieLinkUp s
  | functionLevelReset => exact Answers.ite (h.raiseEpoch _).next h.next
  | pciePowerStateChange d3hot => exact kept_execPciePowerStateChange d3hot s
  | backupSupplyReturn => exact kept_execBackupSupplyReturn s
  | plcBackoffExpiry n busy => exact kept_execPlcBackoffExpiry n busy s
  | ethPauseRepeat => exact Answers.ite (h.sendPause _ _).next h.next
  | otpProgrammingDone => exact kept_execOtpProgrammingDone s
  | flwLoadDone => exact kept_execFlwLoadDone s
  | calendarLoadDone => exact kept_execCalendarLoadDone s
  | jtagInstruction => exact (Kept.units h).next

/-- Settles O57: a tick, and every command, answers with a next state; the commands behind it stay as they are. -/
theorem everyStepAnswers : Obligations.EveryStepAnswers := by
  unfold Obligations.EveryStepAnswers
  intro s
  unfold step
  split
  · next hq =>
    refine ⟨_, rfl, ?_⟩
    rw [(Kept.refl s).tick.pending, hq]
    rfl
  · next c rest hq =>
    obtain ⟨t, ht, hkept⟩ := kept_exec c { s with pending := rest }
    refine ⟨t, ht, ?_⟩
    rw [hkept.pending, hq]
    rfl

end Sys2Proof.Machine
end

section
/-! ## A step of one thread, and what counting an issue leaves to the reads of memory

A load or a block copy writes its thread twice (the lines it noted, then the value it brought), so its step is put together from
`OwnThread`, which every write of the executing thread keeps. -/

namespace Sys2Proof.Machine
open Sys2Proof

/-- From `s` to `u` the thread of `w` and the performance counters alone have changed. -/
def OwnThread (w : Who) (s u : State) : Prop :=
  u = { s with
    ge := { s.ge with threads := u.ge.threads }
    pmc := u.pmc } ∧
  ∀ a, a ≠ w.agent → u.thread a = s.thread a

theorem State.ownThread_issue (w : Who) (s : State) : OwnThread w s (s.issue w) := by
  obtain ⟨hframe, hothers, _⟩ := State.issue_frame w s
  exact ⟨hframe, hothers⟩

theorem OwnThread.putMe {w : Who} {s u : State} (h : OwnThread w s u) (t : Thread) : OwnThread w s (u.putMe w t) := by
  obtain ⟨hframe, hothers⟩ := h
  refine ⟨?_, fun a ha => ?_⟩
  · rw [hframe]; rfl
  · rw [← hothers a ha]
    exact State.thread_setThread_other u t ha

theorem OwnThread.threadStep {x : Ix} {s u : State} {f : Thread → Thread} (h : OwnThread x.who s u) (pc : ℕ)
    (hf : { u.me x.who with issued := 0 } = ({ f (s.me x.who) with issued := 0 } : Thread)) :
    ThreadStep x f pc s (u.setPc x.who pc) := by
  obtain ⟨hframe, hothers⟩ := h.putMe { u.me x.who with pc := BitVec.ofNat 24 pc }
  refine ⟨hframe, hothers, ?_⟩
  simp only [State.setPc, State.me, State.thread_setThread_same]
  exact congrArg (fun t : Thread => { t with pc := BitVec.ofNat 24 pc, issued := (u.me x.who).issued }) hf

theorem State.issue_me (w : Who) (s : State) : ∃ k, (s.issue w).me w = { s.me w with issued := k } :=
  ⟨_, (State.issue_frame w s).2.2⟩

@[simp] theorem State.fabRight_issue (w : Who) (s : State) (i : Init) (write : Bool) (a n : ℕ) :
    (s.issue w).fabRight i write a n = s.fabRight i write a n := by
  rw [(State.issue_frame w s).1]; rfl

@[simp] theorem State.poisoned_issue (w : Who) (s : State) (l : ℕ) : (s.issue w).poisoned l = s.poisoned l := by
  rw [(State.issue_frame w s).1]; rfl

@[simp] theorem State.loadByte_issue (w : Who) (s : State) (t : Thread) (a : ℕ) : (s.issue w).loadByte t a = s.loadByte t a := by
  rw [(State.issue_frame w s).1]; rfl

@[simp] theorem State.noteLines_issue (w : Who) (s : State) (t : Thread) (b n : ℕ) :
    (s.issue w).noteLines t b n = s.noteLines t b n := by
  rw [(State.issue_frame w s).1]; rfl

end Sys2Proof.Machine
end

section
/-! ## Noting the lines a load touches (R113, R312) -/

namespace Sys2Proof.Machine
open Sys2Proof

/-- Noting lines moves the stage alone. -/
theorem State.noteLines_frame (s : State) (t : Thread) (b n : ℕ) :
    s.noteLines t b n = { t with stage := (s.noteLines t b n).stage } := by
  unfold State.noteLines
  induction linesOf b n generalizing t with
  | nil => rfl
  | cons l ls ih => rw [List.foldl_cons, ih]

theorem State.noteLines_issued (s : State) (t : Thread) (b n k : ℕ) :
    s.noteLines { t with issued := k } b n = { s.noteLines t b n with issued := k } := by
  unfold State.noteLines
  induction linesOf b n generalizing t with
  | nil => rfl
  | cons l ls ih => rw [List.foldl_cons, List.foldl_cons, ← ih]

@[simp] theorem State.noteLines_getG (s : State) (t : Thread) (b n : ℕ) (r : GReg) : (s.noteLines t b n).getG r = t.getG r := by
  rw [State.noteLines_frame]; rfl

theorem linesOf_isEmpty {a n : ℕ} (hn : 0 < n) : (linesOf a n).isEmpty = false := by
  simp [linesOf, Nat.ne_of_gt hn]

/-- An aligned 8-byte access touches one line. -/
theorem linesOf_aligned8 {a : ℕ} (ha : a % 8 = 0) : linesOf a 8 = [a / 64] := by
  have hsame : (a + 7) / 64 = a / 64 := by omega
  simp [linesOf, hsame]

end Sys2Proof.Machine
end

section
/-! ## Where an access goes (R37, Table 18.1) -/

namespace Sys2Proof.Machine
open Sys2Proof

theorem fabTarget_dram {a : ℕ} (h : a < 0x400000000) : fabTarget a = .dram a := if_pos h

theorem fabTarget_hole {a : ℕ} (h : 0x1000000000 ≤ a) : fabTarget a = .hole := by
  unfold fabTarget
  repeat rw [if_neg (by omega)]

/-- The fabric address of an operand: the record window starts at RECBASE. -/
def Thread.spaceAddr (t : Thread) (sp : Space) (a : ℕ) : ℕ := if sp = .record then t.recbase.toNat + a else a

theorem Thread.place_memory (t : Thread) {sp : Space} {v : Word} {n : ℕ} (hsp : sp ≠ .scratch) (halign : v.toNat % n = 0)
    (hrec : sp = .record → v.toNat + n ≤ 0x10000) : t.place sp v n = some (false, t.spaceAddr sp v.toNat) := by
  cases sp with
  | scratch => exact absurd rfl hsp
  | record => simp [Thread.place, Thread.spaceAddr, Thread.recAddr, recOk, halign, hrec rfl]
  | fabric => simp [Thread.place, Thread.spaceAddr, halign]

theorem Thread.place_none (t : Thread) {sp : Space} {v : Word} {n : ℕ} (hsp : sp ≠ .scratch)
    (h : v.toNat % n ≠ 0 ∨ sp = .record ∧ 0x10000 < v.toNat + n) : t.place sp v n = none := by
  cases sp with
  | scratch => exact absurd rfl hsp
  | record =>
    have hout : ¬ (v.toNat % n = 0 ∧ v.toNat + n ≤ 0x10000) := by
      rintro ⟨halign, hin⟩
      rcases h with h | ⟨_, h⟩
      · exact h halign
      · omega
    simpa [Thread.place, recOk] using hout
  | fabric => simpa [Thread.place] using h

theorem Thread.copyPlace_memory (t : Thread) {sp : Space} {mem scr n : ℕ} (hn : 0 < n) (hmax : n ≤ 4096) (hscr : scr + n ≤ 0x4000)
    (hrec : sp = .record → mem + n ≤ 0x10000) :
    t.copyPlace (decide (sp = .record)) mem scr n = some (false, t.spaceAddr sp mem) := by
  have hscr' : scrOk scr n = true := decide_eq_true hscr
  unfold Thread.copyPlace
  rw [if_neg (by omega), if_neg (by omega), hscr']
  by_cases hsp : sp = .record
  · simp [hsp, recOk, hrec hsp, Thread.spaceAddr, Thread.recAddr]
  · simp [hsp, Thread.spaceAddr]

theorem Thread.copyPlace_empty (t : Thread) (rec_ : Bool) (mem scr : ℕ) : t.copyPlace rec_ mem scr 0 = some (true, 0) := rfl

theorem Thread.copyPlace_long (t : Thread) (rec_ : Bool) (mem scr : ℕ) {n : ℕ} (h : 4096 < n) : t.copyPlace rec_ mem scr n = none :=
  if_pos h

end Sys2Proof.Machine
end

section
/-! ## The frame of an access (R403) -/

namespace Sys2Proof.Machine
open Sys2Proof

variable {x : Ix} {s : State} {place : Thread → Option (Bool × ℕ)} {n : ℕ} {f : State → Bool × ℕ → GRes}

/-- The place of an access does not depend on the count of issued instructions. -/
def PlaceOfThread (place : Thread → Option (Bool × ℕ)) : Prop := ∀ t k, place ({ t with issued := k } : Thread) = place t

theorem PlaceOfThread.issue (h : PlaceOfThread place) (w : Who) (s : State) : place ((s.issue w).me w) = place (s.me w) := by
  obtain ⟨k, hk⟩ := State.issue_me w s
  rw [hk, h]

/-- A placed access that does not wait runs in the frame of an instruction. -/
theorem garnilAt_placed (hr : Runs x s) (hplace : PlaceOfThread place) {b : Bool} {a : ℕ} (hp : place (s.me x.who) = some (b, a))
    (hw : b = false → s.fabWaits a n = false) :
    garnilAt x place n f s = finish x.who (PcOf x s) (s.issue x.who) (f (s.issue x.who) (b, a)) := by
  have hp' : place ((s.issue x.who).me x.who) = some (b, a) := (hplace.issue x.who s).trans hp
  unfold garnilAt
  cases b <;> simp only [hp, hw, Bool.and_false, Bool.false_eq_true, if_false, garnil_runs x _ s hr, hp']

/-- An access R37 gives no place raises the illegal fault. -/
theorem garnilAt_unplaced (hr : Runs x s) (hplace : PlaceOfThread place) (hp : place (s.me x.who) = none) :
    garnilAt x place n f s = .next ((s.issue x.who).fault x.who .illegal .ok) := by
  have hp' : place ((s.issue x.who).me x.who) = none := (hplace.issue x.who s).trans hp
  unfold garnilAt
  simp only [hp, Bool.and_false, Bool.false_eq_true, if_false]
  rw [garnil_runs x _ s hr, hp']
  rfl

/-- An access that ends by writing its thread changes that thread alone. -/
theorem does_of_go {c : Instr} {u : State} {g : Thread → Thread} (hc : exec c s = finish x.who (PcOf x s) (s.issue x.who) (.go u))
    (hu : OwnThread x.who s u) (hg : { u.me x.who with issued := 0 } = ({ g (s.me x.who) with issued := 0 } : Thread)) :
    Does c x g s :=
  ⟨_, hc, hu.threadStep _ hg⟩

end Sys2Proof.Machine
end

section
/-! ## Loads from DRAM (R19, R37, R40) -/

namespace Sys2Proof.Machine
open Sys2Proof

variable {x : Ix} {s : State}

/-- The bytes a thread's load at `a` reads. -/
def State.seenBytes (s : State) (t : Thread) (a n : ℕ) : List Byte := (List.range n).map (fun k => s.loadByte t (a + k))

/-- A read of DRAM the initiator may make, of lines that verify, gives the bytes the task sees, and its lines are noted. -/
theorem State.loadAt_dram (s : State) (w : Who) (block : Bool) {a n : ℕ} (hn : 0 < n) (hin : a + n ≤ 0x400000000)
    (hright : s.fabRight w.init false a n = .ok) (hclean : (linesOf a n).all (fun l => !s.poisoned l) = true) :
    s.loadAt w block a n = ⟨.ok, s.seenBytes (s.me w) a n, s.putMe w (s.noteLines (s.me w) a n)⟩ := by
  have hbad : (linesOf a n).any (fun l => s.poisoned l && !(s.me w).stage.fullLine l && ((s.me w).imaged l).isNone) = false := by
    rw [List.any_eq_false]
    intro l hl
    have hverifies : s.poisoned l = false := by simpa using List.all_eq_true.mp hclean l hl
    simp [hverifies]
  simp [State.loadAt, fabTarget_dram (show a < 0x400000000 by omega), hright, hbad, linesOf_isEmpty hn, State.seenBytes]

/-- A read of memory, or of an address no unit holds, that the rights refuse. -/
theorem State.loadAt_refused (s : State) (w : Who) (block : Bool) {a n : ℕ} (ha : fabTarget a = .dram a ∨ fabTarget a = .hole)
    (hright : s.fabRight w.init false a n ≠ .ok) : s.loadAt w block a n = ⟨s.fabRight w.init false a n, [], s⟩ := by
  rcases ha with ha | ha <;> simp [State.loadAt, ha, hright]

/-- A read the rights allow that meets a poisoned line, neither wholly staged nor held by a replay's record (R363). -/
theorem State.loadAt_poisoned (s : State) (w : Who) (block : Bool) {a n l : ℕ} (ha : fabTarget a = .dram a)
    (hright : s.fabRight w.init false a n = .ok) (hl : l ∈ linesOf a n) (hp : s.poisoned l = true)
    (hfull : (s.me w).stage.fullLine l = false) (himg : (s.me w).imaged l = none) :
    s.loadAt w block a n = ⟨.integrity, [], s⟩ := by
  have hbad : (linesOf a n).any (fun l => s.poisoned l && !(s.me w).stage.fullLine l && ((s.me w).imaged l).isNone) = true :=
    List.any_eq_true.mpr ⟨l, hl, by simp [hp, hfull, himg]⟩
  simp [State.loadAt, ha, hright, hbad]

theorem State.fabRight_hole (s : State) (i : Init) (write : Bool) {a : ℕ} (n : ℕ) (ha : fabTarget a = .hole)
    (hfence : s.fencedInit i = false) : s.fabRight i write a n = .denied := by
  simp [State.fabRight, hfence, ha]

theorem State.fabRight_hole_ne_ok (s : State) (i : Init) (write : Bool) {a : ℕ} (n : ℕ) (ha : fabTarget a = .hole) :
    s.fabRight i write a n ≠ .ok := by
  simp only [State.fabRight, ha]
  split <;> decide

theorem State.loadByte_issued (s : State) (t : Thread) (k a : ℕ) : s.loadByte { t with issued := k } a = s.loadByte t a := rfl

@[simp] theorem State.seenBytes_issue (w : Who) (s : State) (a n : ℕ) :
    (s.issue w).seenBytes ((s.issue w).me w) a n = s.seenBytes (s.me w) a n := by
  obtain ⟨k, hk⟩ := State.issue_me w s
  simp only [State.seenBytes, State.loadByte_issue, hk, State.loadByte_issued]

/-- The same read once the instruction has issued. -/
theorem loadAt_issue_readable (block : Bool) {a n : ℕ} (hn : 0 < n) (h : Readable x s a n) :
    ∃ k, (s.issue x.who).loadAt x.who block a n =
      ⟨.ok, s.seenBytes (s.me x.who) a n, (s.issue x.who).putMe x.who { s.noteLines (s.me x.who) a n with issued := k }⟩ := by
  obtain ⟨hin, _, hright, hclean⟩ := h
  obtain ⟨k, hk⟩ := State.issue_me x.who s
  refine ⟨k, ?_⟩
  rw [State.loadAt_dram _ _ _ hn hin (by simpa using hright) (by simpa using hclean)]
  rw [State.seenBytes_issue, State.noteLines_issue, hk, State.noteLines_issued]

/-- An access that writes its thread, then writes it again and goes on. -/
theorem does_of_go_putMe {c : Instr} {t t' : Thread} {g : Thread → Thread}
    (hc : exec c s = finish x.who (PcOf x s) (s.issue x.who) (.go (((s.issue x.who).putMe x.who t).putMe x.who t')))
    (hg : { t' with issued := 0 } = ({ g (s.me x.who) with issued := 0 } : Thread)) : Does c x g s :=
  does_of_go hc (((s.ownThread_issue x.who).putMe t).putMe t') (by rw [State.me_putMe]; exact hg)

theorem does_nothing_of_go {c : Instr} (hc : exec c s = finish x.who (PcOf x s) (s.issue x.who) (.go (s.issue x.who))) :
    Does c x (fun t => t) s := by
  obtain ⟨k, hk⟩ := State.issue_me x.who s
  exact does_of_go hc (s.ownThread_issue x.who) (by rw [hk])

theorem placeOfThread_place (sp : Space) {addr : Thread → Word} (n : ℕ) (h : ∀ t k, addr ({ t with issued := k } : Thread) = addr t) :
    PlaceOfThread (fun t => t.place sp (addr t) n) := by
  intro t k
  dsimp only
  rw [h]
  rfl

theorem immAddr_issued (ra : GReg) (imm : BitVec 12) (t : Thread) (k : ℕ) :
    immAddr ra imm { t with issued := k } = immAddr ra imm t := rfl

theorem sumAddr_issued (ra rb : GReg) (t : Thread) (k : ℕ) : sumAddr ra rb { t with issued := k } = sumAddr ra rb t := rfl

theorem Size.bytesN_pos (sz : Size) : 0 < Size.bytesN sz := by cases sz <;> decide

/-- A load: the bytes the task sees where its operand is placed in DRAM it may read, the illegal fault where R37 gives no place. -/
theorem loadG_outcome {c : Instr} {sp : Space} {n : ℕ} {signed : Bool} {rd : GReg} {addr : Thread → Word}
    (hc : exec c s = loadG x sp n signed rd addr s) (hr : Runs x s) (hsp : sp ≠ .scratch) (hn : 0 < n)
    (haddr : ∀ t k, addr ({ t with issued := k } : Thread) = addr t) :
    let a := (addr (s.me x.who)).toNat
    let b := (s.me x.who).spaceAddr sp a
    (a % n = 0 → (sp = .record → a + n ≤ 0x10000) → Readable x s b n →
      Does c x (fun t => (s.noteLines t b n).setG rd (extendN n signed (natOfBytes (s.seenBytes (s.me x.who) b n)))) s) ∧
    ((a % n ≠ 0 ∨ sp = .record ∧ 0x10000 < a + n) → Faults c x .illegal .ok s) := by
  intro a b
  have hplace := placeOfThread_place sp n haddr
  refine ⟨fun halign hrec hread => ?_, fun hbad => ?_⟩
  · have hp : (s.me x.who).place sp (addr (s.me x.who)) n = some (false, b) := Thread.place_memory _ hsp halign hrec
    obtain ⟨k, hload⟩ := loadAt_issue_readable false hn hread
    obtain ⟨_, hgoes, _, _⟩ := hread
    rw [loadG, garnilAt_placed hr hplace hp (fun _ => hgoes)] at hc
    simp only [Bool.false_eq_true, if_false, hload, if_true, goG, State.me_putMe] at hc
    exact does_of_go_putMe hc (by rw [Thread.setG_issued])
  · exact hc.trans (garnilAt_unplaced hr hplace (Thread.place_none _ hsp hbad))

theorem Thread.getG_issued (t : Thread) (k : ℕ) (r : GReg) : ({ t with issued := k } : Thread).getG r = t.getG r := rfl

theorem placeOfThread_copyPlace (rec_ : Bool) (rm rs : GReg) (n : ℕ) :
    PlaceOfThread (fun t => t.copyPlace rec_ (t.getG rm).toNat (t.getG rs).toNat n) := fun _ _ => rfl

/-- A block copy to scratch: the bytes the task sees, nothing for an empty one, the illegal fault above 4,096 bytes. -/
theorem copyIn_outcome {c : Instr} {sp : Space} {rd ra rb : GReg} (hc : exec c s = copyIn x (decide (sp = .record)) rd ra rb s)
    (hr : Runs x s) :
    let a := (Reads x s ra).toNat
    let n := (Reads x s rb).toNat
    let d := (Reads x s rd).toNat
    let b := (s.me x.who).spaceAddr sp a
    (0 < n → n ≤ 4096 → d + n ≤ 0x4000 → (sp = .record → a + n ≤ 0x10000) → Readable x s b n →
      Does c x (fun t => (s.noteLines t b n).putScr d (s.seenBytes (s.me x.who) b n)) s) ∧
    (n = 0 → Does c x (fun t => t) s) ∧ (4096 < n → Faults c x .illegal .ok s) := by
  intro a n d b
  have hplace := placeOfThread_copyPlace (decide (sp = .record)) ra rd n
  refine ⟨fun hn hmax hscr hrec hread => ?_, fun hn => ?_, fun hn => ?_⟩
  · have hp : (s.me x.who).copyPlace (decide (sp = .record)) a d n = some (false, b) :=
      Thread.copyPlace_memory _ hn hmax hscr hrec
    obtain ⟨k, hload⟩ := loadAt_issue_readable (n := (Reads x s rb).toNat) true hn hread
    obtain ⟨_, hgoes, _, _⟩ := hread
    rw [copyIn, garnilAt_placed hr hplace hp (fun _ => hgoes)] at hc
    simp only [Bool.false_eq_true, if_false, hload, if_true, State.me_putMe, Thread.getG_issued, State.noteLines_getG] at hc
    exact does_of_go_putMe hc rfl
  · have hp : (s.me x.who).copyPlace (decide (sp = .record)) a d n = some (true, 0) := by
      rw [hn, Thread.copyPlace_empty]
    exact does_nothing_of_go (hc.trans (garnilAt_placed hr hplace hp (fun h => nomatch h)))
  · exact hc.trans (garnilAt_unplaced hr hplace (Thread.copyPlace_long _ _ _ _ hn))

/-- A fabric load whose read answers an error (R40). -/
theorem ldf_error {rd ra : GReg} {imm : BitVec 12} {a : ℕ} {st : Status} (hr : Runs x s)
    (ha : (immAddr ra imm (s.me x.who)).toNat = a) (halign : a % 8 = 0) (hw : s.fabWaits a 8 = false) (hst : st ≠ .ok)
    (hload : (s.issue x.who).loadAt x.who false a 8 = ⟨st, [], s.issue x.who⟩) :
    exec (.ldf x rd ra imm) s = finish x.who (PcOf x s) (s.issue x.who) (accFault st (s.issue x.who)) := by
  subst ha
  have hp : (s.me x.who).place .fabric (immAddr ra imm (s.me x.who)) 8 = some (false, (immAddr ra imm (s.me x.who)).toNat) :=
    Thread.place_memory _ (by decide) halign (by simp)
  refine (garnilAt_placed hr (placeOfThread_place .fabric 8 (immAddr_issued ra imm)) hp fun _ => hw).trans ?_
  simp only [Bool.false_eq_true, if_false, hload, hst]

/-- A fabric load of memory, or of an address no unit holds, that the rights refuse. -/
theorem ldf_refused {rd ra : GReg} {imm : BitVec 12} {a : ℕ} {st : Status} (hr : Runs x s) (ha : (immAddr ra imm (s.me x.who)).toNat = a)
    (halign : a % 8 = 0) (hw : s.fabWaits a 8 = false) (htgt : fabTarget a = .dram a ∨ fabTarget a = .hole)
    (hright : s.fabRight x.who.init false a 8 = st) (hst : st ≠ .ok) :
    exec (.ldf x rd ra imm) s = finish x.who (PcOf x s) (s.issue x.who) (accFault st (s.issue x.who)) := by
  subst hright
  refine ldf_error hr ha halign hw hst ?_
  rw [State.loadAt_refused _ _ _ htgt (by simpa using hst), State.fabRight_issue]

/-- A fabric load that the rights allow, of a poisoned line neither wholly staged nor held by a replay's record (R363). -/
theorem ldf_poisoned {rd ra : GReg} {imm : BitVec 12} {a : ℕ} (hr : Runs x s) (ha : (immAddr ra imm (s.me x.who)).toNat = a)
    (halign : a % 8 = 0) (hw : s.fabWaits a 8 = false) (htgt : fabTarget a = .dram a ∨ fabTarget a = .hole)
    (hright : s.fabRight x.who.init false a 8 = .ok) (hp : s.poisoned (a / 64) = true)
    (hfull : (s.me x.who).stage.fullLine (a / 64) = false) (himg : (s.me x.who).imaged (a / 64) = none) :
    exec (.ldf x rd ra imm) s = finish x.who (PcOf x s) (s.issue x.who) (accFault .integrity (s.issue x.who)) := by
  have hdram : fabTarget a = .dram a := by
    rcases htgt with hdram | hhole
    · exact hdram
    · exact absurd hright (s.fabRight_hole_ne_ok _ _ _ hhole)
  obtain ⟨k, hk⟩ := State.issue_me x.who s
  refine ldf_error hr ha halign hw (by decide) ?_
  refine State.loadAt_poisoned _ _ _ hdram (by simpa using hright) (l := a / 64) ?_ (by simpa using hp) ?_ ?_
  · rw [linesOf_aligned8 halign]; exact List.mem_singleton_self _
  · rw [hk]; exact hfull
  · rw [hk]; exact himg

end Sys2Proof.Machine
end

section
open Sys2Proof Sys2Proof.Machine

/-- Settles O8: a load or block copy is its outcome at the place of its operand, and an error response is `accFault` of its status. -/
theorem memoryLoads : Obligations.MemoryLoads := by
  unfold Obligations.MemoryLoads
  refine ⟨fun x rd ra rb imm sp sz sx s hr => ⟨?_, ?_, fun hsp => ?_, ?_, ?_⟩, fun x rd ra imm s hr => ?_⟩
  · exact loadG_outcome (sp := .record) (addr := immAddr ra imm) rfl hr (by decide) (by decide) (immAddr_issued ra imm)
  · exact loadG_outcome (sp := .fabric) (addr := immAddr ra imm) rfl hr (by decide) (by decide) (immAddr_issued ra imm)
  · exact loadG_outcome (addr := sumAddr ra rb) rfl hr hsp (Size.bytesN_pos sz) (sumAddr_issued ra rb)
  · exact copyIn_outcome (sp := .record) rfl hr
  · exact copyIn_outcome (sp := .fabric) rfl hr
  · intro a c halign hw hrange
    have htgt : fabTarget a = .dram a ∨ fabTarget a = .hole := hrange.imp fabTarget_dram fabTarget_hole
    refine ⟨fun hst => ldf_refused hr rfl halign hw htgt hst (by decide),
      fun hst => ldf_refused hr rfl halign hw htgt hst (by decide),
      fun hst hp hfull himg => ?_, fun hhigh hfence => ?_⟩
    · exact ldf_poisoned hr rfl halign hw htgt hst hp hfull himg
    · exact ldf_refused hr rfl halign hw htgt (s.fabRight_hole _ _ _ (fabTarget_hole hhigh) hfence) (by decide)
end

section
/-! ## What a task sees of its own stores (R18, R19, R38, R313) -/

namespace Sys2Proof.Machine
open Sys2Proof

/-- A key of a table after a run of staged bytes was put at `a`, from the `i`th on. -/
theorem get_foldl_zipIdx (tab : Tab (Option Byte)) (a i : ℕ) (bs : List Byte) (b : ℕ) :
    Tab.get none ((bs.zipIdx i).foldl (fun t p => Tab.set none t (a + p.2) (some p.1)) tab) b =
      if a + i ≤ b then bs[b - (a + i)]?.or (Tab.get none tab b) else Tab.get none tab b := by
  induction bs generalizing tab i with
  | nil => simp
  | cons v bs ih =>
    rw [List.zipIdx_cons, List.foldl_cons, ih]
    rcases Nat.lt_trichotomy b (a + i) with h | h | h
    · rw [if_neg (by omega), if_neg (by omega), Tab.get_set_other _ _ _ (by omega)]
    · subst h
      rw [if_neg (by omega), if_pos le_rfl, Tab.get_set_same, Nat.sub_self]
      rfl
    · have hnext : b - (a + i) = b - (a + (i + 1)) + 1 := by omega
      rw [if_pos (by omega), if_pos (by omega), Tab.get_set_other _ _ _ (by omega), hnext, List.getElem?_cons_succ]

/-- The staged byte at `b` after a run of bytes was put at `a`. -/
theorem Stage.get_put (g : Stage) (a : ℕ) (bs : List Byte) (b : ℕ) :
    Tab.get none (g.put a bs).bytes b = if a ≤ b then bs[b - a]?.or (Tab.get none g.bytes b) else Tab.get none g.bytes b :=
  get_foldl_zipIdx g.bytes a 0 bs b

theorem State.seenByte_put_inside (s : State) (g : Stage) (a : ℕ) {bs : List Byte} {k : ℕ} {v : Byte} (h : bs[k]? = some v) :
    s.seenByte (g.put a bs) (a + k) = v := by
  simp [State.seenByte, Stage.get_put, h]

theorem State.seenByte_put_outside (s : State) (g : Stage) {a b : ℕ} {bs : List Byte} (h : b < a ∨ a + bs.length ≤ b) :
    s.seenByte (g.put a bs) b = s.seenByte g b := by
  have hkeep : Tab.get none (g.put a bs).bytes b = Tab.get none g.bytes b := by
    rw [Stage.get_put]
    split
    · rw [List.getElem?_eq_none (by omega), Option.none_or]
    · rfl
  rw [State.seenByte, hkeep, State.seenByte]

/-- Outside a replay a load reads what the task sees. -/
theorem State.loadByte_live (s : State) {t : Thread} (h : t.rpl = none) (b : ℕ) : s.loadByte t b = s.seenByte t.stage b := by
  simp [State.loadByte, Thread.imaged, h]

/-- A line the replay's record holds reads as its image where nothing is staged. -/
theorem State.loadByte_imaged (s : State) {t : Thread} {b : ℕ} {img : Item} (himg : t.imaged (b / 64) = some img)
    (hfree : Tab.get none t.stage.bytes b = none) : s.loadByte t b = img.extractLsb' (8 * (b % 64)) 8 := by
  simp only [State.loadByte, himg, hfree]
  rfl

end Sys2Proof.Machine
end

section
/-! ## Stores to DRAM (R38, R48) -/

namespace Sys2Proof.Machine
open Sys2Proof

variable {x : Ix} {s : State}

/-- A store to DRAM the initiator may write is staged, up to 64 lines. -/
theorem State.storeAt_dram (s : State) (w : Who) (block : Bool) {a : ℕ} {bs : List Byte} (hn : 0 < bs.length)
    (hin : a + bs.length ≤ 0x400000000) (hright : s.fabRight w.init true a bs.length = .ok) :
    s.storeAt w block a bs =
      if ((s.me w).stage.put a bs).lines.length ≤ 64 then .ok (s.putMe w { s.me w with stage := (s.me w).stage.put a bs })
      else .limit := by
  simp only [State.storeAt, fabTarget_dram (show a < 0x400000000 by omega), hright, ne_eq, not_true_eq_false, if_false]
  split
  · rw [if_neg (by omega)]
  · rw [if_pos (by omega)]

@[simp] theorem length_bytesOfNat (n v : ℕ) : (bytesOfNat n v).length = n := by
  induction n generalizing v with
  | zero => rfl
  | succ n ih => rw [bytesOfNat, List.length_cons, ih]

@[simp] theorem Thread.length_scr (t : Thread) (a n : ℕ) : (t.scr a n).length = n := by
  induction n generalizing a with
  | zero => rfl
  | succ n ih => rw [Thread.scr, List.length_cons, ih]

theorem Thread.scr_issued (t : Thread) (k a n : ℕ) : ({ t with issued := k } : Thread).scr a n = t.scr a n := by
  induction n generalizing a with
  | zero => rfl
  | succ n ih => rw [Thread.scr, Thread.scr, ih]

theorem State.issue_me_scr (w : Who) (s : State) (a n : ℕ) : ((s.issue w).me w).scr a n = (s.me w).scr a n := by
  obtain ⟨k, hk⟩ := State.issue_me w s
  rw [hk, Thread.scr_issued]

/-- What an instruction does with a store's answer: it goes on, or takes the fault. -/
def PutRes.res : PutRes → GRes
  | .ok s => .go s
  | .limit => .fault .illegal .ok
  | .err st s => accFault st s

/-- The bytes go to the stage, which the task alone sees; the 65th line is the illegal fault. -/
def Stages (c : Instr) (x : Ix) (a : ℕ) (bs : List Byte) (s : State) : Prop :=
  if ((s.me x.who).stage.put a bs).lines.length ≤ 64 then Does c x (fun t => { t with stage := (s.me x.who).stage.put a bs }) s
  else Faults c x .illegal .ok s

theorem stages_of_storeAt {c : Instr} {block : Bool} {a n : ℕ} {bs : List Byte} (hlen : bs.length = n) (hn : 0 < n)
    (hwrite : Writable x s a n)
    (hc : exec c s = finish x.who (PcOf x s) (s.issue x.who) ((s.issue x.who).storeAt x.who block a bs).res) :
    Stages c x a bs s := by
  obtain ⟨hin, _, hright⟩ := hwrite
  subst hlen
  obtain ⟨k, hk⟩ := State.issue_me x.who s
  rw [State.storeAt_dram _ _ _ hn hin (by simpa using hright), hk] at hc
  unfold Stages
  split
  · next hroom =>
    rw [if_pos hroom] at hc
    exact does_of_go hc ((s.ownThread_issue x.who).putMe _) (by rw [State.me_putMe])
  · next hfull =>
    rw [if_neg hfull] at hc
    exact hc

/-- A store: staged where its operand is placed in DRAM the thread may write, the illegal fault where R37 gives no place. -/
theorem storeG_outcome {c : Instr} {sp : Space} {n : ℕ} {rd : GReg} {addr : Thread → Word}
    (hc : exec c s = storeG x sp n rd addr s) (hr : Runs x s) (hsp : sp ≠ .scratch) (hn : 0 < n)
    (haddr : ∀ t k, addr ({ t with issued := k } : Thread) = addr t) :
    let a := (addr (s.me x.who)).toNat
    let b := (s.me x.who).spaceAddr sp a
    (a % n = 0 → (sp = .record → a + n ≤ 0x10000) → Writable x s b n → Stages c x b (bytesOf n (Reads x s rd)) s) ∧
    ((a % n ≠ 0 ∨ sp = .record ∧ 0x10000 < a + n) → Faults c x .illegal .ok s) := by
  intro a b
  have hplace := placeOfThread_place sp n haddr
  refine ⟨fun halign hrec hwrite => ?_, fun hbad => ?_⟩
  · have hp : (s.me x.who).place sp (addr (s.me x.who)) n = some (false, b) := Thread.place_memory _ hsp halign hrec
    refine stages_of_storeAt (block := false) (length_bytesOfNat n _) hn hwrite (hc.trans ?_)
    obtain ⟨_, hgoes, _⟩ := hwrite
    rw [storeG, garnilAt_placed hr hplace hp (fun _ => hgoes)]
    simp only [Bool.false_eq_true, if_false, State.issue_me_getG]
    rfl
  · exact hc.trans (garnilAt_unplaced hr hplace (Thread.place_none _ hsp hbad))

/-- A block copy from scratch: staged, nothing for an empty one, the illegal fault above 4,096 bytes. -/
theorem copyOutScr_outcome {c : Instr} {sp : Space} {rd ra rb : GReg}
    (hc : exec c s = copyOutScr x (decide (sp = .record)) rd ra rb s) (hr : Runs x s) :
    let a := (Reads x s ra).toNat
    let n := (Reads x s rb).toNat
    let d := (Reads x s rd).toNat
    let b := (s.me x.who).spaceAddr sp d
    (0 < n → n ≤ 4096 → a + n ≤ 0x4000 → (sp = .record → d + n ≤ 0x10000) → Writable x s b n →
      Stages c x b ((s.me x.who).scr a n) s) ∧
    (n = 0 → Does c x (fun t => t) s) ∧ (4096 < n → Faults c x .illegal .ok s) := by
  intro a n d b
  have hplace := placeOfThread_copyPlace (decide (sp = .record)) rd ra n
  refine ⟨fun hn hmax hscr hrec hwrite => ?_, fun hn => ?_, fun hn => ?_⟩
  · have hp : (s.me x.who).copyPlace (decide (sp = .record)) d a n = some (false, b) :=
      Thread.copyPlace_memory _ hn hmax hscr hrec
    refine stages_of_storeAt (block := true) (Thread.length_scr _ a n) hn hwrite (hc.trans ?_)
    obtain ⟨_, hgoes, _⟩ := hwrite
    rw [copyOutScr, garnilAt_placed hr hplace hp (fun _ => hgoes)]
    simp only [Bool.false_eq_true, if_false, State.issue_me_getG, State.issue_me_scr]
    rfl
  · have hp : (s.me x.who).copyPlace (decide (sp = .record)) d a n = some (true, 0) := by
      rw [hn, Thread.copyPlace_empty]
    exact does_nothing_of_go (hc.trans (garnilAt_placed hr hplace hp (fun h => nomatch h)))
  · exact hc.trans (garnilAt_unplaced hr hplace (Thread.copyPlace_long _ _ _ _ hn))

end Sys2Proof.Machine
end

section
open Sys2Proof Sys2Proof.Machine

/-- Settles O9: a store or block copy is its outcome at the place of its operand, and a byte the task sees is the one last put in
its stage, where there is one. -/
theorem memoryStoresAreStaged : Obligations.MemoryStoresAreStaged := by
  unfold Obligations.MemoryStoresAreStaged
  refine ⟨fun x rd ra rb imm sp sz s hr => ⟨?_, ?_, fun hsp => ?_, ?_, ?_⟩, fun s g a b bs =>
    ⟨fun k v => s.seenByte_put_inside g a, s.seenByte_put_outside g, rfl,
      fun t => ⟨fun h => s.loadByte_live h b, fun img => s.loadByte_imaged⟩⟩⟩
  · exact storeG_outcome (sp := .record) (addr := immAddr ra imm) rfl hr (by decide) (by decide) (immAddr_issued ra imm)
  · exact storeG_outcome (sp := .fabric) (addr := immAddr ra imm) rfl hr (by decide) (by decide) (immAddr_issued ra imm)
  · exact storeG_outcome (addr := sumAddr ra rb) rfl hr hsp (Size.bytesN_pos sz) (sumAddr_issued ra rb)
  · exact copyOutScr_outcome (sp := .record) rfl hr
  · exact copyOutScr_outcome (sp := .fabric) rfl hr
end

section
/-! ## How an instruction ends (R32, R64, R65) -/

namespace Sys2Proof.Machine
open Sys2Proof

variable {x : Ix} {s : State} {c : Instr} {F : State → GRes}

/-- A change of a thread that does not depend on its count of issued instructions and leaves it alone. -/
def KeepsIssued (f : Thread → Thread) : Prop := ∀ t k, f { t with issued := k } = { f t with issued := k }

/-- The meaning changes its thread by `f`: the instruction completes. -/
theorem does_of_goT {f : Thread → Thread} (hc : exec c s = garnil x F s) (hr : Runs x s)
    (hF : F (s.issue x.who) = goT x.who f (s.issue x.who)) (hf : KeepsIssued f) : Does c x f s := by
  obtain ⟨k, hk⟩ := State.issue_me x.who s
  obtain ⟨t, ht, hstep⟩ := garnil_go x F s f _ hr hF (by rw [hk, hf])
  exact ⟨t, hc.trans ht, hstep⟩

theorem keepsIssued_setG (rd : GReg) (v : Word) : KeepsIssued (fun t => t.setG rd v) := fun t k => Thread.setG_issued t rd v k

theorem keepsIssued_setP (pd : PReg) (b : Bool) : KeepsIssued (fun t => t.setP pd b) := fun t k => Thread.setP_issued t pd b k

/-- The meaning writes `v` to gd: the instruction completes. -/
theorem sets_of_goG {rd : GReg} {v : Word} (hc : exec c s = garnil x F s) (hr : Runs x s)
    (hF : F (s.issue x.who) = goG x.who rd v (s.issue x.who)) : Sets c x rd v s :=
  does_of_goT hc hr hF (keepsIssued_setG rd v)

theorem faults_of_fault {cls : FaultClass} {st : Status} (hc : exec c s = garnil x F s) (hr : Runs x s)
    (hF : F (s.issue x.who) = .fault cls st) : Faults c x cls st s :=
  hc.trans (garnil_fault x F s cls st hr hF)

/-- A reading of a thread that does not depend on its count of issued instructions. -/
def OfThread {α : Type} (f : Thread → α) : Prop := ∀ t k, f ({ t with issued := k } : Thread) = f t

/-- Such a reading is the same once the instruction has issued. -/
theorem OfThread.issue {α : Type} {f : Thread → α} (hf : OfThread f) (w : Who) (s : State) : f ((s.issue w).me w) = f (s.me w) := by
  obtain ⟨k, hk⟩ := State.issue_me w s
  rw [hk, hf]

/-- A change by a value read from the thread. -/
theorem KeepsIssued.read {α : Type} {f : Thread → α} (g : α → Thread → Thread) (hg : ∀ v, KeepsIssued (g v)) (hf : OfThread f) :
    KeepsIssued (fun t => g (f t) t) := fun t k => by
  simp only [hf t k]
  exact hg _ t k

/-- A change after a change. -/
theorem KeepsIssued.comp {f g : Thread → Thread} (hf : KeepsIssued f) (hg : KeepsIssued g) : KeepsIssued (fun t => f (g t)) := fun t k => by
  simp only [hg t k]
  exact hf _ k

/-- What an instruction does to its thread, said in another way. -/
theorem Does.congr {f g : Thread → Thread} (h : Does c x f s) (hfg : f (s.me x.who) = g (s.me x.who)) : Does c x g s := by
  obtain ⟨t, ht, hframe, hothers, hme⟩ := h
  rw [hfg] at hme
  exact ⟨t, ht, hframe, hothers, hme⟩

theorem State.issue_reads (x : Ix) (s : State) (r : GReg) : ((s.issue x.who).me x.who).getG r = Reads x s r :=
  State.issue_me_getG x.who s r

end Sys2Proof.Machine
end

section
/-! ## The integer instructions (R31, R35, Tables 2.4 and 2.5) -/

namespace Sys2Proof.Machine
open Sys2Proof

variable {x : Ix} {s : State} {c : Instr} {rd ra rb : GReg}

theorem alu2_sets (f : Word → Word → Word) {v : Word} (hr : Runs x s) (hc : exec c s = alu2 x rd ra rb f s)
    (hv : f (Reads x s ra) (Reads x s rb) = v) : Sets c x rd v s :=
  sets_of_goG hc hr (by simp only [State.issue_me_getG, hv])

theorem alu1_sets (f : Word → Word) {v : Word} (hr : Runs x s) (hc : exec c s = alu1 x rd ra f s) (hv : f (Reads x s ra) = v) :
    Sets c x rd v s :=
  sets_of_goG hc hr (by simp only [State.issue_me_getG, hv])

theorem aluDiv_sets (f : Word → Word → Word) {v : Word} (hr : Runs x s) (hb : Reads x s rb ≠ 0#64)
    (hc : exec c s = aluDiv x rd ra rb f s) (hv : f (Reads x s ra) (Reads x s rb) = v) : Sets c x rd v s :=
  sets_of_goG hc hr (by simp only [State.issue_me_getG, if_neg hb, hv])

theorem aluDiv_faults (f : Word → Word → Word) (hr : Runs x s) (hb : Reads x s rb = 0#64) (hc : exec c s = aluDiv x rd ra rb f s) :
    Faults c x .arithmetic .ok s :=
  faults_of_fault hc hr (by simp only [State.issue_me_getG, if_pos hb])

/-! ### The results are those of Table 2.5 -/

theorem fld_zero_eq_setWidth {w : ℕ} (v : BitVec w) (n : ℕ) : fld v 0 n = v.setWidth n := by
  apply BitVec.eq_of_toNat_eq
  simp [fld]

theorem fld_eq_extractLsb' {w : ℕ} (v : BitVec w) (lo n : ℕ) : fld v lo n = v.extractLsb' lo n := rfl

theorem shamt_eq (b : Word) : shamt b = (b &&& 63#64).toNat := by
  simp only [shamt, fld, Nat.shiftRight_zero, BitVec.toNat_ofNat, BitVec.toNat_and]
  exact (Nat.and_two_pow_sub_one_eq_mod b.toNat 6).symm

theorem divS_eq_sdiv (a b : Word) : divS a b = a.sdiv b := by
  apply BitVec.eq_of_toInt_eq
  rw [divS, BitVec.toInt_ofInt, BitVec.toInt_sdiv]

theorem remS_eq_srem (a b : Word) : remS a b = a.srem b := by
  apply BitVec.eq_of_toInt_eq
  rw [remS, BitVec.toInt_ofInt, BitVec.toInt_srem]
  have := BitVec.toInt_srem a b
  rw [← this, BitVec.toInt_bmod_cancel]

theorem mulHiU_eq (a b : Word) : mulHiU a b = (a.setWidth 128 * b.setWidth 128).extractLsb' 64 64 := by
  apply BitVec.eq_of_toNat_eq
  have ha := a.isLt
  have hb := b.isLt
  have hab : a.toNat * b.toNat < 2 ^ 128 := by
    calc a.toNat * b.toNat < 2 ^ 64 * 2 ^ 64 := Nat.mul_lt_mul'' ha hb
      _ = 2 ^ 128 := by norm_num
  simp only [mulHiU, BitVec.toNat_ofNat, BitVec.extractLsb'_toNat, BitVec.toNat_mul, BitVec.toNat_setWidth, Nat.shiftRight_eq_div_pow]
  rw [Nat.mod_eq_of_lt (show a.toNat < 2 ^ 128 by omega), Nat.mod_eq_of_lt (show b.toNat < 2 ^ 128 by omega), Nat.mod_eq_of_lt hab]

end Sys2Proof.Machine
end

section
/-! ### Counting and moving bits and bytes -/

namespace Sys2Proof.Machine
open Sys2Proof

variable {x : Ix} {s : State} {c : Instr} {rd ra rb : GReg}

theorem mulHi_eq (a b : Word) : mulHi a b = (a.signExtend 128 * b.signExtend 128).extractLsb' 64 64 := by
  have hprod : a.signExtend 128 * b.signExtend 128 = BitVec.ofInt 128 (a.toInt * b.toInt) := by
    rw [BitVec.signExtend, BitVec.signExtend, ← BitVec.ofInt_mul]
  have hpos : (0 : ℤ) ≤ (a.toInt * b.toInt) % 2 ^ 128 := Int.emod_nonneg _ (by norm_num)
  apply BitVec.eq_of_toNat_eq
  rw [hprod, mulHi, BitVec.toNat_ofInt, BitVec.extractLsb'_toNat, BitVec.toNat_ofInt, Nat.shiftRight_eq_div_pow]
  push_cast
  omega

theorem clzAuxRec_eq_clzFrom (v : Word) (n : ℕ) (hn : n < 64) : v.clzAuxRec n = BitVec.ofNat 64 (63 - n + clzFrom v (n + 1)) := by
  induction n with
  | zero =>
    rw [BitVec.clzAuxRec_zero]
    cases h : v.getLsbD 0 <;> simp only [clzFrom, h, Bool.false_eq_true, if_false, if_true]
  | succ n ih =>
    have hfrom : clzFrom v (n + 1 + 1) = if v.getLsbD (n + 1) then 0 else 1 + clzFrom v (n + 1) := rfl
    rw [BitVec.clzAuxRec_succ, ih (by omega), hfrom]
    split
    · simp
    · congr 1
      omega

theorem clzFrom_eq_clz (v : Word) : BitVec.ofNat 64 (clzFrom v 64) = v.clz := by
  rw [BitVec.clz, clzAuxRec_eq_clzFrom v 63 (by omega)]
  simp

theorem ctzFrom_eq_clzFrom_reverse (v : Word) (n : ℕ) (hn : n ≤ 64) : ctzFrom v n = clzFrom v.reverse n := by
  induction n with
  | zero => rfl
  | succ n ih =>
    have hbit : v.reverse.getLsbD n = v.getLsbD (63 - n) := by
      rw [BitVec.getLsbD_reverse, BitVec.getMsbD]
      simp [show n < 64 by omega]
    rw [ctzFrom, clzFrom, ih (by omega), hbit]

theorem ctzFrom_eq_ctz (v : Word) : BitVec.ofNat 64 (ctzFrom v 64) = v.ctz := by
  rw [ctzFrom_eq_clzFrom_reverse v 64 le_rfl, clzFrom_eq_clz, BitVec.ctz]

theorem popFrom_eq_length_filter (v : Word) (n : ℕ) : popFrom v n = ((List.range n).filter (fun k => v.getLsbD k)).length := by
  induction n with
  | zero => rfl
  | succ n ih =>
    rw [popFrom, List.range_succ, List.filter_append, List.length_append, ih]
    cases h : v.getLsbD n <;> simp [h, Nat.add_comm]

theorem popFrom_le (v : Word) (n : ℕ) : popFrom v n ≤ n := by
  rw [popFrom_eq_length_filter]
  simpa using List.length_filter_le (fun k => v.getLsbD k) (List.range n)

theorem popFrom_toNat (v : Word) : (BitVec.ofNat 64 (popFrom v 64)).toNat = ((List.range 64).filter (fun k => v.getLsbD k)).length := by
  have hle := popFrom_le v 64
  rw [BitVec.toNat_ofNat, ← popFrom_eq_length_filter]
  omega

/-- Byte `k` of a little-endian number is the `k`-th byte of its list. -/
theorem natOfBytes_byte (bs : List Byte) (k : ℕ) (hk : k < bs.length) : natOfBytes bs / 256 ^ k % 256 = bs[k].toNat := by
  induction bs generalizing k with
  | nil => simp at hk
  | cons b bs ih =>
    have hb := b.isLt
    cases k with
    | zero => simp only [natOfBytes, Nat.pow_zero, Nat.div_one, List.getElem_cons_zero]; omega
    | succ k =>
      have htail : (b.toNat + 256 * natOfBytes bs) / 256 = natOfBytes bs := by omega
      rw [natOfBytes, Nat.pow_succ', ← Nat.div_div_eq_div_mul, htail, List.getElem_cons_succ]
      exact ih k (by simpa using hk)

theorem getElem_bytesOfNat (n v k : ℕ) (hk : k < (bytesOfNat n v).length) : (bytesOfNat n v)[k] = BitVec.ofNat 8 (v / 256 ^ k) := by
  induction n generalizing v k with
  | zero => simp [bytesOfNat] at hk
  | succ n ih =>
    cases k with
    | zero => simp [bytesOfNat]
    | succ k =>
      have hk' : k < (bytesOfNat n (v / 256)).length := by simpa [bytesOfNat] using hk
      rw [show (bytesOfNat (n + 1) v)[k + 1] = (bytesOfNat n (v / 256))[k] from rfl, ih _ _ hk', Nat.div_div_eq_div_mul, ← Nat.pow_succ']

theorem bswap64_byte (a : Word) (k : ℕ) (hk : k < 8) :
    (bswap64 a).extractLsb' (8 * k) 8 = a.extractLsb' (8 * (7 - k)) 8 := by
  have hlen : k < (bytesOf 8 a).reverse.length := by simpa [bytesOf] using hk
  have hbyte := natOfBytes_byte (bytesOf 8 a).reverse k hlen
  rw [List.getElem_reverse] at hbyte
  simp only [bytesOf, getElem_bytesOfNat, length_bytesOfNat, BitVec.toNat_ofNat] at hbyte
  have h256 (m : ℕ) : 256 ^ m = 2 ^ (8 * m) := by rw [Nat.pow_mul]
  have hlow (n : ℕ) : n % 2 ^ 64 / 2 ^ (8 * k) % 2 ^ 8 = n / 2 ^ (8 * k) % 2 ^ 8 := by
    interval_cases k <;> omega
  apply BitVec.eq_of_toNat_eq
  rw [BitVec.extractLsb'_toNat, BitVec.extractLsb'_toNat, Nat.shiftRight_eq_div_pow, Nat.shiftRight_eq_div_pow, bswap64,
    BitVec.toNat_ofNat, hlow, ← h256, ← h256]
  exact hbyte

theorem bfxOf_eq (a b : Word) : bfxOf a b = (a >>> (b &&& 63#64).toNat) &&&
    (if (b.extractLsb' 6 6).toNat = 0 then BitVec.allOnes 64 else BitVec.ofNat 64 (2 ^ (b.extractLsb' 6 6).toNat - 1)) := by
  simp only [bfxOf, shamt_eq, fld_eq_extractLsb']
  split
  · rw [BitVec.and_allOnes]
  · rfl

theorem and_low32_eq (a : Word) : a &&& 0xFFFFFFFF#64 = (a.setWidth 32).setWidth 64 := by
  apply BitVec.eq_of_toNat_eq
  rw [BitVec.toNat_and, BitVec.toNat_setWidth, BitVec.toNat_setWidth]
  rw [show (0xFFFFFFFF#64).toNat = 2 ^ 32 - 1 from rfl, Nat.and_two_pow_sub_one_eq_mod]
  omega

/-! ### Immediates and literals (R34, R37, R68) -/

theorem lui_sets {wide : BitVec 17} (hr : Runs x s) : Sets (.lui x rd wide) x rd (wide.signExtend 64 <<< 12) s :=
  sets_of_goG (F := fun s => goG x.who rd (sext wide <<< 12) s) rfl hr rfl

@[simp] theorem State.codeNat_issue (w : Who) (s : State) (g a n : ℕ) : (s.issue w).codeNat g a n = s.codeNat g a n := by
  induction n generalizing a with
  | zero => rfl
  | succ n ih =>
    rw [State.codeNat, State.codeNat, ih, (State.issue_frame w s).1]

theorem ldl_outcome {wide : BitVec 17} (hr : Runs x s) :
    let p := (PcOf x s : ℤ) + 4 * wide.toInt
    if 0 ≤ p ∧ p + 8 ≤ codeSize x.who.agent ∧ p % 8 = 0 then
      Sets (.ldl x rd wide) x rd (BitVec.ofNat 64 (s.codeNat x.who.agent p.toNat 8)) s
    else Faults (.ldl x rd wide) x .illegal .ok s := by
  intro p
  have hc : exec (.ldl x rd wide) s = execLdl x rd wide s := rfl
  unfold execLdl at hc
  have hp : branchTarget ((s.issue x.who).me x.who).pc.toNat wide = p := by rw [State.issue_me_pc, branchTarget]
  split
  · next hin => exact sets_of_goG hc hr (by simp only [hp, if_pos hin, State.codeNat_issue])
  · next hout => exact faults_of_fault hc hr (by simp only [hp, if_neg hout])

end Sys2Proof.Machine
end

section
open Sys2Proof Sys2Proof.Machine

/-- Settles O2: each minor writes the model's own operation on its operands, which is the one Table 2.5 names. -/
theorem integerResults : Obligations.IntegerResults := by
  unfold Obligations.IntegerResults
  refine ⟨fun x rd ra rb s hr => ?_, fun x rd ra rb s hr => ?_, fun x rd ra imm sh wide s hr => ?_⟩
  · intro a b n w
    have hn : shamt b = n := shamt_eq b
    refine ⟨alu2_sets (· + ·) hr rfl rfl, alu2_sets (· - ·) hr rfl rfl, alu2_sets (· &&& ·) hr rfl rfl, alu2_sets (· ||| ·) hr rfl rfl,
      alu2_sets (· ^^^ ·) hr rfl rfl, alu2_sets (fun a b => a &&& ~~~b) hr rfl rfl, alu2_sets (fun a b => a <<< shamt b) hr rfl (by rw [hn]),
      alu2_sets (fun a b => a >>> shamt b) hr rfl (by rw [hn]), alu2_sets (fun a b => a.sshiftRight (shamt b)) hr rfl (by rw [hn]),
      alu2_sets (fun a b => a.rotateRight (shamt b)) hr rfl (by rw [hn]), alu2_sets (· * ·) hr rfl rfl,
      alu2_sets mulHi hr rfl (mulHi_eq a b), alu2_sets mulHiU hr rfl (mulHiU_eq a b),
      alu2_sets (fun a b => if a.toInt ≤ b.toInt then a else b) hr rfl rfl,
      alu2_sets (fun a b => if a.toInt ≤ b.toInt then b else a) hr rfl rfl, alu2_sets (fun a b => if a ≤ b then a else b) hr rfl rfl,
      alu2_sets (fun a b => if a ≤ b then b else a) hr rfl rfl, alu1_sets (fun a => BitVec.ofNat 64 (clzFrom a 64)) hr rfl (clzFrom_eq_clz a),
      alu1_sets (fun a => BitVec.ofNat 64 (ctzFrom a 64)) hr rfl (ctzFrom_eq_ctz a),
      ⟨_, popFrom_toNat a, alu1_sets (fun a => BitVec.ofNat 64 (popFrom a 64)) hr rfl rfl⟩, ⟨_, bswap64_byte a, alu1_sets bswap64 hr rfl rfl⟩,
      alu1_sets (fun a => sext (fld a 0 8)) hr rfl (by rw [fld_zero_eq_setWidth]; rfl),
      alu1_sets (fun a => sext (fld a 0 16)) hr rfl (by rw [fld_zero_eq_setWidth]; rfl),
      alu1_sets (fun a => sext (fld a 0 32)) hr rfl (by rw [fld_zero_eq_setWidth]; rfl),
      alu1_sets (· &&& 0xFFFFFFFF#64) hr rfl (and_low32_eq a), alu2_sets bfxOf hr rfl (bfxOf_eq a b)⟩
  · intro a b
    refine ⟨fun hb => ⟨?_, ?_, ?_, ?_⟩, fun hb => ⟨?_, ?_, ?_, ?_⟩⟩
    · exact aluDiv_sets divS hr hb rfl (divS_eq_sdiv a b)
    · exact aluDiv_sets (· / ·) hr hb rfl rfl
    · exact aluDiv_sets remS hr hb rfl (remS_eq_srem a b)
    · exact aluDiv_sets (· % ·) hr hb rfl rfl
    · exact aluDiv_faults divS hr hb rfl
    · exact aluDiv_faults (· / ·) hr hb rfl
    · exact aluDiv_faults remS hr hb rfl
    · exact aluDiv_faults (· % ·) hr hb rfl
  · intro a i p
    exact ⟨alu1_sets (· + i) hr rfl rfl, alu1_sets (· &&& i) hr rfl rfl, alu1_sets (· ||| i) hr rfl rfl, alu1_sets (· ^^^ i) hr rfl rfl,
      alu1_sets (· <<< sh.toNat) hr rfl rfl, alu1_sets (· >>> sh.toNat) hr rfl rfl, alu1_sets (·.sshiftRight sh.toNat) hr rfl rfl,
      alu1_sets (·.rotateRight sh.toNat) hr rfl rfl, lui_sets hr, ldl_outcome hr⟩
end

section
/-! ## The register files (R28) -/

namespace Sys2Proof.Machine
open Sys2Proof

/-- A bit of a word after one of its fields was written. -/
theorem getLsbD_setFld {w n : ℕ} (v : BitVec w) (lo : ℕ) (y : BitVec n) (j : ℕ) :
    (setFld v lo y).getLsbD j = if lo ≤ j ∧ j < lo + n ∧ j < w then y.getLsbD (j - lo) else v.getLsbD j := by
  by_cases hlo : lo ≤ j
  · by_cases hn : j < lo + n
    · by_cases hw : j < w
      · simp [setFld, hlo, hn, hw, show ¬ j < lo by omega, show j - lo < n by omega]
      · simp [hw, BitVec.getLsbD_of_ge _ j (Nat.le_of_not_lt hw)]
    · have hy : y.getLsbD (j - lo) = false := BitVec.getLsbD_of_ge _ _ (by omega)
      by_cases hw : j < w
      · simp [setFld, hlo, hn, hw, hy, show ¬ j - lo < n by omega, show ¬ j < lo by omega]
      · simp [hn, BitVec.getLsbD_of_ge _ j (Nat.le_of_not_lt hw)]
  · by_cases hw : j < w
    · simp [setFld, hlo, hw, show j < lo by omega]
    · simp [hlo, BitVec.getLsbD_of_ge _ j (Nat.le_of_not_lt hw)]

theorem Thread.getP_setP (t : Thread) (i j : PReg) (b : Bool) : (t.setP i b).getP j = if j = i ∧ i ≠ 0 then b else t.getP j := by
  by_cases hi : i = 0
  · simp [Thread.setP, hi]
  · have hi' : i.val ≠ 0 := fun h => hi (Fin.ext h)
    by_cases hj : j.val = 0
    · have hne : j ≠ i := fun h => hi' (h ▸ hj)
      simp [Thread.getP, hj, hne]
    · by_cases hij : j = i
      · subst hij
        have hbit : (setFld t.p j.val (ofBool 1 b)).getLsbD j.val = b := by
          rw [getLsbD_setFld, if_pos ⟨le_rfl, by omega, j.isLt⟩]
          cases b <;> simp [ofBool]
        simp only [Thread.setP, Thread.getP, hi', if_false, hbit, true_and, ne_eq, hi, not_false_eq_true, if_true]
      · have hij' : ¬ (i.val ≤ j.val ∧ j.val < i.val + 1) := fun h => hij (Fin.ext (by omega))
        have hsame : (setFld t.p i.val (ofBool 1 b)).getLsbD j.val = t.p.getLsbD j.val := by
          rw [getLsbD_setFld, if_neg (fun h => hij' ⟨h.1, h.2.1⟩)]
        simp only [Thread.setP, Thread.getP, hi', hj, hij, if_false, false_and, hsame]

theorem Thread.setP_g (t : Thread) (i : PReg) (b : Bool) : (t.setP i b).g = t.g := by unfold Thread.setP; split <;> rfl

end Sys2Proof.Machine
end

section
open Sys2Proof Sys2Proof.Machine

/-- Settles O1: a write of g0 or p0 changes nothing, and every other is a write of a table or of one bit of p. -/
theorem registerFileReadsBack : Obligations.RegisterFileReadsBack := by
  unfold Obligations.RegisterFileReadsBack
  intro t r q v i j b
  refine ⟨rfl, rfl, ?_, t.getP_setP i j b, t.setG_p r v, t.setP_g i b⟩
  have hzero : r ≠ 0 ↔ r.val ≠ 0 := by rw [ne_eq, Fin.ext_iff]; rfl
  simp only [Thread.getG_setG, hzero]
end

section
/-! ## Control flow (R34) -/

namespace Sys2Proof.Machine
open Sys2Proof

variable {x : Ix} {s : State} {c : Instr} {F : State → GRes}

/-- Inside the code space, on a multiple of 4 (R34). -/
abbrev CodeTarget (x : Ix) (t : ℤ) : Prop := 0 ≤ t ∧ t < codeSize x.who.agent ∧ t % 4 = 0

/-- The meaning jumps from a state in which the executing thread alone has changed, by `f`. -/
theorem gives_of_jumpTo {f : Thread → Thread} {t : ℤ} {u : State} (hc : exec c s = garnil x F s) (hr : Runs x s) (ht : CodeTarget x t)
    (hF : F (s.issue x.who) = jumpTo x.who t u) (hu : OwnThread x.who s u)
    (hf : { u.me x.who with issued := 0 } = ({ f (s.me x.who) with issued := 0 } : Thread)) :
    Gives c s (ThreadStep x f t.toNat s) := by
  refine ⟨u.setPc x.who t.toNat, ?_, hu.threadStep _ hf⟩
  rw [hc, garnil_runs x F s hr, hF, jumpTo, if_pos ht]
  rfl

theorem faults_of_jumpTo {t : ℤ} {u : State} (hc : exec c s = garnil x F s) (hr : Runs x s) (ht : ¬ CodeTarget x t)
    (hF : F (s.issue x.who) = jumpTo x.who t u) : Faults c x .illegal .ok s :=
  faults_of_fault hc hr (hF.trans (if_neg ht))

/-- A branch or jump to `t`. -/
theorem jump_outcome {t : ℤ} (hc : exec c s = garnil x F s) (hr : Runs x s) (hF : F (s.issue x.who) = jumpTo x.who t (s.issue x.who)) :
    if CodeTarget x t then Gives c s (ThreadStep x (fun t => t) t.toNat s) else Faults c x .illegal .ok s := by
  obtain ⟨k, hk⟩ := State.issue_me x.who s
  split
  · next ht => exact gives_of_jumpTo hc hr ht hF (s.ownThread_issue x.who) (by rw [hk])
  · next ht => exact faults_of_jumpTo hc hr ht hF

/-- A call or linked jump to `t`. -/
theorem link_outcome {t : ℤ} {rd : GReg} (hc : exec c s = garnil x F s) (hr : Runs x s)
    (hF : F (s.issue x.who) = linkTo x.who rd t (s.issue x.who)) :
    if CodeTarget x t then Gives c s (ThreadStep x (fun t => t.setG rd (BitVec.ofNat 64 (PcOf x s + 4))) t.toNat s)
    else Faults c x .illegal .ok s := by
  obtain ⟨k, hk⟩ := State.issue_me x.who s
  rw [linkTo, State.issue_me_pc] at hF
  split
  · next ht =>
    exact gives_of_jumpTo hc hr ht hF ((s.ownThread_issue x.who).putMe _) (by rw [State.me_putMe, hk, Thread.setG_issued])
  · next ht => exact faults_of_jumpTo hc hr ht hF

/-- Two outcomes with one condition are one. -/
theorem and_of_ite {P A B C D : Prop} [Decidable P] (h : if P then A else B) (g : if P then C else D) : if P then A ∧ C else B ∧ D := by
  split_ifs at * with hP
  · exact ⟨h, g⟩
  · exact ⟨h, g⟩

end Sys2Proof.Machine
end

section
open Sys2Proof Sys2Proof.Machine

/-- Settles O4: each branch, call and jump is `jumpTo` its target, with or without a link. -/
theorem controlFlowLandsOrFaults : Obligations.ControlFlowLandsOrFaults := by
  unfold Obligations.ControlFlowLandsOrFaults
  intro x rd ra imm s hr a p link
  have hp : branchTarget ((s.issue x.who).me x.who).pc.toNat imm = p := by rw [State.issue_me_pc, branchTarget]
  have ha : (((s.issue x.who).me x.who).getG ra).toNat = a.toNat := by rw [State.issue_me_getG]
  have hbr : exec (.br x imm) s = execBr x imm s := rfl
  have hcall : exec (.call x rd imm) s = execCall x rd imm s := rfl
  have hjr : exec (.jr x ra) s = execJr x ra s := rfl
  have hjalr : exec (.jalr x rd ra) s = execJalr x rd ra s := rfl
  have hreg : CodeTarget x (a.toNat : ℤ) ↔ a.toNat < codeSize x.who.agent ∧ a.toNat % 4 = 0 := by
    unfold CodeTarget; omega
  refine ⟨and_of_ite (jump_outcome hbr hr (by rw [hp])) (link_outcome hcall hr (by rw [hp])), ?_⟩
  have hj := and_of_ite (jump_outcome (t := (a.toNat : ℤ)) hjr hr (by rw [ha])) (link_outcome hjalr hr (by rw [ha]))
  simpa only [hreg, Int.toNat_natCast] using hj
end

section
/-! ## Scratch (R28, R37, R38) -/

namespace Sys2Proof.Machine
open Sys2Proof

theorem Thread.getElem_scr (t : Thread) (a n k : ℕ) (h : k < (t.scr a n).length) : (t.scr a n)[k] = Tab.get 0#8 t.scratch (a + k) := by
  induction n generalizing a k with
  | zero => simp [Thread.scr] at h
  | succ n ih =>
    cases k with
    | zero => rfl
    | succ k =>
      have hk : k < (t.scr (a + 1) n).length := by simpa [Thread.scr] using h
      calc (t.scr a (n + 1))[k + 1] = (t.scr (a + 1) n)[k] := rfl
        _ = Tab.get 0#8 t.scratch (a + 1 + k) := ih _ _ hk
        _ = Tab.get 0#8 t.scratch (a + (k + 1)) := by rw [Nat.add_right_comm, Nat.add_assoc]

/-- Bytes stored read back. -/
theorem Thread.scr_putScr_same (t : Thread) (a : ℕ) (bs : List Byte) : (t.putScr a bs).scr a bs.length = bs := by
  apply List.ext_getElem (by simp)
  intro k hk hk'
  rw [Thread.getElem_scr, Thread.putScr, get_ramPutTab, dif_pos (by omega)]
  congr 1
  omega

theorem Thread.scratch_putScr_outside (t : Thread) {a b : ℕ} {bs : List Byte} (h : b < a ∨ a + bs.length ≤ b) :
    Tab.get 0#8 (t.putScr a bs).scratch b = Tab.get 0#8 t.scratch b := by
  rw [Thread.putScr, get_ramPutTab, dif_neg (by omega)]

theorem State.issue_me_scrNat (w : Who) (s : State) (a n : ℕ) : ((s.issue w).me w).scrNat a n = (s.me w).scrNat a n := by
  rw [Thread.scrNat, State.issue_me_scr, Thread.scrNat]

theorem Thread.scrNat_issued (t : Thread) (k a n : ℕ) : ({ t with issued := k } : Thread).scrNat a n = t.scrNat a n := by
  rw [Thread.scrNat, Thread.scr_issued, Thread.scrNat]

theorem Thread.place_scratch (t : Thread) {v : Word} {n : ℕ} (h : v.toNat + n ≤ 0x4000) :
    t.place .scratch v n = some (true, v.toNat) := by
  simp [Thread.place, scrOk, h]

theorem Thread.place_scratch_none (t : Thread) {v : Word} {n : ℕ} (h : ¬ v.toNat + n ≤ 0x4000) : t.place .scratch v n = none := by
  simp [Thread.place, scrOk, Nat.lt_of_not_le h]

variable {x : Ix} {s : State} {c : Instr} {F : State → GRes}

/-- An access that writes its thread and goes on. -/
theorem does_of_go_putMe_once {t : Thread} {g : Thread → Thread}
    (hc : exec c s = finish x.who (PcOf x s) (s.issue x.who) (.go ((s.issue x.who).putMe x.who t)))
    (hg : { t with issued := 0 } = ({ g (s.me x.who) with issued := 0 } : Thread)) : Does c x g s :=
  does_of_go hc ((s.ownThread_issue x.who).putMe t) (by rw [State.me_putMe]; exact hg)

/-- An access of scratch that its place in the 16 KiB decides. -/
theorem scratchAccess_outcome {n : ℕ} {addr : Thread → Word} {f : State → Bool × ℕ → GRes} {g : Thread → Thread}
    (hc : exec c s = garnilAt x (fun t => t.place .scratch (addr t) n) n f s) (hr : Runs x s)
    (haddr : ∀ t k, addr ({ t with issued := k } : Thread) = addr t)
    (hf : f (s.issue x.who) (true, (addr (s.me x.who)).toNat) = goT x.who g (s.issue x.who)) (hg : KeepsIssued g) :
    if (addr (s.me x.who)).toNat + n ≤ 0x4000 then Does c x g s else Faults c x .illegal .ok s := by
  have hplace := placeOfThread_place .scratch n haddr
  obtain ⟨k, hk⟩ := State.issue_me x.who s
  split
  · next hin =>
    have hp := (s.me x.who).place_scratch hin
    rw [garnilAt_placed hr hplace hp (fun h => nomatch h), hf] at hc
    exact does_of_go_putMe_once hc (by rw [hk, hg])
  · next hout => exact hc.trans (garnilAt_unplaced hr hplace ((s.me x.who).place_scratch_none hout))

theorem keepsIssued_putScr (a : ℕ) (bs : List Byte) : KeepsIssued (fun t => t.putScr a bs) := fun _ _ => rfl

theorem scratchLoad_outcome {n : ℕ} {signed : Bool} {rd : GReg} {addr : Thread → Word}
    (hc : exec c s = loadG x .scratch n signed rd addr s) (hr : Runs x s)
    (haddr : ∀ t k, addr ({ t with issued := k } : Thread) = addr t) :
    let a := (addr (s.me x.who)).toNat
    if a + n ≤ 0x4000 then Sets c x rd (extendN n signed ((s.me x.who).scrNat a n)) s else Faults c x .illegal .ok s :=
  scratchAccess_outcome hc hr haddr (by simp only [if_true, State.issue_me_scrNat, goG, goT]) (keepsIssued_setG rd _)

theorem scratchStore_outcome {n : ℕ} {rd : GReg} {addr : Thread → Word} (hc : exec c s = storeG x .scratch n rd addr s) (hr : Runs x s)
    (haddr : ∀ t k, addr ({ t with issued := k } : Thread) = addr t) :
    let a := (addr (s.me x.who)).toNat
    if a + n ≤ 0x4000 then Does c x (fun t => t.putScr a (bytesOf n (Reads x s rd))) s else Faults c x .illegal .ok s :=
  scratchAccess_outcome hc hr haddr (by simp only [if_true, State.issue_me_getG, goT, regBytes]) (keepsIssued_putScr _ _)

/-- A change of the thread that an operand's place in scratch decides. -/
theorem scrOk_outcome {a n : ℕ} {g : Thread → Thread} (hc : exec c s = garnil x F s) (hr : Runs x s)
    (hF : F (s.issue x.who) = if scrOk a n then goT x.who g (s.issue x.who) else .fault .illegal .ok) (hg : KeepsIssued g) :
    if a + n ≤ 0x4000 then Does c x g s else Faults c x .illegal .ok s := by
  split
  · next h => exact does_of_goT hc hr (by rw [hF, scrOk, decide_eq_true h, if_pos rfl]) hg
  · next h => exact faults_of_fault hc hr (by rw [hF, scrOk, decide_eq_false h, if_neg (by decide)])

theorem ald_outcome {ad : AReg} {ra : GReg} (hr : Runs x s) :
    let a := (Reads x s ra).toNat
    if a + 16 ≤ 0x4000 then Does (.ald x ad ra) x (fun t => t.setAccBits ad (BitVec.ofNat 128 (t.scrNat a 16))) s
    else Faults (.ald x ad ra) x .illegal .ok s := by
  have hc : exec (.ald x ad ra) s = execAld x ad ra s := rfl
  refine scrOk_outcome hc hr (by rw [State.issue_reads]) ?_
  exact KeepsIssued.read (fun v t => t.setAccBits ad (BitVec.ofNat 128 v)) (fun _ _ _ => rfl) fun t k => t.scrNat_issued k _ 16

theorem ast_outcome {ad : AReg} {ra : GReg} (hr : Runs x s) :
    let a := (Reads x s ra).toNat
    if a + 16 ≤ 0x4000 then Does (.ast x ad ra) x (fun t => t.putScr a (bytesOf 16 (t.accBits ad))) s
    else Faults (.ast x ad ra) x .illegal .ok s := by
  have hc : exec (.ast x ad ra) s = execAst x ad ra s := rfl
  exact scrOk_outcome hc hr (by rw [State.issue_reads]) fun _ _ => rfl

theorem bcpySs_outcome {rd ra rb : GReg} (hr : Runs x s) :
    let a := (Reads x s ra).toNat
    let n := (Reads x s rb).toNat
    let d := (Reads x s rd).toNat
    if n = 0 then Does (.bcpySs x rd ra rb) x (fun t => t) s
    else if n ≤ 4096 ∧ a + n ≤ 0x4000 ∧ d + n ≤ 0x4000 then Does (.bcpySs x rd ra rb) x (fun t => t.putScr d (t.scr a n)) s
    else Faults (.bcpySs x rd ra rb) x .illegal .ok s := by
  intro a n d
  have hc : exec (.bcpySs x rd ra rb) s = execBcpySs x rd ra rb s := rfl
  unfold execBcpySs at hc
  have hrun := hc.trans (garnil_runs x _ s hr)
  simp only [State.issue_reads, State.issue_me_scr] at hrun
  split_ifs with hn hin
  · rw [if_neg (by omega), if_pos hn] at hrun
    exact does_nothing_of_go hrun
  · obtain ⟨hmax, ha, hd⟩ := hin
    rw [if_neg (by omega), if_neg hn, if_pos (by simp [scrOk]; omega)] at hrun
    obtain ⟨k, hk⟩ := State.issue_me x.who s
    exact does_of_go_putMe_once hrun (by rw [hk]; rfl)
  · by_cases hmax : 4096 < n
    · rw [if_pos hmax] at hrun
      exact hrun
    · rw [if_neg hmax, if_neg hn, if_neg (by simp [scrOk]; omega)] at hrun
      exact hrun

end Sys2Proof.Machine
end

section
open Sys2Proof Sys2Proof.Machine

/-- Settles O5: a sized access of scratch is decided by its place, and bytes put there read back. -/
theorem scratchAccesses : Obligations.ScratchAccesses := by
  unfold Obligations.ScratchAccesses
  refine ⟨fun x rd ra rb ad imm off ty sty sz sx s hr => ?_, fun t a b bs =>
    ⟨t.scr_putScr_same a bs, t.scratch_putScr_outside, rfl, rfl⟩⟩
  intro t d at8 atS atX a n
  have hty (t : Thread) (k : ℕ) : ({ t with issued := k } : Thread).getG ra + off.setWidth 64 = t.getG ra + off.setWidth 64 := rfl
  have hlds : exec (.lds x rd ra imm) s = execLds x rd ra imm s := rfl
  have hsts : exec (.sts x rd ra imm) s = execSts x rd ra imm s := rfl
  have hldsx : exec (.ldsx x ty rd ra off) s = execLdsx x ty rd ra off s := rfl
  have hstsx : exec (.stsx x sty rd ra off) s = execStsx x sty rd ra off s := rfl
  have hldx : exec (.ldx x .scratch sz sx rd ra rb) s = execLdx x .scratch sz sx rd ra rb s := rfl
  have hstx : exec (.stx x .scratch sz rd ra rb) s = execStx x .scratch sz rd ra rb s := rfl
  refine ⟨and_of_ite ?_ (scratchStore_outcome hsts hr (immAddr_issued ra imm)), scratchLoad_outcome hldsx hr hty,
    scratchStore_outcome hstsx hr hty,
    and_of_ite (scratchLoad_outcome hldx hr (sumAddr_issued ra rb)) (scratchStore_outcome hstx hr (sumAddr_issued ra rb)),
    and_of_ite (ald_outcome hr) (ast_outcome hr), bcpySs_outcome hr⟩
  exact scratchLoad_outcome hlds hr (immAddr_issued ra imm)
end

section
/-! ## Accumulators (R41, R42, Table 2.8) -/

namespace Sys2Proof.Machine
open Sys2Proof

variable {x : Ix} {s : State} {c : Instr} {F : State → GRes} {ad as : AReg} {ra rb : GReg}

theorem OfThread.issue_getA (w : Who) (s : State) (r : AReg) : ((s.issue w).me w).getA r = (s.me w).getA r :=
  OfThread.issue (f := fun t => t.getA r) (fun _ _ => rfl) w s

/-- The range of an accumulator (R41). -/
abbrev AccRange (v : ℤ) : Prop := -(2 ^ 127) ≤ v ∧ v < 2 ^ 127

/-- A result for an accumulator: written, or the arithmetic fault (R41). -/
theorem goA_outcome {v : ℤ} (hc : exec c s = garnil x F s) (hr : Runs x s) (hF : F (s.issue x.who) = goA x.who ad v (s.issue x.who)) :
    if AccRange v then Does c x (fun t => t.setA ad v) s else Faults c x .arithmetic .ok s := by
  split
  · next h => exact does_of_goT hc hr (hF.trans (if_pos h)) fun _ _ => rfl
  · next h => exact faults_of_fault hc hr (hF.trans (if_neg h))

theorem goA_does {v : ℤ} (hc : exec c s = garnil x F s) (hr : Runs x s) (hF : F (s.issue x.who) = goA x.who ad v (s.issue x.who))
    (hv : AccRange v) : Does c x (fun t => t.setA ad v) s := by
  have h := goA_outcome hc hr hF
  rwa [if_pos hv] at h

theorem acc3_goA (f : ℤ → Word → Word → ℤ) {v : ℤ} (hv : f ((s.me x.who).getA ad) (Reads x s ra) (Reads x s rb) = v) :
    (fun s : State => goA x.who ad (f ((s.me x.who).getA ad) ((s.me x.who).getG ra) ((s.me x.who).getG rb)) s) (s.issue x.who) =
      goA x.who ad v (s.issue x.who) := by
  simp only [OfThread.issue_getA, State.issue_reads, hv]

theorem acc3_outcome (f : ℤ → Word → Word → ℤ) {v : ℤ} (hr : Runs x s) (hc : exec c s = acc3 x ad ra rb f s)
    (hv : f ((s.me x.who).getA ad) (Reads x s ra) (Reads x s rb) = v) :
    if AccRange v then Does c x (fun t => t.setA ad v) s else Faults c x .arithmetic .ok s :=
  goA_outcome hc hr (acc3_goA f hv)

theorem accA_outcome (f : ℤ → ℤ → ℤ) {v : ℤ} (hr : Runs x s) (hc : exec c s = accA x ad as f s)
    (hv : f ((s.me x.who).getA ad) ((s.me x.who).getA as) = v) :
    if AccRange v then Does c x (fun t => t.setA ad v) s else Faults c x .arithmetic .ok s :=
  goA_outcome hc hr (by simp only [OfThread.issue_getA, hv])

theorem accA_does (f : ℤ → ℤ → ℤ) {v : ℤ} (hr : Runs x s) (hc : exec c s = accA x ad as f s)
    (hv : f ((s.me x.who).getA ad) ((s.me x.who).getA as) = v) (hin : AccRange v) : Does c x (fun t => t.setA ad v) s := by
  have h := accA_outcome f hr hc hv
  rwa [if_pos hin] at h

theorem Word.toInt_accRange (a : Word) : AccRange a.toInt := by
  have hlo := BitVec.le_toInt a
  have hhi := BitVec.toInt_lt (x := a)
  constructor <;> omega

theorem Thread.getA_accRange (t : Thread) (r : AReg) : AccRange (t.getA r) :=
  ⟨BitVec.le_toInt _, BitVec.toInt_lt⟩

theorem accRange_shift {v : ℤ} (h : AccRange v) (k : ℕ) : AccRange (v / 2 ^ k) := by
  obtain ⟨hlo, hhi⟩ := h
  have hpos : (0 : ℤ) < 2 ^ k := by positivity
  have hone : (1 : ℤ) ≤ 2 ^ k := hpos
  constructor
  · rw [Int.le_ediv_iff_mul_le hpos]
    nlinarith
  · rw [Int.ediv_lt_iff_lt_mul hpos]
    nlinarith

theorem setFld_low64 (v : BitVec 128) (a : Word) : setFld v 0 a = v.extractLsb' 64 64 ++ a := by
  apply BitVec.eq_of_getLsbD_eq
  intro j hj
  rw [getLsbD_setFld, BitVec.getLsbD_append]
  by_cases hlow : j < 64
  · simp [hlow, hj]
  · simp [hlow, show j - 64 < 64 by omega, show 64 + (j - 64) = j by omega]

theorem setFld_high64 (v : BitVec 128) (a : Word) : setFld v 64 a = a ++ v.extractLsb' 0 64 := by
  apply BitVec.eq_of_getLsbD_eq
  intro j hj
  rw [getLsbD_setFld, BitVec.getLsbD_append]
  by_cases hlow : j < 64
  · simp [hlow, show ¬ 64 ≤ j by omega]
  · simp [hlow, hj, show 64 ≤ j by omega]

theorem accBits_sets {rd : GReg} (lo : ℕ) (hr : Runs x s)
    (hc : exec c s = garnil x (fun s => goG x.who rd (fld ((s.me x.who).accBits as) lo 64) s) s) :
    Sets c x rd (((s.me x.who).accBits as).extractLsb' lo 64) s := by
  refine sets_of_goG hc hr ?_
  rw [OfThread.issue (f := fun t => t.accBits as) (fun _ _ => rfl), fld_eq_extractLsb']

/-- A write of one half of an accumulator. -/
theorem setAccBits_does {g : Thread → BitVec 128} {g' : Thread → BitVec 128}
    (hc : exec c s = garnil x (goT x.who (fun t => t.setAccBits ad (g t))) s) (hr : Runs x s) (hg : OfThread g)
    (hsame : g (s.me x.who) = g' (s.me x.who)) : Does c x (fun t => t.setAccBits ad (g' t)) s := by
  have hdoes := does_of_goT (f := fun t => t.setAccBits ad (g t)) hc hr rfl
    (KeepsIssued.read (fun v t => t.setAccBits ad v) (fun _ _ _ => rfl) hg)
  exact hdoes.congr (by rw [hsame])

theorem ftoa_outcome {k : Fin 32} (hr : Runs x s) :
    let a := Reads x s ra
    if fNan a || fInf a then Faults (.ftoa x ad ra k) x .arithmetic .ok s
    else if AccRange (divHalfEven (fUnits a * 10 ^ k.val) (2 ^ 1074)) then
      Does (.ftoa x ad ra k) x (fun t => t.setA ad (divHalfEven (fUnits a * 10 ^ k.val) (2 ^ 1074))) s
    else Faults (.ftoa x ad ra k) x .arithmetic .ok s := by
  intro a
  have hc : exec (.ftoa x ad ra k) s = execFtoa x ad ra k s := rfl
  unfold execFtoa at hc
  split
  · next h => exact faults_of_fault hc hr (by simp only [State.issue_reads]; rw [if_pos h])
  · next h => exact goA_outcome hc hr (by simp only [State.issue_reads]; rw [if_neg h])

end Sys2Proof.Machine
end

section
open Sys2Proof Sys2Proof.Machine

/-- Settles O6: each operation gives its exact result to `goA`, which writes it or raises the fault. -/
theorem accumulatorResults : Obligations.AccumulatorResults := by
  unfold Obligations.AccumulatorResults
  intro x ad as rd ra rb k s hr t d e a b fits
  have hatof : exec (.atof x rd as k) s = execAtof x rd as k s := rfl
  refine ⟨accA_does (fun _ _ => 0) (as := ad) hr rfl rfl (by decide), ?_,
    acc3_outcome (rb := ra) (fun d a _ => d + a.toInt) hr rfl rfl, acc3_outcome (rb := ra) (fun d a _ => d - a.toInt) hr rfl rfl,
    acc3_outcome (fun d a b => d + a.toInt * b.toInt) hr rfl rfl, acc3_outcome (fun d a b => d + a.toNat * b.toNat) hr rfl rfl,
    accA_outcome (fun d a => d + a) hr rfl rfl, accA_outcome (fun d a => d - a) hr rfl rfl,
    accA_does (as := ad) (fun d _ => d / 2 ^ k.val) hr rfl rfl (accRange_shift (t.getA_accRange ad) k.val),
    accBits_sets 0 hr rfl, accBits_sets 64 hr rfl, ?_, ?_, ftoa_outcome hr, ?_⟩
  · have h := acc3_outcome (ad := ad) (rb := ra) (fun _ a _ => a.toInt) (c := .amov x ad ra) hr rfl rfl
    rwa [if_pos (Word.toInt_accRange a)] at h
  · exact setAccBits_does (g := fun t => setFld (t.accBits ad) 0 (t.getG ra)) rfl hr (fun _ _ => rfl) (setFld_low64 _ _)
  · exact setAccBits_does (g := fun t => setFld (t.accBits ad) 64 (t.getG ra)) rfl hr (fun _ _ => rfl) (setFld_high64 _ _)
  · exact sets_of_goG hatof hr (by rw [OfThread.issue_getA])
end

section
/-! ## How a binary64 instruction ends (R43) -/

namespace Sys2Proof.Machine
open Sys2Proof

variable {x : Ix} {s : State} {c : Instr} {F : State → GRes} {rd ra rb : GReg} {pd : PReg}

/-- FPCTL traps one of the flags `n`. -/
def Thread.fpTraps (t : Thread) (n : ℕ) : Bool := (n.testBit 4 && t.fpctl.getLsbD 0) || (n.testBit 3 && t.fpctl.getLsbD 1)

/-- The thread with the sticky flags `n` set. -/
def Thread.fpFlags (n : ℕ) (t : Thread) : Thread := { t with fpsr := t.fpsr ||| BitVec.ofNat 64 n }

/-- The instruction sets the flags `n`; then it changes its thread by `g`, or traps. -/
def FpEnds (c : Instr) (x : Ix) (n : ℕ) (g : Thread → Thread) (s : State) : Prop :=
  if (s.me x.who).fpTraps n then
    exec c s = .next (((s.issue x.who).putMe x.who (((s.issue x.who).me x.who).fpFlags n)).fault x.who .arithmetic .ok)
  else Does c x (fun t => g (t.fpFlags n)) s

theorem FpEnds.congr {n : ℕ} {g g' : Thread → Thread} (h : FpEnds c x n g s)
    (hg : g ((s.me x.who).fpFlags n) = g' ((s.me x.who).fpFlags n)) : FpEnds c x n g' s := by
  unfold FpEnds at *
  split_ifs at * with htrap
  · exact h
  · exact h.congr hg

theorem fpTraps_eq (t : Thread) (n : ℕ) :
    ((decide (n / 16 % 2 = 1) && bit t.fpctl 0) || (decide (n / 8 % 2 = 1) && bit t.fpctl 1)) = t.fpTraps n := by
  simp only [Thread.fpTraps, Nat.testBit_eq_decide_div_mod_eq, bit]

theorem fpDone_ends {n : ℕ} {g : Thread → Thread} (hc : exec c s = garnil x F s) (hr : Runs x s)
    (hF : F (s.issue x.who) = fpDone x.who n (s.issue x.who) (goT x.who g)) (hg : KeepsIssued g) : FpEnds c x n g s := by
  have hrun := hc.trans (garnil_runs x F s hr)
  rw [hF, fpDone, fpTraps_eq, OfThread.issue (f := fun t => t.fpTraps n) (fun _ _ => rfl)] at hrun
  unfold FpEnds
  split_ifs at * with htrap
  · exact hrun
  · obtain ⟨k, hk⟩ := State.issue_me x.who s
    refine does_of_go_putMe hrun ?_
    rw [State.me_putMe, hk]
    exact congrArg (fun t : Thread => { t with issued := 0 }) (hg ((s.me x.who).fpFlags n) k)

theorem fp2_ends (f : Word → Word → Word × ℕ) {r : Word × ℕ} (hr : Runs x s) (hc : exec c s = fp2 x rd ra rb f s)
    (hf : f (Reads x s ra) (Reads x s rb) = r) : FpEnds c x r.2 (fun t => t.setG rd r.1) s :=
  fpDone_ends hc hr (by simp only [State.issue_reads, hf]; rfl) (keepsIssued_setG rd r.1)

/-- An operation that sets no flag. -/
theorem fp2_sets (f : Word → Word → Word × ℕ) {v : Word} (hr : Runs x s) (hc : exec c s = fp2 x rd ra rb f s)
    (hf : f (Reads x s ra) (Reads x s rb) = (v, 0)) : Sets c x rd v s := by
  have hends := fp2_ends f hr hc hf
  have hnone : (s.me x.who).fpTraps 0 = false := by simp [Thread.fpTraps]
  rw [FpEnds, hnone, if_neg (by decide)] at hends
  refine hends.congr (congrArg (fun t : Thread => t.setG rd v) ?_)
  simp [Thread.fpFlags]

theorem fpCmp_ends (k : Comb) (f : Word → Word → Bool) (g : Word → Word → ℕ) (hr : Runs x s) (hc : exec c s = fpCmp x k pd ra rb f g s) :
    FpEnds c x (g (Reads x s ra) (Reads x s rb))
      (fun t => t.setP pd (combine k ((s.me x.who).getP pd) (f (Reads x s ra) (Reads x s rb)))) s := by
  refine FpEnds.congr (g := fun t => t.setP pd (combine k (t.getP pd) (f (Reads x s ra) (Reads x s rb)))) ?_ rfl
  refine fpDone_ends hc hr (by simp only [State.issue_reads]; rfl) ?_
  exact KeepsIssued.read (f := fun t => t.getP pd) (fun b t => t.setP pd (combine k b (f (Reads x s ra) (Reads x s rb))))
    (fun b => keepsIssued_setP pd _) (fun _ _ => rfl)

end Sys2Proof.Machine
end

section
/-! ## The corners of binary64 (R43, Table 2.9) -/

namespace Sys2Proof.Machine
open Sys2Proof

/-! ### Conversions to integers -/

theorem le_divHalfEven {v m : ℤ} {d : ℕ} (hd : 0 < d) (h : m * d ≤ v) : m ≤ divHalfEven v d := by
  have hq : m ≤ v / d := (Int.le_ediv_iff_mul_le (by exact_mod_cast hd)).mpr h
  unfold divHalfEven
  dsimp only
  split_ifs <;> omega

theorem divHalfEven_le {v m : ℤ} {d : ℕ} (hd : 0 < d) (h : v < m * d) : divHalfEven v d ≤ m := by
  have hq : v / d < m := (Int.ediv_lt_iff_lt_mul (by exact_mod_cast hd)).mpr h
  unfold divHalfEven
  dsimp only
  split_ifs <;> omega

theorem divHalfEven_one (v : ℤ) : divHalfEven v 1 = v := by
  simp [divHalfEven]

theorem fToInt_nan {a : Word} (h : fNan a = true) : fToInt a = (0#64, 16) := if_pos h

theorem fToInt_high {a : Word} (hn : fNan a = false) (hi : fInf a = false) (h : 2 ^ 63 * 2 ^ 1074 ≤ fUnits a) :
    fToInt a = (0x7FFFFFFFFFFFFFFF#64, 16) := by
  have hv : (2 ^ 63 : ℤ) ≤ divHalfEven (fUnits a) (2 ^ 1074) := le_divHalfEven (by positivity) (by exact_mod_cast h)
  rw [fToInt, hn, hi, if_neg (by decide), if_neg (by decide)]
  dsimp only
  rw [if_neg (by omega), if_pos hv]

theorem fToInt_low {a : Word} (hn : fNan a = false) (hi : fInf a = false) (h : fUnits a < -((2 ^ 63 + 1) * 2 ^ 1074)) :
    fToInt a = (0x8000000000000000#64, 16) := by
  have hv : divHalfEven (fUnits a) (2 ^ 1074) ≤ -(2 ^ 63 + 1) := divHalfEven_le (by positivity) (by rw [neg_mul]; exact_mod_cast h)
  rw [fToInt, hn, hi, if_neg (by decide), if_neg (by decide)]
  dsimp only
  rw [if_pos (by omega)]

/-! ### NaN -/

theorem fNan_iff (w : Word) : fNan w = true ↔ w.extractLsb' 52 11 = 0x7FF#11 ∧ w.extractLsb' 0 52 ≠ 0#52 := by
  have hexp : (w.extractLsb' 52 11).toNat = 0x7FF ↔ w.extractLsb' 52 11 = 0x7FF#11 := by
    rw [← BitVec.toNat_inj]; rfl
  rw [fNan, fld_eq_extractLsb', fld_eq_extractLsb', Bool.and_eq_true, decide_eq_true_eq, decide_eq_true_eq, hexp]

theorem fNan_qnan (a b c : Word) : fNan (qnan a b c) = true := by
  have hexp : (0x7FF8000000000000#64 : Word).extractLsb' 52 11 = BitVec.allOnes 11 := by decide
  have hquiet (y : Word) : (0x7FF8000000000000#64 ||| y).getLsbD 51 = true := by
    rw [BitVec.getLsbD_or, show (0x7FF8000000000000#64 : Word).getLsbD 51 = true by decide, Bool.true_or]
  rw [fNan_iff, qnan]
  refine ⟨by rw [BitVec.extractLsb'_or, hexp, BitVec.allOnes_or]; rfl, fun hzero => ?_⟩
  have hbit := congrArg (fun v => v.getLsbD 51) hzero
  simp only [BitVec.getLsbD_extractLsb', Nat.zero_add, hquiet] at hbit
  exact absurd hbit (by decide)

theorem fMinMax_nan {a b : Word} (h : (fNan a || fNan b) = true) : fNan (fMin a b).1 = true ∧ fNan (fMax a b).1 = true := by
  rw [fMin, fMax, if_pos h, if_pos h]
  exact ⟨fNan_qnan a b 0#64, fNan_qnan a b 0#64⟩

theorem fCompare_nan {a b : Word} (h : (fNan a || fNan b) = true) : fEqual a b = false ∧ fLess a b = false ∧ fUnord a b = true := by
  have hunord : fUnord a b = true := h
  simp [fEqual, fLess, hunord]

/-! ### Division by zero -/

theorem fZero_fields {b : Word} (h : fZero b = true) : b.toNat % 2 ^ 63 = 0 := by
  have hlow := congrArg BitVec.toNat (of_decide_eq_true h)
  simpa [fld] using hlow

theorem fNan_of_fZero {b : Word} (h : fZero b = true) : fNan b = false := by
  have hlow := fZero_fields h
  have hexp : (fld b 52 11).toNat = 0 := by
    simp only [fld, BitVec.toNat_ofNat, Nat.shiftRight_eq_div_pow]
    omega
  simp [fNan, hexp]

theorem fInf_of_fZero {b : Word} (h : fZero b = true) : fInf b = false := by
  have hlow := of_decide_eq_true h
  simp [fInf, hlow]

theorem fDiv_zero {a b : Word} (hn : fNan a = false) (hi : fInf a = false) (hz : fZero a = false) (hb : fZero b = true) :
    fDiv a b = ((if fNeg a = fNeg b then 0x7FF0000000000000#64 else 0xFFF0000000000000#64), 8) := by
  simp only [fDiv, hn, hi, hz, hb, fNan_of_fZero hb, fInf_of_fZero hb, Bool.false_and, Bool.or_false, Bool.false_eq_true, if_false, if_true]
  cases fNeg a <;> cases fNeg b <;> rfl

/-! ### Whole numbers below 2^53 are exact -/

theorem ratioLog2_one {m : ℕ} (hm : m ≠ 0) : ratioLog2 m 1 = (m.log2 : ℤ) := by
  have hle : 2 ^ m.log2 ≤ m := Nat.log2_self_le hm
  have hone : Nat.log2 1 = 0 := by decide
  simp [ratioLog2, hone, hle]

/-- The binary64 word of sign `neg`, biased exponent `e` and fraction `f`. -/
theorem fUnits_fSigned (neg : Bool) {e f : ℕ} (he : 0 < e) (he' : e < 2047) (hf : f < 2 ^ 52) :
    fUnits (fSigned neg (e * 2 ^ 52 + f)) = (if neg then -1 else 1) * (((2 ^ 52 + f) * 2 ^ (e - 1) : ℕ) : ℤ) := by
  have hword : (fSigned neg (e * 2 ^ 52 + f)).toNat = (if neg then 2 ^ 63 else 0) + (e * 2 ^ 52 + f) := by
    rw [fSigned, BitVec.toNat_ofNat]
    cases neg <;> simp only [Bool.false_eq_true, if_false, if_true] <;> omega
  have hexp : (fld (fSigned neg (e * 2 ^ 52 + f)) 52 11).toNat = e := by
    rw [fld, BitVec.toNat_ofNat, hword, Nat.shiftRight_eq_div_pow]
    cases neg <;> simp only [Bool.false_eq_true, if_false, if_true] <;> omega
  have hfrac : (fld (fSigned neg (e * 2 ^ 52 + f)) 0 52).toNat = f := by
    rw [fld, BitVec.toNat_ofNat, hword, Nat.shiftRight_zero]
    cases neg <;> simp only [Bool.false_eq_true, if_false, if_true] <;> omega
  have hsign : fNeg (fSigned neg (e * 2 ^ 52 + f)) = neg := by
    rw [fNeg, bit, BitVec.getLsbD, hword, Nat.testBit_eq_decide_div_mod_eq]
    cases neg <;> simp only [Bool.false_eq_true, if_false, if_true, decide_eq_true_eq, decide_eq_false_iff_not] <;> omega
  simp only [fUnits, hexp, hfrac, hsign, if_neg (Nat.ne_of_gt he)]
  cases neg <;> simp

theorem roundAt_whole (m k : ℕ) : roundAt m 1 (-(k : ℤ)) = (m * 2 ^ k, true) := by
  have hpos : (-(k : ℤ)).toNat = 0 := by omega
  have hneg : (-(-(k : ℤ))).toNat = k := by omega
  simp only [roundAt, hpos, hneg, Nat.pow_zero, Nat.mul_one, divHalfEven_one, Int.toNat_natCast, Nat.mod_one, decide_true]

theorem roundRat_whole (neg : Bool) {m : ℕ} (hm : m ≠ 0) (hlt : m < 2 ^ 53) :
    (roundRat neg m 1).2 = 0 ∧ fUnits (roundRat neg m 1).1 = (if neg then -1 else 1) * ((m * 2 ^ 1074 : ℕ) : ℤ) := by
  have hlog : m.log2 < 53 := (Nat.log2_lt hm).mpr hlt
  obtain ⟨k, hk⟩ : ∃ k, m.log2 + k = 52 := ⟨52 - m.log2, by omega⟩
  have hu : max (((m.log2 : ℤ)) - 52) (-1074) = -(k : ℤ) := by omega
  have hlow : 2 ^ 52 ≤ m * 2 ^ k := by
    rw [← hk, Nat.pow_add]
    exact Nat.mul_le_mul_right _ (Nat.log2_self_le hm)
  have hhigh : m * 2 ^ k < 2 ^ 53 := by
    rw [show 53 = m.log2 + 1 + k by omega, Nat.pow_add]
    exact Nat.mul_lt_mul_of_pos_right Nat.lt_log2_self (by positivity)
  obtain ⟨f, hf⟩ : ∃ f, m * 2 ^ k = 2 ^ 52 + f := ⟨m * 2 ^ k - 2 ^ 52, by omega⟩
  have hbits : (-(k : ℤ) + 1074).toNat * 2 ^ 52 + m * 2 ^ k = (1075 - k) * 2 ^ 52 + f := by omega
  have hround : roundRat neg m 1 = (fSigned neg ((1075 - k) * 2 ^ 52 + f), 0) := by
    have htiny : ¬ (m.log2 : ℤ) < -1022 := by omega
    simp only [roundRat, hm, if_false, ratioLog2_one hm, hu, roundAt_whole, hbits]
    rw [if_neg (by omega)]
    simp [htiny]
  rw [hround]
  refine ⟨rfl, ?_⟩
  rw [fUnits_fSigned neg (by omega) (by omega) (by omega), ← hf, Nat.mul_assoc, ← Nat.pow_add,
    show k + (1075 - k - 1) = 1074 by omega]

theorem roundInt_whole {n : ℤ} (hlo : -(2 ^ 53) < n) (hhi : n < 2 ^ 53) (hn : n ≠ 0) :
    (roundInt false n 1).2 = 0 ∧ fUnits (roundInt false n 1).1 = n * 2 ^ 1074 := by
  obtain ⟨hflags, hvalue⟩ := roundRat_whole (decide (n < 0)) (Int.natAbs_ne_zero.mpr hn) (by omega)
  rw [roundInt, if_neg hn]
  refine ⟨hflags, hvalue.trans ?_⟩
  rw [Nat.cast_mul, ← mul_assoc]
  congr 1
  by_cases hneg : n < 0
  · simp only [hneg, decide_true, if_true]; omega
  · simp only [hneg, decide_false, Bool.false_eq_true, if_false]; omega

end Sys2Proof.Machine
end

section
open Sys2Proof Sys2Proof.Machine

/-- Settles O7: every minor hands its result and flags to `fpDone`, which traps or goes on; the corners are those of the operations. -/
theorem binarySixtyFourResults : Obligations.BinarySixtyFourResults := by
  unfold Obligations.BinarySixtyFourResults
  refine ⟨fun x k pd rd ra rb s hr => ?_, fun a => fToInt_nan, fun a => fToInt_high, fun a => fToInt_low, fun a b => fMinMax_nan,
    fun a b => fCompare_nan, by decide, by decide, by decide, by decide, fun a b => fDiv_zero, fun n => roundInt_whole⟩
  intro a b d old into flags traps is value cond
  have hcond (f : Word → Word → Bool) (g : Word → Word → ℕ) (c : Instr) (hc : exec c s = fpCmp x k pd ra rb f g s) :
      cond c (f a b) (g a b) := by
    have h := fpCmp_ends k f g hr hc
    cases k <;> exact h
  have hvalue (f : Word → Word → Word × ℕ) (c : Instr) (rb : GReg) (hc : exec c s = fp2 x rd ra rb f s) :
      value c (f a (Reads x s rb)) := fp2_ends f hr hc rfl
  exact ⟨hvalue fAdd _ rb rfl, hvalue fSub _ rb rfl, hvalue fMul _ rb rfl, hvalue fDiv _ rb rfl, hvalue (fun a _ => fSqrt a) _ ra rfl,
    hvalue (fun a b => fMa d a b) _ rb rfl, hvalue fMin _ rb rfl, hvalue fMax _ rb rfl,
    fp2_sets (rb := ra) (fun a _ => (a &&& 0x7FFFFFFFFFFFFFFF#64, 0)) hr rfl rfl, fp2_sets (rb := ra) (fun a _ => (fFlip a, 0)) hr rfl rfl,
    hvalue (fun a _ => roundInt false a.toInt 1) _ ra rfl, hvalue (fun a _ => fToInt a) _ ra rfl,
    hcond fEqual fQuietFlags _ rfl, hcond fLess fSignalFlags _ rfl, hcond (fun a b => fLess a b || fEqual a b) fSignalFlags _ rfl,
    hcond fUnord fQuietFlags _ rfl⟩
end

section
/-! ## Control words (R30, Table 2.2) -/

namespace Sys2Proof.Machine
open Sys2Proof

variable {s : State} {p : Fin 8} {n : Bool} {t : Fin 128}

/-- A reading of the units other than the threads and the performance counters. -/
def OfUnits {α : Type} (f : State → α) : Prop :=
  ∀ (s : State) (th : Tab Thread) (c : Pmc), f { s with ge := { s.ge with threads := th }, pmc := c } = f s

/-- Such a reading is the same once the instruction has issued. -/
theorem OfUnits.issue {α : Type} {f : State → α} (hf : OfUnits f) (w : Who) (s : State) : f (s.issue w) = f s := by
  rw [(State.issue_frame w s).1]
  exact hf s _ _

theorem garnilPriv_garnil {x : Ix} {priv : State → Bool} {F : State → GRes} (h : priv s = false) : garnilPriv x priv F s = garnil x F s := by
  rw [garnilPriv, h, Bool.and_false, if_neg (by decide)]

/-- An engine thread reads the control word `k`. -/
theorem mfc_sets {rd : GReg} {k : Fin 64} {v : Word} (hk : k.val < 32) (hr : Runs ⟨.thread t, p, n⟩ s)
    (hv : (s.issue (.thread t)).cwRead (.thread t) k.val = (v, s.issue (.thread t))) : Sets (.mfc ⟨.thread t, p, n⟩ rd k) ⟨.thread t, p, n⟩ rd v s := by
  have hpriv : cwPriv (.thread t) k.val = false := by simp [cwPriv, Nat.not_le.mpr hk]
  have hc : exec (.mfc ⟨.thread t, p, n⟩ rd k) s = execMfc ⟨.thread t, p, n⟩ rd k s := rfl
  rw [execMfc, garnilPriv_garnil (by exact hpriv)] at hc
  exact sets_of_goG hc hr (by simp only [hv])

theorem mtc_runs {ra : GReg} {k : Fin 64} (hk : k.val < 32) :
    exec (.mtc ⟨.thread t, p, n⟩ ra k) s = garnil ⟨.thread t, p, n⟩ (fun s =>
      let v := (s.me (.thread t)).getG ra
      match cwMask k.val with
      | some m => if v &&& ~~~m = 0#64 then .go (s.cwWrite (.thread t) k.val v) else .fault .illegal .ok
      | none => .fault .illegal .ok) s := by
  have hpriv : cwPriv (.thread t) k.val = false := by simp [cwPriv, Nat.not_le.mpr hk]
  exact garnilPriv_garnil (priv := fun _ => cwPriv (.thread t) k.val) hpriv

/-- A write of a control word by an engine thread: a change of the thread, or the illegal fault for a reserved bit. -/
theorem mtc_outcome {ra : GReg} {k : Fin 64} {m : Word} {f : Thread → Thread} (hk : k.val < 32) (hm : cwMask k.val = some m)
    (hr : Runs ⟨.thread t, p, n⟩ s)
    (hw : (s.issue (.thread t)).cwWrite (.thread t) k.val (Reads ⟨.thread t, p, n⟩ s ra) =
      (s.issue (.thread t)).putMe (.thread t) (f ((s.issue (.thread t)).me (.thread t)))) (hf : KeepsIssued f) :
    if Reads ⟨.thread t, p, n⟩ s ra &&& ~~~m = 0#64 then Does (.mtc ⟨.thread t, p, n⟩ ra k) ⟨.thread t, p, n⟩ f s
    else Faults (.mtc ⟨.thread t, p, n⟩ ra k) ⟨.thread t, p, n⟩ .illegal .ok s := by
  have hread : ((s.issue (.thread t)).me (.thread t)).getG ra = Reads ⟨.thread t, p, n⟩ s ra := State.issue_me_getG _ s ra
  split
  · next h => exact does_of_goT (mtc_runs hk) hr (by simp only [hm, hread, if_pos h, hw, goT]) hf
  · next h => exact faults_of_fault (mtc_runs hk) hr (by simp only [hm, hread, if_neg h])

/-- An RO or reserved control word. -/
theorem mtc_faults {ra : GReg} {k : Fin 64} (hk : k.val < 32) (hm : cwMask k.val = none) (hr : Runs ⟨.thread t, p, n⟩ s) :
    Faults (.mtc ⟨.thread t, p, n⟩ ra k) ⟨.thread t, p, n⟩ .illegal .ok s :=
  faults_of_fault (mtc_runs hk) hr (by simp only [hm])

/-- The words Table 2.2 lets an engine thread write. -/
theorem cwMask_engine {k : ℕ} (hk : k < 32) (h : k ∉ [6, 7, 8, 9, 17]) : cwMask k = none := by
  have hall : ∀ k < 32, k ∉ [6, 7, 8, 9, 17] → cwMask k = none := by decide
  exact hall k hk h

theorem State.thread_issue_keeps {α : Type} {f : Thread → α} (hf : OfThread f) (t : Fin 128) (s : State) :
    f ((s.issue (.thread t)).thread t.val) = f (s.thread t.val) := hf.issue (.thread t) s

theorem State.stageWord_issue (t : Fin 128) (s : State) : (s.issue (.thread t)).stageWord t.val = s.stageWord t.val := by
  have hstage := State.thread_issue_keeps (f := Thread.stage) (fun _ _ => rfl) t s
  have hlocks := OfUnits.issue (f := fun s => s.locksOf t.val) (fun _ _ _ => rfl) (.thread t) s
  simp only [State.stageWord, hstage, hlocks]

theorem State.wdogLeft_issue (t : Fin 128) (s : State) :
    (s.issue (.thread t)).wdogLeft ((s.issue (.thread t)).thread t.val) = s.wdogLeft (s.thread t.val) := by
  have hlimit := State.thread_issue_keeps (f := Thread.wdLimit) (fun _ _ => rfl) t s
  have hstart := State.thread_issue_keeps (f := Thread.wdStart) (fun _ _ => rfl) t s
  have hnow := OfUnits.issue (f := fun s => s.tb.elapsed) (fun _ _ _ => rfl) (.thread t) s
  simp only [State.wdogLeft, hlimit, hstart, hnow]

theorem Thread.qcur_word (h : Thread) : h.qcur.setWidth 64 = BitVec.ofNat 64 (h.count % 65536 * 65536 + h.q % 65536) := by
  apply BitVec.eq_of_toNat_eq
  simp only [Thread.qcur, BitVec.toNat_setWidth, BitVec.toNat_ofNat]
  omega

end Sys2Proof.Machine
end

section
open Sys2Proof Sys2Proof.Machine

/-- Settles O10: every control word of an engine thread is a field of the thread or a reading of a unit, which the issue keeps. -/
theorem controlWords : Obligations.ControlWords := by
  unfold Obligations.ControlWords
  rintro ⟨_, p, n⟩ t rd ra s rfl hr h v reads writes
  have hfield {k : Fin 64} (f : Thread → Word) (hf : OfThread f) (hk : k.val < 32)
      (hv : (s.issue (.thread t)).cwRead (.thread t) k.val = (f ((s.issue (.thread t)).thread t.val), s.issue (.thread t))) :
      reads k (f h) := mfc_sets hk hr (by rw [hv, State.thread_issue_keeps hf])
  have hunit {k : Fin 64} (f : State → Word) (hf : OfUnits f) (hk : k.val < 32)
      (hv : (s.issue (.thread t)).cwRead (.thread t) k.val = (f (s.issue (.thread t)), s.issue (.thread t))) :
      reads k (f s) := mfc_sets hk hr (by rw [hv, hf.issue])
  refine ⟨mfc_sets (by decide) hr rfl, ?_, hunit (fun s => (s.epochOf t.val).setWidth 64) (fun _ _ _ => rfl) (by decide) rfl,
    hfield (fun h => h.iepoch.setWidth 64) (fun _ _ => rfl) (by decide) rfl,
    hunit (fun s => (caps0 s.sys.variant).setWidth 64) (fun _ _ _ => rfl) (by decide) rfl, ?_,
    hfield Thread.fpctl (fun _ _ => rfl) (by decide) rfl, hfield Thread.fpsr (fun _ _ => rfl) (by decide) rfl,
    hfield Thread.ustat (fun _ _ => rfl) (by decide) rfl, hfield Thread.lstat (fun _ _ => rfl) (by decide) rfl,
    hunit (fun s => BitVec.ofNat 64 ((if s.sel then 256 else 0) + s.cls true * 16 + s.cls false)) (fun _ _ _ => rfl) (by decide) rfl,
    mfc_sets (by decide) hr (by rw [← State.stageWord_issue]; rfl),
    hunit (fun s => s.lockWord t.val 0) (fun _ _ _ => rfl) (by decide) rfl, hunit (fun s => s.lockWord t.val 1) (fun _ _ _ => rfl) (by decide) rfl,
    hunit (fun s => s.lockWord t.val 2) (fun _ _ _ => rfl) (by decide) rfl, hunit (fun s => s.lockWord t.val 3) (fun _ _ _ => rfl) (by decide) rfl,
    mfc_sets (by decide) hr rfl, hfield Thread.recbase (fun _ _ => rfl) (by decide) rfl, hfield Thread.pairid (fun _ _ => rfl) (by decide) rfl,
    hunit (fun s => (s.sourceId (20 + t.val / 4)).setWidth 64) (fun _ _ _ => rfl) (by decide) rfl,
    mtc_outcome (by decide) rfl hr rfl fun _ _ => rfl, mtc_outcome (by decide) rfl hr rfl fun _ _ => rfl,
    mtc_outcome (by decide) rfl hr rfl fun _ _ => rfl, mtc_outcome (by decide) rfl hr rfl fun _ _ => rfl,
    mtc_outcome (by decide) rfl hr rfl fun _ _ => rfl, fun k hk h6 h7 h8 h9 h17 => ?_⟩
  · rw [← Thread.qcur_word]
    exact hfield (fun h => h.qcur.setWidth 64) (fun _ _ => rfl) (by decide) rfl
  · exact mfc_sets (by decide) hr (by rw [← State.wdogLeft_issue]; rfl)
  · refine mtc_faults hk (cwMask_engine hk ?_) hr
    simp only [List.mem_cons, List.not_mem_nil, or_false]
    omega
end

section
/-! ## What an issue leaves, and where an instruction goes on (R32, R40) -/

namespace Sys2Proof.Machine
open Sys2Proof

variable {x : Ix} {s : State} {c : Instr} {F : State → GRes}

/-- An operation of a unit: it reads and moves neither the threads nor the performance counters. -/
def OfUnitsOnly (f : State → State) : Prop :=
  ∀ (s : State) (th : Tab Thread) (c : Pmc),
    f { s with ge := { s.ge with threads := th }, pmc := c } = { f s with ge := { (f s).ge with threads := th }, pmc := c }

/-- Such an operation before or after the issue differs in the issuing thread alone. -/
theorem OfUnitsOnly.ownThread {f : State → State} (hf : OfUnitsOnly f) (hth : (f s).ge.threads = s.ge.threads) (w : Who) :
    OwnThread w (f s) (f (s.issue w)) := by
  obtain ⟨hframe, hothers, _⟩ := State.issue_frame w s
  have hcommutes : f (s.issue w) = { f s with
      ge := { (f s).ge with threads := (s.issue w).ge.threads }
      pmc := (s.issue w).pmc } := by
    conv_lhs => rw [hframe]
    exact hf s _ _
  refine ⟨by rw [hcommutes], fun a ha => ?_⟩
  rw [hcommutes]
  exact (hothers a ha).trans (by rw [State.thread, State.thread, hth])

/-- The instruction goes on from a state that differs from `v` in its thread alone. -/
theorem gives_of_go {u v : State} {f : Thread → Thread} (hc : exec c s = finish x.who (PcOf x s) (s.issue x.who) (.go u))
    (hu : OwnThread x.who v u) (hf : { u.me x.who with issued := 0 } = ({ f (v.me x.who) with issued := 0 } : Thread)) :
    Gives c s (ThreadStep x f (PcOf x s + 4) v) :=
  ⟨_, hc, hu.threadStep _ hf⟩

/-- The meaning stops the thread or ends its task in `u`. -/
theorem gives_of_stop {u : State} {P : State → Prop} (hc : exec c s = garnil x F s) (hr : Runs x s) (hF : F (s.issue x.who) = .stop u)
    (hP : P u) : Gives c s P :=
  ⟨u, by rw [hc, garnil_runs x F s hr, hF]; rfl, hP⟩

/-- The meaning goes on from `u`. -/
theorem gives_of_next {u : State} {P : State → Prop} (hc : exec c s = garnil x F s) (hr : Runs x s) (hF : F (s.issue x.who) = .go u)
    (hP : P (u.setPc x.who (PcOf x s + 4))) : Gives c s P :=
  ⟨_, by rw [hc, garnil_runs x F s hr, hF]; rfl, hP⟩

theorem OwnThread.count {w : Who} {s u : State} (h : OwnThread w s u) (ev amt : ℕ) (f : PmcTag) : OwnThread w s (u.count ev amt f) := by
  obtain ⟨hframe, hothers⟩ := h
  refine ⟨?_, fun a ha => by rw [State.thread_count, hothers a ha]⟩
  have hcount := State.count_frame ev amt f u
  generalize u.count ev amt f = v at hcount ⊢
  rw [hcount, hframe]

theorem State.me_count (ev amt : ℕ) (f : PmcTag) (s : State) (w : Who) : (s.count ev amt f).me w = s.me w := State.thread_count ev amt f s w.agent

theorem unlessFenced_eq {f : State → GRes} (hf : s.fencedAg x.who.agent = false) : unlessFenced x.who f (s.issue x.who) = f (s.issue x.who) := by
  have hsame : (s.issue x.who).fencedAg x.who.agent = false :=
    (OfUnits.issue (f := fun s => s.fencedAg x.who.agent) (fun _ _ _ => rfl) x.who s).trans hf
  rw [unlessFenced, hsame, if_neg (by decide)]

theorem garnilPriv_faults {priv : State → Bool} (hc : exec c s = garnilPriv x priv F s) (hrun : s.runnable x.who = true)
    (hpc : PcOf x s < codeSize x.who.agent) (hp : priv s = true) : Faults c x .privilege .ok s := by
  rw [Faults, hc, garnilPriv, hrun, hp, decide_eq_true hpc, if_pos (by decide)]

end Sys2Proof.Machine
end

section
/-! ## QTAKE, QPUT and QPEEK (R44, R48, R313, Table 2.10) -/

namespace Sys2Proof.Machine
open Sys2Proof

variable {x : Ix} {s : State} {rd ra rb : GReg}

theorem State.qmAccess_sound_iff (s : State) (q : ℕ) : s.qmAccess q = (true, s) ↔ ((s.desc q).hasRing && !(s.desc q).sound) = false := by
  unfold State.qmAccess
  cases h : (s.desc q).hasRing && !(s.desc q).sound <;> simp [h]

/-- A queue that passes its checks passes them once the instruction has issued. -/
theorem State.qmAccess_issue {q : ℕ} (h : s.qmAccess q = (true, s)) (w : Who) : (s.issue w).qmAccess q = (true, s.issue w) := by
  rw [State.qmAccess_sound_iff] at *
  exact (OfUnits.issue (f := fun s => (s.desc q).hasRing && !(s.desc q).sound) (fun _ _ _ => rfl) w s).trans h

theorem State.desc_issue (w : Who) (s : State) (q : ℕ) : (s.issue w).desc q = s.desc q :=
  OfUnits.issue (f := fun s => s.desc q) (fun _ _ _ => rfl) w s

theorem State.takeLook_issue (w : Who) (s : State) (q : ℕ) : (s.issue w).takeLook w q = s.takeLook w q :=
  OfUnits.issue (f := fun s => s.takeLook w q) (fun _ _ _ => rfl) w s

theorem State.putLook_issue (w : Who) (s : State) (q : ℕ) : (s.issue w).putLook w q = s.putLook w q := by
  have hright : (s.issue w).putRight w q = s.putRight w q := OfUnits.issue (f := fun s => s.putRight w q) (fun _ _ _ => rfl) w s
  have hroom : (s.issue w).canPut q = s.canPut q := OfUnits.issue (f := fun s => s.canPut q) (fun _ _ _ => rfl) w s
  have hrpl : ((s.issue w).me w).rpl = (s.me w).rpl := OfThread.issue (f := Thread.rpl) (fun _ _ => rfl) w s
  simp only [State.putLook, hright, hroom, hrpl, State.desc_issue]

theorem State.takeHead_ofUnitsOnly (q : ℕ) : OfUnitsOnly (State.takeHead q) := fun s th c => by
  have hdesc : ({ s with ge := { s.ge with threads := th }, pmc := c } : State).desc q = s.desc q := rfl
  have hnext : ({ s with ge := { s.ge with threads := th }, pmc := c } : State).nextSlot q = s.nextSlot q := rfl
  unfold State.takeHead
  rw [hdesc, hnext]
  dsimp only
  cases (s.desc q).rets with
  | cons r rs => rfl
  | nil => cases s.nextSlot q <;> rfl

theorem State.takeHead_threads (q : ℕ) (s : State) : (s.takeHead q).ge.threads = s.ge.threads := by
  unfold State.takeHead
  dsimp only
  split
  · rfl
  · split <;> rfl

theorem State.me_takeHead (q : ℕ) (s : State) (w : Who) : (s.takeHead q).me w = s.me w := by
  rw [State.me, State.me, State.thread, State.thread, State.takeHead_threads]

theorem State.me_setDesc (s : State) (q : ℕ) (d : Desc) (w : Who) : (s.setDesc q d).me w = s.me w := rfl

/-- What QTAKE does with its item: it goes to scratch, and the take is staged. -/
def Thread.taken (a q gen : ℕ) (r : Ret) (rd : GReg) (t : Thread) : Thread :=
  let t := (t.putScr a (bytesOf 64 r.item)).setG rd 0#64
  { t with stage := { t.stage with takes := t.stage.takes ++ [⟨q, gen, r.ptr, r.item⟩] } }

/-- What QPUT does with its item: it is staged. -/
def Thread.queued (a q gen : ℕ) (rd : GReg) (t : Thread) : Thread :=
  let p := t.scrItem a
  let t := t.setG rd 0#64
  { t with stage := { t.stage with puts := t.stage.puts ++ [⟨q, gen, p⟩] } }

theorem Thread.keepsIssued_taken (a q gen : ℕ) (r : Ret) (rd : GReg) : KeepsIssued (Thread.taken a q gen r rd) := fun t k => by
  unfold Thread.taken Thread.setG
  split <;> rfl

theorem Thread.scrItem_issued (t : Thread) (k a : ℕ) : ({ t with issued := k } : Thread).scrItem a = t.scrItem a := by
  rw [Thread.scrItem, Thread.scrNat_issued, Thread.scrItem]

theorem Thread.keepsIssued_queued (a q gen : ℕ) (rd : GReg) : KeepsIssued (Thread.queued a q gen rd) := fun t k => by
  simp only [Thread.queued, Thread.scrItem_issued]
  unfold Thread.setG
  split <;> rfl

theorem queueNo_eq (v : Word) : queueNo v = (v.extractLsb' 0 16).toNat := rfl

/-- The queue a register names. -/
abbrev QueueOf (x : Ix) (s : State) (rb : GReg) : ℕ := ((Reads x s rb).extractLsb' 0 16).toNat

theorem State.issue_me_stage (w : Who) (s : State) : ((s.issue w).me w).stage = (s.me w).stage :=
  OfThread.issue (f := Thread.stage) (fun _ _ => rfl) w s

theorem State.issue_me_rpl (w : Who) (s : State) : ((s.issue w).me w).rpl = (s.me w).rpl :=
  OfThread.issue (f := Thread.rpl) (fun _ _ => rfl) w s

theorem Thread.setG_rpl (t : Thread) (r : GReg) (v : Word) : (t.setG r v).rpl = t.rpl := by unfold Thread.setG; split <;> rfl

/-! An agent that is not fenced, an item place inside scratch, and a queue that is no ingress queue and passes its checks. -/

section
variable (hr : Runs x s) (hfence : s.fencedAg x.who.agent = false) (hscr : (Reads x s ra).toNat + 64 ≤ 0x4000)
  (hq : 0x1A8 ≤ QueueOf x s rb) (hacc : s.qmAccess (QueueOf x s rb) = (true, s))
include hr hfence hscr hq hacc

theorem qtake_takes {r : Ret} (hlook : s.takeLook x.who (QueueOf x s rb) = (.ok, some r)) (hroom : (s.me x.who).stage.takes.length < 8) :
    Gives (.qtake x rd ra rb) s (ThreadStep x
      (Thread.taken (Reads x s ra).toNat (QueueOf x s rb) (s.desc (QueueOf x s rb)).gen r rd) (PcOf x s + 4) (s.takeHead (QueueOf x s rb))) := by
  have hpriv : namesIngress x.who rb s = false := decide_eq_false (Nat.not_lt.mpr hq)
  have hrun : exec (.qtake x rd ra rb) s = finish x.who (PcOf x s) (s.issue x.who) (.go (((s.issue x.who).takeHead (QueueOf x s rb)).putMe
      x.who (((s.issue x.who).me x.who).taken (Reads x s ra).toNat (QueueOf x s rb) (s.desc (QueueOf x s rb)).gen r rd))) := by
    refine (garnilPriv_garnil hpriv).trans ((garnil_runs x _ s hr).trans ?_)
    rw [unlessFenced_eq hfence]
    simp only [State.issue_reads, scrOk, decide_eq_true hscr, Bool.not_true, Bool.false_eq_true, if_false, queueNo_eq,
      State.qmAccess_issue hacc, State.takeLook_issue, hlook, State.issue_me_stage, if_neg (Nat.not_le.mpr hroom), State.desc_issue]
    rfl
  refine gives_of_go hrun (((State.takeHead_ofUnitsOnly _).ownThread (State.takeHead_threads _ s) x.who).putMe _) ?_
  obtain ⟨k, hk⟩ := State.issue_me x.who s
  rw [State.me_putMe, State.me_takeHead, hk, Thread.keepsIssued_taken]

theorem qtake_answers {st : Status} (hlook : s.takeLook x.who (QueueOf x s rb) = (st, none)) (hst : st ≠ .ok) :
    Sets (.qtake x rd ra rb) x rd (BitVec.ofNat 64 st.code) s := by
  have hpriv : namesIngress x.who rb s = false := decide_eq_false (Nat.not_lt.mpr hq)
  refine sets_of_goG (garnilPriv_garnil hpriv) hr ?_
  rw [unlessFenced_eq hfence]
  simp only [State.issue_reads, scrOk, decide_eq_true hscr, Bool.not_true, Bool.false_eq_true, if_false, queueNo_eq,
    State.qmAccess_issue hacc, State.takeLook_issue, hlook]
  rfl

/-- QPUT of a queue without the right is answered DENIED. -/
theorem qput_denied (hlook : s.putLook x.who (QueueOf x s rb) = .denied) :
    Sets (.qput x rd ra rb) x rd (BitVec.ofNat 64 Status.denied.code) s := by
  have hpriv : namesIngress x.who rb s = false := decide_eq_false (Nat.not_lt.mpr hq)
  refine sets_of_goG (garnilPriv_garnil hpriv) hr ?_
  rw [unlessFenced_eq hfence]
  simp only [State.issue_reads, scrOk, decide_eq_true hscr, Bool.not_true, Bool.false_eq_true, if_false, queueNo_eq,
    State.qmAccess_issue hacc, State.putLook_issue, hlook]
  rfl

/-- QPUT of a queue without a free slot is answered RETRY, which a performance counter counts. -/
theorem qput_retries (hlook : s.putLook x.who (QueueOf x s rb) = .retry) :
    Sets (.qput x rd ra rb) x rd (BitVec.ofNat 64 Status.retry.code) s := by
  have hpriv : namesIngress x.who rb s = false := decide_eq_false (Nat.not_lt.mpr hq)
  have hrun : ∃ f, exec (.qput x rd ra rb) s = finish x.who (PcOf x s) (s.issue x.who)
      (.go (State.count 0x0202 1 f ((s.issue x.who).putMe x.who (((s.issue x.who).me x.who).setG rd Status.retry.word)))) := by
    apply Exists.intro
    refine (garnilPriv_garnil hpriv).trans ((garnil_runs x _ s hr).trans ?_)
    rw [unlessFenced_eq hfence]
    simp only [State.issue_reads, scrOk, decide_eq_true hscr, Bool.not_true, Bool.false_eq_true, if_false, queueNo_eq,
      State.qmAccess_issue hacc, State.putLook_issue, hlook, if_true]
    rfl
  obtain ⟨f, hrun⟩ := hrun
  obtain ⟨k, hk⟩ := State.issue_me x.who s
  refine does_of_go hrun (((s.ownThread_issue x.who).putMe _).count _ _ _) ?_
  rw [State.me_count, State.me_putMe, hk, Thread.setG_issued]
  rfl

theorem qput_full (hlook : s.putLook x.who (QueueOf x s rb) = .ok) (hfull : 16 ≤ (s.me x.who).stage.puts.length) :
    Faults (.qput x rd ra rb) x .illegal .ok s := by
  have hpriv : namesIngress x.who rb s = false := decide_eq_false (Nat.not_lt.mpr hq)
  refine faults_of_fault (garnilPriv_garnil hpriv) hr ?_
  rw [unlessFenced_eq hfence]
  simp only [State.issue_reads, scrOk, decide_eq_true hscr, Bool.not_true, Bool.false_eq_true, if_false, queueNo_eq,
    State.qmAccess_issue hacc, State.putLook_issue, hlook, State.issue_me_stage, if_pos hfull]

/-- QPUT of a task: a slot is reserved, and the item staged. -/
theorem qput_reserves (hrpl : (s.me x.who).rpl = none) (hlook : s.putLook x.who (QueueOf x s rb) = .ok)
    (hroom : (s.me x.who).stage.puts.length < 16) :
    Gives (.qput x rd ra rb) s (ThreadStep x (Thread.queued (Reads x s ra).toNat (QueueOf x s rb) (s.desc (QueueOf x s rb)).gen rd)
      (PcOf x s + 4) (s.setDesc (QueueOf x s rb) { s.desc (QueueOf x s rb) with rsv := (s.desc (QueueOf x s rb)).rsv + 1 })) := by
  have hpriv : namesIngress x.who rb s = false := decide_eq_false (Nat.not_lt.mpr hq)
  have hrun : exec (.qput x rd ra rb) s = finish x.who (PcOf x s) (s.issue x.who) (.go (((s.issue x.who).setDesc (QueueOf x s rb)
      { s.desc (QueueOf x s rb) with rsv := (s.desc (QueueOf x s rb)).rsv + 1 }).putMe x.who
        (((s.issue x.who).me x.who).queued (Reads x s ra).toNat (QueueOf x s rb) (s.desc (QueueOf x s rb)).gen rd))) := by
    refine (garnilPriv_garnil hpriv).trans ((garnil_runs x _ s hr).trans ?_)
    rw [unlessFenced_eq hfence]
    have hnone : (((s.issue x.who).me x.who).setG rd 0#64).rpl.isSome = false := by
      rw [Thread.setG_rpl, State.issue_me_rpl, hrpl, Option.isSome_none]
    simp only [State.issue_reads, scrOk, decide_eq_true hscr, Bool.not_true, Bool.false_eq_true, if_false, queueNo_eq,
      State.qmAccess_issue hacc, State.putLook_issue, hlook, State.issue_me_stage, if_neg (Nat.not_le.mpr hroom), State.desc_issue,
      hnone]
    rfl
  refine gives_of_go (v := s.setDesc _ _) hrun (OwnThread.putMe (OfUnitsOnly.ownThread (f := fun s => s.setDesc _ _) (fun _ _ _ => rfl) rfl x.who) _) ?_
  obtain ⟨k, hk⟩ := State.issue_me x.who s
  rw [State.me_putMe, State.me_setDesc, hk, Thread.keepsIssued_queued]

/-- QPUT of a replay reserves nothing (R313). -/
theorem qput_replays (hrpl : (s.me x.who).rpl ≠ none) (hlook : s.putLook x.who (QueueOf x s rb) = .ok)
    (hroom : (s.me x.who).stage.puts.length < 16) :
    Does (.qput x rd ra rb) x (Thread.queued (Reads x s ra).toNat (QueueOf x s rb) (s.desc (QueueOf x s rb)).gen rd) s := by
  have hpriv : namesIngress x.who rb s = false := decide_eq_false (Nat.not_lt.mpr hq)
  refine does_of_goT (garnilPriv_garnil hpriv) hr ?_ (Thread.keepsIssued_queued _ _ _ _)
  rw [unlessFenced_eq hfence]
  have hsome : (((s.issue x.who).me x.who).setG rd 0#64).rpl.isSome = true := by
    rw [Thread.setG_rpl, State.issue_me_rpl, Option.isSome_iff_ne_none]
    exact hrpl
  simp only [State.issue_reads, scrOk, decide_eq_true hscr, Bool.not_true, Bool.false_eq_true, if_false, queueNo_eq,
    State.qmAccess_issue hacc, State.putLook_issue, hlook, State.issue_me_stage, if_neg (Nat.not_le.mpr hroom), State.desc_issue,
    hsome, if_true]
  rfl

end

theorem Desc.nothing_to_peek {d : Desc} (h : d.hasRing = false ∨ d.filling = true ∨ d.depth = 0) :
    (if d.hasRing && !d.filling then d.depth else 0) = 0 := by
  rcases h with h | h | h <;> simp [h]

theorem State.putLook_cases (s : State) (w : Who) (q : ℕ) : s.putLook w q = .ok ∨ s.putLook w q = .denied ∨ s.putLook w q = .retry := by
  unfold State.putLook
  dsimp only
  split_ifs <;> simp

section
variable (hr : Runs x s) (hfence : s.fencedAg x.who.agent = false) (hscr : (Reads x s ra).toNat + 64 ≤ 0x4000)
include hr hfence hscr

theorem qpeek_item (hring : (s.desc (QueueOf x s rb)).hasRing = true) (hfill : (s.desc (QueueOf x s rb)).filling = false)
    (hdepth : (s.desc (QueueOf x s rb)).depth ≠ 0) :
    Does (.qpeek x rd ra rb) x (fun t => (t.putScr (Reads x s ra).toNat
      (bytesOf 64 (s.slotItem (QueueOf x s rb) (s.desc (QueueOf x s rb)).head))).setG rd
        (BitVec.ofNat 64 (s.desc (QueueOf x s rb)).depth)) s := by
  have hc : exec (.qpeek x rd ra rb) s = execQpeek x rd ra rb s := rfl
  refine does_of_goT hc hr ?_ ((keepsIssued_setG rd _).comp (keepsIssued_putScr _ _))
  rw [unlessFenced_eq hfence]
  have hitem : (s.issue x.who).slotItem (QueueOf x s rb) (s.desc (QueueOf x s rb)).head =
      s.slotItem (QueueOf x s rb) (s.desc (QueueOf x s rb)).head := OfUnits.issue (f := fun s => s.slotItem _ _) (fun _ _ _ => rfl) x.who s
  simp only [State.issue_reads, scrOk, decide_eq_true hscr, Bool.not_true, Bool.false_eq_true, if_false, queueNo_eq, State.desc_issue, hring,
    hfill, Bool.not_false, Bool.and_self, if_true, if_neg hdepth, hitem]
  rfl

theorem qpeek_empty (h : (s.desc (QueueOf x s rb)).hasRing = false ∨ (s.desc (QueueOf x s rb)).filling = true ∨
    (s.desc (QueueOf x s rb)).depth = 0) : Sets (.qpeek x rd ra rb) x rd 0#64 s := by
  have hc : exec (.qpeek x rd ra rb) s = execQpeek x rd ra rb s := rfl
  refine sets_of_goG hc hr ?_
  rw [unlessFenced_eq hfence]
  have hnone := Desc.nothing_to_peek h
  simp only [State.issue_reads, scrOk, decide_eq_true hscr, Bool.not_true, Bool.false_eq_true, if_false, queueNo_eq, State.desc_issue, hnone,
    if_true]

end

theorem queue_ingress {c : Instr} {F : State → GRes} (hc : exec c s = garnilPriv x (namesIngress x.who rb) F s)
    (hrun : s.runnable x.who = true) (hpc : PcOf x s < codeSize x.who.agent) (hq : QueueOf x s rb < 0x1A8) :
    Faults c x .privilege .ok s :=
  garnilPriv_faults hc hrun hpc (decide_eq_true hq)

end Sys2Proof.Machine
end

section
open Sys2Proof Sys2Proof.Machine

/-- Settles O11: each answer of `takeLook` and `putLook` is one end of the instruction. -/
theorem queueInstructions : Obligations.QueueInstructions := by
  unfold Obligations.QueueInstructions
  refine ⟨fun x rd ra rb s hr hfence => ?_, fun x rd ra rb s hrun hpc hq =>
    ⟨queue_ingress (F := unlessFenced x.who _) rfl hrun hpc hq, queue_ingress (F := unlessFenced x.who _) rfl hrun hpc hq⟩⟩
  intro t a q d hscr
  refine ⟨fun hq hacc => ⟨fun r hlook hroom => ?_, fun st hlook hst => ?_, fun hrpl hlook hroom => ?_, fun hrpl hlook hroom => ?_,
    fun hlook hfull => ?_, fun hlook => ?_⟩, qpeek_item hr hfence hscr, qpeek_empty hr hfence hscr⟩
  · exact qtake_takes hr hfence hscr hq hacc hlook hroom
  · exact qtake_answers hr hfence hscr hq hacc hlook hst
  · exact qput_reserves hr hfence hscr hq hacc hrpl hlook hroom
  · exact qput_replays hr hfence hscr hq hacc hrpl hlook hroom
  · exact qput_full hr hfence hscr hq hacc hlook hfull
  · rcases s.putLook_cases x.who q with h | h | h
    · exact absurd h hlook
    · rw [h]; exact qput_denied hr hfence hscr hq hacc h
    · rw [h]; exact qput_retries hr hfence hscr hq hacc h
end

section
/-! ## Waits (R46) -/

namespace Sys2Proof.Machine
open Sys2Proof

variable {x : Ix} {s : State} {c : Instr} {rd : GReg}

/-- The count at which a wait of `n` ns from now ends. -/
theorem State.deadline_issue (w : Who) (s : State) (n : ℕ) : (s.issue w).deadline n = s.tb.elapsed + (n + 7) / 8 :=
  OfUnits.issue (f := fun s => s.deadline n) (fun _ _ _ => rfl) w s

theorem State.queueHas_issue (w : Who) (s : State) (q : ℕ) : (s.issue w).queueHas q = s.queueHas q :=
  OfUnits.issue (f := fun s => s.queueHas q) (fun _ _ _ => rfl) w s

theorem State.lockFree_issue (w : Who) (s : State) (l : ℕ) : (s.issue w).lockFree l = s.lockFree l :=
  OfUnits.issue (f := fun s => s.lockFree l) (fun _ _ _ => rfl) w s

/-- The instruction is a wait of `ns` ns for `now`. -/
def WaitsFor (c : Instr) (x : Ix) (rd : GReg) (ns : Word) (now : Bool) (st : ℕ → TState) (s : State) : Prop :=
  ∃ F, exec c s = garnil x F s ∧ F (s.issue x.who) = waitFor x rd ns now st (s.issue x.who)

theorem waitt_waitsFor (x : Ix) (rd ra : GReg) (s : State) : WaitsFor (.waitt x rd ra) x rd (Reads x s ra) false (.waitTime rd) s :=
  ⟨fun s => waitFor x rd ((s.me x.who).getG ra) false (.waitTime rd) s, rfl, by simp only [State.issue_reads]⟩

theorem waitq_waitsFor (x : Ix) (rd ra rb : GReg) (s : State) :
    WaitsFor (.waitq x rd ra rb) x rd (Reads x s rb) (s.queueHas (QueueOf x s ra)) (.waitQueue rd (QueueOf x s ra)) s :=
  ⟨fun s => waitFor x rd ((s.me x.who).getG rb) (s.queueHas (queueNo ((s.me x.who).getG ra))) (.waitQueue rd (queueNo ((s.me x.who).getG ra))) s,
    rfl, by simp only [State.issue_reads, State.queueHas_issue, queueNo_eq]⟩

theorem waitl_waitsFor (x : Ix) (rd ra rb : GReg) (s : State) :
    WaitsFor (.waitl x rd ra rb) x rd (Reads x s rb) (s.lockFree ((Reads x s ra).extractLsb' 0 12).toNat)
      (.waitLock rd ((Reads x s ra).extractLsb' 0 12).toNat) s :=
  ⟨fun s => waitFor x rd ((s.me x.who).getG rb) (s.lockFree (fld ((s.me x.who).getG ra) 0 12).toNat)
      (.waitLock rd (fld ((s.me x.who).getG ra) 0 12).toNat) s,
    rfl, by simp only [State.issue_reads, State.lockFree_issue, fld_eq_extractLsb']⟩

theorem wait_tooLong {ns : Word} {now : Bool} {st : ℕ → TState} (hc : WaitsFor c x rd ns now st s) (hr : Runs x s) (h : 1000000 < ns.toNat) : Sets c x rd 0x13#64 s := by
  obtain ⟨F, hc, hF⟩ := hc
  exact sets_of_goG hc hr (hF.trans (if_pos h))

theorem wait_met {ns : Word} {st : ℕ → TState} (hc : WaitsFor c x rd ns true st s) (hr : Runs x s) (h : ns.toNat ≤ 1000000) : Sets c x rd 0#64 s := by
  obtain ⟨F, hc, hF⟩ := hc
  exact sets_of_goG hc hr (by rw [hF, waitFor, if_neg (Nat.not_lt.mpr h), if_pos rfl])

theorem wait_begins {ns : Word} {st : ℕ → TState} (hc : WaitsFor c x rd ns false st s) (hr : Runs x s) (h : ns.toNat ≤ 1000000) :
    Does c x (fun t => { t with st := st (s.tb.elapsed + (ns.toNat + 7) / 8) }) s := by
  obtain ⟨F, hc, hF⟩ := hc
  refine does_of_goT hc hr ?_ fun _ _ => rfl
  rw [hF, waitFor, if_neg (Nat.not_lt.mpr h), if_neg (by decide), State.deadline_issue]
  rfl

/-- WAITQ and WAITL: at once where the condition holds, else the thread waits. -/
theorem waitOn_outcome {ns : Word} {now : Bool} {st : ℕ → TState} (hc : WaitsFor c x rd ns now st s) (hr : Runs x s) (h : ns.toNat ≤ 1000000) :
    if now then Sets c x rd 0#64 s else Does c x (fun t => { t with st := st (s.tb.elapsed + (ns.toNat + 7) / 8) }) s := by
  cases now with
  | true => exact wait_met hc hr h
  | false => exact wait_begins hc hr h

/-- A wait that is done wakes its thread with the status in its register. -/
theorem waitEnd_wakes {w : Who} {st : Status} (hmain : s.pwr.mainOn = true) (h : s.waitDone (s.me w) = some (some (rd, st))) :
    exec (.waitEnd w) s = .next (s.putMe w ({ s.me w with st := .running }.setG rd (BitVec.ofNat 64 st.code))) := by
  have hc : exec (.waitEnd w) s = execWaitEnd w s := rfl
  rw [hc, execWaitEnd]
  simp only [hmain, Bool.not_true, Bool.false_eq_true, if_false, h]
  rfl

end Sys2Proof.Machine
end

section
/-! ## The ends of a task (R47, R49, R78, R313) -/

namespace Sys2Proof.Machine
open Sys2Proof

/-- The thread is free and has nothing staged. -/
abbrev Ended (u : State) (a : ℕ) : Prop := (u.thread a).st = .free ∧ (u.thread a).stage = {}

theorem State.ended_freeThread (a : ℕ) (s : State) : Ended (s.freeThread a) a := by
  rw [State.freeThread]
  simp only [Ended, State.thread_setThread_same, and_self]

theorem State.thread_event (c : ℕ) (v : W32) (s : State) (a : ℕ) : (s.event c v).thread a = s.thread a := by
  rw [State.event_frame]
  rfl

theorem State.thread_selfFault (s : State) (a : ℕ) : s.selfFault.thread a = s.thread a := by
  unfold State.selfFault
  split
  · rfl
  · exact State.thread_event _ _ _ a

theorem State.thread_replayAnswer (ps : BitVec 48) (first again : Word) (st : Status) (s : State) (a : ℕ) :
    (s.replayAnswer ps first again st).thread a = s.thread a := by
  unfold State.replayAnswer
  dsimp only
  split
  · rw [State.thread_selfFault]; rfl
  · rfl

theorem State.ended_replayCut (a : ℕ) (ps : BitVec 48) (r : ReplayRec) (s : State) : Ended (s.replayCut a true ps r) a := by
  rw [State.replayCut, if_pos rfl, State.replayEnd, Ended, State.thread_replayAnswer]
  exact State.ended_freeThread a _

theorem State.ended_endTask (a : ℕ) (keep fault : Bool) (s : State) : Ended (s.endTask a true keep fault) a := by
  unfold State.endTask
  dsimp only
  split
  · exact State.ended_replayCut a _ _ s
  · exact State.ended_freeThread a _

theorem State.ended_yieldTask (a : ℕ) (s : State) : Ended (s.yieldTask a) a := by
  unfold State.yieldTask
  split
  · exact State.ended_replayCut a _ _ s
  · exact State.ended_freeThread a _

theorem State.stage_dropStage (a : ℕ) (s : State) : ((s.dropStage a).thread a).stage = {} := by
  simp only [State.dropStage, State.thread_setThread_same]

variable {s : State} {p : Fin 8} {n : Bool} {ra : GReg}

theorem tabort_engine {t : Fin 128} (hr : Runs ⟨.thread t, p, n⟩ s) :
    Gives (.tabort ⟨.thread t, p, n⟩ ra) s
      (fun u => u = (s.issue (.thread t)).endTask t.val true false false ∧ Ended u t.val) := by
  have hc : exec (.tabort ⟨.thread t, p, n⟩ ra) s = execTabort ⟨.thread t, p, n⟩ ra s := rfl
  exact gives_of_stop hc hr rfl ⟨rfl, State.ended_endTask _ _ _ _⟩

theorem yield_engine {t : Fin 128} (hr : Runs ⟨.thread t, p, n⟩ s) :
    Gives (.yield ⟨.thread t, p, n⟩) s (fun u => u = (s.issue (.thread t)).yieldTask t.val ∧ Ended u t.val) := by
  have hc : exec (.yield ⟨.thread t, p, n⟩) s = execYield ⟨.thread t, p, n⟩ s := rfl
  exact gives_of_stop hc hr rfl ⟨rfl, State.ended_yieldTask _ _⟩

theorem State.me_setPc (s : State) (w : Who) (pc : ℕ) : (s.setPc w pc).me w = { s.me w with pc := BitVec.ofNat 24 pc } := by
  simp only [State.setPc, State.me, State.thread_setThread_same]

theorem tabort_sup (hr : Runs ⟨.sup, p, n⟩ s) : Gives (.tabort ⟨.sup, p, n⟩ ra) s (fun u =>
    (u.me .sup).stage = {} ∧ (u.me .sup).pc = BitVec.ofNat 24 (PcOf ⟨.sup, p, n⟩ s + 4)) := by
  have hc : exec (.tabort ⟨.sup, p, n⟩ ra) s = execTabort ⟨.sup, p, n⟩ ra s := rfl
  refine gives_of_next hc hr rfl ?_
  have hstage : ((((s.issue .sup).dropLocks agSup).dropStage agSup).me .sup).stage = {} := State.stage_dropStage agSup _
  rw [State.me_setPc]
  exact ⟨hstage, rfl⟩

theorem yield_sup (hr : Runs ⟨.sup, p, n⟩ s) : Faults (.yield ⟨.sup, p, n⟩) ⟨.sup, p, n⟩ .illegal .ok s :=
  faults_of_fault (F := fun _ => .fault .illegal .ok) rfl hr rfl

end Sys2Proof.Machine
end

section
open Sys2Proof Sys2Proof.Machine

/-- Settles O12: a wait is `waitFor` its condition and ends as `waitDone` says; a task's end frees its thread. -/
theorem waitsAndTaskEndings : Obligations.WaitsAndTaskEndings := by
  unfold Obligations.WaitsAndTaskEndings
  refine ⟨⟨fun x rd ra rb s hr => ?_, fun w rd q l d s hmain => ?_⟩, ?_⟩
  · intro a b until_
    exact ⟨fun h => wait_tooLong (waitt_waitsFor x rd ra s) hr h, fun h => wait_begins (waitt_waitsFor x rd ra s) hr h,
      fun h => ⟨wait_tooLong (waitq_waitsFor x rd ra rb s) hr h, wait_tooLong (waitl_waitsFor x rd ra rb s) hr h⟩,
      fun h => ⟨waitOn_outcome (waitq_waitsFor x rd ra rb s) hr h, waitOn_outcome (waitl_waitsFor x rd ra rb s) hr h⟩⟩
  · intro wakes
    refine ⟨fun hst hd => waitEnd_wakes hmain ?_, fun hst hn => waitEnd_wakes hmain ?_, fun hst hn hd => waitEnd_wakes hmain ?_,
      fun hst hn => waitEnd_wakes hmain ?_, fun hst hn hd => waitEnd_wakes hmain ?_⟩
    · simp [State.waitDone, hst, hd]
    · simp [State.waitDone, hst, hn]
    · simp [State.waitDone, hst, hn, hd]
    · simp [State.waitDone, hst, hn]
    · simp [State.waitDone, hst, hn, hd]
  · rintro ⟨w, p, n⟩ ra s hr
    refine ⟨?_, ?_⟩
    · rintro t rfl
      exact ⟨tabort_engine hr, yield_engine hr⟩
    · rintro rfl
      exact ⟨tabort_sup hr, yield_sup hr⟩
end

section
/-! ## Time stamps and the ordering key (R50) -/

namespace Sys2Proof.Machine
open Sys2Proof

theorem Thread.scrNat_add (t : Thread) (a m n : ℕ) : t.scrNat a (m + n) = t.scrNat a m + 256 ^ m * t.scrNat (a + m) n := by
  induction m generalizing a with
  | zero => simp [Thread.scrNat, Thread.scr, natOfBytes]
  | succ m ih =>
    have hcons (k : ℕ) : t.scrNat a (k + 1) = (Tab.get 0#8 t.scratch a).toNat + 256 * t.scrNat (a + 1) k := rfl
    rw [Nat.succ_add, hcons, hcons, ih, show a + 1 + m = a + (m + 1) by omega, pow_succ]
    ring

theorem Thread.scrNat_lt (t : Thread) (a n : ℕ) : t.scrNat a n < 256 ^ n := by
  induction n generalizing a with
  | zero => simp [Thread.scrNat, Thread.scr, natOfBytes]
  | succ n ih =>
    have hcons : t.scrNat a (n + 1) = (Tab.get 0#8 t.scratch a).toNat + 256 * t.scrNat (a + 1) n := rfl
    have hbyte := (Tab.get 0#8 t.scratch a).isLt
    have hrest := ih (a + 1)
    rw [hcons, pow_succ]
    omega

/-- Bytes `k` to `k + n - 1` of an item in scratch. -/
theorem Thread.fld_scrItem (t : Thread) (p k n : ℕ) (h : k + n ≤ 64) : (fld (t.scrItem p) (8 * k) (8 * n)).toNat = t.scrNat (p + k) n := by
  have hsplit : t.scrNat p 64 = t.scrNat p k + 256 ^ k * (t.scrNat (p + k) n + 256 ^ n * t.scrNat (p + k + n) (64 - (k + n))) := by
    rw [← t.scrNat_add (p + k), ← t.scrNat_add p]
    congr 1
    omega
  have hbits (m : ℕ) : 2 ^ (8 * m) = 256 ^ m := pow_mul 2 8 m
  have hfit : (t.scrItem p).toNat = t.scrNat p 64 := Nat.mod_eq_of_lt ((t.scrNat_lt p 64).trans_eq (hbits 64).symm)
  rw [fld, BitVec.toNat_ofNat, hfit, Nat.shiftRight_eq_div_pow, hsplit, hbits, hbits, Nat.add_mul_div_left _ _ (by positivity),
    Nat.div_eq_of_lt (t.scrNat_lt p k), Nat.zero_add, Nat.add_mul_mod_self_left, Nat.mod_eq_of_lt (t.scrNat_lt _ n)]

theorem toNat_fld_fld {w : ℕ} (v : BitVec w) (lo m n : ℕ) (h : lo + n ≤ m) : (fld (fld v 0 m) lo n).toNat = (fld v lo n).toNat := by
  simp only [fld_eq_extractLsb']
  congr 1
  ext i hi
  simp only [BitVec.getElem_extractLsb', BitVec.getLsbD_extractLsb', Nat.zero_add, show lo + i < m by omega, decide_true, Bool.true_and]

/-- The four parts of an item's ordering key, most significant first: seconds, fraction, source, sequence. -/
def Thread.keyAt (t : Thread) (p : ℕ) : List ℕ := [t.scrNat p 8, t.scrNat (p + 8) 4, t.scrNat (p + 16) 2, t.scrNat (p + 20) 4]

theorem Thread.itemKey_scrItem (t : Thread) (p : ℕ) : itemKey (t.scrItem p) =
    ((t.scrNat p 8 * 2 ^ 32 + t.scrNat (p + 8) 4) * 2 ^ 16 + t.scrNat (p + 16) 2) * 2 ^ 32 + t.scrNat (p + 20) 4 := by
  have hsec := t.fld_scrItem p 0 8 (by decide)
  have hfrac := t.fld_scrItem p 8 4 (by decide)
  have hsrc := t.fld_scrItem p 16 2 (by decide)
  have hseq := t.fld_scrItem p 20 4 (by decide)
  simp only [Nat.reduceMul, Nat.add_zero] at hsec hfrac hsrc hseq
  rw [itemKey, stampT32, itemStamp, itemSrc, itemSeq, toNat_fld_fld _ _ _ _ (by decide), toNat_fld_fld _ _ _ _ (by decide), hsec, hfrac, hsrc, hseq]

/-- The keys of two items lie as their parts do: the most significant part that differs decides. -/
theorem Thread.itemKey_lt_iff (t : Thread) (a b : ℕ) : itemKey (t.scrItem a) < itemKey (t.scrItem b) ↔ t.keyAt a < t.keyAt b := by
  have hbounds (p : ℕ) := And.intro (t.scrNat_lt (p + 8) 4) (And.intro (t.scrNat_lt (p + 16) 2) (t.scrNat_lt (p + 20) 4))
  obtain ⟨hfa, hsa, hqa⟩ := hbounds a
  obtain ⟨hfb, hsb, hqb⟩ := hbounds b
  simp only [t.itemKey_scrItem, Thread.keyAt, List.cons_lt_cons_iff, List.not_lt_nil, and_false, or_false]
  omega

theorem Thread.itemKey_eq_iff (t : Thread) (a b : ℕ) : itemKey (t.scrItem a) = itemKey (t.scrItem b) ↔ t.keyAt a = t.keyAt b := by
  have hbounds (p : ℕ) := And.intro (t.scrNat_lt (p + 8) 4) (And.intro (t.scrNat_lt (p + 16) 2) (t.scrNat_lt (p + 20) 4))
  obtain ⟨hfa, hsa, hqa⟩ := hbounds a
  obtain ⟨hfb, hsb, hqb⟩ := hbounds b
  simp only [t.itemKey_scrItem, Thread.keyAt, List.cons.injEq, and_true]
  omega

theorem Thread.itemKey_issued (t : Thread) (k p : ℕ) : itemKey (({ t with issued := k } : Thread).scrItem p) = itemKey (t.scrItem p) := by
  rw [t.scrItem_issued]

variable {x : Ix} {s : State} {rd ra rb : GReg}

/-- The domain a TSTAMP reads: the one it names, and none while the reference clock is lost (R277). -/
def State.stampDomain (s : State) (d : ℕ) : Domain := if s.tb.clkLost then {} else s.domOf d

theorem State.stampDomain_issue (w : Who) (d : ℕ) (s : State) : (s.issue w).stampDomain d = s.stampDomain d :=
  OfUnits.issue (f := fun s => s.stampDomain d) (fun _ _ _ => rfl) w s

theorem tstamp_outcome {dom : Fin 32} (hr : Runs x s) :
    let d := s.stampDomain dom.val
    if rd.val % 2 = 0 ∧ dom.val ≤ 2 then
      Does (.tstamp x rd dom) x (fun t => (t.setG rd d.sec).setG (rd + 1) ((d.frac.extractLsb' 32 32).setWidth 64)) s
    else Faults (.tstamp x rd dom) x .illegal .ok s := by
  intro d
  have hc : exec (.tstamp x rd dom) s = execTstamp x rd dom s := rfl
  unfold execTstamp at hc
  split
  · next hok =>
    refine does_of_goT hc hr ?_ (KeepsIssued.comp (keepsIssued_setG _ _) (keepsIssued_setG _ _))
    have hdom : (s.issue x.who).stampDomain dom.val = d := State.stampDomain_issue _ _ _
    unfold State.stampDomain at hdom
    simp only [if_neg (show ¬ (rd.val % 2 = 1 ∨ 2 < dom.val) by omega), hdom]
    rfl
  · next hbad =>
    refine faults_of_fault hc hr ?_
    simp only [if_pos (show rd.val % 2 = 1 ∨ 2 < dom.val by omega)]

/-- A value that two places of scratch decide. -/
theorem scrOk_pair_outcome {c : Instr} {F : State → GRes} {a b n : ℕ} {v : Word} (hc : exec c s = garnil x F s) (hr : Runs x s)
    (hF : F (s.issue x.who) = if scrOk a n && scrOk b n then goG x.who rd v (s.issue x.who) else .fault .illegal .ok) :
    if a + n ≤ 0x4000 ∧ b + n ≤ 0x4000 then Sets c x rd v s else Faults c x .illegal .ok s := by
  split
  · next h => exact sets_of_goG hc hr (by rw [hF, if_pos (by simpa [scrOk] using h)])
  · next h => exact faults_of_fault hc hr (by rw [hF, if_neg (by simpa [scrOk] using h)])

theorem tscmp_outcome (hr : Runs x s) :
    let t := s.me x.who
    let a := (Reads x s ra).toNat
    let b := (Reads x s rb).toNat
    if a + 64 ≤ 0x4000 ∧ b + 64 ≤ 0x4000 then
      Sets (.tscmp x rd ra rb) x rd (if t.keyAt a < t.keyAt b then -1#64 else if t.keyAt a = t.keyAt b then 0#64 else 1#64) s
    else Faults (.tscmp x rd ra rb) x .illegal .ok s := by
  intro t a b
  have hkey (p : ℕ) : itemKey (((s.issue x.who).me x.who).scrItem p) = itemKey (t.scrItem p) :=
    OfThread.issue (f := fun t => itemKey (t.scrItem p)) (fun t k => t.itemKey_issued k p) _ _
  have hc : exec (.tscmp x rd ra rb) s = execTscmp x rd ra rb s := rfl
  refine scrOk_pair_outcome hc hr ?_
  simp only [State.issue_reads, hkey, t.itemKey_lt_iff, t.itemKey_eq_iff]
  rfl

theorem tssub_outcome (hr : Runs x s) :
    let t := s.me x.who
    let a := (Reads x s ra).toNat
    let b := (Reads x s rb).toNat
    if a + 12 ≤ 0x4000 ∧ b + 12 ≤ 0x4000 then
      Sets (.tssub x rd ra rb) x rd
        (BitVec.ofInt 64 (stampDiffNs (BitVec.ofNat 96 (t.scrNat a 12)) (BitVec.ofNat 96 (t.scrNat b 12)))) s
    else Faults (.tssub x rd ra rb) x .illegal .ok s := by
  intro t a b
  have hc : exec (.tssub x rd ra rb) s = execTssub x rd ra rb s := rfl
  refine scrOk_pair_outcome hc hr ?_
  simp only [State.issue_reads, State.issue_me_scrNat]
  rfl

/-! ## Locks (R52, R119) -/

/-- The lock a register names. -/
abbrev LockOf (x : Ix) (s : State) (ra : GReg) : ℕ := ((Reads x s ra).extractLsb' 0 12).toNat

theorem lockNo_eq (v : Word) : lockNo v = (v.extractLsb' 0 12).toNat := rfl

theorem State.holds_lock_issue (w : Who) (a l : ℕ) (s : State) : (s.issue w).holds a ((s.issue w).lock l) = s.holds a (s.lock l) :=
  OfUnits.issue (f := fun s => s.holds a (s.lock l)) (fun _ _ _ => rfl) w s

theorem State.lkTry_issue (w : Who) (a l : ℕ) (s : State) : (s.issue w).lkTry a ((s.issue w).lock l) = s.lkTry a (s.lock l) :=
  OfUnits.issue (f := fun s => s.lkTry a (s.lock l)) (fun _ _ _ => rfl) w s

theorem State.locksOf_issue (w : Who) (a : ℕ) (s : State) : (s.issue w).locksOf a = s.locksOf a :=
  OfUnits.issue (f := fun s => s.locksOf a) (fun _ _ _ => rfl) w s

theorem State.me_setLock (s : State) (l : ℕ) (k : Lock) (w : Who) : (s.setLock l k).me w = s.me w := rfl

/-- The thread that got lock `l` with the status `st`. -/
def Thread.locked (l : ℕ) (rd : GReg) (st : Word) (t : Thread) : Thread :=
  { t.setG rd st with stage := { t.stage with acqs := t.stage.acqs ++ [l] } }

theorem Thread.keepsIssued_locked (l : ℕ) (rd : GReg) (st : Word) : KeepsIssued (Thread.locked l rd st) := fun t k => by
  simp only [Thread.locked, Thread.setG_issued]

theorem State.holds_of_owner {g : ℕ} {k : Lock} (h : k.owner = some (g, s.epochOf g)) : s.holds g k = true := decide_eq_true h

theorem State.holds_of_other {g : ℕ} {k : Lock} (h : k.owner ≠ some (g, s.epochOf g)) : s.holds g k = false := decide_eq_false h

/-- A lock granted to agent `g` with its mark `m`: a new hold begins. -/
def State.granted (s : State) (g : ℕ) (k : Lock) (m : Bool) : Lock :=
  { k with owner := some (g, s.epochOf g), mark := m, since := s.tb.elapsed, warnMs := s.regF Reg.ordLkwarn 0 14, warned := false }

theorem State.lkTry_free {g : ℕ} {k : Lock} (h : k.owner = none) :
    s.lkTry g k = (if k.mark then .orphaned else .ok, s.granted g k k.mark) := by
  simp only [State.lkTry, h, State.granted]

theorem State.lkTry_lapsed {g a : ℕ} {e : W32} {k : Lock} (h : k.owner = some (a, e)) (he : e ≠ s.epochOf a) :
    s.lkTry g k = (.orphaned, if a = g then { k with owner := some (g, s.epochOf g), mark := true } else s.granted g k true) := by
  simp only [State.lkTry, h, if_pos he, State.granted]

theorem State.lkTry_taken {g a : ℕ} {k : Lock} (h : k.owner = some (a, s.epochOf a)) : s.lkTry g k = (.retry, k) := by
  simp only [State.lkTry, h, ne_eq, not_true_eq_false, if_false]

theorem State.holds_of_lapsed {g a : ℕ} {e : W32} {k : Lock} (h : k.owner = some (a, e)) (he : e ≠ s.epochOf a) : s.holds g k = false := by
  refine State.holds_of_other fun hg => he ?_
  obtain ⟨rfl, rfl⟩ : a = g ∧ e = s.epochOf g := by simpa [h] using hg
  rfl

section
variable (hr : Runs x s) (hfence : s.fencedAg x.who.agent = false)
include hr hfence

/-- LKACQ of a lock the agent holds. -/
theorem lkacq_held (h : s.holds x.who.agent (s.lock (LockOf x s ra)) = true) : Sets (.lkacq x rd ra) x rd 0#64 s := by
  have hc : exec (.lkacq x rd ra) s = execLkacq x rd ra s := rfl
  unfold execLkacq at hc
  refine sets_of_goG hc hr ?_
  rw [unlessFenced_eq hfence]
  simp only [State.issue_reads, lockNo_eq, State.holds_lock_issue, h, if_true]

/-- LKACQ of a lock the agent may have. -/
theorem lkacq_grants {st : Status} {k : Lock} (h : s.holds x.who.agent (s.lock (LockOf x s ra)) = false)
    (htry : s.lkTry x.who.agent (s.lock (LockOf x s ra)) = (st, k)) (hst : st ≠ .retry) (hroom : (s.locksOf x.who.agent).length < 4) :
    Gives (.lkacq x rd ra) s (ThreadStep x (Thread.locked (LockOf x s ra) rd st.word) (PcOf x s + 4) (s.setLock (LockOf x s ra) k)) := by
  have hrun : exec (.lkacq x rd ra) s = finish x.who (PcOf x s) (s.issue x.who) (.go (((s.issue x.who).setLock (LockOf x s ra) k).putMe
      x.who (((s.issue x.who).me x.who).locked (LockOf x s ra) rd st.word))) := by
    refine (garnil_runs x _ s hr).trans ?_
    rw [unlessFenced_eq hfence]
    simp only [State.issue_reads, lockNo_eq, State.holds_lock_issue, h, Bool.false_eq_true, if_false, State.lkTry_issue, htry,
      if_neg hst, State.locksOf_issue, if_neg (Nat.not_le.mpr hroom)]
    rfl
  refine gives_of_go (v := s.setLock _ _) hrun (OwnThread.putMe (OfUnitsOnly.ownThread (f := fun s => s.setLock _ _) (fun _ _ _ => rfl) rfl x.who) _) ?_
  obtain ⟨i, hi⟩ := State.issue_me x.who s
  rw [State.me_putMe, State.me_setLock, hi, Thread.keepsIssued_locked]

/-- LKACQ of a fifth lock. -/
theorem lkacq_full {st : Status} {k : Lock} (h : s.holds x.who.agent (s.lock (LockOf x s ra)) = false)
    (htry : s.lkTry x.who.agent (s.lock (LockOf x s ra)) = (st, k)) (hst : st ≠ .retry) (hfull : 4 ≤ (s.locksOf x.who.agent).length) :
    Faults (.lkacq x rd ra) x .illegal .ok s := by
  have hc : exec (.lkacq x rd ra) s = execLkacq x rd ra s := rfl
  unfold execLkacq at hc
  refine faults_of_fault hc hr ?_
  rw [unlessFenced_eq hfence]
  simp only [State.issue_reads, lockNo_eq, State.holds_lock_issue, h, Bool.false_eq_true, if_false, State.lkTry_issue, htry,
    if_neg hst, State.locksOf_issue, if_pos hfull]

/-- LKACQ of a lock another live agent holds is answered RETRY, which a performance counter counts. -/
theorem lkacq_retries {k : Lock} (h : s.holds x.who.agent (s.lock (LockOf x s ra)) = false)
    (htry : s.lkTry x.who.agent (s.lock (LockOf x s ra)) = (.retry, k)) : Sets (.lkacq x rd ra) x rd Status.retry.word s := by
  have hrun : exec (.lkacq x rd ra) s = finish x.who (PcOf x s) (s.issue x.who)
      (.go (State.count 0x0303 1 (whoTag x.who) ((s.issue x.who).putMe x.who (((s.issue x.who).me x.who).setG rd Status.retry.word)))) := by
    refine (garnil_runs x _ s hr).trans ?_
    rw [unlessFenced_eq hfence]
    simp only [State.issue_reads, lockNo_eq, State.holds_lock_issue, h, Bool.false_eq_true, if_false, State.lkTry_issue, htry, if_true]
  obtain ⟨i, hi⟩ := State.issue_me x.who s
  refine does_of_go hrun (((s.ownThread_issue x.who).putMe _).count _ _ _) ?_
  rw [State.me_count, State.me_putMe, hi, Thread.setG_issued]

theorem lkrel_held (h : s.holds x.who.agent (s.lock (LockOf x s ra)) = true) :
    Does (.lkrel x ra) x (fun t => { t with stage := { t.stage with rels := t.stage.rels ++ [LockOf x s ra] } }) s := by
  have hc : exec (.lkrel x ra) s = execLkrel x ra s := rfl
  unfold execLkrel at hc
  refine does_of_goT hc hr ?_ (fun _ _ => rfl)
  rw [unlessFenced_eq hfence]
  simp only [State.issue_reads, lockNo_eq, State.holds_lock_issue, h, if_true]
  rfl

theorem lkrel_other (h : s.holds x.who.agent (s.lock (LockOf x s ra)) = false) : Does (.lkrel x ra) x (fun t => t) s := by
  refine does_nothing_of_go ((garnil_runs x _ s hr).trans ?_)
  rw [unlessFenced_eq hfence]
  simp only [State.issue_reads, lockNo_eq, State.holds_lock_issue, h, Bool.false_eq_true, if_false]

end

end Sys2Proof.Machine
end

section
open Sys2Proof Sys2Proof.Machine

/-- Settles O14: a stamp, a comparison of keys and a difference of stamps write their register; LKACQ goes by the lock's owner and that
owner's epoch. -/
theorem timeAndLockInstructions : Obligations.TimeAndLockInstructions := by
  unfold Obligations.TimeAndLockInstructions
  refine ⟨?_, ?_⟩
  · intro x rd ra rb dom s hr t a b d key
    refine ⟨?_, tscmp_outcome hr, tssub_outcome hr⟩
    have h := tstamp_outcome (rd := rd) (dom := dom) hr
    have hd : s.stampDomain dom.val = if s.tb.clkLost then {} else d := rfl
    rw [hd] at h
    cases hlost : s.tb.clkLost <;> simpa [hlost] using h
  · intro x rd ra s hr hfence l k g granted grants
    refine ⟨fun hown => ⟨lkacq_held hr hfence (State.holds_of_owner hown), lkrel_held hr hfence (State.holds_of_owner hown)⟩,
      fun hown => lkrel_other hr hfence (State.holds_of_other hown), fun hroom => ⟨fun hfree => ?_, fun a e hown hlapsed => ?_⟩,
      fun hfull hgone => ?_, fun a hag hown => ?_⟩
    · have h := lkacq_grants (rd := rd) hr hfence (State.holds_of_other (by simp [hfree, k] : k.owner ≠ _)) (State.lkTry_free hfree)
        (by split <;> decide) hroom
      have hword : (if k.mark then Status.orphaned else .ok).word = if k.mark then 3#64 else 0#64 := by cases k.mark <;> rfl
      rw [hword] at h
      exact h
    · exact lkacq_grants hr hfence (State.holds_of_lapsed hown hlapsed) (State.lkTry_lapsed hown hlapsed) (by decide) hroom
    · rcases hgone with hfree | ⟨a, e, hown, hlapsed⟩
      · exact lkacq_full hr hfence (State.holds_of_other (by simp [hfree, k] : k.owner ≠ _)) (State.lkTry_free hfree) (by split <;> decide) hfull
      · exact lkacq_full hr hfence (State.holds_of_lapsed hown hlapsed) (State.lkTry_lapsed hown hlapsed) (by decide) hfull
    · have hother : k.owner ≠ some (g, s.epochOf g) := by simp [hown, hag]
      exact lkacq_retries hr hfence (State.holds_of_other hother) (State.lkTry_taken hown)
end

section
/-! ## Request IDs (R51, R103 to R107) -/

namespace Sys2Proof.Machine
open Sys2Proof

/-- A reading of the units is the same in a state that differs in one thread. -/
theorem OfUnits.ownThread {α : Type} {f : State → α} (hf : OfUnits f) {w : Who} {s u : State} (h : OwnThread w s u) : f u = f s := by
  rw [h.1]
  exact hf s _ _

/-! ### Marking an ID -/

theorem State.stPut_frame (s : State) (a : ℕ) (e : StreamEnt) : s.stPut a e = { s with mem := (s.stPut a e).mem } := rfl

/-- The state in which a new stream has its tentative entry. -/
def State.idRoom (id : Word) (s : State) : State :=
  match s.stFind (reqOrigin id) (reqStream id) with
  | some _ => s
  | none => match s.stRoom (reqOrigin id) (reqStream id) with
    | some a => s.stPut a (tentEntry (reqOrigin id) (reqStream id))
    | none => s

theorem State.idRoom_frame (id : Word) (s : State) : s.idRoom id = { s with mem := (s.idRoom id).mem } := by
  unfold State.idRoom
  split
  · rfl
  · split
    · exact State.stPut_frame s _ _
    · rfl

/-- The pending IDs with this one. -/
def State.idPend (g : ℕ) (id : Word) (s : State) : List Pend :=
  if s.ord.pend.any (fun p => decide (p.id = id ∧ p.agent = g)) then s.ord.pend else s.ord.pend ++ [⟨id, g, s.epochOf g⟩]

theorem State.idMark_eq (g : ℕ) (id : Word) (s : State) :
    s.idMark g id = { s.idRoom id with ord := { s.ord with pend := s.idPend g id } } := by
  have hroom := State.idRoom_frame id s
  have hmark : s.idMark g id = if (s.idRoom id).ord.pend.any (fun p => decide (p.id = id ∧ p.agent = g)) then s.idRoom id
      else { s.idRoom id with ord := { (s.idRoom id).ord with pend := (s.idRoom id).ord.pend ++ [⟨id, g, (s.idRoom id).epochOf g⟩] } } := rfl
  rw [hmark, hroom, State.idPend]
  split <;> rfl

theorem State.idMark_pends (g : ℕ) (id : Word) (s : State) : ∃ k ∈ (s.idMark g id).ord.pend, k.id = id ∧ k.agent = g := by
  rw [State.idMark_eq]
  dsimp only
  unfold State.idPend
  split
  · next h => simpa using h
  · exact ⟨⟨id, g, s.epochOf g⟩, by simp, rfl, rfl⟩

theorem State.me_idMark (g : ℕ) (id : Word) (s : State) (w : Who) : (s.idMark g id).me w = s.me w := by
  rw [State.idMark_eq, State.idRoom_frame]
  rfl

theorem State.idMark_regs (g : ℕ) (id : Word) (s : State) : (s.idMark g id).regs = s.regs := by
  rw [State.idMark_eq, State.idRoom_frame]

theorem State.idMark_locks (g : ℕ) (id : Word) (s : State) : (s.idMark g id).ord.locks = s.ord.locks := by
  rw [State.idMark_eq]

/-! ### IDCHK -/

/-- The thread with the ID among those its task has checked. -/
def Thread.noted (id : Word) (t : Thread) : Thread := { t with stage := { t.stage with ids := addId t.stage.ids id } }

theorem Thread.keepsIssued_noted (id : Word) : KeepsIssued (Thread.noted id) := fun _ _ => rfl

/-- The state an IDCHK answers in: counted, and the ordering unit knows of it. -/
def State.checked (s : State) (w : Who) : State := State.count 0x0300 1 (whoTag w) s.markIdchk

theorem State.ownThread_checked_issue (w : Who) (s : State) : OwnThread w s.markIdchk ((s.issue w).checked w) :=
  (OfUnitsOnly.ownThread (f := State.markIdchk) (fun _ _ _ => rfl) rfl w).count _ _ _

theorem State.me_checked (s : State) (w : Who) : (s.checked w).me w = s.me w := State.me_count _ _ _ _ w

theorem State.idLook_checked_issue (w : Who) (g : ℕ) (id : Word) (s : State) :
    ((s.issue w).checked w).idLook g id = s.markIdchk.idLook g id :=
  OfUnits.ownThread (f := fun s => s.idLook g id) (fun _ _ _ => rfl) (s.ownThread_checked_issue w)

variable {x : Ix} {s : State} {rd ra rb : GReg}

/-- An answer of IDCHK: a change of the thread that has noted the ID. -/
theorem idchk_answers {f : Thread → Thread} {v : State} (hf : KeepsIssued f)
    (hrun : exec (.idchk x rd ra rb) s = finish x.who (PcOf x s) (s.issue x.who) (.go v))
    (hv : OwnThread x.who s.markIdchk v)
    (hme : v.me x.who = f ((((s.issue x.who).checked x.who).me x.who).noted (Reads x s ra))) :
    Gives (.idchk x rd ra rb) s (ThreadStep x (fun t => f (t.noted (Reads x s ra))) (PcOf x s + 4) s.markIdchk) := by
  obtain ⟨k, hk⟩ := State.issue_me x.who s
  refine gives_of_go hrun hv ?_
  rw [hme, State.me_checked, hk, Thread.keepsIssued_noted, hf]
  rfl

theorem Thread.keepsIssued_ustatStatus (c : ℕ) : KeepsIssued (fun t => t.ustatStatus c) := fun _ _ => rfl

theorem Thread.keepsIssued_noteId (a : IdAns) : KeepsIssued (fun t => t.noteId a) := fun _ _ => rfl

theorem KeepsIssued.ite {f g : Thread → Thread} (c : Prop) [Decidable c] (hf : KeepsIssued f) (hg : KeepsIssued g) :
    KeepsIssued (fun t => if c then f t else g t) := fun t k => by
  split
  · exact hf t k
  · exact hg t k

theorem Thread.keepsIssued_idReplay (r : ReplayRec) (rd : GReg) (p : ℕ) (id : Word) : KeepsIssued (fun t => t.idReplay r rd p id) := by
  unfold Thread.idReplay
  exact (keepsIssued_setG rd _).comp ((KeepsIssued.ite (f := fun t => t) _ (fun _ _ => rfl) (keepsIssued_putScr _ _)).comp
    (KeepsIssued.ite (g := fun t => t) _ (Thread.keepsIssued_ustatStatus _) (fun _ _ => rfl)))

section
variable (hr : Runs x s) (hfence : s.fencedAg x.who.agent = false)
  (hscr : (Reads x s rb).toNat + 16 ≤ 0x4000)
include hr hfence hscr

variable (hids : (addId (s.me x.who).stage.ids (Reads x s ra)).length ≤ 4)
include hids

/-- IDCHK by what it found, in the state `u` that has counted it and with the ID noted in the thread `t`. -/
theorem idchk_runs :
    let id := Reads x s ra
    let p := (Reads x s rb).toNat
    let u := (s.issue x.who).checked x.who
    let t := (u.me x.who).noted id
    let runs (g : GRes) : Prop := exec (.idchk x rd ra rb) s = finish x.who (PcOf x s) (s.issue x.who) g
    (∀ ps r, (s.me x.who).rpl = some (ps, r) → runs (.go (u.putMe x.who (t.idReplay r rd p id)))) ∧
    ((s.me x.who).rpl = none →
      (∀ res st, u.idLook x.who.agent id = .duplicate res st → runs (.go (State.count 0x0301 1 (whoTag x.who) (u.putMe x.who
        ((((t.putScr p (bytesOf 16 res)).ustatStatus st.toNat).noteId ⟨id, Status.duplicate.word, st.toNat, res⟩).setG rd
          Status.duplicate.word))))) ∧
      (u.idLook x.who.agent id = .stale → runs (.go (State.count 0x0302 1 (whoTag x.who) (u.putMe x.who
        ((t.noteId ⟨id, Status.stale.word, 0, 0#128⟩).setG rd Status.stale.word))))) ∧
      (u.idLook x.who.agent id = .retry → runs (.go (u.putMe x.who (t.setG rd Status.retry.word)))) ∧
      (u.idLook x.who.agent id = .full → runs (.go (State.event 0x0B02 (reqOrigin id ++ reqStream id)
        { u.putMe x.who (t.setG rd Status.retry.word) with ord := { u.ord with sfull := true } }))) ∧
      (u.idLook x.who.agent id = .fault → runs (.faultIn u .integrity .integrity)) ∧
      (u.idLook x.who.agent id = .ok → runs (.go (State.idMark x.who.agent id (u.putMe x.who
        (((t.putScr p (List.replicate 16 0#8)).noteId ⟨id, 0#64, 0, 0#128⟩).setG rd 0#64)))))) := by
  have hc : exec (.idchk x rd ra rb) s = execIdchk x rd ra rb s := rfl
  unfold execIdchk at hc
  -- A look-up that the kernel may not evaluate.
  generalize State.idLook = look at hc ⊢
  have hrun := hc.trans (garnil_runs x _ s hr)
  rw [unlessFenced_eq hfence] at hrun
  have hread (r : GReg) := State.issue_reads x s r
  have hrpl : (((s.issue x.who).checked x.who).me x.who).rpl = (s.me x.who).rpl := by rw [State.me_checked, State.issue_me_rpl]
  have hguard : (!scrOk (Reads x s rb).toNat 16 || decide (4 < (addId ((s.issue x.who).me x.who).stage.ids (Reads x s ra)).length)) = false := by
    rw [State.issue_me_stage, scrOk, decide_eq_true hscr, decide_eq_false (Nat.not_lt.mpr hids)]
    rfl
  generalize s.issue x.who = v at hrun hread hrpl hguard ⊢
  have hmark : State.count 0x0300 1 (whoTag x.who) { v with ord := { v.ord with idchkSeen := true } } = v.checked x.who := rfl
  simp only [hread, hguard, Bool.false_eq_true, if_false, hmark] at hrun
  have hnoted : { (v.checked x.who).me x.who with stage := { ((v.checked x.who).me x.who).stage with
      ids := addId (v.me x.who).stage.ids (Reads x s ra) } } = ((v.checked x.who).me x.who).noted (Reads x s ra) := by
    rw [← State.me_checked v x.who]
    rfl
  simp only [hnoted] at hrun
  generalize v.checked x.who = u at hrun hrpl ⊢
  intro id p u' t runs
  refine ⟨fun ps r h => ?_, fun hnone => ⟨fun res st h => ?_, fun h => ?_, fun h => ?_, fun h => ?_, fun h => ?_, fun h => ?_⟩⟩
  · rw [hrpl, h] at hrun
    exact hrun
  all_goals
    replace h : look u x.who.agent (Reads x s ra) = _ := h
    rw [hrpl, hnone, h] at hrun
    exact hrun

end

theorem Thread.noteId_scratch (t : Thread) (a : IdAns) : (t.noteId a).scratch = t.scratch := rfl

theorem Thread.getG_setG_zero (t : Thread) (r : GReg) : (t.setG r 0#64).getG r = 0#64 := by
  rw [Thread.getG_setG]
  split
  · rfl
  · next h =>
    have hr0 : r.val = 0 := by simpa using h
    exact if_pos hr0

theorem Thread.scr_congr {t u : Thread} (h : t.scratch = u.scratch) (a n : ℕ) : t.scr a n = u.scr a n := by
  induction n generalizing a with
  | zero => rfl
  | succ n ih => rw [Thread.scr, Thread.scr, ih, h]

/-- What the answer to a stream without room leaves. -/
theorem full_leaves (u : State) (w : Who) (rd : GReg) (t : Thread) (c : ℕ) (e : W32) (pc : ℕ) :
    let v := (State.event c e { u.putMe w (t.setG rd Status.retry.word) with ord := { u.ord with sfull := true } }).setPc w pc
    (rd ≠ 0 → (v.me w).getG rd = 0x10#64) ∧ (v.me w).pc = BitVec.ofNat 24 pc ∧ v.ord.sfull = true ∧
      v.ord.pend = u.ord.pend ∧ v.mem = u.mem := by
  intro v
  have hme : v.me w = { t.setG rd Status.retry.word with pc := BitVec.ofNat 24 pc } := by
    rw [State.me_setPc, State.me, State.thread_event]
    exact congrArg (fun t : Thread => { t with pc := BitVec.ofNat 24 pc }) (State.me_putMe u w _)
  refine ⟨fun hrd => ?_, by rw [hme], ?_, ?_, ?_⟩
  · rw [hme]
    exact (Thread.getG_setG t rd rd _).trans (if_pos ⟨rfl, fun h => hrd (Fin.ext h)⟩)
  · show (State.event c e _).ord.sfull = true
    rw [State.event_ord]
  · show (State.event c e _).ord.pend = _
    rw [State.event_ord]
  · show (State.event c e _).mem = _
    rw [State.event_frame]
    rfl

/-- What the answer to a new ID leaves. -/
theorem new_leaves (u : State) (w : Who) (rd : GReg) (id : Word) (t : Thread) (p pc : ℕ) (a : IdAns) :
    let v := (State.idMark w.agent id (u.putMe w (((t.putScr p (List.replicate 16 0#8)).noteId a).setG rd 0#64))).setPc w pc
    (v.me w).getG rd = 0#64 ∧ (v.me w).scr p 16 = List.replicate 16 0#8 ∧ (v.me w).pc = BitVec.ofNat 24 pc ∧
      (∃ k ∈ v.ord.pend, k.id = id ∧ k.agent = w.agent) ∧ v.regs = u.regs ∧ v.ord.locks = u.ord.locks := by
  intro v
  have hme : v.me w = { ((t.putScr p (List.replicate 16 0#8)).noteId a).setG rd 0#64 with pc := BitVec.ofNat 24 pc } := by
    rw [State.me_setPc, State.me_idMark, State.me_putMe]
  have hord (m : State) : (m.setPc w pc).ord = m.ord := rfl
  have hregs (m : State) : (m.setPc w pc).regs = m.regs := rfl
  refine ⟨?_, ?_, by rw [hme], ?_, ?_, ?_⟩
  · rw [hme]
    exact Thread.getG_setG_zero _ rd
  · rw [hme]
    have hscratch := Thread.setG_scratch ((t.putScr p (List.replicate 16 0#8)).noteId a) rd 0#64
    have hput := Thread.scr_putScr_same t p (List.replicate 16 0#8)
    rw [List.length_replicate] at hput
    refine (Thread.scr_congr ?_ p 16).trans hput
    exact hscratch.trans (Thread.noteId_scratch _ a)
  · rw [hord]
    exact State.idMark_pends w.agent id _
  · rw [hregs, State.idMark_regs]
    rfl
  · rw [hord, State.idMark_locks]
    rfl


/-- The ID is one this agent's task checked OK, or one a replay checks. -/
def State.idMine (s : State) (w : Who) (id : Word) : Bool :=
  s.ord.pend.any (fun q => decide (q.id = id ∧ q.agent = w.agent)) || ((s.me w).rpl.isSome && decide (id ∈ (s.me w).stage.ids))

theorem State.idMine_iff (s : State) (w : Who) (id : Word) : s.idMine w id = true ↔
    (∃ k ∈ s.ord.pend, k.id = id ∧ k.agent = w.agent) ∨ ((s.me w).rpl ≠ none ∧ id ∈ (s.me w).stage.ids) := by
  simp [State.idMine, Option.isSome_iff_ne_none]

theorem State.idMine_issue (s : State) (w : Who) (id : Word) : (s.issue w).idMine w id = s.idMine w id := by
  have hpend : (s.issue w).ord.pend = s.ord.pend := OfUnits.issue (f := fun s => s.ord.pend) (fun _ _ _ => rfl) w s
  rw [State.idMine, State.idMine, hpend, State.issue_me_rpl, State.issue_me_stage]

/-- The thread with the completion of the ID staged, in place of one staged before. -/
def Thread.completes (id : Word) (st : Byte) (p : ℕ) (t : Thread) : Thread :=
  { t with stage := { t.stage with
      comps := t.stage.comps.filter (fun c => c.id != id) ++ [⟨id, st, BitVec.ofNat 128 (t.scrNat p 16)⟩] } }

theorem filter_ne_eq_filter_bne (cs : List Comp) (id : Word) : cs.filter (fun c => decide (c.id ≠ id)) = cs.filter (fun c => c.id != id) :=
  List.filter_congr fun c _ => by rw [Bool.eq_iff_iff, decide_eq_true_iff, bne_iff_ne]

theorem Thread.keepsIssued_completes (id : Word) (rd : GReg) (p : ℕ) :
    KeepsIssued (fun t => t.completes id ((t.getG rd).setWidth 8) p) := fun t k => by
  simp only [Thread.completes, Thread.scrNat_issued]
  rfl

section
variable (hr : Runs x s) (hfence : s.fencedAg x.who.agent = false)
include hr hfence

/-- A fifth distinct ID of a task. -/
theorem idchk_fifth (hids : 4 < (addId (s.me x.who).stage.ids (Reads x s ra)).length) : Faults (.idchk x rd ra rb) x .illegal .ok s := by
  have hc : exec (.idchk x rd ra rb) s = execIdchk x rd ra rb s := rfl
  unfold execIdchk at hc
  generalize State.idLook = look at hc
  refine faults_of_fault hc hr ?_
  rw [unlessFenced_eq hfence]
  simp only [State.issue_reads, State.issue_me_stage, decide_eq_true hids, Bool.or_true, if_true]

variable (hscr : (Reads x s rb).toNat + 16 ≤ 0x4000)
include hscr

theorem iddone_stages (hmine : s.idMine x.who (Reads x s ra) = true) : Does (.iddone x rd ra rb) x
    (fun t => t.completes (Reads x s ra) ((t.getG rd).setWidth 8) (Reads x s rb).toNat) s := by
  have hc : exec (.iddone x rd ra rb) s = execIddone x rd ra rb s := rfl
  unfold execIddone at hc
  refine does_of_goT hc hr ?_ ?_
  · rw [unlessFenced_eq hfence]
    have hmine' := (s.idMine_issue x.who (Reads x s ra)).trans hmine
    unfold State.idMine at hmine'
    simp only [State.issue_reads, scrOk, decide_eq_true hscr, Bool.not_true, Bool.false_eq_true, if_false, hmine', if_true]
    simp only [goT, Thread.completes, State.issue_reads, fld_zero_eq_setWidth, filter_ne_eq_filter_bne]
  · exact Thread.keepsIssued_completes _ rd _

theorem iddone_faults (hmine : s.idMine x.who (Reads x s ra) = false) : Faults (.iddone x rd ra rb) x .illegal .ok s := by
  have hc : exec (.iddone x rd ra rb) s = execIddone x rd ra rb s := rfl
  unfold execIddone at hc
  refine faults_of_fault hc hr ?_
  rw [unlessFenced_eq hfence]
  have hmine' := (s.idMine_issue x.who (Reads x s ra)).trans hmine
  unfold State.idMine at hmine'
  simp only [State.issue_reads, scrOk, decide_eq_true hscr, Bool.not_true, Bool.false_eq_true, if_false, hmine']

end

end Sys2Proof.Machine
end

section
open Sys2Proof Sys2Proof.Machine

/-- Settles O15: IDCHK answers by what `idLook` finds, in the state that has noted the ID; IDDONE by whether the ID is the task's own. -/
theorem requestIdInstructions : Obligations.RequestIdInstructions := by
  unfold Obligations.RequestIdInstructions
  intro x rd ra rb s hr hfence t id p g hscr
  refine ⟨fun hids => ?_, fun hids => ?_, ?_⟩
  · intro u noted answers
    obtain ⟨hreplay, htask⟩ := idchk_runs (rd := rd) hr hfence hscr hids
    have hlook : ((s.issue x.who).checked x.who).idLook g id = u.idLook g id := State.idLook_checked_issue x.who g id s
    have hown := s.ownThread_checked_issue x.who
    have hmem' : ((s.issue x.who).checked x.who).mem = s.markIdchk.mem := OfUnits.ownThread (f := State.mem) (fun _ _ _ => rfl) hown
    have hregs' : ((s.issue x.who).checked x.who).regs = s.markIdchk.regs := OfUnits.ownThread (f := State.regs) (fun _ _ _ => rfl) hown
    have hpend' : ((s.issue x.who).checked x.who).ord.pend = s.markIdchk.ord.pend :=
      OfUnits.ownThread (f := fun s => s.ord.pend) (fun _ _ _ => rfl) hown
    have hlocks' : ((s.issue x.who).checked x.who).ord.locks = s.markIdchk.ord.locks :=
      OfUnits.ownThread (f := fun s => s.ord.locks) (fun _ _ _ => rfl) hown
    refine ⟨fun ps r hrpl => ?_, fun hrpl => ?_⟩
    · exact idchk_answers (Thread.keepsIssued_idReplay r rd p id) (hreplay ps r hrpl) (hown.putMe _) (State.me_putMe _ _ _)
    obtain ⟨hdup, hstale, hretry, hfull, hfault, hok⟩ := htask hrpl
    refine ⟨fun res st h => ?_, fun h => ?_, fun h => ?_, fun h => ?_, fun h => hfault (hlook.trans h), fun h => ?_⟩
    · exact idchk_answers ((keepsIssued_setG rd _).comp ((Thread.keepsIssued_noteId _).comp ((Thread.keepsIssued_ustatStatus _).comp
        (keepsIssued_putScr _ _)))) (hdup res st (hlook.trans h)) ((hown.putMe _).count _ _ _) ((State.me_count _ _ _ _ _).trans (State.me_putMe _ _ _))
    · exact idchk_answers ((keepsIssued_setG rd _).comp (Thread.keepsIssued_noteId _)) (hstale (hlook.trans h)) ((hown.putMe _).count _ _ _)
        ((State.me_count _ _ _ _ _).trans (State.me_putMe _ _ _))
    · exact idchk_answers (keepsIssued_setG rd _) (hretry (hlook.trans h)) (hown.putMe _) (State.me_putMe _ _ _)
    · obtain ⟨hg, hpc, hsfull, hpend, hmem⟩ := full_leaves ((s.issue x.who).checked x.who) x.who rd
        ((((s.issue x.who).checked x.who).me x.who).noted id) 0x0B02 (reqOrigin id ++ reqStream id) (PcOf x s + 4)
      exact ⟨_, hfull (hlook.trans h), hg, hpc, hsfull, hpend.trans hpend', hmem.trans hmem'⟩
    · obtain ⟨hg, hscr, hpc, hpend, hregs, hlocks⟩ := new_leaves ((s.issue x.who).checked x.who) x.who rd id
        ((((s.issue x.who).checked x.who).me x.who).noted id) p (PcOf x s + 4) ⟨id, 0#64, 0, 0#128⟩
      exact ⟨_, hok (hlook.trans h), hg, hscr, hpc, hpend, hregs.trans hregs',
        hlocks.trans hlocks'⟩
  · exact idchk_fifth hr hfence hids
  · intro mine
    have hiff : s.idMine x.who id = true ↔ mine := State.idMine_iff s x.who id
    exact ⟨fun h => iddone_stages hr hfence hscr (hiff.mpr h), fun h => iddone_faults hr hfence hscr (Bool.eq_false_iff.mpr (mt hiff.mp h))⟩
end

section
/-! ## The crypto instructions (R53, R54) -/

namespace Sys2Proof.Machine
open Sys2Proof

/-! ### The key look-up -/

/-- A handle above the key table names no key. -/
theorem State.keyLook_noKey (w : Who) {handle : ℕ} (h : 0x8000 ≤ handle) (e : ℕ) (op : Bool) (s : State) :
    s.keyLook w handle e op = (⟨.denied, [], 0#8⟩, s) := by
  unfold State.keyLook
  rw [if_neg (by omega), if_neg (by omega)]

/-- The check of a slot that is not BAD changes nothing. -/
theorem State.slotCheck_active {k : ℕ} {s : State} (h : s.sec.slotState k = .active) : s.slotCheck k = s := by
  simp [State.slotCheck, h]

/-- A handle of an active payload slot that opens to the caller. -/
theorem State.keyLook_slot {w : Who} {k e : ℕ} {op : Bool} {s : State} (hk : k < 64) (hlife : s.sec.life ≠ 2) (hst : s.sec.slotState k = .active)
    (htype : polType (s.sec.slot k).policy = 0) (huser : bit (polUsers (s.sec.slot k).policy) (userBit w) = true)
    (hop : (if op then polOpen (s.sec.slot k).policy else polSeal (s.sec.slot k).policy) = true) :
    s.keyLook w k e op = (⟨.ok, bytesOf 32 (s.sec.slot k).key, 0#8⟩, s) := by
  have hmod : k % 64 = k := Nat.mod_eq_of_lt hk
  have hdiv : k / 64 = 0 := Nat.div_eq_of_lt hk
  unfold State.keyLook
  rw [if_pos (by omega)]
  simp only [hmod, hdiv, hlife, State.slotCheck_active hst, hst, htype, huser, hop, ne_eq, not_true_eq_false, decide_false, decide_true,
    Bool.or_self, Bool.and_self, Bool.false_eq_true, if_false, if_true]

/-- A handle of an active payload slot whose policy, bit by bit, opens to an engine thread: TYPE 0, the cluster's bit of USERS and the
bit `b` of OPEN or SEAL (Table 14.2). -/
theorem State.keyLook_usable {t : Fin 128} {k b e : ℕ} {op : Bool} {s : State} (hb : b = if op then 22 else 21) (hk : k < 64)
    (hlife : s.sec.life ≠ 2) (hst : s.sec.slotState k = .active) (htype : (s.sec.slot k).policy.extractLsb' 28 4 = 0#4)
    (huser : (s.sec.slot k).policy.getLsbD (23 + t.val / 32) = true) (hbit : (s.sec.slot k).policy.getLsbD b = true) :
    (s.issue (.thread t)).keyLook (.thread t) k e op = (⟨.ok, bytesOf 32 (s.sec.slot k).key, 0#8⟩, s.issue (.thread t)) := by
  have hsec : (s.issue (.thread t)).sec = s.sec := OfUnits.issue (f := State.sec) (fun _ _ _ => rfl) _ s
  rw [← hsec] at hlife hst htype huser hbit ⊢
  refine State.keyLook_slot hk hlife hst ?_ ?_ ?_
  · rw [polType, fld_eq_extractLsb', htype]
    rfl
  · rw [bit, polUsers, fld_eq_extractLsb', BitVec.getLsbD_extractLsb', userBit, huser, Bool.and_true]
    exact decide_eq_true (by omega)
  · subst hb
    cases op <;> exact hbit

/-! ### How a crypto call ends -/

/-- The status and GEN a crypto call leaves in its thread. -/
def Thread.cryptDone (st : Status) (gen : Byte) (rd : GReg) (t : Thread) : Thread := ((t.ustatStatus st.code).ustatGen gen).setG rd st.word

theorem Thread.keepsIssued_cryptDone (st : Status) (gen : Byte) (rd : GReg) : KeepsIssued (Thread.cryptDone st gen rd) :=
  (keepsIssued_setG rd _).comp fun _ _ => rfl

theorem cryptDone_eq (w : Who) (rd : GReg) (st : Status) (gen : Byte) (s : State) : cryptDone w rd st gen s = goT w (Thread.cryptDone st gen rd) s := rfl

theorem Thread.cryptBlk_issued (t : Thread) (k a : ℕ) : ({ t with issued := k } : Thread).cryptBlk a = t.cryptBlk a := by
  simp only [Thread.cryptBlk, Thread.scrNat_issued, Thread.scr_issued]

theorem State.issue_me_cryptBlk (w : Who) (s : State) (a : ℕ) : ((s.issue w).me w).cryptBlk a = (s.me w).cryptBlk a :=
  OfThread.issue (f := fun t => t.cryptBlk a) (fun t k => t.cryptBlk_issued k a) w s

/-- The parameter block of the instruction. -/
abbrev BlkOf (x : Ix) (s : State) (ra : GReg) : CryptBlk := (s.me x.who).cryptBlk (Reads x s ra).toNat

/-- The block's lengths are in range, those of its algorithm among them. -/
def CryptBlk.lensOk (okLen : CryptBlk → Bool) (k : CryptBlk) : Bool :=
  okLen k && decide (k.al ≤ 1024) && decide (k.dl ≤ 4096) && decide (k.rsv = 0)

/-- The areas of the block lie in scratch, with `i` bytes of tag after the input and `o` after the output. -/
def CryptBlk.areasOk (i o : ℕ) (k : CryptBlk) : Prop := k.aad + k.al ≤ 0x4000 ∧ k.dat + k.dl + i ≤ 0x4000 ∧ k.out + k.dl + o ≤ 0x4000

variable {s : State} {c : Instr} {x : Ix} {t : Fin 128} {rd ra : GReg} {op : Bool} {okLen : CryptBlk → Bool}
  {f : CryptBlk → List Byte → List Byte → List Byte → List Byte → Option (List Byte)}

/-- A crypto call that writes its output and ends. -/
theorem does_of_cryptDone {st : Status} {gen : Byte} {a : ℕ} {o : List Byte}
    (hrun : exec c s = finish x.who (PcOf x s) (s.issue x.who)
      (cryptDone x.who rd st gen ((s.issue x.who).putMe x.who (((s.issue x.who).me x.who).putScr a o)))) :
    Does c x (fun h => (h.putScr a o).cryptDone st gen rd) s := by
  have hkeeps : KeepsIssued (fun h => (h.putScr a o).cryptDone st gen rd) := (Thread.keepsIssued_cryptDone _ _ _).comp (keepsIssued_putScr _ _)
  obtain ⟨k, hk⟩ := State.issue_me x.who s
  rw [cryptDone_eq, goT] at hrun
  refine does_of_go_putMe hrun ?_
  rw [State.me_putMe, hk]
  exact congrArg (fun t : Thread => { t with issued := 0 }) (hkeeps (s.me x.who) k)

theorem State.cw3_thread {w : Who} {t : Fin 128} (hw : w = .thread t) (s : State) : s.cw3 w = ((s.thread t.val).iepoch, s) := by
  rw [hw]
  rfl

section
variable {l : KeyLook} (hw : x.who = .thread t) (hc : exec c s = aead x rd ra op okLen f s) (hr : Runs x s)
  (hblk : (Reads x s ra).toNat + 32 ≤ 0x4000)
  (hlook : ∀ e, (s.issue x.who).keyLook x.who (BlkOf x s ra).handle e op = (l, s.issue x.who))
include hw hc hr hblk hlook

/-- An AEAD call with a length out of range. -/
theorem aead_badLens (hlens : (BlkOf x s ra).lensOk okLen = false) :
    Does c x (Thread.cryptDone .outOfRange l.gen rd) s := by
  unfold aead at hc
  unfold CryptBlk.lensOk at hlens
  refine does_of_goT hc hr ?_ (Thread.keepsIssued_cryptDone _ _ _)
  simp only [State.issue_reads, scrOk, decide_eq_true hblk, Bool.not_true, Bool.false_eq_true, if_false, State.issue_me_cryptBlk, hlens,
    Bool.false_and, State.cw3_thread hw, hlook, Bool.not_false, if_true, cryptDone_eq]

variable (hlens : (BlkOf x s ra).lensOk okLen = true)
  (hareas : (BlkOf x s ra).areasOk (if op then (BlkOf x s ra).tl else 0)
    (if op then 0 else (BlkOf x s ra).tl))
include hlens hareas

/-- An AEAD call without a key. -/
theorem aead_noKey (hst : l.st ≠ .ok) : Does c x (Thread.cryptDone l.st l.gen rd) s := by
  unfold aead at hc
  unfold CryptBlk.lensOk at hlens
  obtain ⟨haad, hdat, hout⟩ := hareas
  rw [Nat.add_assoc] at hdat hout
  refine does_of_goT hc hr ?_ (Thread.keepsIssued_cryptDone _ _ _)
  simp only [State.issue_reads, scrOk, decide_eq_true hblk, Bool.not_true, Bool.false_eq_true, if_false, State.issue_me_cryptBlk, hlens,
    decide_eq_true haad, decide_eq_true hdat, decide_eq_true hout, Bool.and_self, State.cw3_thread hw, hlook, hst, ne_eq, not_false_eq_true,
    if_true, cryptDone_eq, Bool.and_false]

/-- An AEAD call with its key, whose operation answers: it writes the output. -/
theorem aead_writes {o : List Byte} (hst : l.st = .ok)
    (ho : f (BlkOf x s ra) l.key ((s.me x.who).scr (BlkOf x s ra).aad (BlkOf x s ra).al) ((s.me x.who).scr (BlkOf x s ra).dat (BlkOf x s ra).dl)
      ((s.me x.who).scr ((BlkOf x s ra).dat + (BlkOf x s ra).dl) (BlkOf x s ra).tl) = some o) :
    Does c x (fun h => (h.putScr (BlkOf x s ra).out o).cryptDone .ok l.gen rd) s := by
  unfold aead at hc
  unfold CryptBlk.lensOk at hlens
  obtain ⟨haad, hdat, hout⟩ := hareas
  rw [Nat.add_assoc] at hdat hout
  have hrun := hc.trans (garnil_runs x _ s hr)
  simp only [State.issue_reads, scrOk, decide_eq_true hblk, Bool.not_true, Bool.false_eq_true, if_false, State.issue_me_cryptBlk, hlens,
    decide_eq_true haad, decide_eq_true hdat, decide_eq_true hout, Bool.and_self, State.cw3_thread hw, hlook, hst, ne_eq, not_true_eq_false,
    Bool.and_false, State.issue_me_scr, ho] at hrun
  exact does_of_cryptDone hrun

/-- An AEAD call with its key, whose tag does not verify: it zeroes the output area. -/
theorem aead_wipes (hst : l.st = .ok)
    (ho : f (BlkOf x s ra) l.key ((s.me x.who).scr (BlkOf x s ra).aad (BlkOf x s ra).al) ((s.me x.who).scr (BlkOf x s ra).dat (BlkOf x s ra).dl)
      ((s.me x.who).scr ((BlkOf x s ra).dat + (BlkOf x s ra).dl) (BlkOf x s ra).tl) = none) :
    Does c x (fun h => (h.putScr (BlkOf x s ra).out (List.replicate (BlkOf x s ra).dl 0#8)).cryptDone .integrity l.gen rd) s := by
  unfold aead at hc
  unfold CryptBlk.lensOk at hlens
  obtain ⟨haad, hdat, hout⟩ := hareas
  rw [Nat.add_assoc] at hdat hout
  have hrun := hc.trans (garnil_runs x _ s hr)
  simp only [State.issue_reads, scrOk, decide_eq_true hblk, Bool.not_true, Bool.false_eq_true, if_false, State.issue_me_cryptBlk, hlens,
    decide_eq_true haad, decide_eq_true hdat, decide_eq_true hout, Bool.and_self, State.cw3_thread hw, hlook, hst, ne_eq, not_true_eq_false,
    Bool.and_false, State.issue_me_scr, ho] at hrun
  exact does_of_cryptDone hrun

end

/-! ### HASH -/

section
variable (hr : Runs x s) (hblk : (Reads x s ra).toNat + 32 ≤ 0x4000)
include hr hblk

theorem hash_badLens (hlens : (BlkOf x s ra).lensOk (fun _ => true) = false) :
    Does (.hash x rd ra) x (Thread.cryptDone .outOfRange 0#8 rd) s := by
  have hc : exec (.hash x rd ra) s = execHash x rd ra s := rfl
  unfold execHash at hc
  refine does_of_goT hc hr ?_ (Thread.keepsIssued_cryptDone _ _ _)
  have hbad : (decide (4096 < (BlkOf x s ra).dl) || decide (1024 < (BlkOf x s ra).al) || decide ((BlkOf x s ra).rsv ≠ 0)) = true := by
    simp only [CryptBlk.lensOk, Bool.true_and, Bool.and_eq_false_iff, decide_eq_false_iff_not] at hlens
    simp only [Bool.or_eq_true, decide_eq_true_eq]
    omega
  simp only [State.issue_reads, scrOk, decide_eq_true hblk, Bool.not_true, Bool.false_eq_true, if_false, State.issue_me_cryptBlk, hbad,
    if_true, cryptDone_eq]

variable (hlens : (BlkOf x s ra).lensOk (fun _ => true) = true)
include hlens

theorem hash_ends (hdat : (BlkOf x s ra).dat + (BlkOf x s ra).dl ≤ 0x4000) (hout : (BlkOf x s ra).out + 48 ≤ 0x4000) :
    let k := BlkOf x s ra
    Does (.hash x rd ra) x (fun h => (h.putScr k.out (sha384 ((s.me x.who).scr k.dat k.dl))).cryptDone .ok 0#8 rd) s := by
  intro k
  have hc : exec (.hash x rd ra) s = execHash x rd ra s := rfl
  unfold execHash at hc
  have hgood : (decide (4096 < (BlkOf x s ra).dl) || decide (1024 < (BlkOf x s ra).al) || decide ((BlkOf x s ra).rsv ≠ 0)) = false := by
    simp only [CryptBlk.lensOk, Bool.true_and, Bool.and_eq_true, decide_eq_true_eq] at hlens
    simp only [Bool.or_eq_false_iff, decide_eq_false_iff_not]
    omega
  have hrun := hc.trans (garnil_runs x _ s hr)
  simp only [State.issue_reads, scrOk, decide_eq_true hblk, Bool.not_true, Bool.false_eq_true, if_false, State.issue_me_cryptBlk, hgood,
    decide_eq_true hdat, decide_eq_true hout, Bool.and_self, if_true, State.issue_me_scr] at hrun
  exact does_of_cryptDone hrun

theorem hash_outside (h : 0x4000 < (BlkOf x s ra).dat + (BlkOf x s ra).dl ∨ 0x4000 < (BlkOf x s ra).out + 48) :
    Faults (.hash x rd ra) x .illegal .ok s := by
  have hc : exec (.hash x rd ra) s = execHash x rd ra s := rfl
  unfold execHash at hc
  refine faults_of_fault hc hr ?_
  have hgood : (decide (4096 < (BlkOf x s ra).dl) || decide (1024 < (BlkOf x s ra).al) || decide ((BlkOf x s ra).rsv ≠ 0)) = false := by
    simp only [CryptBlk.lensOk, Bool.true_and, Bool.and_eq_true, decide_eq_true_eq] at hlens
    simp only [Bool.or_eq_false_iff, decide_eq_false_iff_not]
    omega
  have hout : (decide ((BlkOf x s ra).dat + (BlkOf x s ra).dl ≤ 0x4000) && decide ((BlkOf x s ra).out + 48 ≤ 0x4000)) = false := by
    simp only [Bool.and_eq_false_iff, decide_eq_false_iff_not]
    omega
  simp only [State.issue_reads, scrOk, decide_eq_true hblk, Bool.not_true, Bool.false_eq_true, if_false, State.issue_me_cryptBlk, hgood, hout]

end

/-! ### A parameter block past scratch -/

theorem aead_outside (hc : exec c s = aead x rd ra op okLen f s) (hr : Runs x s) (h : 0x4000 < (Reads x s ra).toNat + 32) :
    Faults c x .illegal .ok s := by
  unfold aead at hc
  refine faults_of_fault hc hr ?_
  simp only [State.issue_reads, scrOk, decide_eq_false (Nat.not_le.mpr h), Bool.not_false, if_true]

theorem hash_blockOutside (hr : Runs x s) (h : 0x4000 < (Reads x s ra).toNat + 32) : Faults (.hash x rd ra) x .illegal .ok s := by
  have hc : exec (.hash x rd ra) s = execHash x rd ra s := rfl
  unfold execHash at hc
  refine faults_of_fault hc hr ?_
  simp only [State.issue_reads, scrOk, decide_eq_false (Nat.not_le.mpr h), Bool.not_false, if_true]

end Sys2Proof.Machine
end

section
/-! ## The CRC instructions (R55, Table 2.14) -/

namespace Sys2Proof.Machine
open Sys2Proof

theorem crcRefl_append {w : ℕ} (p r : BitVec w) (a b : List Byte) : crcRefl p r (a ++ b) = crcRefl p (crcRefl p r a) b := by
  induction a generalizing r with
  | nil => rfl
  | cons x a ih => exact ih _

theorem crcFwd_append (p r : BitVec 16) (a b : List Byte) : crcFwd p r (a ++ b) = crcFwd p (crcFwd p r a) b := by
  induction a generalizing r with
  | nil => rfl
  | cons x a ih => exact ih _

variable {x : Ix} {s : State} {c : Instr} {rd ra rb : GReg} {f : Word → List Byte → Word}

theorem crc_sets (hc : exec c s = crcOp x rd ra rb f s) (hr : Runs x s) (h : (Reads x s ra).toNat + (Reads x s rb).toNat ≤ 0x4000) :
    Sets c x rd (f (Reads x s rd) ((s.me x.who).scr (Reads x s ra).toNat (Reads x s rb).toNat)) s := by
  unfold crcOp at hc
  refine sets_of_goG hc hr ?_
  simp only [State.issue_reads, scrOk, decide_eq_true h, if_true, State.issue_me_scr]

theorem crc_faults (hc : exec c s = crcOp x rd ra rb f s) (hr : Runs x s) (h : ¬ (Reads x s ra).toNat + (Reads x s rb).toNat ≤ 0x4000) :
    Faults c x .illegal .ok s := by
  unfold crcOp at hc
  refine faults_of_fault hc hr ?_
  simp only [State.issue_reads, scrOk, decide_eq_false h, Bool.false_eq_true, if_false]

end Sys2Proof.Machine
end

section
open Sys2Proof Sys2Proof.Machine

/-- Settles O16: an AEAD call goes by its lengths, its key and its operation; a CRC register goes on over the bytes. -/
theorem cryptoAndChecksums : Obligations.CryptoAndChecksums := by
  unfold Obligations.CryptoAndChecksums
  refine ⟨?_, ?_, fun w p r a b => crcRefl_append p r a b, crcFwd_append, fun _ _ _ => rfl⟩
  · rintro ⟨_, p, n⟩ t rd ra s rfl hr h a k v key aad dat tag done wiped lens ccm gcm areas usable
    have hopen : exec (.ccmopen ⟨.thread t, p, n⟩ rd ra) s =
      aead ⟨.thread t, p, n⟩ rd ra true ccmLens (fun k key aad dat tag => ccmOpen key k.nonce aad dat tag) s := rfl
    have hseal : exec (.ccmseal ⟨.thread t, p, n⟩ rd ra) s =
      aead ⟨.thread t, p, n⟩ rd ra false ccmLens (fun k key aad dat _ => some (ccmSeal key k.nonce aad dat k.tl)) s := rfl
    have hgcm : exec (.gcmopen ⟨.thread t, p, n⟩ rd ra) s =
      aead ⟨.thread t, p, n⟩ rd ra true gcmLens (fun k key aad dat tag => gcmOpen key k.nonce aad dat tag) s := rfl
    refine ⟨fun hblk => ?_, fun hout => ?_⟩
    · have hlens (ok : CryptBlk → Bool) : k.lensOk ok = true ↔ ok k = true ∧ lens := by simp [CryptBlk.lensOk, lens, and_assoc]
      have hbad (ok : CryptBlk → Bool) (h : ¬lens) : k.lensOk ok = false := Bool.eq_false_iff.mpr fun hk => h ((hlens ok).mp hk).2
      have hccm (h : ccm) : ccmLens k = true := by simpa [ccmLens, ccm, and_assoc] using h
      have hgcmLens (h : gcm) : gcmLens k = true := by simpa [gcmLens, gcm] using h
      have hnoKey (hk : 0x8000 ≤ k.handle) (op : Bool) (e : ℕ) := State.keyLook_noKey (.thread t) hk e op (s.issue (.thread t))
      have hkey (op : Bool) (b : ℕ) (hb : b = if op then 22 else 21) (hu : usable b) (e : ℕ) :
          (s.issue (.thread t)).keyLook (.thread t) k.handle e op = (⟨.ok, key, 0#8⟩, s.issue (.thread t)) := by
        obtain ⟨hk, hlife, hst, htype, huser, hbit⟩ := hu
        exact State.keyLook_usable hb hk hlife hst htype huser hbit
      have hareas (h : areas k.tl k.tl) (op : Bool) : k.areasOk (if op then k.tl else 0) (if op then 0 else k.tl) := by
        obtain ⟨haad, hdat, hout⟩ := h
        cases op
        · exact ⟨haad, Nat.le_of_add_right_le hdat, hout⟩
        · exact ⟨haad, hdat, Nat.le_of_add_right_le hout⟩
      refine ⟨fun hl hc ha hu => ?_, fun hl hc ha hu => ?_, fun hl hc ha hu => ?_, fun hl hd ho => hash_ends hr hblk ((hlens _).mpr ⟨rfl, hl⟩) hd ho,
        fun hl ho => hash_outside hr hblk ((hlens _).mpr ⟨rfl, hl⟩) ho, fun hl => hash_badLens hr hblk (hbad _ hl),
        fun hk hl => ⟨?_, ?_, ?_⟩, fun hk hl ha => ⟨fun hc => ⟨?_, ?_⟩, fun hc => ?_⟩⟩
      · rcases ho : ccmOpen key k.nonce aad dat tag with _ | o
        · exact aead_wipes (l := ⟨.ok, key, 0#8⟩) rfl hopen hr hblk (hkey true 22 rfl hu) ((hlens _).mpr ⟨hccm hc, hl⟩) ha rfl ho
        · exact aead_writes (l := ⟨.ok, key, 0#8⟩) rfl hopen hr hblk (hkey true 22 rfl hu) ((hlens _).mpr ⟨hccm hc, hl⟩) ha rfl ho
      · rcases ho : gcmOpen key k.nonce aad dat tag with _ | o
        · exact aead_wipes (l := ⟨.ok, key, 0#8⟩) rfl hgcm hr hblk (hkey true 22 rfl hu) ((hlens _).mpr ⟨hgcmLens hc, hl⟩) ha rfl ho
        · exact aead_writes (l := ⟨.ok, key, 0#8⟩) rfl hgcm hr hblk (hkey true 22 rfl hu) ((hlens _).mpr ⟨hgcmLens hc, hl⟩) ha rfl ho
      · exact aead_writes (l := ⟨.ok, key, 0#8⟩) rfl hseal hr hblk (hkey false 21 rfl hu) ((hlens _).mpr ⟨hccm hc, hl⟩) ha rfl rfl
      · exact aead_badLens (l := ⟨.denied, [], 0#8⟩) rfl hopen hr hblk (hnoKey hk true) (hbad _ hl)
      · exact aead_badLens (l := ⟨.denied, [], 0#8⟩) rfl hseal hr hblk (hnoKey hk false) (hbad _ hl)
      · exact aead_badLens (l := ⟨.denied, [], 0#8⟩) rfl hgcm hr hblk (hnoKey hk true) (hbad _ hl)
      · exact aead_noKey (l := ⟨.denied, [], 0#8⟩) rfl hopen hr hblk (hnoKey hk true) ((hlens _).mpr ⟨hccm hc, hl⟩) (hareas ha _) (by decide)
      · exact aead_noKey (l := ⟨.denied, [], 0#8⟩) rfl hseal hr hblk (hnoKey hk false) ((hlens _).mpr ⟨hccm hc, hl⟩) (hareas ha _) (by decide)
      · exact aead_noKey (l := ⟨.denied, [], 0#8⟩) rfl hgcm hr hblk (hnoKey hk true) ((hlens _).mpr ⟨hgcmLens hc, hl⟩) (hareas ha _) (by decide)
    · simp only [List.forall_mem_cons, List.not_mem_nil, false_implies, implies_true, and_true]
      exact ⟨aead_outside hopen hr hout, aead_outside hseal hr hout, aead_outside hgcm hr hout, hash_blockOutside hr hout⟩
  · intro x rd ra rb s hr t a n r
    have hi : exec (.crc16i x rd ra rb) s = crcOp x rd ra rb (fun r bs => (crc16i (fld r 0 16) bs).setWidth 64) s := rfl
    have hm : exec (.crc16m x rd ra rb) s = crcOp x rd ra rb (fun r bs => (crc16m (fld r 0 16) bs).setWidth 64) s := rfl
    have hb : exec (.crc16b x rd ra rb) s = crcOp x rd ra rb (fun r bs => (crc16b (fld r 0 16) bs).setWidth 64) s := rfl
    have he : exec (.crc32e x rd ra rb) s = crcOp x rd ra rb (fun r bs => (crc32e (fld r 0 32) bs).setWidth 64) s := rfl
    have hc : exec (.crc32c x rd ra rb) s = crcOp x rd ra rb (fun r bs => (crc32c (fld r 0 32) bs).setWidth 64) s := rfl
    simp only [fld_zero_eq_setWidth] at hi hm hb he hc
    split
    · next h => exact ⟨crc_sets hi hr h, crc_sets hb hr h, crc_sets hm hr h, crc_sets he hr h, crc_sets hc hr h⟩
    · next h =>
      simp only [List.forall_mem_cons, List.not_mem_nil, false_implies, implies_true, and_true]
      exact ⟨crc_faults hi hr h, crc_faults hm hr h, crc_faults hb hr h, crc_faults he hr h, crc_faults hc hr h⟩
end

section
/-! ## The IF97 minors and ISOCD (R56, R57, Table 2.15) -/

namespace Sys2Proof.Machine
open Sys2Proof

variable {x : Ix} {s : State} {c : Instr} {F : State → GRes} {rd ra rb : GReg}

/-- A status and a value an instruction leaves in USTAT and gd. -/
theorem keepsIssued_ustatUnit_setG (st : Status) (r : ℕ) (rd : GReg) (v : Word) : KeepsIssued (fun t => (t.ustatUnit st r).setG rd v) :=
  (keepsIssued_setG rd v).comp fun _ _ => rfl

theorem keepsIssued_ustatStatus_setG (st : ℕ) (rd : GReg) (v : Word) : KeepsIssued (fun t => (t.ustatStatus st).setG rd v) :=
  (keepsIssued_setG rd v).comp fun _ _ => rfl

section
variable {op : ℕ} {region : Word → Word → Option ℕ} (hc : exec c s = if97Op x op rd ra rb region s) (hr : Runs x s)
include hc hr

theorem if97_value {r : ℕ} (h : region (Reads x s ra) (Reads x s rb) = some r) :
    Does c x (fun t => (t.ustatUnit .ok r).setG rd (Config.if97 op (Reads x s ra) (Reads x s rb))) s := by
  unfold if97Op at hc
  refine does_of_goT hc hr ?_ (keepsIssued_ustatUnit_setG _ _ _ _)
  simp only [State.issue_reads, h]
  rfl

theorem if97_none (h : region (Reads x s ra) (Reads x s rb) = none) :
    ∃ v, fNan v = true ∧ Does c x (fun t => (t.ustatUnit .outOfRange 0).setG rd v) s := by
  unfold if97Op at hc
  refine ⟨_, fNan_qnan (Reads x s ra) (Reads x s rb) (BitVec.ofNat 64 op), does_of_goT hc hr ?_ (keepsIssued_ustatUnit_setG _ _ _ _)⟩
  simp only [State.issue_reads, h]
  rfl

end

/-- A saturation minor goes by whether its input lies in the range it serves. -/
theorem if97Sat_outcome {op : ℕ} {lo hi : Word} (hc : exec c s = if97Op x op rd ra 0 (fun a _ => if97Sat lo hi a) s) (hr : Runs x s) :
    if fLe lo (Reads x s ra) && fLe (Reads x s ra) hi then
      Does c x (fun t => (t.ustatUnit .ok 4).setG rd (Config.if97 op (Reads x s ra) (Reads x s 0))) s
    else ∃ v, fNan v = true ∧ Does c x (fun t => (t.ustatUnit .outOfRange 0).setG rd v) s := by
  split
  · next h => exact if97_value hc hr (if_pos h)
  · next h => exact if97_none hc hr (if_neg h)

theorem outsideHeartwood_of_heartwood {w : Who} (h : w.init.heartwood = true) : outsideHeartwood w = false := by rw [outsideHeartwood, h]; rfl

theorem State.issue_me_iepoch (w : Who) (s : State) : ((s.issue w).me w).iepoch = (s.me w).iepoch :=
  OfThread.issue (f := Thread.iepoch) (fun _ _ => rfl) w s

theorem State.custPresent_issue (w : Who) (s : State) (k : ℕ) : (s.issue w).custPresent k = s.custPresent k :=
  OfUnits.issue (f := fun s => s.custPresent k) (fun _ _ _ => rfl) w s

theorem State.genFor_issue (w : Who) (s : State) (e : W32) : (s.issue w).genFor e = s.genFor e :=
  OfUnits.issue (f := fun s => s.genFor e) (fun _ _ _ => rfl) w s

theorem State.bank_issue (w : Who) (s : State) (g k : ℕ) : (s.issue w).bank g k = s.bank g k :=
  OfUnits.issue (f := fun s => s.bank g k) (fun _ _ _ => rfl) w s

section
variable (hr : Runs x s) (hin : x.who.init.heartwood = true)
include hr hin

theorem isocd_value {g : ℕ} (hk : (Reads x s ra).toNat < 32) (hpres : s.custPresent (Reads x s ra).toNat = true)
    (hg : s.genFor (s.me x.who).iepoch = some g) :
    Does (.isocd x rd ra rb) x (fun t => (t.ustatStatus (if isoInLimits (s.bank g (Reads x s ra).toNat) (Reads x s rb) then 0 else 0x13)).setG rd
      (isoCoef (s.bank g (Reads x s ra).toNat) (Reads x s rb))) s := by
  have hc : exec (.isocd x rd ra rb) s = execIsocd x rd ra rb s := rfl
  rw [execIsocd, garnilPriv_garnil (outsideHeartwood_of_heartwood hin)] at hc
  refine does_of_goT hc hr ?_ (keepsIssued_ustatStatus_setG _ _ _)
  have hcode (b : Bool) : (if b then Status.ok else .outOfRange).code = if b then 0 else 0x13 := by cases b <;> rfl
  simp only [State.issue_reads, State.custPresent_issue, hpres, Nat.not_le.mpr hk, Bool.not_true, Bool.false_eq_true, or_self, if_false,
    State.issue_me_iepoch, State.genFor_issue, hg, State.bank_issue, hcode]
  rfl

theorem isocd_absent (h : 32 ≤ (Reads x s ra).toNat ∨ s.custPresent (Reads x s ra).toNat = false) :
    Faults (.isocd x rd ra rb) x .absentUnit .absent s := by
  have hc : exec (.isocd x rd ra rb) s = execIsocd x rd ra rb s := rfl
  rw [execIsocd, garnilPriv_garnil (outsideHeartwood_of_heartwood hin)] at hc
  refine faults_of_fault hc hr ?_
  have h' : 32 ≤ (Reads x s ra).toNat ∨ (!s.custPresent (Reads x s ra).toNat) = true := by simpa using h
  simp only [State.issue_reads, State.custPresent_issue, if_pos h']

end

/-! ### TBLI -/

theorem State.tblFor_issue (w : Who) (s : State) (h : ℕ) (e : W32) : (s.issue w).tblFor h e = s.tblFor h e :=
  OfUnits.issue (f := fun s => s.tblFor h e) (fun _ _ _ => rfl) w s

theorem State.ramBytes_issue (w : Who) (s : State) (a n : ℕ) : (s.issue w).ramBytes a n = s.ramBytes a n :=
  State.ramBytes_congr _ _ a n fun k _ => OfUnits.issue (f := fun s => s.ramByte (a + k)) (fun _ _ _ => rfl) w s

theorem State.ramRead_issue (w : Who) (s : State) (a n : ℕ) : (s.issue w).ramRead a n = s.ramRead a n := by
  have hpoison : (s.issue w).poisoned = s.poisoned := OfUnits.issue (f := State.poisoned) (fun _ _ _ => rfl) w s
  rw [State.ramRead, State.ramRead, hpoison, State.ramBytes_issue]

section
variable {a : ℕ} {len : ℕ} {bs : List Byte} (hr : Runs x s) (hin : x.who.init.heartwood = true ∨ (Reads x s rb).getLsbD 7 = true)
  (htbl : s.tblFor ((Reads x s rb).setWidth 8).toNat (s.me x.who).iepoch = some a) (hlen : tableLen (s.ramBytes a 16) = some len)
  (hread : s.ramRead a len = (.ok, bs))
include hr hin htbl hlen hread

theorem tbli_value {v : Word} (hv : interpolate bs (Reads x s ra) (Reads x s rd) = some v) :
    Does (.tbli x rd ra rb) x (fun t => (t.ustatStatus 0).setG rd v) s := by
  have hc : exec (.tbli x rd ra rb) s = execTbli x rd ra rb s := rfl
  have hpriv : (outsideHeartwood x.who && !bit (Reads x s rb) 7) = false := by
    rcases hin with h | h
    · rw [outsideHeartwood_of_heartwood h, Bool.false_and]
    · rw [bit, h, Bool.not_true, Bool.and_false]
  rw [execTbli, garnilPriv_garnil (by exact hpriv)] at hc
  refine does_of_goT hc hr ?_ (keepsIssued_ustatStatus_setG _ _ _)
  simp only [State.issue_reads, State.issue_me_iepoch, State.tblFor_issue, fld_zero_eq_setWidth, htbl, State.ramBytes_issue, hlen,
    Option.getD_some, State.ramRead_issue, hread, hv]
  rfl

theorem tbli_none (hv : interpolate bs (Reads x s ra) (Reads x s rd) = none) :
    ∃ v, fNan v = true ∧ Does (.tbli x rd ra rb) x (fun t => (t.ustatStatus 0x13).setG rd v) s := by
  have hc : exec (.tbli x rd ra rb) s = execTbli x rd ra rb s := rfl
  have hpriv : (outsideHeartwood x.who && !bit (Reads x s rb) 7) = false := by
    rcases hin with h | h
    · rw [outsideHeartwood_of_heartwood h, Bool.false_and]
    · rw [bit, h, Bool.not_true, Bool.and_false]
  rw [execTbli, garnilPriv_garnil (by exact hpriv)] at hc
  refine ⟨_, fNan_qnan (Reads x s ra) (Reads x s rd) (Reads x s rb), does_of_goT hc hr ?_ (keepsIssued_ustatStatus_setG _ _ _)⟩
  simp only [State.issue_reads, State.issue_me_iepoch, State.tblFor_issue, fld_zero_eq_setWidth, htbl, State.ramBytes_issue, hlen,
    Option.getD_some, State.ramRead_issue, hread, hv]
  rfl

end

end Sys2Proof.Machine
end

section
/-! ## SQACC (R58) -/

namespace Sys2Proof.Machine
open Sys2Proof

/-- The bitwise root stays between `r` and `r + 2 ^ k`. -/
theorem isqrtFrom_eq_sqrt (n k r : ℕ) (hlo : r ≤ n.sqrt) (hhi : n.sqrt < r + 2 ^ k) : isqrtFrom n k r = n.sqrt := by
  induction k generalizing r with
  | zero => exact Nat.le_antisymm hlo (Nat.le_of_lt_succ hhi)
  | succ k ih =>
    rw [isqrtFrom]
    rw [pow_succ] at hhi
    split
    · next h => exact ih _ (Nat.le_sqrt.mpr h) (by omega)
    · next h => exact ih _ hlo (Nat.sqrt_lt.mpr (Nat.lt_of_not_le h))

theorem isqrt_eq_sqrt (n : ℕ) : isqrt n = n.sqrt := by
  refine isqrtFrom_eq_sqrt n _ 0 (Nat.zero_le _) (Nat.sqrt_lt.mpr ?_)
  rw [Nat.zero_add, ← pow_add]
  exact Nat.lt_log2_self.trans_le (Nat.pow_le_pow_right (by decide) (by omega))

variable {x : Ix} {s : State} {ad : AReg} {ra rb : GReg}

/-- The samples a SQACC adds. -/
def Thread.samples (t : Thread) (a n : ℕ) : List ℤ := (List.range n).map (fun k => (BitVec.ofNat 32 (t.scrNat (a + 4 * k) 4)).toInt)

theorem State.issue_me_samples (w : Who) (s : State) (a n : ℕ) : ((s.issue w).me w).samples a n = (s.me w).samples a n := by
  simp only [Thread.samples, State.issue_me_scrNat]

/-- The two sums a SQACC writes. -/
abbrev SumOf (x : Ix) (s : State) (ad : AReg) (ra rb : GReg) : ℤ :=
  (s.me x.who).getA ad + ((s.me x.who).samples (Reads x s ra).toNat (Reads x s rb).toNat).sum
abbrev RootSumOf (x : Ix) (s : State) (ad : AReg) (ra rb : GReg) : ℤ :=
  (s.me x.who).getA (ad + 1) +
    ((((s.me x.who).samples (Reads x s ra).toNat (Reads x s rb).toNat).map (fun k => Nat.sqrt (k.toNat * 2 ^ 32))).sum : ℕ)

theorem foldl_add_isqrt (v : List ℤ) :
    v.foldl (fun m k => m + isqrt (k.toNat * 2 ^ 32)) 0 = (v.map (fun k => Nat.sqrt (k.toNat * 2 ^ 32))).sum := by
  simp only [isqrt_eq_sqrt]
  rw [List.sum_eq_foldl, List.foldl_map]

theorem sqacc_outcome (hr : Runs x s) :
    if ad.val % 2 = 0 ∧ 0 < (Reads x s rb).toNat ∧ (Reads x s rb).toNat ≤ 4096 ∧ (Reads x s ra).toNat + 4 * (Reads x s rb).toNat ≤ 0x4000 then
      if -(2 ^ 127) ≤ SumOf x s ad ra rb ∧ SumOf x s ad ra rb < 2 ^ 127 ∧ RootSumOf x s ad ra rb < 2 ^ 127 then
        Does (.sqacc x ad ra rb) x (fun t => (t.setA ad (SumOf x s ad ra rb)).setA (ad + 1) (RootSumOf x s ad ra rb)) s
      else Faults (.sqacc x ad ra rb) x .arithmetic .ok s
    else Faults (.sqacc x ad ra rb) x .illegal .ok s := by
  have hc : exec (.sqacc x ad ra rb) s = execSqacc x ad ra rb s := rfl
  unfold execSqacc at hc
  have hsum : (s.me x.who).getA ad + ((s.me x.who).samples (Reads x s ra).toNat (Reads x s rb).toNat).foldl (· + ·) 0 = SumOf x s ad ra rb := by
    rw [← List.sum_eq_foldl]
  have hroots : (s.me x.who).getA (ad + 1) + ((((s.me x.who).samples (Reads x s ra).toNat (Reads x s rb).toNat).foldl
      (fun m k => m + isqrt (k.toNat * 2 ^ 32)) 0 : ℕ) : ℤ) = RootSumOf x s ad ra rb := by
    rw [foldl_add_isqrt]
  unfold Thread.samples at hsum hroots
  split
  · next hok =>
    have hguard : ¬ (ad.val % 2 = 1 ∨ (Reads x s rb).toNat = 0 ∨ 4096 < (Reads x s rb).toNat ∨
        (!decide ((Reads x s ra).toNat + 4 * (Reads x s rb).toNat ≤ 0x4000)) = true) := by
      rw [Bool.not_eq_true', decide_eq_false_iff_not]
      omega
    split
    · next hin =>
      refine does_of_goT hc hr ?_ fun _ _ => rfl
      simp only [State.issue_reads, scrOk, if_neg hguard, OfThread.issue_getA, State.issue_me_scrNat, hsum, hroots, if_pos hin]
      rfl
    · next hout =>
      refine faults_of_fault hc hr ?_
      simp only [State.issue_reads, scrOk, if_neg hguard, OfThread.issue_getA, State.issue_me_scrNat, hsum, hroots, if_neg hout]
  · next hbad =>
    have hguard : ad.val % 2 = 1 ∨ (Reads x s rb).toNat = 0 ∨ 4096 < (Reads x s rb).toNat ∨
        (!decide ((Reads x s ra).toNat + 4 * (Reads x s rb).toNat ≤ 0x4000)) = true := by
      rw [Bool.not_eq_true', decide_eq_false_iff_not]
      omega
    refine faults_of_fault hc hr ?_
    simp only [State.issue_reads, scrOk, if_pos hguard]

end Sys2Proof.Machine
end

section
open Sys2Proof Sys2Proof.Machine

/-- Settles O17: a metrology instruction writes what its function gives, with the status of the range its operands lie in. -/
theorem metrologyInstructions : Obligations.MetrologyInstructions := by
  unfold Obligations.MetrologyInstructions
  intro x rd ra rb ad s hr t a b value none_ pt sat z
  have hpt {c : Instr} {op : ℕ} (hc : exec c s = if97Op x op rd ra rb if97Pt s) : pt c op := by
    show match if97Pt a b with | some r => value c op r b | none => none_ c
    rcases h : if97Pt a b with _ | r
    · exact if97_none hc hr h
    · exact if97_value hc hr h
  refine ⟨hpt rfl, hpt rfl, hpt rfl, hpt rfl, hpt rfl, hpt rfl, if97Sat_outcome rfl hr, if97Sat_outcome rfl hr, if97Sat_outcome rfl hr,
    if97Sat_outcome rfl hr, if97Sat_outcome rfl hr, if97Sat_outcome rfl hr, ?_, ?_, ?_, sqacc_outcome hr⟩
  · intro n hn
    have hin : x.who.init.heartwood = true := by
      rw [hn]
      exact decide_eq_true n.isLt
    exact ⟨fun g hk hpres hg => isocd_value hr hin hk hpres hg, fun h => isocd_absent hr hin h⟩
  · intro n hn hout
    obtain ⟨hrun, hpc, -⟩ := hr
    have hpriv : outsideHeartwood x.who = true := by
      rw [hn, outsideHeartwood, Who.init, Init.heartwood, decide_eq_false (Nat.not_lt.mpr hout)]
      rfl
    have hisocd : exec (.isocd x rd ra rb) s = execIsocd x rd ra rb s := rfl
    have htbli : exec (.tbli x rd ra rb) s = execTbli x rd ra rb s := rfl
    unfold execIsocd at hisocd
    unfold execTbli at htbli
    refine ⟨garnilPriv_faults hisocd hrun hpc hpriv, fun hb => garnilPriv_faults htbli hrun hpc ?_⟩
    rw [hpriv, bit, Bool.true_and, Bool.not_eq_true']
    exact hb
  · intro hin p n bs htbl hlen hread
    rcases h : interpolate bs a (Reads x s rd) with _ | v
    · exact tbli_none hr hin htbl hlen hread h
    · exact tbli_value hr hin htbl hlen hread h
end

section
/-! ## The ledger instructions (R48, R59 to R61, R201, Table 2.16) -/

namespace Sys2Proof.Machine
open Sys2Proof

variable {x : Ix} {s : State} {c : Instr} {F : State → GRes} {rd ra rb : GReg} {ad : AReg} {k : LKind}

/-! ### What the issue leaves of the ledger's readings -/

theorem State.ldg_issue (w : Who) (s : State) : (s.issue w).ldg = s.ldg := OfUnits.issue (f := State.ldg) (fun _ _ _ => rfl) w s

theorem State.pair_issue (w : Who) (s : State) : (s.issue w).pair = s.pair := OfUnits.issue (f := State.pair) (fun _ _ _ => rfl) w s

theorem State.pointAbsent_issue (w : Who) (s : State) (p : W32) : (s.issue w).pointAbsent p = s.pointAbsent p :=
  OfUnits.issue (f := fun s => s.pointAbsent p) (fun _ _ _ => rfl) w s

theorem State.calList_issue (w : Who) (s : State) (e : W32) : (s.issue w).calList e = s.calList e :=
  OfUnits.issue (f := fun s => s.calList e) (fun _ _ _ => rfl) w s

theorem State.lregAddr_issue (w : Who) (s : State) (l r k : ℕ) : (s.issue w).lregAddr l r k = s.lregAddr l r k :=
  OfUnits.issue (f := fun s => s.lregAddr l r k) (fun _ _ _ => rfl) w s

theorem State.ramNat_issue (w : Who) (s : State) (a n : ℕ) : (s.issue w).ramNat a n = s.ramNat a n := by
  rw [State.ramNat, State.ramBytes_issue, State.ramNat]

theorem State.lreg_issue (w : Who) (s : State) (l r k : ℕ) : (s.issue w).lreg l r k = s.lreg l r k := by
  rw [State.lreg, State.lregAddr_issue, State.ramNat_issue, State.lreg]

theorem State.line_issue (w : Who) (s : State) (l : ℕ) : (s.issue w).line l = s.line l := by
  rw [State.line, State.ramNat_issue, State.line]

theorem State.present_issue (w : Who) (s : State) (u : ℕ) : (s.issue w).present u = s.present u :=
  OfUnits.issue (f := fun s => s.present u) (fun _ _ _ => rfl) w s

theorem State.postStatus_issue (w : Who) (s : State) (pw : W32) (p : BitVec 256) (ps : List Posting) :
    (s.issue w).postStatus pw p ps = s.postStatus pw p ps :=
  OfUnits.issue (f := fun s => s.postStatus pw p ps) (fun _ _ _ => rfl) w s

theorem State.issue_me_imaged (w : Who) (s : State) (l : ℕ) : ((s.issue w).me w).imaged l = (s.me w).imaged l :=
  OfThread.issue (f := fun t => t.imaged l) (fun _ _ => rfl) w s

/-- The point word an instruction names. -/
abbrev PointOf (x : Ix) (s : State) (ra : GReg) : W32 := (Reads x s ra).setWidth 32

/-! ### LADD -/

/-- The second of the stamp in scratch at `a` that an instruction books by. -/
def Thread.stampAt (t : Thread) (a : ℕ) : Stamp := BitVec.ofNat 96 (t.scrNat a 12)
def Thread.bookSec (t : Thread) (a : ℕ) : ℕ := (fld (t.stampAt a) 0 64).toNat

/-- The stamp cannot be relied on: its flag says so, or there is none (R202). -/
def Thread.stampBad (t : Thread) (a : ℕ) : Bool := decide (t.scrNat (a + 18) 2 % 2 = 1) || decide (t.stampAt a = 0#96)

/-- A booking comes after its second has passed to a calendar its list does not hold (R201). -/
def State.bookLate (s : State) (t : Thread) (a : ℕ) : Bool :=
  !t.stampBad a && (s.ldg.calCur ++ s.ldg.calShadow.getD []).any
    (fun g => decide (g ∉ s.calList t.iepoch) && decide (calActivate g.image ≤ t.bookSec a))

/-- The booking a LADD stages, at the rate `r`, the default one where `d`. -/
def State.booking (s : State) (t : Thread) (k : LKind) (ad : AReg) (pw : W32) (a r : ℕ) (d : Bool) : LAdd :=
  ⟨wordLocal pw, kindNo k, r, d, decide (t.scrNat (a + 18) 2 / 2 % 2 = 1), t.getA ad, t.stampAt a,
    if t.stampAt a = 0#96 then none else intervalOf (s.calList t.iepoch) (t.bookSec a), s.bookLate t a⟩

/-- The register the booking would leave. -/
def State.booked (s : State) (t : Thread) (k : LKind) (ad : AReg) (pw : W32) (a r : ℕ) (d : Bool) : ℤ :=
  s.lreg (wordLocal pw) r (kindNo k) + staged (t.stage.ladds ++ [s.booking t k ad pw a r d]) (wordLocal pw) r (kindNo k)

/-- The thread with a booking staged. -/
def Thread.books (l : LAdd) (r : ℕ) (d : Bool) (t : Thread) : Thread :=
  ({ t with stage := { t.stage with ladds := t.stage.ladds ++ [l] } } : Thread).lstatSet d r (if d then .timeInvalid else .ok)

theorem Thread.keepsIssued_books (l : LAdd) (r : ℕ) (d : Bool) : KeepsIssued (Thread.books l r d) := fun _ _ => rfl

theorem in128_iff (v : ℤ) : in128 v = true ↔ AccRange v := by rw [in128, Bool.and_eq_true, decide_eq_true_iff, decide_eq_true_iff]

theorem Thread.setA_toInt (t : Thread) (r : AReg) (v : BitVec 128) : t.setA r v.toInt = t.setAccBits r v := by
  rw [Thread.setA, BitVec.ofInt_toInt, Thread.setAccBits]

theorem keepsIssued_setAccBits (r : AReg) (v : BitVec 128) : KeepsIssued (fun t => t.setAccBits r v) := fun _ _ => rfl

theorem keepsIssued_noteImage (l : ℕ) (img : Item) : KeepsIssued (fun t => { t with stage := t.stage.noteImage l img }) := fun _ _ => rfl

/-- The thread with a posting staged where the engine would take it, and the engine's answer in gd. -/
def Thread.posts (rd : GReg) (pw : W32) (p : BitVec 256) (st : Status) (t : Thread) : Thread :=
  ({ t with stage := { t.stage with posts := if st = .ok then t.stage.posts ++ [⟨pw, p⟩] else t.stage.posts } } : Thread).setG rd st.word

theorem Thread.keepsIssued_posts (rd : GReg) (pw : W32) (p : BitVec 256) (st : Status) : KeepsIssued (Thread.posts rd pw p st) :=
  (keepsIssued_setG rd _).comp fun _ _ => rfl

section
variable (hr : Runs x s) (hin : x.who.init.heartwood = true) (hfence : s.fencedAg x.who.agent = false)
include hr hin hfence

section
variable (ha : (Reads x s rb).toNat + 20 ≤ 0x4000)
include ha

theorem ladd_otherPair (hpair : wordPair (PointOf x s ra) ≠ s.pair) :
    Does (.ladd x k ad ra rb) x (fun t => { t with lstat := 0x13#64 }) s := by
  have hc : exec (.ladd x k ad ra rb) s = execLadd x k ad ra rb s := rfl
  rw [execLadd, garnilPriv_garnil (outsideHeartwood_of_heartwood hin)] at hc
  refine does_of_goT hc hr ?_ (fun _ _ => rfl)
  rw [unlessFenced_eq hfence]
  simp only [State.issue_reads, scrOk, decide_eq_true ha, Bool.not_true, Bool.false_eq_true, if_false, fld_zero_eq_setWidth, State.pair_issue, if_pos hpair]
  rfl

variable {r : ℕ} {d : Bool} (hpair : wordPair (PointOf x s ra) = s.pair) (habs : s.pointAbsent (PointOf x s ra) = false)
  (hrate : rateFor (s.calList (s.me x.who).iepoch) ((s.me x.who).bookSec (Reads x s rb).toNat) ((s.me x.who).stampBad (Reads x s rb).toNat) = some (r, d))
include hpair habs hrate

/-- LADD by the range of the register it would leave. -/
theorem ladd_runs : exec (.ladd x k ad ra rb) s = finish x.who (PcOf x s) (s.issue x.who)
    (if in128 (s.booked (s.me x.who) k ad (PointOf x s ra) (Reads x s rb).toNat r d) then
      goT x.who (Thread.books (s.booking (s.me x.who) k ad (PointOf x s ra) (Reads x s rb).toNat r d) r d) (s.issue x.who)
    else .fault .arithmetic .ok) := by
  have hc : exec (.ladd x k ad ra rb) s = execLadd x k ad ra rb s := rfl
  rw [execLadd, garnilPriv_garnil (outsideHeartwood_of_heartwood hin)] at hc
  refine (hc.trans (garnil_runs x _ s hr)).trans (congrArg _ ?_)
  rw [unlessFenced_eq hfence]
  unfold Thread.bookSec Thread.stampBad Thread.stampAt at hrate
  unfold State.booked State.booking State.bookLate Thread.bookSec Thread.stampBad Thread.stampAt
  simp only [fld_zero_eq_setWidth] at hrate ⊢
  simp only [State.issue_reads, scrOk, decide_eq_true ha, Bool.not_true, Bool.false_eq_true, if_false, State.pair_issue,
    ne_eq, hpair, not_true_eq_false, State.pointAbsent_issue, habs, State.issue_me_scrNat, State.issue_me_iepoch, State.calList_issue,
    hrate, State.lreg_issue, State.issue_me_stage, OfThread.issue_getA, State.ldg_issue, goT, Thread.books]

theorem ladd_books (h : AccRange (s.booked (s.me x.who) k ad (PointOf x s ra) (Reads x s rb).toNat r d)) :
    Does (.ladd x k ad ra rb) x (Thread.books (s.booking (s.me x.who) k ad (PointOf x s ra) (Reads x s rb).toNat r d) r d) s := by
  have hrun := ladd_runs (k := k) (ad := ad) hr hin hfence ha hpair habs hrate
  rw [if_pos ((in128_iff _).mpr h), goT] at hrun
  obtain ⟨i, hi⟩ := State.issue_me x.who s
  exact does_of_go_putMe_once hrun (by rw [hi, Thread.keepsIssued_books])

theorem ladd_overflows (h : ¬ AccRange (s.booked (s.me x.who) k ad (PointOf x s ra) (Reads x s rb).toNat r d)) :
    Faults (.ladd x k ad ra rb) x .arithmetic .ok s := by
  have hrun := ladd_runs (k := k) (ad := ad) hr hin hfence ha hpair habs hrate
  rw [if_neg (mt (in128_iff _).mp h)] at hrun
  exact hrun

end
/-! ### LREAD -/

/-- The address of the register an LREAD names. -/
abbrev RegOf (x : Ix) (s : State) (ra rb : GReg) : ℕ :=
  s.lregAddr (wordLocal (PointOf x s ra)) ((Reads x s rb).setWidth 3).toNat (fld (Reads x s rb) 3 2).toNat

theorem lread_absent (habs : s.pointAbsent (PointOf x s ra) = true) : Faults (.lread x ad ra rb) x .absentUnit .absent s := by
  have hc : exec (.lread x ad ra rb) s = execLread x ad ra rb s := rfl
  rw [execLread, garnilPriv_garnil (outsideHeartwood_of_heartwood hin)] at hc
  refine faults_of_fault hc hr ?_
  rw [unlessFenced_eq hfence]
  simp only [State.issue_reads, fld_zero_eq_setWidth, State.pointAbsent_issue, habs, if_true]

section
variable (habs : s.pointAbsent (PointOf x s ra) = false)
include habs

/-- LREAD of another pair's point: the accumulator takes a free value. -/
theorem lread_otherPair (hpair : wordPair (PointOf x s ra) ≠ s.pair) : Gives (.lread x ad ra rb) s (fun u =>
    u.mem = s.mem ∧ u.regs = s.regs ∧ (u.me x.who).pc = BitVec.ofNat 24 (PcOf x s + 4) ∧ (u.me x.who).stage = (s.me x.who).stage ∧
      (u.me x.who).g = (s.me x.who).g) := by
  have hc : exec (.lread x ad ra rb) s = execLread x ad ra rb s := rfl
  rw [execLread, garnilPriv_garnil (outsideHeartwood_of_heartwood hin)] at hc
  have hF : exec (.lread x ad ra rb) s = finish x.who (PcOf x s) (s.issue x.who) (.go (((s.issue x.who).draw 128).2.putMe x.who
      (((s.issue x.who).me x.who).setA ad ((s.issue x.who).draw 128).1.toInt))) := by
    refine (hc.trans (garnil_runs x _ s hr)).trans (congrArg _ ?_)
    rw [unlessFenced_eq hfence]
    simp only [State.issue_reads, fld_zero_eq_setWidth, State.pointAbsent_issue, habs, Bool.false_eq_true, if_false, State.pair_issue, ne_eq, hpair,
      not_false_eq_true, if_true]
    rfl
  have hmem : (s.issue x.who).mem = s.mem := OfUnits.issue (f := State.mem) (fun _ _ _ => rfl) _ s
  have hregs : (s.issue x.who).regs = s.regs := OfUnits.issue (f := State.regs) (fun _ _ _ => rfl) _ s
  have hg : ((s.issue x.who).me x.who).g = (s.me x.who).g := OfThread.issue (f := Thread.g) (fun _ _ => rfl) _ s
  refine ⟨_, hF, hmem, hregs, ?_⟩
  rw [State.me_setPc, State.me_putMe]
  exact ⟨rfl, State.issue_me_stage _ s, hg⟩

variable (hpair : wordPair (PointOf x s ra) = s.pair)
include hpair

/-- LREAD of a register, its line noted as read. -/
theorem lread_register (hnone : (s.me x.who).imaged (RegOf x s ra rb / 64) = none) (hclean : (linesOf (RegOf x s ra rb) 16).any s.poisoned = false) :
    Does (.lread x ad ra rb) x (fun t => ({ t with stage := t.stage.noteImage (RegOf x s ra rb / 64) (s.line (RegOf x s ra rb / 64)) } :
      Thread).setAccBits ad (BitVec.ofNat 128 (s.ramNat (RegOf x s ra rb) 16))) s := by
  have hc : exec (.lread x ad ra rb) s = execLread x ad ra rb s := rfl
  rw [execLread, garnilPriv_garnil (outsideHeartwood_of_heartwood hin)] at hc
  refine does_of_goT hc hr ?_ ((keepsIssued_setAccBits _ _).comp (keepsIssued_noteImage _ _))
  rw [unlessFenced_eq hfence]
  have hread : s.ramRead (RegOf x s ra rb) 16 = (.ok, s.ramBytes (RegOf x s ra rb) 16) := by rw [State.ramRead, hclean, if_neg (by decide)]
  simp only [State.issue_reads, fld_zero_eq_setWidth, State.pointAbsent_issue, habs, Bool.false_eq_true, if_false, State.pair_issue, ne_eq, hpair,
    not_true_eq_false, State.lregAddr_issue, State.issue_me_imaged, hnone, State.ramRead_issue, hread, State.line_issue,
    Thread.setA_toInt, State.ramNat, goT]

theorem lread_poisoned (hnone : (s.me x.who).imaged (RegOf x s ra rb / 64) = none) (hbad : (linesOf (RegOf x s ra rb) 16).any s.poisoned = true) :
    Faults (.lread x ad ra rb) x .integrity .integrity s := by
  have hc : exec (.lread x ad ra rb) s = execLread x ad ra rb s := rfl
  rw [execLread, garnilPriv_garnil (outsideHeartwood_of_heartwood hin)] at hc
  refine faults_of_fault hc hr ?_
  rw [unlessFenced_eq hfence]
  have hread : s.ramRead (RegOf x s ra rb) 16 = (.integrity, []) := by rw [State.ramRead, hbad, if_pos rfl]
  simp only [State.issue_reads, fld_zero_eq_setWidth, State.pointAbsent_issue, habs, Bool.false_eq_true, if_false, State.pair_issue, ne_eq, hpair,
    not_true_eq_false, State.lregAddr_issue, State.issue_me_imaged, hnone, State.ramRead_issue, hread]

theorem lread_imaged {img : Item} (himg : (s.me x.who).imaged (RegOf x s ra rb / 64) = some img) :
    Does (.lread x ad ra rb) x (fun t => t.setAccBits ad (img.extractLsb' (8 * (RegOf x s ra rb % 64)) 128)) s := by
  have hc : exec (.lread x ad ra rb) s = execLread x ad ra rb s := rfl
  rw [execLread, garnilPriv_garnil (outsideHeartwood_of_heartwood hin)] at hc
  refine does_of_goT hc hr ?_ (keepsIssued_setAccBits _ _)
  rw [unlessFenced_eq hfence]
  simp only [State.issue_reads, fld_zero_eq_setWidth, State.pointAbsent_issue, habs, Bool.false_eq_true, if_false, State.pair_issue, ne_eq, hpair,
    not_true_eq_false, State.lregAddr_issue, State.issue_me_imaged, himg,
    Thread.setA_toInt, goT, ← fld_eq_extractLsb']

end

/-! ### BALPOST -/

theorem balpost_absent (habs : s.present 0x0D = false) : Faults (.balpost x rd ra rb) x .absentUnit .absent s := by
  have hc : exec (.balpost x rd ra rb) s = execBalpost x rd ra rb s := rfl
  rw [execBalpost, garnilPriv_garnil (outsideHeartwood_of_heartwood hin)] at hc
  refine faults_of_fault hc hr ?_
  rw [unlessFenced_eq hfence]
  simp only [State.present_issue, habs, Bool.not_false, Bool.true_or, if_true]

/-- BALPOST answers what the engine says of the posting, and stages one it would take. -/
theorem balpost_posts (hpres : s.present 0x0D = true) (habs : s.pointAbsent (PointOf x s ra) = false) (ha : (Reads x s rb).toNat + 32 ≤ 0x4000) :
    Does (.balpost x rd ra rb) x (fun t => t.posts rd (PointOf x s ra) (BitVec.ofNat 256 ((s.me x.who).scrNat (Reads x s rb).toNat 32))
      (s.postStatus (PointOf x s ra) (BitVec.ofNat 256 ((s.me x.who).scrNat (Reads x s rb).toNat 32)) (s.me x.who).stage.posts)) s := by
  have hc : exec (.balpost x rd ra rb) s = execBalpost x rd ra rb s := rfl
  rw [execBalpost, garnilPriv_garnil (outsideHeartwood_of_heartwood hin)] at hc
  refine does_of_goT hc hr ?_ (Thread.keepsIssued_posts _ _ _ _)
  rw [unlessFenced_eq hfence]
  simp only [State.issue_reads, fld_zero_eq_setWidth, State.present_issue, hpres, State.pointAbsent_issue, habs, Bool.not_true, Bool.or_self,
    Bool.false_eq_true, if_false, scrOk, decide_eq_true ha, State.issue_me_scrNat, State.postStatus_issue, State.issue_me_stage, goT, Thread.posts]

end

/-! ### EVPOST -/

/-- The event an EVPOST stages: its code, the payload and the severity. -/
abbrev EventOf (x : Ix) (s : State) (ra rd : GReg) (imm : BitVec 12) : BitVec 16 × W32 × Byte :=
  (0x8000#16 ||| imm.setWidth 16, (Reads x s ra).setWidth 32, (Reads x s rd).setWidth 8)

theorem evpost_outcome {imm : BitVec 12} (hr : Runs x s) :
    if (s.me x.who).stage.events.length < 8 then
      Does (.evpost x rd ra imm) x (fun t => { t with stage := { t.stage with events := t.stage.events ++ [EventOf x s ra rd imm] } }) s
    else Faults (.evpost x rd ra imm) x .illegal .ok s := by
  have hc : exec (.evpost x rd ra imm) s = execEvpost x rd ra imm s := rfl
  unfold execEvpost at hc
  split
  · next h =>
    refine does_of_goT hc hr ?_ fun _ _ => rfl
    simp only [State.issue_reads, fld_zero_eq_setWidth, State.issue_me_stage, if_neg (Nat.not_le.mpr h), goT]
  · next h =>
    refine faults_of_fault hc hr ?_
    simp only [State.issue_me_stage, if_pos (Nat.le_of_not_lt h)]

end Sys2Proof.Machine
end

section
open Sys2Proof Sys2Proof.Machine

/-- Settles O18: a ledger instruction of cluster 0 stages, reads or posts at the point its word names; EVPOST stages its event. -/
theorem ledgerInstructions : Obligations.LedgerInstructions := by
  unfold Obligations.LedgerInstructions
  intro x k ad rd ra rb imm s hr t pw b a kind stamp fl sec list bad late entry
  refine ⟨fun hin hfence => ?_, fun hout => ?_, evpost_outcome hr⟩
  · have hkind : kind = kindNo k := by cases k <;> rfl
    refine ⟨?_, ?_, ?_, ?_, ?_, ?_, ?_⟩
    · intro ha hpair habs r d hrate after
      have hentry : entry r d = s.booking t k ad pw a r d := by
        show LAdd.mk _ kind _ _ _ _ _ _ _ = _
        rw [hkind]
        rfl
      have hafter : after = s.booked t k ad pw a r d := by
        show s.lreg _ r kind + staged (_ ++ [entry r d]) _ r kind = _
        rw [hentry, hkind]
        rfl
      clear_value after
      by_cases h : AccRange after
      · rw [if_pos h, hentry]
        exact ladd_books hr hin hfence ha hpair habs hrate (hafter ▸ h)
      · rw [if_neg h]
        exact ladd_overflows hr hin hfence ha hpair habs hrate (hafter ▸ h)
    · intro ha hpair
      exact ladd_otherPair hr hin hfence ha hpair
    · intro habs hpair
      exact lread_absent hr hin hfence habs
    · intro hpair
      have habs : s.pointAbsent pw = false := by rw [State.pointAbsent, decide_eq_false hpair, Bool.false_and, Bool.false_and]
      exact lread_otherPair hr hin hfence habs hpair
    · intro habs hpair p
      have hp : p = RegOf x s ra rb := congrArg _ (Nat.mul_comm 16 _)
      clear_value p
      subst hp
      refine ⟨?_, ?_, ?_⟩
      · intro hnone hclean
        refine lread_register hr hin hfence habs hpair hnone ?_
        rwa [← List.not_any_eq_all_not, Bool.not_eq_true'] at hclean
      · intro hnone hbad
        refine lread_poisoned hr hin hfence habs hpair hnone ?_
        rwa [← List.not_any_eq_all_not, Bool.not_eq_false'] at hbad
      · intro img himg
        exact lread_imaged hr hin hfence habs hpair himg
    · intro hpres habs ha
      exact balpost_posts hr hin hfence hpres habs ha
    · intro habs
      exact balpost_absent hr hin hfence habs
  · obtain ⟨hrun, hpc, -⟩ := hr
    have hpriv : outsideHeartwood x.who = true := by rw [outsideHeartwood, hout]; rfl
    have hladd : exec (.ladd x k ad ra rb) s = execLadd x k ad ra rb s := rfl
    have hlread : exec (.lread x ad ra rb) s = execLread x ad ra rb s := rfl
    have hpost : exec (.balpost x rd ra rb) s = execBalpost x rd ra rb s := rfl
    unfold execLadd at hladd
    unfold execLread at hlread
    unfold execBalpost at hpost
    exact ⟨garnilPriv_faults hladd hrun hpc hpriv, garnilPriv_faults hlread hrun hpc hpriv, garnilPriv_faults hpost hrun hpc hpriv⟩
end

section
/-! ## What the release of held items leaves as it was (R95 to R100) -/

namespace Sys2Proof.Machine
open Sys2Proof

/-- From `s` to `t` nothing but what the release of held items touches has changed: the ring bytes, the release lists, the merge contexts,
the counters and the recorder. -/
structure ReleasesOnly (s t : State) : Prop where
  fences : t.ord.fences = s.ord.fences
  epochs : t.ord.epochs = s.ord.epochs
  locks : t.ord.locks = s.ord.locks
  ge : t.ge = s.ge
  sup : t.sup = s.sup
  spn : t.spn = s.spn
  fifos : t.qm.fifos = s.qm.fifos
  tails : ∀ q, (t.desc q).tail = (s.desc q).tail

variable {s t u : State}

theorem ReleasesOnly.refl (s : State) : ReleasesOnly s s := ⟨rfl, rfl, rfl, rfl, rfl, rfl, rfl, fun _ => rfl⟩

theorem ReleasesOnly.trans (h : ReleasesOnly s t) (g : ReleasesOnly t u) : ReleasesOnly s u :=
  ⟨g.fences.trans h.fences, g.epochs.trans h.epochs, g.locks.trans h.locks, g.ge.trans h.ge, g.sup.trans h.sup, g.spn.trans h.spn,
    g.fifos.trans h.fifos, fun q => (g.tails q).trans (h.tails q)⟩

/-- A change of the memory, the counters, the recorder and the contexts alone. -/
theorem ReleasesOnly.apart {mem : Mem} {pmc : Pmc} {evr : Evr} {merges : Tab Merge} {full : Bool} (h : ReleasesOnly s t) :
    ReleasesOnly s { t with mem := mem, pmc := pmc, evr := evr, ord := { t.ord with merges := merges, poolfull := full } } :=
  h.trans ⟨rfl, rfl, rfl, rfl, rfl, rfl, rfl, fun _ => rfl⟩

theorem ReleasesOnly.ite {c : Prop} [Decidable c] (h : ReleasesOnly s t) (g : ReleasesOnly s u) :
    ReleasesOnly s (if c then t else u) := by
  split
  · exact h
  · exact g

theorem State.desc_setDesc_same (s : State) (q : ℕ) (d : Desc) : (s.setDesc q d).desc q = d := Tab.get_set_same ..

theorem State.desc_setDesc_other (s : State) {q r : ℕ} (d : Desc) (h : r ≠ q) : (s.setDesc q d).desc r = s.desc r := Tab.get_set_other _ _ _ h

/-- A descriptor whose tail stays. -/
theorem ReleasesOnly.setDesc (h : ReleasesOnly s t) {q : ℕ} {d : Desc} (hd : d.tail = (t.desc q).tail) : ReleasesOnly s (t.setDesc q d) := by
  refine h.trans ⟨rfl, rfl, rfl, rfl, rfl, rfl, rfl, fun r => ?_⟩
  by_cases hr : r = q
  · rw [hr, State.desc_setDesc_same, hd]
  · rw [State.desc_setDesc_other _ _ hr]

theorem ReleasesOnly.ramPut (h : ReleasesOnly s t) (a : ℕ) (bs : List Byte) : ReleasesOnly s (t.ramPut a bs) := h.apart

theorem ReleasesOnly.setMerge (h : ReleasesOnly s t) (c : ℕ) (m : Merge) : ReleasesOnly s (t.setMerge c m) := h.apart

theorem ReleasesOnly.count (h : ReleasesOnly s t) (ev amt : ℕ) (f : PmcTag) : ReleasesOnly s (t.count ev amt f) := by
  rw [State.count_frame]
  exact h.apart

theorem ReleasesOnly.event (h : ReleasesOnly s t) (c : ℕ) (v : W32) : ReleasesOnly s (t.event c v) := by
  rw [State.event_frame]
  exact h.apart

theorem ReleasesOnly.releaseOne (h : ReleasesOnly s t) (c q : ℕ) (x : Held) : ReleasesOnly s (t.releaseOne c q x) :=
  ((ReleasesOnly.ite ((h.ramPut _ _).count _ _ _) h).setMerge _ _).setDesc rfl

theorem ReleasesOnly.releaseList (h : ReleasesOnly s t) (c q : ℕ) (l : List Held) : ReleasesOnly s (t.releaseList c q l) := by
  induction l generalizing t with
  | nil => exact h
  | cons x xs ih => exact ih (h.releaseOne c q x)

theorem ReleasesOnly.releaseUpTo (h : ReleasesOnly s t) (c p : ℕ) : ReleasesOnly s (t.releaseUpTo c p) := (h.setMerge _ _).releaseList _ _ _

theorem ReleasesOnly.mergeDue (h : ReleasesOnly s t) (n c : ℕ) : ReleasesOnly s (State.mergeDue n c t) := by
  induction n generalizing t with
  | zero => exact h
  | succ n ih =>
    unfold State.mergeDue
    split
    · exact ih (h.releaseUpTo _ _)
    · exact h

theorem ReleasesOnly.mergeExpire (h : ReleasesOnly s t) (q : ℕ) : ReleasesOnly s (t.mergeExpire q) := by
  unfold State.mergeExpire
  split
  · exact h.mergeDue _ _
  · exact h

theorem ReleasesOnly.mergeHold (h : ReleasesOnly s t) (c q : ℕ) (x : Held) : ReleasesOnly s (t.mergeHold c q x) := by
  unfold State.mergeHold
  refine ReleasesOnly.ite ?_ (ReleasesOnly.ite ((h.setMerge _ _).releaseUpTo _ _) (h.setMerge _ _))
  dsimp only
  split
  · exact (h.setMerge _ _).releaseOne _ _ _
  · refine ReleasesOnly.ite ((h.setMerge _ _).releaseOne _ _ _) (ReleasesOnly.ite (ReleasesOnly.releaseUpTo ?_ _ _) ?_)
    all_goals exact (((h.setMerge _ _).setMerge _ _).releaseOne _ _ _).setMerge _ _

theorem ReleasesOnly.mergePublish (h : ReleasesOnly s t) (q p k : ℕ) : ReleasesOnly s (t.mergePublish q p k) := by
  unfold State.mergePublish
  have g := h.mergeExpire q
  have pool : ReleasesOnly s (t.mergeExpire q).notePool := ReleasesOnly.ite g.apart g
  dsimp only
  split
  · have noted : ReleasesOnly s _ := g.setDesc (q := q) (d := { (t.mergeExpire q).desc q with
      rel := ((t.mergeExpire q).desc q).rel ++ [p], noCtxEv := true }) rfl
    exact ReleasesOnly.ite noted (noted.event _ _)
  · exact pool.mergeHold _ _ _

end Sys2Proof.Machine
end

section
/-! ## What the end of a task leaves as it was (R47, R86, R90) -/

namespace Sys2Proof.Machine
open Sys2Proof

/-- From `s` to `t` the tasks of the agents in `A` may have ended, no others: the fences, the epochs, the withdrawn leases, the fault
reports and the supervisor's words stay, a free lock with its mark set stays one, and so do the other threads. -/
structure Spares (A : Set ℕ) (s t : State) : Prop where
  fences : t.ord.fences = s.ord.fences
  epochs : t.ord.epochs = s.ord.epochs
  leases : t.spn.revoked = s.spn.revoked
  reports : t.ge.flt = s.ge.flt
  sup : t.sup = { s.sup with sipend := t.sup.sipend }
  locks : ∀ l, (s.lock l).owner = none → (s.lock l).mark = true → (t.lock l).owner = none ∧ (t.lock l).mark = true
  threads : ∀ b, b ∉ A → t.thread b = s.thread b

variable {A : Set ℕ} {s t u : State}

theorem Spares.refl (A : Set ℕ) (s : State) : Spares A s s := ⟨rfl, rfl, rfl, rfl, rfl, fun _ ho hm => ⟨ho, hm⟩, fun _ _ => rfl⟩

theorem Spares.trans (h : Spares A s t) (g : Spares A t u) : Spares A s u where
  fences := g.fences.trans h.fences
  epochs := g.epochs.trans h.epochs
  leases := g.leases.trans h.leases
  reports := g.reports.trans h.reports
  sup := by rw [g.sup, h.sup]
  locks l ho hm := g.locks l (h.locks l ho hm).1 (h.locks l ho hm).2
  threads b hb := (g.threads b hb).trans (h.threads b hb)

theorem Spares.mono {B : Set ℕ} (h : Spares A s t) (hAB : A ⊆ B) : Spares B s t :=
  { h with threads := fun b hb => h.threads b fun ha => hb (hAB ha) }

theorem Spares.fencedAg (h : Spares A s t) (b : ℕ) : t.fencedAg b = s.fencedAg b := by rw [State.fencedAg, h.fences, State.fencedAg]

theorem Spares.epochOf (h : Spares A s t) (b : ℕ) : t.epochOf b = s.epochOf b := by rw [State.epochOf, h.epochs, State.epochOf]

/-- A change of the units the relation does not speak of. -/
theorem Spares.units {qm : Qm} {mem : Mem} {pmc : Pmc} {evr : Evr} {twn : Twn} {out : List Out} (h : Spares A s t) :
    Spares A s { t with qm := qm, mem := mem, pmc := pmc, evr := evr, twn := twn, out := out } :=
  h.trans ⟨rfl, rfl, rfl, rfl, rfl, fun _ ho hm => ⟨ho, hm⟩, fun _ _ => rfl⟩

theorem Spares.releases (h : Spares A s t) (g : ReleasesOnly t u) : Spares A s u :=
  h.trans
    { fences := g.fences, epochs := g.epochs, leases := by rw [g.spn], reports := by rw [g.ge], sup := by rw [g.sup]
      locks := fun l ho hm => by simp only [State.lock, g.locks] at *; exact ⟨ho, hm⟩
      threads := fun _ _ => by simp only [State.thread, g.ge] }

theorem Spares.ite {c : Prop} [Decidable c] (h : Spares A s t) (g : Spares A s u) : Spares A s (if c then t else u) := by
  split
  · exact h
  · exact g

theorem Spares.foldl {β : Type} (f : State → β → State) (hf : ∀ u b, Spares A u (f u b)) (l : List β) (h : Spares A s t) :
    Spares A s (l.foldl f t) := by
  induction l generalizing t with
  | nil => exact h
  | cons b bs ih => exact ih (h.trans (hf t b))

theorem Spares.foldr {β : Type} (f : β → State → State) (hf : ∀ b u, Spares A u (f b u)) (l : List β) (h : Spares A s t) :
    Spares A s (l.foldr f t) := by
  induction l with
  | nil => exact h
  | cons b _ ih => exact ih.trans (hf b _)

theorem Spares.setThread (h : Spares A s t) {a : ℕ} (ha : a ∈ A) (x : Thread) : Spares A s (t.setThread a x) :=
  h.trans ⟨rfl, rfl, rfl, rfl, rfl, fun _ ho hm => ⟨ho, hm⟩,
    fun _ hb => State.thread_setThread_other t x fun e => hb (e ▸ ha)⟩

theorem Spares.irq (h : Spares A s t) (k : ℕ) : Spares A s (t.irq k) :=
  h.trans ⟨rfl, rfl, rfl, rfl, rfl, fun _ ho hm => ⟨ho, hm⟩, fun _ _ => rfl⟩

theorem Spares.setDesc (h : Spares A s t) (q : ℕ) (d : Desc) : Spares A s (t.setDesc q d) := h.units

theorem Spares.ramPut (h : Spares A s t) (a : ℕ) (bs : List Byte) : Spares A s (t.ramPut a bs) := h.units

theorem Spares.event (h : Spares A s t) (c : ℕ) (v : W32) : Spares A s (t.event c v) := by
  rw [State.event_frame]
  exact h.units

theorem Spares.count (h : Spares A s t) (ev amt : ℕ) (f : PmcTag) : Spares A s (t.count ev amt f) := by
  rw [State.count_frame]
  exact h.units

theorem Spares.freeLock (h : Spares A s t) (l : ℕ) : Spares A s (t.freeLock l) := by
  refine h.trans ⟨rfl, rfl, rfl, rfl, rfl, fun k ho hm => ?_, fun _ _ => rfl⟩
  rw [State.freeLock]
  by_cases hk : k = l
  · subst hk
    rw [State.lock_setLock_same]
    exact ⟨rfl, hm⟩
  · rw [State.lock_setLock_other _ _ hk]
    exact ⟨ho, hm⟩

/-! ### Queues -/

theorem Spares.publish (h : Spares A s t) (q k : ℕ) (x : Item) : Spares A s (t.publish q k x) := by
  unfold State.publish
  exact Spares.ite ((((h.ramPut _ _).setDesc _ _).count _ _ _).releases ((ReleasesOnly.refl _).mergePublish _ _ _))
    (((h.ramPut _ _).setDesc _ _).count _ _ _)

/-- Own items of another twin's frames may be forgotten; the withdrawn leases stay. -/
theorem Spares.forgets {qm : Qm} (own : List OwnItem) (h : Spares A s t) :
    Spares A s { t with qm := qm, spn := { t.spn with own := own } } :=
  h.trans ⟨rfl, rfl, rfl, rfl, rfl, fun _ ho hm => ⟨ho, hm⟩, fun _ _ => rfl⟩

theorem Spares.queueReset (h : Spares A s t) (q : ℕ) : Spares A s (t.queueReset q) := by
  unfold State.queueReset
  dsimp only
  generalize hu : t.setDesc q _ = u
  have reset : Spares A s u := hu ▸ h.setDesc _ _
  refine Spares.event (Spares.irq ?_ 1) _ _
  split
  · generalize hv : u.setMerge _ _ = v
    have cleared : Spares A s v := hv ▸ reset.releases ((ReleasesOnly.refl _).setMerge _ _)
    exact cleared.forgets _
  · exact reset.forgets _

theorem Spares.qmAccess (h : Spares A s t) (q : ℕ) : Spares A s (t.qmAccess q).2 := by
  unfold State.qmAccess
  dsimp only
  split
  · exact h.queueReset q
  · exact h

theorem Spares.consume (h : Spares A s t) (q g p : ℕ) : Spares A s (t.consume q g p) := by
  unfold State.consume
  exact Spares.ite ((h.qmAccess q).setDesc _ _) (h.qmAccess q)

theorem Spares.setAsideOne (h : Spares A s t) (q : ℕ) (r : Ret) : Spares A s (t.setAsideOne q r).2 := by
  unfold State.setAsideOne
  dsimp only
  generalize hu : (if (t.desc q).sideq = q then (false, t) else t.qmAccess (t.desc q).sideq) = u
  have hk : Spares A s u.2 := by
    rw [← hu]
    split
    · exact h
    · exact h.qmAccess _
  split
  · exact ((((hk.setDesc _ _).publish _ _ _).consume _ _ _).event _ _).count _ _ _
  · split
    · exact hk
    · exact (hk.setDesc _ _).event _ _

theorem Spares.setAsideGo (h : Spares A s t) (n q : ℕ) : Spares A s (State.setAsideGo n q t) := by
  induction n generalizing t with
  | zero => exact h
  | succ n ih =>
    unfold State.setAsideGo
    split
    · exact h
    · next r _ =>
      have k := h.setAsideOne q r
      split
      · next e => rw [e] at k; exact ih k
      · next e => rw [e] at k; exact k

theorem Spares.returnItem (h : Spares A s t) (q g : ℕ) (r : Ret) : Spares A s (t.returnItem q g r) := by
  unfold State.returnItem
  exact Spares.ite (((h.qmAccess q).setDesc _ _).setAsideGo _ q) (h.qmAccess q)

theorem Spares.inflDown (h : Spares A s t) (q g : ℕ) : Spares A s (t.inflDown q g) := by
  unfold State.inflDown
  exact Spares.ite (h.setDesc _ _) h

/-! ### Marks, stages and tasks -/

theorem Spares.dropPend (h : Spares A s t) (a : ℕ) : Spares A s (t.dropPend a) := by
  unfold State.dropPend
  refine Spares.foldl _ (fun u p => ?_) _ (h.trans ⟨rfl, rfl, rfl, rfl, rfl, fun _ ho hm => ⟨ho, hm⟩, fun _ _ => rfl⟩)
  split
  · exact Spares.ite ((Spares.refl A u).ramPut _ _) (Spares.refl A u)
  · exact Spares.refl A u

/-- The stage's reservations and takes and the agent's marks, given back before the thread's own words change. -/
def State.giveBack (a : ℕ) (s : State) : State :=
  State.dropPend a ((s.thread a).stage.takes.foldr (fun p s => s.returnItem p.q p.gen ⟨p.ptr, 0, p.item, false⟩)
    ((if (s.thread a).rpl.isSome then [] else (s.thread a).stage.puts).foldl (fun s p =>
      let (_, s) := s.qmAccess p.q
      let d := s.desc p.q
      if d.gen = p.gen then s.setDesc p.q { d with rsv := d.rsv - 1 } else s) s))

theorem Spares.giveBack (h : Spares A s t) (a : ℕ) : Spares A s (t.giveBack a) := by
  unfold State.giveBack
  refine Spares.dropPend (Spares.foldr _ (fun p u => (Spares.refl A u).returnItem _ _ _) _ ?_) a
  exact Spares.foldl _ (fun u p =>
    Spares.ite (((Spares.refl A u).qmAccess _).setDesc _ _) ((Spares.refl A u).qmAccess _)) _ h

theorem State.dropStage_eq (a : ℕ) (s : State) :
    s.dropStage a = (s.giveBack a).setThread a { s.thread a with stage := {}, jwait := none } := by
  rw [← ((Spares.refl ∅ s).giveBack a).threads a (Set.notMem_empty a)]
  rfl

theorem State.thread_dropStage (a : ℕ) (s : State) : (s.dropStage a).thread a = { s.thread a with stage := {}, jwait := none } := by
  rw [State.dropStage_eq, State.thread_setThread_same]

theorem Spares.dropStage (h : Spares A s t) {a : ℕ} (ha : a ∈ A) : Spares A s (t.dropStage a) := by
  rw [State.dropStage_eq]
  exact (h.giveBack a).setThread ha _

theorem Spares.dropLocks (h : Spares A s t) (a : ℕ) : Spares A s (t.dropLocks a) :=
  Spares.foldl _ (fun u l => Spares.ite ((Spares.refl A u).freeLock l) (Spares.refl A u)) _ h

theorem Spares.freeThread (h : Spares A s t) {a : ℕ} (ha : a ∈ A) : Spares A s (t.freeThread a) := h.setThread ha _

theorem Spares.replayAnswer (h : Spares A s t) (ps : BitVec 48) (d e : Word) (st : Status) : Spares A s (t.replayAnswer ps d e st) := by
  unfold State.replayAnswer State.selfFault
  refine Spares.ite (Spares.ite h.units (Spares.event ?_ _ _)) h.units
  exact h.units

theorem Spares.replayDrop (h : Spares A s t) {a : ℕ} (ha : a ∈ A) : Spares A s (t.replayDrop a) := ((h.dropLocks a).dropStage ha).freeThread ha

theorem Spares.replayCut (h : Spares A s t) {a : ℕ} (ha : a ∈ A) (f : Bool) (ps : BitVec 48) (r : ReplayRec) :
    Spares A s (t.replayCut a f ps r) := by
  unfold State.replayCut
  exact Spares.ite ((h.replayDrop ha).replayAnswer _ _ _ _) (Spares.replayDrop h.units ha)

theorem Spares.classIssued (h : Spares A s t) (a k : ℕ) : Spares A s (t.classIssued a k) := by
  unfold State.classIssued
  exact Spares.ite h.units h

theorem Spares.endTask (h : Spares A s t) {a : ℕ} (ha : a ∈ A) (raise keep fault : Bool) : Spares A s (t.endTask a raise keep fault) := by
  unfold State.endTask
  dsimp only
  split
  · exact h.replayCut ha _ _ _
  · exact ((((((Spares.ite h (h.dropLocks a)).dropStage ha).returnItem _ _ _).inflDown _ _).classIssued _ _).count _ _ _).freeThread ha

theorem Spares.loseTask (h : Spares A s t) {a : ℕ} (ha : a ∈ A) : Spares A s (t.loseTask a) := by
  unfold State.loseTask
  exact Spares.ite h (Spares.ite (h.dropStage ha) (Spares.ite (h.endTask ha _ _ _) h))

end Sys2Proof.Machine
end

section
/-! ## What a raised epoch leaves as it was (R116) -/

namespace Sys2Proof.Machine
open Sys2Proof

variable {A : Set ℕ} {s t : State}

theorem Spares.evrOnly {u : State} (h : Spares A s t) (g : EvrOnly t u) : Spares A s u := by
  rw [g]
  exact h.units

theorem State.freezeEnd_evrOnly (s : State) (r : ℕ) : EvrOnly s (s.freezeEnd r) := by
  have place (l : List (BitVec 256)) (t : State) : EvrOnly t (l.foldl (fun s r => s.evPlace (heldRecord r)) t) := by
    induction l generalizing t with
    | nil => exact EvrOnly.refl t
    | cons x xs ih => exact (t.evPlace_evrOnly _).trans (ih _)
  unfold State.freezeEnd
  split
  · exact EvrOnly.refl s
  · next o _ =>
    have held : EvrOnly s _ := (EvrOnly.with s { s.evr with frozen := none, hold := [], dropped := 0 }).trans (place s.evr.hold _)
    dsimp only
    split <;> split
    · exact held
    · exact held.trans (State.event_frame _ _ _)
    · exact held.trans (State.event_frame _ _ _)
    · exact (held.trans (State.event_frame _ _ _)).trans (State.event_frame _ _ _)

theorem Spares.sequences (h : Spares A s t) (seqs : Tab Seqn) : Spares A s { t with ord := { t.ord with seqs := seqs } } :=
  h.trans ⟨rfl, rfl, rfl, rfl, rfl, fun _ ho hm => ⟨ho, hm⟩, fun _ _ => rfl⟩

theorem Spares.seqExpire (h : Spares A s t) (n c : ℕ) : Spares A s (t.seqExpire n c) := by
  unfold State.seqExpire
  dsimp only
  split
  · exact h
  · split
    · exact h
    · refine Spares.event ?_ _ _
      exact h.sequences _

/-- The epoch itself, before what lapses with it. -/
def State.bumpEpoch (a : ℕ) (s : State) : State :=
  { s with ord := { s.ord with epochs := Tab.set 0#32 s.ord.epochs a (s.epochOf a + 1#32) } }

theorem State.raiseEpoch_spares (a : ℕ) (s : State) : Spares ∅ (s.bumpEpoch a) (s.raiseEpoch a) := by
  have h := (Spares.refl ∅ (s.bumpEpoch a)).dropPend a
  have seqs := Spares.foldl (fun (s : State) (p : ℕ × Seqn) => s.seqExpire p.1 2) (fun u p => (Spares.refl ∅ u).seqExpire p.1 2)
    (((s.bumpEpoch a).dropPend a).ord.seqs.filter (fun p => decide (p.2.owner.isSome ∧ p.2.ownerAgent = a))) h
  unfold State.raiseEpoch
  dsimp only
  split
  · exact Spares.ite (seqs.evrOnly (State.freezeEnd_evrOnly _ 2)) seqs
  · exact seqs

theorem State.epochOf_raiseEpoch_same (a : ℕ) (s : State) : (s.raiseEpoch a).epochOf a = s.epochOf a + 1#32 := by
  rw [(s.raiseEpoch_spares a).epochOf]
  exact Tab.get_set_same ..

theorem State.epochOf_raiseEpoch_other {a b : ℕ} (h : b ≠ a) (s : State) : (s.raiseEpoch a).epochOf b = s.epochOf b := by
  rw [(s.raiseEpoch_spares a).epochOf]
  exact Tab.get_set_other _ _ _ h

theorem State.thread_raiseEpoch (a b : ℕ) (s : State) : (s.raiseEpoch a).thread b = s.thread b :=
  (s.raiseEpoch_spares a).threads b (Set.notMem_empty b)

theorem State.revoked_raiseEpoch (a : ℕ) (s : State) : (s.raiseEpoch a).spn.revoked = s.spn.revoked := (s.raiseEpoch_spares a).leases

end Sys2Proof.Machine
end

section
/-! ## The supervisor's own instructions (R62, R116, R120 to R124) -/

namespace Sys2Proof.Machine
open Sys2Proof

variable {s u : State} {p : Fin 8} {n : Bool} {rd ra rb : GReg}

/-! ### How an instruction of the supervisor ends -/

theorem garnilSup_sup (p : Fin 8) (n : Bool) (F : State → GRes) (s : State) : garnilSup ⟨.sup, p, n⟩ F s = garnil ⟨.sup, p, n⟩ F s := rfl

theorem State.pc_setPc_sup (u : State) (k : ℕ) : ((u.setPc .sup k).thread agSup).pc = BitVec.ofNat 24 k :=
  congrArg Thread.pc (State.me_setPc u .sup k)

/-- A register of the supervisor written, the instruction after it next. -/
def State.answered (rd : GReg) (v : Word) (pc : ℕ) (u : State) : State := (u.putMe .sup ((u.me .sup).setG rd v)).setPc .sup pc

theorem State.pc_answered (u : State) (v : Word) (k : ℕ) : ((u.answered rd v k).thread agSup).pc = BitVec.ofNat 24 k :=
  State.pc_setPc_sup _ k

theorem State.getG_answered (u : State) (v : Word) (k : ℕ) : ((u.answered rd v k).thread agSup).getG rd = if rd = 0 then 0#64 else v := by
  have hme : (u.answered rd v k).thread agSup = { (u.me .sup).setG rd v with pc := BitVec.ofNat 24 k } := by
    refine (State.me_setPc _ .sup k).trans ?_
    rw [State.me_putMe]
  rw [hme]
  split_ifs with hrd
  · subst hrd
    rfl
  · have hval : rd.val ≠ 0 := fun h => hrd (Fin.ext h)
    exact (Thread.getG_setG _ rd rd v).trans (by simp [hval])

theorem State.getG_answered_zero (u : State) (k : ℕ) : ((u.answered rd 0#64 k).thread agSup).getG rd = 0#64 := by
  rw [State.getG_answered, ite_self]

theorem State.lock_answered (u : State) (v : Word) (k l : ℕ) : (u.answered rd v k).lock l = u.lock l := rfl

theorem State.epochOf_answered (u : State) (v : Word) (k a : ℕ) : (u.answered rd v k).epochOf a = u.epochOf a := rfl

theorem State.revoked_answered (u : State) (v : Word) (k : ℕ) : (u.answered rd v k).spn.revoked = u.spn.revoked := rfl

theorem State.seq_answered (u : State) (v : Word) (k m : ℕ) : (u.answered rd v k).seq m = u.seq m := rfl

theorem State.regs_answered (u : State) (v : Word) (k : ℕ) : (u.answered rd v k).regs = u.regs := rfl

theorem gives_of_answer {c : Instr} {F : State → GRes} {v : Word} {P : State → Prop} (hc : exec c s = garnil ⟨.sup, p, n⟩ F s)
    (hr : Runs ⟨.sup, p, n⟩ s) (hF : F s = goG .sup rd v u) (hP : P (u.answered rd v (PcOf ⟨.sup, p, n⟩ s + 4))) : Gives c s P :=
  gives_of_next hc hr hF hP

/-! ### FENCEA and UNFENCE -/

theorem State.reserveCheck_frame (c : ℕ) (s : State) :
    s.reserveCheck c = { s with evr := (s.reserveCheck c).evr, ge := { s.ge with rsvlost := (s.reserveCheck c).ge.rsvlost } } := by
  unfold State.reserveCheck
  dsimp only
  split_ifs
  · rfl
  · rw [State.event_frame]
  · rfl
  · rfl

theorem State.reserveCheck_ord (c : ℕ) (s : State) : (s.reserveCheck c).ord = s.ord := by rw [State.reserveCheck_frame]

theorem State.fences_fence (a : ℕ) (s : State) : (s.fence a).ord.fences = Tab.set false s.ord.fences a true := by
  unfold State.fence
  dsimp only
  split_ifs
  · rw [State.reserveCheck_ord]
  · rfl

theorem State.fences_unfence (a : ℕ) (s : State) : (s.unfence a).ord.fences = Tab.set false s.ord.fences a false := by
  unfold State.unfence
  dsimp only
  split_ifs
  · rw [State.reserveCheck_ord]
  · rfl

/-- The instruction sets agent `a`'s fence bit to `v` and goes on. -/
theorem gives_of_fences {c : Instr} {F : State → GRes} {a : ℕ} {v : Bool} (hc : exec c s = garnil ⟨.sup, p, n⟩ F s)
    (hr : Runs ⟨.sup, p, n⟩ s) (hF : F s = .go u) (hu : u.ord.fences = Tab.set false s.ord.fences a v) :
    Gives c s (fun t => t.fencedAg a = v ∧ (∀ b, b ≠ a → t.fencedAg b = s.fencedAg b) ∧
      (t.thread agSup).pc = BitVec.ofNat 24 (PcOf ⟨.sup, p, n⟩ s + 4)) := by
  have hget (b : ℕ) : u.fencedAg b = Tab.get false (Tab.set false s.ord.fences a v) b := congrArg (fun f => Tab.get false f b) hu
  exact gives_of_next hc hr hF ⟨(hget a).trans (Tab.get_set_same ..), fun b hb => (hget b).trans (Tab.get_set_other _ _ _ hb),
    State.pc_setPc_sup _ _⟩

theorem fencea_gives {a : ℕ} (hr : Runs ⟨.sup, p, n⟩ s) (ha : ((Reads ⟨.sup, p, n⟩ s ra).extractLsb' 0 9).toNat = a) (hk : a ≤ 0x85) :
    Gives (.fencea ⟨.sup, p, n⟩ ra) s (fun t => t.fencedAg a = true ∧ (∀ b, b ≠ a → t.fencedAg b = s.fencedAg b) ∧
      (t.thread agSup).pc = BitVec.ofNat 24 (PcOf ⟨.sup, p, n⟩ s + 4)) := by
  have hc : exec (.fencea ⟨.sup, p, n⟩ ra) s = execFencea ⟨.sup, p, n⟩ ra s := rfl
  rw [execFencea, garnilSup_sup] at hc
  have hno : agentNo ((s.me .sup).getG ra) = a := ha
  have hknown : agentKnown a = true := decide_eq_true hk
  refine gives_of_fences hc hr ?_ (s.fences_fence a)
  show GRes.go (if agentKnown (agentNo ((s.me .sup).getG ra)) then s.fence (agentNo ((s.me .sup).getG ra)) else s) = _
  rw [hno, if_pos hknown]

theorem unfence_gives {a : ℕ} (hr : Runs ⟨.sup, p, n⟩ s) (ha : ((Reads ⟨.sup, p, n⟩ s ra).extractLsb' 0 9).toNat = a) (hk : a ≤ 0x85) :
    Gives (.unfence ⟨.sup, p, n⟩ ra) s (fun t => t.fencedAg a = false ∧ (∀ b, b ≠ a → t.fencedAg b = s.fencedAg b) ∧
      (t.thread agSup).pc = BitVec.ofNat 24 (PcOf ⟨.sup, p, n⟩ s + 4)) := by
  have hc : exec (.unfence ⟨.sup, p, n⟩ ra) s = execUnfence ⟨.sup, p, n⟩ ra s := rfl
  rw [execUnfence, garnilSup_sup] at hc
  have hno : agentNo ((s.me .sup).getG ra) = a := ha
  have hknown : agentKnown a = true := decide_eq_true hk
  refine gives_of_fences hc hr ?_ (s.fences_unfence a)
  show GRes.go (if agentKnown (agentNo ((s.me .sup).getG ra)) then s.unfence (agentNo ((s.me .sup).getG ra)) else s) = _
  rw [hno, if_pos hknown]

/-! ### AGRESET -/

/-- The state whose epoch an agent's reset raises: the agent's own work is gone. -/
def State.resetDone (a : ℕ) (s v : State) : Prop :=
  s.agentReset a = v.raiseEpoch a ∧ v.ord.epochs = s.ord.epochs ∧ v.spn.revoked = s.spn.revoked

theorem State.agentReset_sup (s : State) : s.resetDone agSup s.supRestart ∧ (s.supRestart.thread agSup).pc = 0#24 := by
  have h := (Spares.refl {agSup} s).dropStage (Set.mem_singleton agSup)
  refine ⟨⟨rfl, h.epochs, h.leases⟩, ?_⟩
  show ((State.setThread _ agSup _).thread agSup).pc = _
  rw [State.thread_setThread_same]

theorem State.agentReset_other {a : ℕ} (hw : (s.thread a).st ≠ .waitAck) (hs : a ≠ agSup) :
    ∃ v, s.resetDone a v := by
  unfold State.resetDone State.agentReset
  by_cases hlt : a < 128
  · have hspares : Spares {a} s (if (s.thread a).busy then s.endTask a false true false else s) :=
      Spares.ite ((Spares.refl _ s).endTask (Set.mem_singleton a) _ _ _) (Spares.refl _ s)
    simp only [hlt, hw, if_true, if_false]
    exact ⟨_, rfl, hspares.epochs, hspares.leases⟩
  · simp only [hlt, hs, if_false]
    split_ifs
    · exact ⟨_, rfl, rfl, rfl⟩
    · exact ⟨_, rfl, rfl, rfl⟩
    · exact ⟨s, rfl, rfl, rfl⟩

/-- The withdrawn leases without the agent's. -/
def State.leaseBack (a : ℕ) (s : State) : State := { s with spn := { s.spn with revoked := s.spn.revoked.filter (fun b => decide (b ≠ a)) } }

theorem State.resetDone.facts {a : ℕ} {v : State} (h : (s.leaseBack a).resetDone a v) :
    a ∉ ((s.leaseBack a).agentReset a).spn.revoked ∧ ((s.leaseBack a).agentReset a).epochOf a = s.epochOf a + 1#32 ∧
      ∀ b, b ≠ a → ((s.leaseBack a).agentReset a).epochOf b = s.epochOf b := by
  obtain ⟨heq, hepochs, hrevoked⟩ := h
  have hv (b : ℕ) : v.epochOf b = s.epochOf b := congrArg (fun e => Tab.get 0#32 e b) hepochs
  rw [heq, State.revoked_raiseEpoch, hrevoked, State.epochOf_raiseEpoch_same, hv]
  refine ⟨fun hmem => ?_, rfl, fun b hb => by rw [State.epochOf_raiseEpoch_other hb, hv]⟩
  exact of_decide_eq_true (List.mem_filter.mp hmem).2 rfl

theorem agreset_means {a : ℕ} (ha : ((Reads ⟨.sup, p, n⟩ s ra).extractLsb' 0 9).toNat = a) (hk : a ≤ 0x85) :
    ∃ F, exec (.agreset ⟨.sup, p, n⟩ ra) s = garnil ⟨.sup, p, n⟩ F s ∧
      F s = if a = agSup then .stop ((s.leaseBack a).agentReset a) else .go ((s.leaseBack a).agentReset a) := by
  have hc : exec (.agreset ⟨.sup, p, n⟩ ra) s = execAgreset ⟨.sup, p, n⟩ ra s := rfl
  rw [execAgreset, garnilSup_sup] at hc
  refine ⟨_, hc, ?_⟩
  have hno : agentNo ((s.me .sup).getG ra) = a := ha
  have hknown : agentKnown a = true := decide_eq_true hk
  show (if !agentKnown (agentNo ((s.me .sup).getG ra)) then GRes.go (s.leaseBack (agentNo ((s.me .sup).getG ra)))
    else if agentNo ((s.me .sup).getG ra) = agSup then
      .stop ((s.leaseBack (agentNo ((s.me .sup).getG ra))).agentReset (agentNo ((s.me .sup).getG ra)))
    else .go ((s.leaseBack (agentNo ((s.me .sup).getG ra))).agentReset (agentNo ((s.me .sup).getG ra)))) = _
  rw [hno, hknown, if_neg (by decide)]

theorem agreset_gives {a : ℕ} (hr : Runs ⟨.sup, p, n⟩ s) (ha : ((Reads ⟨.sup, p, n⟩ s ra).extractLsb' 0 9).toNat = a) (hk : a ≤ 0x85)
    (hw : (s.thread a).st ≠ .waitAck) :
    Gives (.agreset ⟨.sup, p, n⟩ ra) s (fun t => a ∉ t.spn.revoked ∧ t.epochOf a = s.epochOf a + 1#32 ∧
      (∀ b, b ≠ a → t.epochOf b = s.epochOf b) ∧
      (t.thread agSup).pc = BitVec.ofNat 24 (if a = agSup then 0 else PcOf ⟨.sup, p, n⟩ s + 4)) := by
  obtain ⟨F, hc, hF⟩ := agreset_means ha hk
  by_cases hs : a = agSup
  · obtain ⟨hreset, hpc⟩ := (s.leaseBack a).agentReset_sup
    rw [← hs] at hreset
    obtain ⟨hleases, hepoch, hothers⟩ := hreset.facts
    refine gives_of_stop hc hr (hF.trans (if_pos hs)) ⟨hleases, hepoch, hothers, ?_⟩
    rw [hreset.1, State.thread_raiseEpoch, hpc, if_pos hs]
  · obtain ⟨v, hreset⟩ := State.agentReset_other (s := s.leaseBack a) hw hs
    obtain ⟨hleases, hepoch, hothers⟩ := hreset.facts
    refine gives_of_next hc hr (hF.trans (if_neg hs)) ⟨hleases, hepoch, hothers, ?_⟩
    rw [if_neg hs]
    exact State.pc_setPc_sup _ _

/-! ### REVOKE -/

/-- What the loss of a resource does to the agent it is taken from (R21, R116, R124). -/
def State.loses (a : ℕ) (s : State) : State := (if (s.locksOf a).isEmpty then s else s.loseTask a).raiseEpoch a

theorem State.loses_facts (a : ℕ) (s : State) :
    (s.loses a).epochOf a = s.epochOf a + 1#32 ∧ (s.loses a).spn.revoked = s.spn.revoked ∧
      (∀ l, (s.lock l).owner = none → (s.lock l).mark = true → ((s.loses a).lock l).owner = none ∧ ((s.loses a).lock l).mark = true) := by
  have h : Spares {a} s (if (s.locksOf a).isEmpty then s else s.loseTask a) :=
    Spares.ite (Spares.refl _ s) ((Spares.refl _ s).loseTask (Set.mem_singleton _))
  have hbump := State.raiseEpoch_spares a (if (s.locksOf a).isEmpty then s else s.loseTask a)
  refine ⟨?_, ?_, fun l ho hm => ?_⟩
  · rw [State.loses, State.epochOf_raiseEpoch_same, h.epochOf]
  · rw [State.loses, State.revoked_raiseEpoch, h.leases]
  · obtain ⟨ho', hm'⟩ := h.locks l ho hm
    exact hbump.locks l ho' hm'

theorem State.revoke_high {k : ℕ} (r : Word) (h : 3 < k) : s.revoke k r = (.outOfRange, [], s) := by
  match k with
  | 0 | 1 | 2 | 3 => omega
  | _ + 4 => rfl

theorem revoke_means {k : ℕ} {st : Status} {as : List ℕ} {v : State} (hk : (Reads ⟨.sup, p, n⟩ s ra).toNat = k)
    (h : s.revoke k (Reads ⟨.sup, p, n⟩ s rb) = (st, as, v)) :
    ∃ F, exec (.revoke ⟨.sup, p, n⟩ rd ra rb) s = garnil ⟨.sup, p, n⟩ F s ∧
      F s = goG .sup rd st.word (as.foldl (fun s a => s.loses a) v) := by
  have hc : exec (.revoke ⟨.sup, p, n⟩ rd ra rb) s = execRevoke ⟨.sup, p, n⟩ rd ra rb s := rfl
  rw [execRevoke, garnilSup_sup] at hc
  refine ⟨_, hc, ?_⟩
  subst hk
  generalize hm : s.revoke (Reads ⟨.sup, p, n⟩ s ra).toNat (Reads ⟨.sup, p, n⟩ s rb) = m at h
  subst h
  exact congrArg (fun m : Status × List ℕ × State => goG .sup rd m.1.word (m.2.1.foldl (fun s a => s.loses a) m.2.2)) hm

theorem revoke_refused {k : ℕ} {st : Status} (hr : Runs ⟨.sup, p, n⟩ s) (hk : (Reads ⟨.sup, p, n⟩ s ra).toNat = k)
    (h : s.revoke k (Reads ⟨.sup, p, n⟩ s rb) = (st, [], s)) :
    Sets (.revoke ⟨.sup, p, n⟩ rd ra rb) ⟨.sup, p, n⟩ rd (BitVec.ofNat 64 st.code) s := by
  obtain ⟨F, hc, hF⟩ := revoke_means hk h
  exact sets_of_goG hc hr hF

/-- A resource withdrawn from agent `o`. -/
theorem revoke_taken {k o : ℕ} {v : State} {P : State → Prop} (hr : Runs ⟨.sup, p, n⟩ s) (hk : (Reads ⟨.sup, p, n⟩ s ra).toNat = k)
    (h : s.revoke k (Reads ⟨.sup, p, n⟩ s rb) = (.ok, [o], v))
    (hP : P ((v.loses o).answered rd 0#64 (PcOf ⟨.sup, p, n⟩ s + 4))) : Gives (.revoke ⟨.sup, p, n⟩ rd ra rb) s P := by
  obtain ⟨F, hc, hF⟩ := revoke_means hk h
  exact gives_of_answer hc hr hF hP

/-- The lock as its withdrawal leaves it, before the loser's epoch rises. -/
def State.lockTaken (o l : ℕ) (s : State) : State :=
  State.freeLock l ((s.loseTask o).setLock l { (s.loseTask o).lock l with mark := true })

theorem State.revokeLock_fenced {l o : ℕ} (ho : (s.lock l).owner = some (o, s.epochOf o)) (hf : s.fencedAg o = true) :
    s.revokeLock l = (.ok, [o], s.lockTaken o l) := by
  simp only [State.revokeLock, ho, hf, if_true]
  rfl

theorem State.revokeLock_unfenced {l o : ℕ} (ho : (s.lock l).owner = some (o, s.epochOf o)) (hf : s.fencedAg o = false) :
    s.revokeLock l = (.denied, [], s) := by
  simp only [State.revokeLock, ho, hf, Bool.false_eq_true, if_false, ne_eq, not_true_eq_false]

theorem State.lockTaken_facts (o l : ℕ) (s : State) :
    ((s.lockTaken o l).lock l).owner = none ∧ ((s.lockTaken o l).lock l).mark = true ∧ (s.lockTaken o l).epochOf o = s.epochOf o := by
  have h : Spares {o} s (s.loseTask o) := (Spares.refl _ s).loseTask (Set.mem_singleton _)
  refine ⟨?_, ?_, h.epochOf o⟩ <;> simp only [State.lockTaken, State.freeLock, State.lock_setLock_same]

theorem revoke_lock_taken {l o : ℕ} (hr : Runs ⟨.sup, p, n⟩ s) (hk : Reads ⟨.sup, p, n⟩ s ra = 1#64)
    (hl : ((Reads ⟨.sup, p, n⟩ s rb).extractLsb' 0 12).toNat = l) (ho : (s.lock l).owner = some (o, s.epochOf o)) (hf : s.fencedAg o = true) :
    Gives (.revoke ⟨.sup, p, n⟩ rd ra rb) s (fun t => (t.lock l).owner = none ∧ (t.lock l).mark = true ∧
      t.epochOf o = s.epochOf o + 1#32 ∧ (t.thread agSup).getG rd = 0#64 ∧
      (t.thread agSup).pc = BitVec.ofNat 24 (PcOf ⟨.sup, p, n⟩ s + 4)) := by
  obtain ⟨howner, hmark, hepoch⟩ := s.lockTaken_facts o l
  obtain ⟨hraised, -, hlocks⟩ := (s.lockTaken o l).loses_facts o
  obtain ⟨howner, hmark⟩ := hlocks l howner hmark
  have htaken : s.revoke 1 (Reads ⟨.sup, p, n⟩ s rb) = (.ok, [o], s.lockTaken o l) := by
    subst hl
    exact State.revokeLock_fenced ho hf
  refine revoke_taken hr (by rw [hk]; rfl) htaken ?_
  rw [State.lock_answered, State.epochOf_answered, hraised, hepoch]
  exact ⟨howner, hmark, rfl, State.getG_answered_zero _ _, State.pc_answered _ _ _⟩

theorem State.revokeSpindle_taken {o : ℕ} (hk : o ≤ 0x85) (hn : o ∉ s.spn.revoked) (hf : s.fencedAg o = true) :
    s.revokeSpindle o = (.ok, [o], { s with spn := { s.spn with revoked := s.spn.revoked ++ [o] } }) := by
  have hknown : agentKnown o = true := decide_eq_true hk
  simp [State.revokeSpindle, hknown, hn, hf]

theorem State.revokeSpindle_denied {o : ℕ} (hk : o ≤ 0x85) (hn : o ∉ s.spn.revoked) (hf : s.fencedAg o = false) :
    s.revokeSpindle o = (.denied, [], s) := by
  have hknown : agentKnown o = true := decide_eq_true hk
  simp [State.revokeSpindle, hknown, hn, hf]

theorem revoke_lease_taken {o : ℕ} (hr : Runs ⟨.sup, p, n⟩ s) (hk : Reads ⟨.sup, p, n⟩ s ra = 3#64)
    (ho : (Reads ⟨.sup, p, n⟩ s rb).toNat = o) (hknown : o ≤ 0x85) (hn : o ∉ s.spn.revoked) (hf : s.fencedAg o = true) :
    Gives (.revoke ⟨.sup, p, n⟩ rd ra rb) s (fun t => o ∈ t.spn.revoked ∧ t.epochOf o = s.epochOf o + 1#32 ∧
      (t.thread agSup).getG rd = 0#64 ∧ (t.thread agSup).pc = BitVec.ofNat 24 (PcOf ⟨.sup, p, n⟩ s + 4)) := by
  subst ho
  obtain ⟨hraised, hleases, -⟩ := State.loses_facts (Reads ⟨.sup, p, n⟩ s rb).toNat
    { s with spn := { s.spn with revoked := s.spn.revoked ++ [(Reads ⟨.sup, p, n⟩ s rb).toNat] } }
  refine revoke_taken hr (k := 3) (by rw [hk]; rfl) (State.revokeSpindle_taken hknown hn hf) ?_
  rw [State.revoked_answered, State.epochOf_answered, hraised, hleases]
  exact ⟨List.mem_append_right _ (List.mem_singleton.mpr rfl), rfl, State.getG_answered_zero _ _, State.pc_answered _ _ _⟩

/-! ### SEQOPEN and SEQCLOSE -/

theorem State.seq_seqNote (u : State) (i : Init) (k : ℕ) (st : Status) (m : ℕ) : (u.seqNote i k st).seq m = u.seq m := rfl

theorem seqopen_gives {m : ℕ} {st : Status} {v : State} {P : State → Prop} (hr : Runs ⟨.sup, p, n⟩ s)
    (hm : ((Reads ⟨.sup, p, n⟩ s ra).extractLsb' 0 16).toNat = m) (h : s.seqOpen .sup m = (st, v))
    (hP : P (v.answered rd (BitVec.ofNat 64 st.code) (PcOf ⟨.sup, p, n⟩ s + 4))) : Gives (.seqopen ⟨.sup, p, n⟩ rd ra) s P := by
  have hc : exec (.seqopen ⟨.sup, p, n⟩ rd ra) s = execSeqopen ⟨.sup, p, n⟩ rd ra s := rfl
  rw [execSeqopen, garnilSup_sup] at hc
  refine gives_of_answer (u := v) hc hr ?_ hP
  subst hm
  generalize hq : s.seqOpen .sup _ = q at h
  subst h
  exact congrArg (fun q : Status × State => goG .sup rd q.1.word q.2) hq

theorem seqopen_free {m : ℕ} (hr : Runs ⟨.sup, p, n⟩ s) (hm : ((Reads ⟨.sup, p, n⟩ s ra).extractLsb' 0 16).toNat = m)
    (hmay : seqMayOpen m .sup = true) (ho : (s.seq m).owner = none) :
    Gives (.seqopen ⟨.sup, p, n⟩ rd ra) s (fun t => (t.seq m).owner = some .sup ∧ (t.seq m).writes = [] ∧
      (t.seq m).opened = s.tb.elapsed ∧ (t.thread agSup).getG rd = 0#64 ∧
      (t.thread agSup).pc = BitVec.ofNat 24 (PcOf ⟨.sup, p, n⟩ s + 4)) := by
  refine seqopen_gives hr hm (State.seqOpen_free hmay ho) ?_
  rw [State.seq_answered, State.seq_seqNote, State.seq_setSeq_same]
  exact ⟨rfl, rfl, rfl, State.getG_answered_zero _ _, State.pc_answered _ _ _⟩

theorem seqopen_held {m : ℕ} {o : Init} (hr : Runs ⟨.sup, p, n⟩ s) (hm : ((Reads ⟨.sup, p, n⟩ s ra).extractLsb' 0 16).toNat = m)
    (hne : o ≠ .sup) (hmay : seqMayOpen m .sup = true) (ho : (s.seq m).owner = some o) :
    Gives (.seqopen ⟨.sup, p, n⟩ rd ra) s (fun t => t.seq m = s.seq m ∧ (rd ≠ 0 → (t.thread agSup).getG rd = 0x10#64) ∧
      (t.thread agSup).pc = BitVec.ofNat 24 (PcOf ⟨.sup, p, n⟩ s + 4)) :=
  seqopen_gives hr hm (State.seqOpen_held hmay ho hne)
    ⟨rfl, fun hrd => (State.getG_answered _ _ _).trans (if_neg hrd), State.pc_answered _ _ _⟩

theorem seqclose_discards {m : ℕ} (hr : Runs ⟨.sup, p, n⟩ s) (hm : ((Reads ⟨.sup, p, n⟩ s ra).extractLsb' 0 16).toNat = m)
    (ho : (s.seq m).owner = some .sup) (hb : (Reads ⟨.sup, p, n⟩ s rb).getLsbD 0 = false) (hotp : s.sec.otp = none) :
    Gives (.seqclose ⟨.sup, p, n⟩ rd ra rb) s (fun t => (t.seq m).owner = none ∧ (t.seq m).writes = [] ∧ t.regs = s.regs ∧
      (t.thread agSup).getG rd = 0#64 ∧ (t.thread agSup).pc = BitVec.ofNat 24 (PcOf ⟨.sup, p, n⟩ s + 4)) := by
  have hc : exec (.seqclose ⟨.sup, p, n⟩ rd ra rb) s = execSeqclose ⟨.sup, p, n⟩ rd ra rb s := rfl
  rw [execSeqclose, garnilSup_sup] at hc
  refine gives_of_answer (u := (s.seqFree m).seqNote .sup m .ok) (rd := rd) (v := 0#64) hc hr ?_ ?_
  · have hbit : bit (Reads ⟨.sup, p, n⟩ s rb) 0 = false := hb
    have hclose : s.seqClose .sup m (bit (Reads ⟨.sup, p, n⟩ s rb) 0) = (.ok, false, (s.seqFree m).seqNote .sup m .ok) := by
      rw [hbit]
      exact State.seqClose_discards ho hotp
    subst hm
    exact congrArg (fun q : Status × Bool × State =>
      if q.2.1 then GRes.go (q.2.2.putMe .sup { q.2.2.me .sup with st := .waitClose rd }) else goG .sup rd q.1.word q.2.2) hclose
  · rw [State.seq_answered, State.regs_answered, State.seq_seqNote, State.seqFree, State.seq_setSeq_same]
    exact ⟨rfl, rfl, rfl, State.getG_answered_zero _ _, State.pc_answered _ _ _⟩

/-! ### IRET, WFI and EVPOSTS -/

theorem getLsbD_setFld_two (w : Word) : (setFld w 0 (2#2)).getLsbD 0 = false ∧ (setFld w 0 (2#2)).getLsbD 1 = true := by
  constructor <;> simp [setFld]

theorem iret_gives (hr : Runs ⟨.sup, p, n⟩ s) (hpc : s.sup.sepc.toNat < 2 ^ 20) (h4 : s.sup.sepc.toNat % 4 = 0) :
    Gives (.iret ⟨.sup, p, n⟩) s (fun t => (t.thread agSup).pc = s.sup.sepc.setWidth 24 ∧
      t.sup.sstatus.getLsbD 0 = false ∧ t.sup.sstatus.getLsbD 1 = true) := by
  have hc : exec (.iret ⟨.sup, p, n⟩) s = execIret ⟨.sup, p, n⟩ s := rfl
  rw [execIret, garnilSup_sup] at hc
  have hcode : 0 ≤ (s.sup.sepc.toNat : ℤ) ∧ (s.sup.sepc.toNat : ℤ) < (codeSize agSup : ℕ) ∧ (s.sup.sepc.toNat : ℤ) % 4 = 0 := by
    have hsize : codeSize agSup = 2 ^ 20 := if_pos rfl
    omega
  refine ⟨State.setPc .sup s.sup.sepc.toNat { s with sup := { s.sup with sstatus := setFld s.sup.sstatus 0 (2#2) } }, ?_, ?_,
    getLsbD_setFld_two s.sup.sstatus⟩
  · rw [hc, garnil_runs _ _ s hr]
    exact congrArg (finish .sup _ s) (if_pos hcode)
  · rw [State.pc_setPc_sup, BitVec.ofNat_toNat]

theorem wfi_outcome (hr : Runs ⟨.sup, p, n⟩ s) :
    if s.sup.sien &&& s.sup.sipend = 0#64 then Does (.wfi ⟨.sup, p, n⟩) ⟨.sup, p, n⟩ (fun t => { t with st := .waitIrq }) s
    else Does (.wfi ⟨.sup, p, n⟩) ⟨.sup, p, n⟩ (fun t => t) s := by
  have hc : exec (.wfi ⟨.sup, p, n⟩) s = execWfi ⟨.sup, p, n⟩ s := rfl
  rw [execWfi, garnilSup_sup] at hc
  split_ifs with h
  · refine does_of_goT hc hr (if_neg ?_) fun _ _ => rfl
    exact fun hdue => of_decide_eq_true hdue h
  · exact does_nothing_of_go (hc.trans ((garnil_runs _ _ s hr).trans (congrArg (finish .sup _ s) (if_pos (decide_eq_true h)))))

theorem evposts_gives {m : ℕ} (hr : Runs ⟨.sup, p, n⟩ s) (hm : ((Reads ⟨.sup, p, n⟩ s ra).extractLsb' 0 16).toNat = m) :
    Gives (.evposts ⟨.sup, p, n⟩ ra rb) s (fun t =>
      t = (s.eventAs 0x48 (s.evFlags m) m ((Reads ⟨.sup, p, n⟩ s rb).setWidth 32)).setPc .sup (PcOf ⟨.sup, p, n⟩ s + 4)) := by
  have hc : exec (.evposts ⟨.sup, p, n⟩ ra rb) s = execEvposts ⟨.sup, p, n⟩ ra rb s := rfl
  rw [execEvposts, garnilSup_sup] at hc
  subst hm
  refine gives_of_next hc hr rfl ?_
  rw [← fld_zero_eq_setWidth]
  rfl

end Sys2Proof.Machine
end

section
open Sys2Proof Sys2Proof.Machine

/-- Settles O19, by the instructions: what each does to the fence, the epoch, the resource or the sequence it names, through the
facts about what the end of another agent's task and a raised epoch leave as they were. -/
theorem supervisorInstructions : Obligations.SupervisorInstructions := by
  unfold Obligations.SupervisorInstructions
  rintro ⟨who, p, n⟩ rd ra rb s rfl hr
  refine ⟨fun hk => ⟨fencea_gives hr rfl hk, unfence_gives hr rfl hk⟩, fun hk hw => agreset_gives hr rfl hk hw,
    fun hkind o ho => ⟨revoke_lock_taken hr hkind rfl ho, fun hf => ?_⟩,
    fun hkind hk hn => ⟨revoke_lease_taken hr hkind rfl hk hn, fun hf => ?_⟩,
    fun hkind => revoke_refused hr rfl (State.revoke_high _ hkind), seqopen_free hr rfl, fun o => seqopen_held hr rfl,
    seqclose_discards hr rfl, iret_gives hr, wfi_outcome hr, evposts_gives hr rfl⟩
  · exact revoke_refused hr (k := 1) (by rw [hkind]; rfl) (State.revokeLock_unfenced ho hf)
  · exact revoke_refused hr (k := 3) (by rw [hkind]; rfl) (State.revokeSpindle_denied hk hn hf)

end

section
/-! ## Which word spells an instruction does not depend on who executes it (R31, R33) -/

namespace Sys2Proof.Machine
open Sys2Proof

/-- Whether the table gives the word an instruction is the same for every thread and predicate. -/
abbrev SpelledAlike (f : Ix → W32 → Option Instr) : Prop := ∀ x y w, (f x w).isSome = (f y w).isSome

@[simp] theorem isSome_onlyIf (ok : Bool) (i : Instr) : (onlyIf ok i).isSome = ok := by
  cases ok <;> rfl

theorem wordInt_alike : SpelledAlike wordInt := by
  intro x y w
  unfold wordInt
  generalize wMinor w = m
  dsimp only
  split <;> simp

theorem wordShi_alike : SpelledAlike wordShi := by
  intro x y w
  simp [wordShi]

theorem wordCmp_alike : SpelledAlike wordCmp := by
  intro x y w
  unfold wordCmp
  generalize wMinor w = m
  generalize combOf w = k
  split <;> simp

theorem wordCw_alike : SpelledAlike wordCw := by
  intro x y w
  simp [wordCw]

theorem wordPred_alike : SpelledAlike wordPred := by
  intro x y w
  unfold wordPred
  generalize wMinor w = m
  dsimp only
  split <;> simp

theorem wordLdx_alike : SpelledAlike wordLdx := by
  intro x y w
  unfold wordLdx
  cases spaceOf w <;> simp

theorem wordStx_alike : SpelledAlike wordStx := by
  intro x y w
  unfold wordStx
  cases spaceOf w <;> simp

theorem wordAcc_alike : SpelledAlike wordAcc := by
  intro x y w
  unfold wordAcc
  generalize wMinor w = m
  dsimp only
  split <;> simp

theorem wordBcpy_alike : SpelledAlike wordBcpy := by
  intro x y w
  unfold wordBcpy
  generalize wMinor w = m
  split <;> simp

theorem wordFp_alike : SpelledAlike wordFp := by
  intro x y w
  unfold wordFp
  generalize wMinor w = m
  dsimp only
  split <;> simp

theorem wordQue_alike : SpelledAlike wordQue := by
  intro x y w
  unfold wordQue
  generalize wMinor w = m
  split <;> simp

theorem wordTsk_alike : SpelledAlike wordTsk := by
  intro x y w
  unfold wordTsk
  generalize wMinor w = m
  split <;> simp

theorem wordTim_alike : SpelledAlike wordTim := by
  intro x y w
  unfold wordTim
  generalize wMinor w = m
  split <;> simp

theorem wordOrd_alike : SpelledAlike wordOrd := by
  intro x y w
  unfold wordOrd
  generalize wMinor w = m
  split <;> simp

theorem wordSec_alike : SpelledAlike wordSec := by
  intro x y w
  unfold wordSec
  generalize wMinor w = m
  split <;> simp

theorem wordCrc_alike : SpelledAlike wordCrc := by
  intro x y w
  unfold wordCrc
  generalize wMinor w = m
  split <;> simp

theorem wordMet_alike : SpelledAlike wordMet := by
  intro x y w
  unfold wordMet
  generalize wMinor w = m
  dsimp only
  split <;> simp

theorem wordLdg_alike : SpelledAlike wordLdg := by
  intro x y w
  unfold wordLdg
  generalize wMinor w = m
  dsimp only
  split <;> simp

theorem wordSup_alike : SpelledAlike wordSup := by
  intro x y w
  unfold wordSup
  generalize wMinor w = m
  split <;> simp

theorem isSome_decodeWord (who : Who) (w : W32) : (decodeWord who w).isSome = assigned w := by
  unfold assigned decodeWord
  generalize wMajor w = m
  generalize wMinor w = k
  dsimp only
  split
  any_goals simp only [Option.isSome_some, Option.isSome_none, isSome_onlyIf, Option.isSome_map]
  · exact wordInt_alike _ _ w
  · exact wordShi_alike _ _ w
  · exact wordCmp_alike _ _ w
  · exact wordCw_alike _ _ w
  · exact wordPred_alike _ _ w
  · split <;> rfl
  · exact wordLdx_alike _ _ w
  · exact wordStx_alike _ _ w
  · exact wordAcc_alike _ _ w
  · exact wordBcpy_alike _ _ w
  · exact wordFp_alike _ _ w
  · exact wordQue_alike _ _ w
  · exact wordTsk_alike _ _ w
  · exact wordTim_alike _ _ w
  · exact wordOrd_alike _ _ w
  · exact wordSec_alike _ _ w
  · exact wordCrc_alike _ _ w
  · exact wordMet_alike _ _ w
  · exact wordLdg_alike _ _ w
  · split <;> rfl
  · exact wordSup_alike _ _ w

theorem decodeGarnil_unassigned {who : Who} {w : W32} (h : assigned w = false) : decodeGarnil who w = .unassignedEncoding who w := by
  have hnone : decodeWord who w = none := by
    rw [← Option.not_isSome_iff_eq_none, isSome_decodeWord, h]
    decide
  rw [decodeGarnil, hnone]
  rfl

end Sys2Proof.Machine
end

section
/-! ## The fields of a word in the forms of Table 2.3 (R31) -/

namespace Sys2Proof.Machine
open Sys2Proof

theorem fld_append_low {v w k len : ℕ} (x : BitVec v) (y : BitVec w) (h : k + len ≤ w) : fld (x ++ y) k len = fld y k len := by
  rw [fld_eq_extractLsb', fld_eq_extractLsb', BitVec.extractLsb'_append_eq_of_add_le h]

theorem fld_append_high {v w k len : ℕ} (x : BitVec v) (y : BitVec w) (h : w ≤ k) : fld (x ++ y) k len = fld x (k - w) len := by
  rw [fld_eq_extractLsb', fld_eq_extractLsb', BitVec.extractLsb'_append_eq_of_le h]

theorem fld_all {w : ℕ} (x : BitVec w) : fld x 0 w = x := by
  rw [fld_zero_eq_setWidth, BitVec.setWidth_eq]

/-- A word of Table 2.3: the major, the predicate and its sense, rd, and the 17 bits of the form. -/
def formWord (major : BitVec 6) (p : BitVec 3) (n : Bool) (d : BitVec 5) (low : BitVec 17) : W32 := major ++ p ++ BitVec.ofBool n ++ d ++ low

variable (major : BitVec 6) (p : BitVec 3) (n : Bool) (d a b : BitVec 5) (m : BitVec 7) (imm : BitVec 12) (low : BitVec 17)

theorem fld_formWord_low {k len : ℕ} (h : k + len ≤ 17) : fld (formWord major p n d low) k len = fld low k len :=
  fld_append_low (v := 15) _ low h

theorem fld_formWord_high {k len : ℕ} (h : 17 ≤ k) :
    fld (formWord major p n d low) k len = fld (major ++ p ++ BitVec.ofBool n ++ d) (k - 17) len :=
  fld_append_high (v := 15) _ low h

theorem wMajor_formWord : wMajor (formWord major p n d low) = major.toNat := by
  rw [wMajor, fld_formWord_high _ _ _ _ _ (by decide)]
  exact congrArg BitVec.toNat ((fld_append_high (v := 10) _ d (by decide)).trans
    ((fld_append_high (v := 9) _ (BitVec.ofBool n) (by decide)).trans ((fld_append_high major p (by decide)).trans (fld_all major))))

theorem wPsel_formWord : wPsel (formWord major p n d low) = p.toFin := by
  rw [wPsel, fld_formWord_high _ _ _ _ _ (by decide)]
  exact congrArg BitVec.toFin ((fld_append_high (v := 10) _ d (by decide)).trans
    ((fld_append_high (v := 9) _ (BitVec.ofBool n) (by decide)).trans ((fld_append_low major p (by decide)).trans (fld_all p))))

theorem wPneg_formWord : wPneg (formWord major p n d low) = n := by
  have hbit : wPneg (formWord major p n d low) = (fld (formWord major p n d low) 22 1).getLsbD 0 := by
    rw [fld_eq_extractLsb', BitVec.getLsbD_extractLsb']
    rfl
  rw [hbit, fld_formWord_high _ _ _ _ _ (by decide)]
  have hfld : fld (major ++ p ++ BitVec.ofBool n ++ d) 5 1 = BitVec.ofBool n := (fld_append_high (v := 10) _ d (by decide)).trans
    ((fld_append_low (v := 9) _ (BitVec.ofBool n) (by decide)).trans (fld_all _))
  rw [hfld, BitVec.getLsbD_ofBool]
  simp

theorem wRd_formWord : wRd (formWord major p n d low) = d.toFin := by
  rw [wRd, fld_formWord_high _ _ _ _ _ (by decide)]
  exact congrArg BitVec.toFin ((fld_append_low (v := 10) _ d (by decide)).trans (fld_all d))

theorem wImm17_formWord : wImm17 (formWord major p n d low) = low := by
  rw [wImm17, fld_formWord_low _ _ _ _ _ (by decide), fld_all]

theorem wRa_formI : wRa (formWord major p n d (a ++ imm)) = a.toFin := by
  rw [wRa, fld_formWord_low _ _ _ _ _ (by decide)]
  exact congrArg BitVec.toFin ((fld_append_high a imm (by decide)).trans (fld_all a))

theorem wImm_formI : wImm (formWord major p n d (a ++ imm)) = imm := by
  rw [wImm, fld_formWord_low _ _ _ _ _ (by decide)]
  exact (fld_append_low a imm (by decide)).trans (fld_all imm)

theorem wRa_formR : wRa (formWord major p n d (a ++ b ++ m)) = a.toFin := by
  rw [wRa, fld_formWord_low _ _ _ _ _ (by decide)]
  exact congrArg BitVec.toFin ((fld_append_high (v := 10) _ m (by decide)).trans ((fld_append_high a b (by decide)).trans (fld_all a)))

theorem wRb_formR : wRb (formWord major p n d (a ++ b ++ m)) = b.toFin := by
  rw [wRb, fld_formWord_low _ _ _ _ _ (by decide)]
  exact congrArg BitVec.toFin ((fld_append_high (v := 10) _ m (by decide)).trans ((fld_append_low a b (by decide)).trans (fld_all b)))

theorem wMinor_formR : wMinor (formWord major p n d (a ++ b ++ m)) = m.toNat := by
  rw [wMinor, fld_formWord_low _ _ _ _ _ (by decide)]
  exact congrArg BitVec.toNat ((fld_append_low (v := 10) _ m (by decide)).trans (fld_all m))

theorem decodeGarnil_add (w : Who) :
    decodeGarnil w (formWord 0x00#6 p n d (a ++ b ++ 0x00#7)) = .add ⟨w, p.toFin, n⟩ d.toFin a.toFin b.toFin := by
  simp [decodeGarnil, decodeWord, wordInt, wMajor_formWord, wPsel_formWord, wPneg_formWord, wRd_formWord, wRa_formR, wRb_formR, wMinor_formR]

theorem decodeGarnil_bfx (w : Who) :
    decodeGarnil w (formWord 0x00#6 p n d (a ++ b ++ 0x28#7)) = .bfx ⟨w, p.toFin, n⟩ d.toFin a.toFin b.toFin := by
  simp [decodeGarnil, decodeWord, wordInt, wMajor_formWord, wPsel_formWord, wPneg_formWord, wRd_formWord, wRa_formR, wRb_formR, wMinor_formR]

theorem decodeGarnil_addi (w : Who) : decodeGarnil w (formWord 0x01#6 p n d (a ++ imm)) = .addi ⟨w, p.toFin, n⟩ d.toFin a.toFin imm := by
  simp [decodeGarnil, decodeWord, wMajor_formWord, wPsel_formWord, wPneg_formWord, wRd_formWord, wRa_formI, wImm_formI]

theorem decodeGarnil_ldf (w : Who) : decodeGarnil w (formWord 0x18#6 p n d (a ++ imm)) = .ldf ⟨w, p.toFin, n⟩ d.toFin a.toFin imm := by
  simp [decodeGarnil, decodeWord, wMajor_formWord, wPsel_formWord, wPneg_formWord, wRd_formWord, wRa_formI, wImm_formI]

theorem decodeGarnil_lui (w : Who) : decodeGarnil w (formWord 0x08#6 p n d low) = .lui ⟨w, p.toFin, n⟩ d.toFin low := by
  simp [decodeGarnil, decodeWord, wMajor_formWord, wPsel_formWord, wPneg_formWord, wRd_formWord, wImm17_formWord]

theorem decodeGarnil_call (w : Who) : decodeGarnil w (formWord 0x11#6 p n d low) = .call ⟨w, p.toFin, n⟩ d.toFin low := by
  simp [decodeGarnil, decodeWord, wMajor_formWord, wPsel_formWord, wPneg_formWord, wRd_formWord, wImm17_formWord]

end Sys2Proof.Machine
end

section
/-! ## Faults and interrupts (R30, R33, R64, R90, R116) -/

namespace Sys2Proof.Machine
open Sys2Proof

variable {s t : State}

/-! ### The supervisor's entry -/

theorem getLsbD_setFld_one (w : Word) : (setFld w 0 (1#2)).getLsbD 0 = true ∧ (setFld w 0 (1#2)).getLsbD 1 = false := by
  constructor <;> simp [setFld]

theorem supFault_outcome (s : State) (c : FaultClass) (st : Status) :
    (s.supFault c st).sup.sepc = (s.thread agSup).pc.setWidth 64 ∧ (s.supFault c st).sup.scause = BitVec.ofNat 64 (256 * st.code + c.code) ∧
      (s.supFault c st).sup.sstatus.getLsbD 0 = true ∧ (s.supFault c st).sup.sstatus.getLsbD 1 = false ∧
      ((s.supFault c st).thread agSup).stage = {} ∧
      ((s.supFault c st).thread agSup).pc = BitVec.ofNat 24 (min (s.sup.svec.toNat + 0x40 * c.code) (2 ^ 20)) := by
  have hthread := State.thread_dropStage agSup s
  have hsup := ((Spares.refl {agSup} s).dropStage (Set.mem_singleton agSup)).sup
  unfold State.supFault
  simp only [State.thread_setThread_same]
  generalize s.dropStage agSup = u at hthread hsup ⊢
  have hpc : (u.thread agSup).pc = (s.thread agSup).pc := by rw [hthread]
  refine ⟨?_, ?_, (getLsbD_setFld_one u.sup.sstatus).1, (getLsbD_setFld_one u.sup.sstatus).2, trivial, ?_⟩
  · exact congrArg (BitVec.setWidth 64) hpc
  · exact congrArg (BitVec.ofNat 64) (by rw [Nat.mul_comm])
  · have hsvec : u.sup.svec = s.sup.svec := by rw [hsup]
    exact congrArg (fun v : Word => supPc (v.toNat + 0x40 * c.code)) hsvec

theorem supInterrupt_gives (hmain : s.pwr.mainOn = true) (hfail : s.sec.fail = false) (hp : s.pwr.state < 3)
    (hen : s.sup.sstatus.getLsbD 1 = true) (hdue : s.sup.sien &&& s.sup.sipend ≠ 0#64)
    (hst : (s.thread agSup).st = .running ∨ (s.thread agSup).st = .waitIrq) :
    Gives .supInterrupt s (fun t => t.sup.sepc = (s.thread agSup).pc.setWidth 64 ∧ t.sup.scause = 0xF#64 ∧
      t.sup.sstatus.getLsbD 0 = true ∧ t.sup.sstatus.getLsbD 1 = false ∧ (t.thread agSup).st = .running ∧
      (t.thread agSup).pc = BitVec.ofNat 24 (min (s.sup.svec.toNat + 0x1C0) (2 ^ 20))) := by
  have hc : exec .supInterrupt s = execSupInterrupt s := rfl
  have hen' : bit s.sup.sstatus 1 = true := hen
  have hdue' : s.irqDue = true := decide_eq_true hdue
  have hst' : (decide ((s.thread agSup).st = .running) || decide ((s.thread agSup).st = .waitIrq)) = true := by simpa using hst
  unfold execSupInterrupt at hc
  simp only [hmain, hfail, hp, hen', hdue', hst', Bool.not_false, Bool.and_self, decide_true, if_true] at hc
  refine ⟨_, hc, rfl, rfl, (getLsbD_setFld_one _).1, (getLsbD_setFld_one _).2, ?_, ?_⟩
  · rw [State.thread_setThread_same]
  · rw [State.thread_setThread_same]
    rfl

/-! ### The engine's fence and report -/

/-- The fence of one agent set. -/
def State.fenceOne (a : ℕ) (s : State) : State := { s with ord := { s.ord with fences := Tab.set false s.ord.fences a true } }

theorem State.fencedAg_fenceOne (a b : ℕ) (s : State) : (s.fenceOne a).fencedAg b = if b = a then true else s.fencedAg b :=
  Tab.get_set false true s.ord.fences a b

/-- The fences of a list of agents set. -/
def State.fenceAll (as : List ℕ) (s : State) : State := as.foldl (fun s a => s.fenceOne a) s

theorem State.fenceAll_frame (as : List ℕ) (s : State) : s.fenceAll as = { s with ord := (s.fenceAll as).ord } := by
  induction as generalizing s with
  | nil => rfl
  | cons a as ih => exact ih (s.fenceOne a)

theorem State.fencedAg_fenceAll_of_fenced (as : List ℕ) {b : ℕ} (h : s.fencedAg b = true) : (s.fenceAll as).fencedAg b = true := by
  induction as generalizing s with
  | nil => exact h
  | cons a as ih =>
    refine ih (s := s.fenceOne a) ?_
    rw [State.fencedAg_fenceOne, h, ite_self]

theorem State.fencedAg_fenceAll (as : List ℕ) {b : ℕ} (h : b ∈ as) : (s.fenceAll as).fencedAg b = true := by
  induction as generalizing s with
  | nil => exact absurd h List.not_mem_nil
  | cons a as ih =>
    rcases List.mem_cons.mp h with rfl | hmem
    · exact State.fencedAg_fenceAll_of_fenced as (by rw [State.fencedAg_fenceOne, if_pos rfl])
    · exact ih hmem

/-- The tasks of a list of agents ended as a fault of `agent` ends them. -/
def State.endFaulted (agent : ℕ) (as : List ℕ) (s : State) : State :=
  as.foldr (fun a s => if (s.thread a).busy && decide ((s.thread a).st ≠ .waitAck) then s.endTask a (decide (a = agent)) true true else s) s

theorem State.endFaulted_spares (agent : ℕ) (as : List ℕ) (s : State) : Spares Set.univ s (s.endFaulted agent as) :=
  Spares.foldr _ (fun a u => Spares.ite ((Spares.refl _ u).endTask (Set.mem_univ a) _ _ _) (Spares.refl _ u)) as (Spares.refl _ s)

/-- The thread runs a task or waits in it, and no commit of it is under way. -/
abbrev Thread.mayEnd (x : Thread) : Prop := x.st ≠ .free ∧ x.st ≠ .waitAck

/-- The turn of each agent touches its own thread alone. -/
theorem State.thread_endFaulted (g : ℕ) (as : List ℕ) (h : (s.thread g).mayEnd) :
    Ended (s.endFaulted g as) g ∨ g ∉ as ∧ (s.endFaulted g as).thread g = s.thread g := by
  induction as with
  | nil => exact Or.inr ⟨List.not_mem_nil, rfl⟩
  | cons a as ih =>
    have hcons : s.endFaulted g (a :: as) = if ((s.endFaulted g as).thread a).busy && decide (((s.endFaulted g as).thread a).st ≠ .waitAck)
      then (s.endFaulted g as).endTask a (decide (a = g)) true true else s.endFaulted g as := rfl
    have hspares : Spares {a} (s.endFaulted g as) (s.endFaulted g (a :: as)) := by
      rw [hcons]
      exact Spares.ite ((Spares.refl _ _).endTask (Set.mem_singleton a) _ _ _) (Spares.refl _ _)
    by_cases ha : a = g
    · subst ha
      refine Or.inl ?_
      rw [hcons]
      rcases ih with hended | ⟨-, hsame⟩
      · simp only [Thread.busy, hended.1, ne_eq, not_true_eq_false, decide_false, Bool.false_and, Bool.false_eq_true, if_false]
        exact hended
      · simp only [Thread.busy, hsame, h.1, h.2, ne_eq, not_false_eq_true, decide_true, Bool.and_self, if_true]
        exact State.ended_endTask a true true _
    · have hkeep : (s.endFaulted g (a :: as)).thread g = (s.endFaulted g as).thread g :=
        hspares.threads g fun hmem => ha hmem.symm
      rcases ih with hended | ⟨hnot, hsame⟩
      · exact Or.inl (by rw [Ended, hkeep]; exact hended)
      · exact Or.inr ⟨fun hmem => (List.mem_cons.mp hmem).elim (fun e => ha e.symm) hnot, hkeep.trans hsame⟩

theorem State.report_frame (r : FltRep) (s : State) :
    s.report r = State.irq 0 { s with ge := { s.ge with flt := (s.report r).ge.flt, fltOvf := (s.report r).ge.fltOvf } } := by
  unfold State.report
  dsimp only
  split <;> rfl

theorem State.report_room {r : FltRep} (h : s.ge.flt.length < 16) : (s.report r).ge.flt = s.ge.flt ++ [r] := by
  rw [State.report, if_pos h]
  rfl

theorem State.report_full {r : FltRep} (h : 16 ≤ s.ge.flt.length) : (s.report r).ge.fltOvf = true := by
  rw [State.report, if_neg (Nat.not_lt.mpr h)]
  rfl

theorem getLsbD_or_one (w : Word) : (w ||| BitVec.ofNat 64 (2 ^ 0)).getLsbD 0 = true := by
  simp

/-- The agents of an engine. -/
def engineAgents (e : ℕ) : List ℕ := (List.range 4).map (4 * e + ·)

theorem mem_engineAgents {e a : ℕ} : a ∈ engineAgents e ↔ a / 4 = e := by
  simp only [engineAgents, List.mem_map, List.mem_range]
  constructor
  · rintro ⟨k, hk, rfl⟩
    omega
  · intro h
    exact ⟨a % 4, by omega, by omega⟩

/-- No thread of engine `e` is in the reserve any more. -/
def State.leaveReserve (e : ℕ) (u : State) : State :=
  { u with ge := { u.ge with reserve := u.ge.reserve.filter (fun t => decide (engineOf t ≠ e)) } }

theorem State.leaveReserve_keeps (e : ℕ) (u : State) :
    (u.leaveReserve e).ord = u.ord ∧ (u.leaveReserve e).ge.threads = u.ge.threads ∧ (u.leaveReserve e).ge.flt = u.ge.flt := ⟨rfl, rfl, rfl⟩

/-- The state of an engine's fault before the report is written. -/
def State.faultEnded (g : ℕ) (s : State) : State :=
  ((s.fenceAll (engineAgents (engineOf g))).endFaulted g (engineAgents (engineOf g))).leaveReserve (engineOf g)

theorem State.engineFaultAt_eq (w : W32) (g : ℕ) (c : FaultClass) (st : Status) (s : State) :
    s.engineFaultAt w g c st =
      ((s.faultEnded g).report ⟨st, c, g, (s.thread g).pc.setWidth 18, w, (s.thread g).qcur⟩).reserveCheck (clusterOf g) := by
  unfold State.engineFaultAt State.faultEnded State.endFaulted State.fenceAll State.fenceOne engineAgents State.leaveReserve
  rfl

theorem State.faultEnded_facts {g : ℕ} (h : (s.thread g).mayEnd) :
    (∀ a, a / 4 = engineOf g → (s.faultEnded g).fencedAg a = true) ∧ Ended (s.faultEnded g) g ∧ (s.faultEnded g).ge.flt = s.ge.flt := by
  have hspares := (s.fenceAll (engineAgents (engineOf g))).endFaulted_spares g (engineAgents (engineOf g))
  have hrun : ((s.fenceAll (engineAgents (engineOf g))).thread g).mayEnd := by
    rw [State.fenceAll_frame]
    exact h
  have hmem : g ∈ engineAgents (engineOf g) := mem_engineAgents.mpr rfl
  have hended := (State.thread_endFaulted g _ hrun).elim id fun hnot => absurd hmem hnot.1
  have hflt : (s.fenceAll (engineAgents (engineOf g))).ge.flt = s.ge.flt := by rw [State.fenceAll_frame]
  have hfences (a : ℕ) (ha : a / 4 = engineOf g) := (hspares.fencedAg a).trans (State.fencedAg_fenceAll _ (mem_engineAgents.mpr ha))
  have hreports := hspares.reports.trans hflt
  unfold State.faultEnded
  generalize State.endFaulted g _ _ = u at hended hfences hreports ⊢
  obtain ⟨hord, hthreads, hkept⟩ := u.leaveReserve_keeps (engineOf g)
  simp only [Ended, State.fencedAg, State.thread, hord, hthreads, hkept] at hended hfences hreports ⊢
  exact ⟨hfences, hended, hreports⟩

theorem engineFaultAt_outcome {g : ℕ} (w : W32) (c : FaultClass) (st : Status) (h : (s.thread g).mayEnd) :
    (∀ a, a / 4 = engineOf g → (s.engineFaultAt w g c st).fencedAg a = true) ∧ Ended (s.engineFaultAt w g c st) g ∧
      (s.ge.flt.length < 16 →
        (s.engineFaultAt w g c st).ge.flt = s.ge.flt ++ [⟨st, c, g, (s.thread g).pc.setWidth 18, w, (s.thread g).qcur⟩]) ∧
      (16 ≤ s.ge.flt.length → (s.engineFaultAt w g c st).ge.fltOvf = true) ∧ (s.engineFaultAt w g c st).sup.sipend.getLsbD 0 = true := by
  obtain ⟨hfences, hended, hflt⟩ := State.faultEnded_facts h
  rw [State.engineFaultAt_eq, State.reserveCheck_frame]
  generalize s.faultEnded g = u at hfences hended hflt ⊢
  refine ⟨fun a ha => ?_, ?_, fun hroom => ?_, fun hfull => ?_, ?_⟩
  · rw [← hfences a ha, State.report_frame]
    rfl
  · rw [State.report_frame]
    exact hended
  · rw [← hflt] at hroom ⊢
    exact State.report_room hroom
  · rw [← hflt] at hfull
    exact State.report_full hfull
  · rw [State.report_frame]
    exact getLsbD_or_one _

theorem engineFault_outcome {g : ℕ} (c : FaultClass) (st : Status) (h : (s.thread g).mayEnd) :
    (∀ k, k < 4 → (s.engineFault g c st).fencedAg (4 * (g / 4) + k) = true) ∧ ((s.engineFault g c st).thread g).st = .free ∧
      ((s.engineFault g c st).thread g).stage = {} ∧
      (s.ge.flt.length < 16 → (s.engineFault g c st).ge.flt = s.ge.flt ++ [⟨st, c, g, (s.thread g).pc.setWidth 18,
        BitVec.ofNat 32 (s.codeNat g (s.thread g).pc.toNat 4), (s.thread g).qcur⟩]) ∧
      (16 ≤ s.ge.flt.length → (s.engineFault g c st).ge.fltOvf = true) ∧ (s.engineFault g c st).sup.sipend.getLsbD 0 = true := by
  unfold State.engineFault
  generalize BitVec.ofNat 32 (s.codeNat g (s.thread g).pc.toNat 4) = w
  obtain ⟨hfences, ⟨hfree, hstage⟩, hrest⟩ := engineFaultAt_outcome w c st h
  have hengine (k : ℕ) (hk : k < 4) : (4 * (g / 4) + k) / 4 = engineOf g := by
    rw [engineOf]
    omega
  exact ⟨fun k hk => hfences _ (hengine k hk), hfree, hstage, hrest⟩

/-! ### Unassigned encodings -/

theorem unassigned_runs {w : Who} {i : W32} (hrun : s.runnable w = true) (hi : assigned i = false) :
    (s.runnable w && !assigned i) = true := by
  rw [hrun, hi]
  rfl

theorem unassigned_faults_engine {t : Fin 128} {i : W32} (hrun : s.runnable (.thread t) = true) (hi : assigned i = false) :
    exec (.unassignedEncoding (.thread t) i) s = .next ((s.issue (.thread t)).engineFaultAt i t.val .illegal .ok) := by
  have hc : exec (.unassignedEncoding (.thread t) i) s = execUnassignedEncoding (.thread t) i s := rfl
  exact hc.trans (if_pos (unassigned_runs hrun hi))

theorem unassigned_faults_sup {i : W32} (hrun : s.runnable .sup = true) (hi : assigned i = false) :
    exec (.unassignedEncoding .sup i) s = .next (s.supFault .illegal .ok) := by
  have hc : exec (.unassignedEncoding .sup i) s = execUnassignedEncoding .sup i s := rfl
  exact hc.trans (if_pos (unassigned_runs hrun hi))

end Sys2Proof.Machine
end

section
open Sys2Proof Sys2Proof.Machine

/-- Settles O20: the two entries and the report through what the ends of the engine's four tasks leave as they were, the forms of
Table 2.3 through the fields of a word. -/
theorem faultEntries : Obligations.FaultEntries := by
  unfold Obligations.FaultEntries
  refine ⟨supFault_outcome, fun s g c st _ hst => engineFault_outcome c st (by simp [Thread.mayEnd, hst]), fun w i s hrun hi => ⟨?_, ?_⟩,
    fun s hmain hfail hp hen hdue hst => supInterrupt_gives hmain hfail hp hen hdue hst, ⟨by decide, by decide⟩, fun w p n d a b imm wide => ?_⟩
  · rintro n rfl
    exact unassigned_faults_engine hrun hi
  · rintro rfl
    exact unassigned_faults_sup hrun hi
  · exact ⟨decodeGarnil_add p n d a b w, decodeGarnil_bfx p n d a b w, decodeGarnil_addi p n d a imm w, decodeGarnil_ldf p n d a imm w,
      decodeGarnil_lui p n d wide w, decodeGarnil_call p n d wide w, fun i hi => decodeGarnil_unassigned hi⟩

end

section
/-! ## Dispatch, the watchdog and starvation (R29, R67, R69, R75, R76, R89, R90) -/

namespace Sys2Proof.Machine
open Sys2Proof

variable {s u : State}

/-! ### The thread a dispatch starts -/

theorem Thread.getG_started {x : Thread} {v : Word} (h : x.g = Tab.set 0#64 [] 1 v) (g : GReg) : x.getG g = if g = 1 then v else 0#64 := by
  rw [Thread.getG, h, Tab.get_set]
  by_cases h0 : g.val = 0
  · have hne : g ≠ 1 := fun e => by simp [e] at h0
    rw [if_pos h0, if_neg hne]
  · rw [if_neg h0]
    exact if_congr ⟨fun e => Fin.ext e, fun e => by rw [e]; rfl⟩ rfl rfl

theorem Thread.getP_started {x : Thread} (h : x.p = 1#8) (p : PReg) : x.getP p = decide (p = 0) := by
  rw [Thread.getP, h]
  revert p
  decide

theorem length_bytesOf {w : ℕ} (n : ℕ) (v : BitVec w) : (bytesOf n v).length = n := length_bytesOfNat n _

theorem Thread.scr_started {x : Thread} {old : Tab Byte} (item : Item) (h : x.scratch = ramPutTab old 0 (bytesOf 64 item)) :
    x.scr 0 64 = bytesOf 64 item := by
  have hput := Thread.scr_putScr_same { x with scratch := old } 0 (bytesOf 64 item)
  rw [length_bytesOf] at hput
  exact (Thread.scr_congr h 0 64).trans hput

/-! ### What a dispatch does to the other parts of the state -/

theorem State.refill_frame (t : ℕ) (s : State) :
    s.refill t = { s with
      evr := (s.refill t).evr, ge := { s.ge with reserve := (s.refill t).ge.reserve, rsvlost := (s.refill t).ge.rsvlost } } := by
  unfold State.refill
  dsimp only
  split
  · rfl
  · rw [State.reserveCheck_frame]

/-- The head item removed: the rest of the device and the queue's words stay. -/
theorem State.takeHead_keeps (q : ℕ) (s : State) :
    (s.takeHead q).ge = s.ge ∧ (s.takeHead q).tb = s.tb ∧ ((s.takeHead q).desc q).infl = (s.desc q).infl ∧
      ((s.takeHead q).desc q).entry = (s.desc q).entry := by
  have written {d : Desc} (hinfl : d.infl = (s.desc q).infl) (hentry : d.entry = (s.desc q).entry) :
      (s.setDesc q d).ge = s.ge ∧ (s.setDesc q d).tb = s.tb ∧ ((s.setDesc q d).desc q).infl = (s.desc q).infl ∧
        ((s.setDesc q d).desc q).entry = (s.desc q).entry := by
    rw [State.desc_setDesc_same]
    exact ⟨rfl, rfl, hinfl, hentry⟩
  unfold State.takeHead
  dsimp only
  split
  · exact written rfl rfl
  · split
    · exact ⟨rfl, rfl, rfl, rfl⟩
    · exact written rfl rfl

theorem State.restoreClose_frame (s : State) : s.restoreClose = { s with evr := s.restoreClose.evr, ldg := s.restoreClose.ldg } := by
  unfold State.restoreClose
  split
  · rw [State.event_frame]
  · rfl

/-- What a dispatched thread holds. -/
structure Starts (s : State) (q : ℕ) (r : Ret) (h : Thread) : Prop where
  running : h.st = .running
  registers : ∀ g : GReg, h.getG g = if g = 1 then BitVec.ofNat 64 q else 0#64
  predicates : ∀ p : PReg, h.getP p = decide (p = 0)
  pc : h.pc = BitVec.ofNat 24 ((s.desc q).entry.toNat * 4)
  scratch : h.scr 0 64 = bytesOf 64 r.item
  stage : h.stage = {}
  queue : h.q = q
  count : h.count = r.count
  iepoch : h.iepoch = itemEpoch r.item
  wdStart : h.wdStart = s.tb.elapsed

theorem State.starts_taskStart (t q : ℕ) (r : Ret) (s : State) : Starts s q r ((s.taskStart t q r).thread t) := by
  rw [State.taskStart, State.thread_setThread_same]
  exact ⟨rfl, Thread.getG_started rfl, Thread.getP_started rfl, rfl, Thread.scr_started r.item rfl, rfl, rfl, rfl, rfl, rfl⟩

/-- The queue and the thread as a dispatch finds them, the reserve without the thread. -/
def State.dispatchTaken (t q : ℕ) (s : State) : State :=
  State.takeHead q { s with
    qm := { s.qm with rr := Tab.set 65536 s.qm.rr (8 * clusterOf t + (s.desc q).effPrio) q }
    ge := { s.ge with reserve := s.ge.reserve.filter (fun x => decide (x ≠ t)) } }

theorem State.dispatchTaken_facts (t q : ℕ) (s : State) :
    t ∉ (s.dispatchTaken t q).ge.reserve ∧ (s.dispatchTaken t q).tb = s.tb ∧ ((s.dispatchTaken t q).desc q).infl = (s.desc q).infl ∧
      ((s.dispatchTaken t q).desc q).entry = (s.desc q).entry := by
  obtain ⟨hge, htb, hinfl, hentry⟩ := State.takeHead_keeps q { s with
    qm := { s.qm with rr := Tab.set 65536 s.qm.rr (8 * clusterOf t + (s.desc q).effPrio) q }
    ge := { s.ge with reserve := s.ge.reserve.filter (fun x => decide (x ≠ t)) } }
  refine ⟨fun hmem => ?_, htb, hinfl, hentry⟩
  rw [State.dispatchTaken, hge] at hmem
  exact of_decide_eq_true (List.mem_filter.mp hmem).2 rfl

/-- One more task of the queue in flight. -/
def State.inflUp (q : ℕ) (s : State) : State :=
  s.setDesc q { s.desc q with infl := (s.desc q).infl + 1, starved := false, waitFrom := some s.tb.elapsed }

theorem State.dispatchFrom_eq (t q : ℕ) (r : Ret) (s : State) :
    s.dispatchFrom t q r =
      let v := (State.taskStart t q r ((s.dispatchTaken t q).inflUp q)).count 0x0200 1 { cls := some ((s.dispatchTaken t q).desc q).cls }
      if clusterOf t = 0 then v.restoreClose else v :=
  rfl

theorem dispatchFrom_outcome (t q : ℕ) (r : Ret) (s : State) :
    Starts s q r ((s.dispatchFrom t q r).thread t) ∧ ((s.dispatchFrom t q r).desc q).infl = (s.desc q).infl + 1 ∧
      t ∉ (s.dispatchFrom t q r).ge.reserve := by
  obtain ⟨hreserve, htb, hinfl, hentry⟩ := s.dispatchTaken_facts t q
  rw [State.dispatchFrom_eq]
  generalize hu : s.dispatchTaken t q = u at hreserve htb hinfl hentry ⊢
  have hdesc : ((u.inflUp q).desc q) = { u.desc q with infl := (u.desc q).infl + 1, starved := false, waitFrom := some u.tb.elapsed } :=
    State.desc_setDesc_same ..
  obtain ⟨hrun, hregs, hpreds, hpc, hscr, hstage, hq, hcount, hepoch, hwd⟩ := State.starts_taskStart t q r (u.inflUp q)
  have hup : (State.taskStart t q r (u.inflUp q)).ge.reserve = u.ge.reserve := rfl
  have hkept : (State.taskStart t q r (u.inflUp q)).desc q = (u.inflUp q).desc q := rfl
  have htbup : (u.inflUp q).tb = u.tb := rfl
  rw [hdesc, hentry] at hpc
  rw [htbup, htb] at hwd
  generalize State.taskStart t q r (u.inflUp q) = w at *
  have hfacts : Starts s q r (w.thread t) ∧ (w.desc q).infl = (s.desc q).infl + 1 ∧ t ∉ w.ge.reserve :=
    ⟨⟨hrun, hregs, hpreds, hpc, hscr, hstage, hq, hcount, hepoch, hwd⟩, by rw [hkept, hdesc, hinfl], by rwa [hup]⟩
  dsimp only
  split_ifs
  · rw [State.restoreClose_frame, State.count_frame]
    exact hfacts
  · rw [State.count_frame]
    exact hfacts

theorem dispatch_gives {t : Fin 128} {q : ℕ} {r : Ret} (hcan : s.canTake t.val = true)
    (hreplay : 32 ≤ t.val ∨ decide (t.val ∈ (s.refill t.val).ge.reserve) = true ∨ s.twn.rplWait = [])
    (hpick : (s.refill t.val).pickQueue (clusterOf t.val) (decide (t.val ∈ (s.refill t.val).ge.reserve)) = some q)
    (hsound : (s.refill t.val).qmAccess q = (true, s.refill t.val))
    (hitem : (s.refill t.val).dispItem (clusterOf t.val) (decide (t.val ∈ (s.refill t.val).ge.reserve)) q = some r) :
    Gives (.dispatch t) s (fun v => v = (s.refill t.val).dispatchFrom t.val q r) := by
  have hc : exec (.dispatch t) s = execDispatch t s := rfl
  have hwait : (s.refill t.val).twn.rplWait = s.twn.rplWait := by rw [State.refill_frame]
  have hno : ¬ (clusterOf t.val = 0 ∧ t.val ∉ (s.refill t.val).ge.reserve ∧ (s.refill t.val).twn.rplWait ≠ []) := by
    rintro ⟨hcl, hnot, hne⟩
    rcases hreplay with h32 | hmem | hnil
    · rw [clusterOf] at hcl
      omega
    · exact hnot (of_decide_eq_true hmem)
    · exact hne (hwait.trans hnil)
  refine ⟨_, hc.trans ?_, rfl⟩
  unfold execDispatch
  simp only [hcan, Bool.not_true, Bool.false_eq_true, if_false]
  rw [if_neg hno]
  simp only [hpick, hsound, hitem, Bool.not_true, Bool.false_eq_true, if_false]

/-! ### The watchdog and starvation -/

theorem watchdog_gives {t : Fin 128} (hmain : s.pwr.mainOn = true) (hend : (s.thread t.val).mayEnd)
    (hpast : (s.thread t.val).wdStart + 125 * (s.thread t.val).wdLimit ≤ s.tb.elapsed) :
    Gives (.taskWatchdogExpiry t) s (fun v => v = s.engineFault t.val .watchdog .ok ∧ (v.thread t.val).st = .free ∧
      v.fencedAg t.val = true) := by
  have hc : exec (.taskWatchdogExpiry t) s = execTaskWatchdogExpiry t s := rfl
  obtain ⟨hfences, hfree, -⟩ := engineFault_outcome .watchdog .ok hend
  have hpast' : s.past (s.thread t.val).wdStart ((s.thread t.val).wdLimit * usCounts) = true := decide_eq_true (by rwa [Nat.mul_comm])
  have hself : 4 * (t.val / 4) + t.val % 4 = t.val := Nat.div_add_mod ..
  have hfence := hfences (t.val % 4) (Nat.mod_lt _ (by decide))
  rw [hself] at hfence
  unfold execTaskWatchdogExpiry at hc
  simp only [hmain, Thread.busy, hend.1, hend.2, hpast', ne_eq, not_false_eq_true, decide_true, Bool.and_self, if_true] at hc
  generalize s.engineFault t.val .watchdog .ok = v at hc hfree hfence ⊢
  exact ⟨v, hc, rfl, hfree, hfence⟩

theorem starve_gives {q : BitVec 16} {w : ℕ} (hmain : s.pwr.mainOn = true) (hring : (s.desc q.toNat).hasRing = true)
    (hdepth : (s.desc q.toNat).depth ≠ 0) (hwait : (s.desc q.toNat).waitFrom = some w)
    (hpast : w + 125 * ((s.reg 0x080040).extractLsb' 0 17).toNat ≤ s.tb.elapsed) :
    Gives (.qmStarveExpiry q) s (fun t => t.desc q.toNat = { s.desc q.toNat with starved := true } ∧ (t.desc q.toNat).effPrio = 7) := by
  have hc : exec (.qmStarveExpiry q) s = execQmStarveExpiry q s := rfl
  have hpast' : s.past w (s.regF Reg.qmStarve 0 17 * usCounts) = true := decide_eq_true (by rw [Nat.mul_comm]; exact hpast)
  refine ⟨s.setDesc q.toNat { s.desc q.toNat with starved := true }, hc.trans ?_, ?_⟩
  · unfold execQmStarveExpiry
    simp only [hmain, hring, hdepth, hwait, hpast', ne_eq, not_false_eq_true, decide_true, Bool.and_self, if_true]
  · have hset := State.desc_setDesc_same s q.toNat { s.desc q.toNat with starved := true }
    exact ⟨hset, by rw [hset]; rfl⟩

end Sys2Proof.Machine
end

section
/-! ## Ingress FIFOs and their drain (R17, R80 to R82, R304) -/

namespace Sys2Proof.Machine
open Sys2Proof

variable {s t u : State}

/-! ### FIFOs -/

theorem State.fifo_setFifo_same (s : State) (n : ℕ) (f : Fifo) : (s.setFifo n f).fifo n = f := Tab.get_set_same ..

theorem State.sendPause_frame (n : ℕ) (v : BitVec 16) (s : State) :
    s.sendPause n v = { s with out := (s.sendPause n v).out, eth := (s.sendPause n v).eth } := by
  unfold State.sendPause
  split <;> rfl

/-- What HOLD leaves as it was: all but the FIFO's own words, the outputs and the Ethernet ports. -/
structure HoldsOnly (n : ℕ) (s t : State) : Prop where
  frame : t = { s with out := t.out, eth := t.eth, qm := { s.qm with fifos := t.qm.fifos } }
  items : (t.fifo n).items = (s.fifo n).items
  drops : (t.fifo n).drops = (s.fifo n).drops

theorem HoldsOnly.sendPause {n : ℕ} (h : HoldsOnly n s t) (v : BitVec 16) : HoldsOnly n s (t.sendPause n v) := by
  rw [State.sendPause_frame]
  exact ⟨by rw [h.frame], h.items, h.drops⟩

theorem HoldsOnly.setFifo {n : ℕ} {f : Fifo} (hi : f.items = (s.fifo n).items) (hd : f.drops = (s.fifo n).drops) : HoldsOnly n s (s.setFifo n f) :=
  ⟨rfl, by rw [State.fifo_setFifo_same, hi], by rw [State.fifo_setFifo_same, hd]⟩

theorem State.fifoHold_holdsOnly (n : ℕ) (s : State) : HoldsOnly n s (s.fifoHold n) := by
  unfold State.fifoHold
  dsimp only
  split_ifs
  · refine HoldsOnly.sendPause (HoldsOnly.setFifo ?_ ?_) _ <;> rfl
  · refine HoldsOnly.sendPause (HoldsOnly.setFifo ?_ ?_) _ <;> rfl
  · exact ⟨rfl, rfl, rfl⟩

theorem State.fifoPush_room {n p : ℕ} {x : Item} (h : (s.fifo n).items.length < 32) :
    ((s.fifoPush n p x).2.fifo n).items = (s.fifo n).items ++ [(p, x)] ∧ ((s.fifoPush n p x).2.fifo n).drops = (s.fifo n).drops := by
  unfold State.fifoPush
  rw [if_pos h]
  have hold := State.fifoHold_holdsOnly n (s.setFifo n { s.fifo n with items := (s.fifo n).items ++ [(p, x)] })
  exact ⟨hold.items.trans (by rw [State.fifo_setFifo_same]), hold.drops.trans (by rw [State.fifo_setFifo_same])⟩

theorem State.fifoPush_full {n p : ℕ} {x : Item} (h : ¬ (s.fifo n).items.length < 32) :
    ((s.fifoPush n p x).2.fifo n).items = (s.fifo n).items ∧ ((s.fifoPush n p x).2.fifo n).ovf = true ∧
      ((s.fifoPush n p x).2.fifo n).drops = if (s.fifo n).drops < 0xFFFF then (s.fifo n).drops + 1 else 0xFFFF := by
  unfold State.fifoPush
  rw [if_neg h]
  simp only [State.fifo_setFifo_same, true_and]
  rfl

theorem State.fifoPush_seq (n p : ℕ) (x : Item) (s : State) : (s.fifoPush n p x).2.qm.seq = s.qm.seq := by
  unfold State.fifoPush
  dsimp only
  split_ifs
  · rw [(State.fifoHold_holdsOnly n _).frame]
    rfl
  · rfl

theorem fifoPush_outcome (n p : ℕ) (x : Item) (s : State) :
    if (s.fifo n).items.length < 32 then
      ((s.fifoPush n p x).2.fifo n).items = (s.fifo n).items ++ [(p, x)] ∧ ((s.fifoPush n p x).2.fifo n).drops = (s.fifo n).drops
    else ((s.fifoPush n p x).2.fifo n).items = (s.fifo n).items ∧ ((s.fifoPush n p x).2.fifo n).ovf = true ∧
      ((s.fifoPush n p x).2.fifo n).drops = if (s.fifo n).drops < 0xFFFF then (s.fifo n).drops + 1 else 0xFFFF := by
  by_cases h : (s.fifo n).items.length < 32
  · rw [if_pos h]
    exact State.fifoPush_room h
  · rw [if_neg h]
    exact State.fifoPush_full h

/-! ### Arrivals -/

theorem arrival_runs {f : Fin 18} {p : Fin 8} {body : Item} {sub : Fin 32} (hrun : s.fieldRuns = true) (hp : s.present (fifoUnit f.val) = true)
    (hhold : 16 ≤ f.val → (s.fifo f.val).hold = false) :
    exec (.ingressFifoArrival f p body sub) s =
      if f.val = 16 then .next (s.fifoPush 16 p.val body).2
      else .next (s.ingress f.val p.val (s.fifoMoment f.val sub.val) body).2 := by
  have hc : exec (.ingressFifoArrival f p body sub) s = execIngressFifoArrival f p body sub s := rfl
  have hcredit : (decide (16 ≤ f.val) && (s.fifo f.val).hold) = false := by
    by_cases h : 16 ≤ f.val
    · rw [hhold h, Bool.and_false]
    · rw [decide_eq_false h, Bool.false_and]
  rw [hc, execIngressFifoArrival, hrun, hp, hcredit, if_pos (by decide)]

theorem arrival_waits {f : Fin 18} {p : Fin 8} {body : Item} {sub : Fin 32} (hf : 16 ≤ f.val) (hhold : (s.fifo f.val).hold = true) :
    exec (.ingressFifoArrival f p body sub) s = .next s := by
  have hc : exec (.ingressFifoArrival f p body sub) s = execIngressFifoArrival f p body sub s := rfl
  rw [hc, execIngressFifoArrival, hhold, decide_eq_true hf, if_neg]
  simp

/-- The source's sequence number used. -/
def State.seqUp (src : ℕ) (s : State) : State := { s with qm := { s.qm with seq := Tab.set 0#32 s.qm.seq src (Tab.get 0#32 s.qm.seq src + 1#32) } }

/-- The item with what TB writes for an arrival from `src`. -/
def State.stamped (s : State) (src : ℕ) (m : TimeRec) (body : Item) : Item :=
  stampItem body m.st m.off (s.sourceId src) m.fl (Tab.get 0#32 s.qm.seq src) (s.epochAt (stampT32 m.st))

theorem State.ingress_eq (n p : ℕ) (m : TimeRec) (body : Item) (s : State) :
    s.ingress n p m body = (s.seqUp (fifoSource n)).fifoPush n p (s.stamped (fifoSource n) m body) := rfl

theorem ingress_outcome (n p : ℕ) (m : TimeRec) (body : Item) (s : State) :
    Tab.get 0#32 (s.ingress n p m body).2.qm.seq (fifoSource n) = Tab.get 0#32 s.qm.seq (fifoSource n) + 1#32 ∧
      if (s.fifo n).items.length < 32 then
        ((s.ingress n p m body).2.fifo n).items = (s.fifo n).items ++ [(p, s.stamped (fifoSource n) m body)] ∧
          ((s.ingress n p m body).2.fifo n).drops = (s.fifo n).drops
      else ((s.ingress n p m body).2.fifo n).items = (s.fifo n).items ∧ ((s.ingress n p m body).2.fifo n).ovf = true ∧
        ((s.ingress n p m body).2.fifo n).drops = if (s.fifo n).drops < 0xFFFF then (s.fifo n).drops + 1 else 0xFFFF := by
  rw [State.ingress_eq]
  refine ⟨?_, fifoPush_outcome n p _ (s.seqUp (fifoSource n))⟩
  rw [State.fifoPush_seq]
  exact Tab.get_set_same ..

/-! ### The drain -/

/-- The FIFOs and the tails of the queues stay. -/
structure PointersKept (s t : State) : Prop where
  fifos : t.qm.fifos = s.qm.fifos
  tails : ∀ q, (t.desc q).tail = (s.desc q).tail

theorem PointersKept.refl (s : State) : PointersKept s s := ⟨rfl, fun _ => rfl⟩

theorem PointersKept.trans (h : PointersKept s t) (g : PointersKept t u) : PointersKept s u :=
  ⟨g.fifos.trans h.fifos, fun q => (g.tails q).trans (h.tails q)⟩

theorem ReleasesOnly.pointersKept (h : ReleasesOnly s t) : PointersKept s t := ⟨h.fifos, h.tails⟩

theorem PointersKept.ite {c : Prop} [Decidable c] (h : PointersKept s t) (g : PointersKept s u) : PointersKept s (if c then t else u) := by
  split
  · exact h
  · exact g

/-- A change of Spindle's own items and of the outputs. -/
theorem PointersKept.spindle {spn : Spn} {out : List Out} (h : PointersKept s t) : PointersKept s { t with spn := spn, out := out } :=
  h.trans ⟨rfl, fun _ => rfl⟩

theorem PointersKept.setDesc (h : PointersKept s t) {q : ℕ} {d : Desc} (hd : d.tail = (t.desc q).tail) : PointersKept s (t.setDesc q d) :=
  h.trans ((ReleasesOnly.refl t).setDesc hd).pointersKept

theorem State.rekey_pointersKept (q ptr key : ℕ) (s : State) : PointersKept s (s.rekey q ptr key) := by
  unfold State.rekey
  split
  · exact PointersKept.refl s
  · dsimp only
    split
    · exact PointersKept.refl s
    · exact ((ReleasesOnly.refl s).setMerge _ _).pointersKept

theorem State.settle_pointersKept (q ptr : ℕ) (s : State) : PointersKept s (s.settle q ptr) := (PointersKept.refl s).setDesc rfl

theorem State.pairMatch_pointersKept (o : OwnItem) (m : FrameMsg) (s : State) : PointersKept s (s.pairMatch o m) := by
  unfold State.pairMatch
  refine PointersKept.trans (PointersKept.ite ?_ ?_) (State.settle_pointersKept _ _ _)
  · refine PointersKept.trans ?_ (State.rekey_pointersKept _ _ _ _)
    exact PointersKept.trans (PointersKept.refl s).spindle ((ReleasesOnly.refl _).ramPut _ _).pointersKept
  · exact (PointersKept.refl s).spindle

theorem State.pairNewest_pointersKept (s : State) : PointersKept s s.pairNewest := by
  unfold State.pairNewest
  split
  · exact PointersKept.refl s
  · split
    · exact PointersKept.refl s
    · split
      · exact PointersKept.refl s
      · exact ((PointersKept.refl s).spindle).trans (State.pairMatch_pointersKept _ _ _)

/-- The item as a publication stores it. -/
def Desc.stored (d : Desc) (k : ℕ) (x : Item) : Item := (if d.cls = 4 then pairSeq k x else x) ||| (1#512 <<< 159)

/-- The item in its slot and the tail advanced, before a merge context takes notice of it. -/
def State.slotPut (q k : ℕ) (x : Item) (s : State) : State :=
  let d := s.desc q
  let v := s.ramPut (d.slotAddr d.tail) (bytesOf 64 (d.stored k x))
  (v.setDesc q { v.desc q with
    tail := (d.tail + 1) % d.modulus, tailn := 0x1FFFFF - (d.tail + 1) % d.modulus
    waitFrom := match d.waitFrom with | some w => some w | none => some v.tb.elapsed }).count 0x0201 1 { cls := some d.cls }

theorem State.publish_eq (q k : ℕ) (x : Item) (s : State) :
    s.publish q k x = if (s.desc q).merge then (s.slotPut q k x).mergePublish q (s.desc q).tail
      (itemKey (if (s.desc q).cls = 4 then pairSeq k x else x)) else s.slotPut q k x := rfl

theorem State.slotPut_facts (q k : ℕ) (x : Item) (s : State) :
    (s.slotPut q k x).qm.fifos = s.qm.fifos ∧ ((s.slotPut q k x).desc q).tail = ((s.desc q).tail + 1) % (s.desc q).modulus ∧
      (s.slotPut q k x).spn = s.spn ∧ (∀ p, ((s.slotPut q k x).desc q).slotAddr p = (s.desc q).slotAddr p) ∧
      (∀ a n, (s.slotPut q k x).ramNat a n = (s.ramPut ((s.desc q).slotAddr (s.desc q).tail) (bytesOf 64 ((s.desc q).stored k x))).ramNat a n) := by
  unfold State.slotPut
  dsimp only
  rw [State.count_frame]
  generalize hv : s.ramPut _ _ = v
  have hqm : v.qm = s.qm := by rw [← hv]; rfl
  have hspn : v.spn = s.spn := by rw [← hv]; rfl
  have hdesc : v.desc q = s.desc q := by rw [State.desc, hqm, State.desc]
  generalize hd : ({ v.desc q with tail := _, tailn := _, waitFrom := _ } : Desc) = d
  have hset := State.desc_setDesc_same v q d
  refine ⟨by rw [← hqm]; rfl, ?_, hspn, fun p => ?_, fun a n => ?_⟩
  · exact (congrArg Desc.tail hset).trans (by rw [← hd])
  · refine (congrArg (fun d : Desc => d.slotAddr p) hset).trans ?_
    rw [← hd, ← hdesc]
    rfl
  · exact congrArg natOfBytes (State.ramBytes_congr _ _ a n fun _ _ => rfl)

theorem State.publish_facts (q k : ℕ) (x : Item) (s : State) :
    (s.publish q k x).qm.fifos = s.qm.fifos ∧ ((s.publish q k x).desc q).tail = ((s.desc q).tail + 1) % (s.desc q).modulus ∧
      (s.publish q k x).spn = s.spn := by
  obtain ⟨hfifos, htail, hspn, -⟩ := s.slotPut_facts q k x
  have hreleases : ReleasesOnly (s.slotPut q k x) (s.publish q k x) := by
    rw [State.publish_eq]
    exact ReleasesOnly.ite ((ReleasesOnly.refl _).mergePublish _ _ _) (ReleasesOnly.refl _)
  exact ⟨hreleases.fifos.trans hfifos, (hreleases.tails q).trans htail, hreleases.spn.trans hspn⟩

theorem natOfBytes_bytesOfNat (n v : ℕ) : natOfBytes (bytesOfNat n v) = v % 256 ^ n := by
  induction n generalizing v with
  | zero => simp [bytesOfNat, natOfBytes, Nat.mod_one]
  | succ n ih =>
    have hbyte : (BitVec.ofNat 8 v).toNat = v % 256 := BitVec.toNat_ofNat ..
    rw [bytesOfNat, natOfBytes, ih, hbyte, pow_succ', Nat.mod_mul]

theorem ofNat_natOfBytes_bytesOf (x : Item) : BitVec.ofNat 512 (natOfBytes (bytesOf 64 x)) = x := by
  have hpow : 256 ^ 64 = 2 ^ 512 := (pow_mul 2 8 64).symm
  rw [bytesOf, natOfBytes_bytesOfNat, hpow, Nat.mod_eq_of_lt x.isLt, BitVec.ofNat_toNat, BitVec.setWidth_eq]

/-- A publication no merge context takes part in leaves the item in its slot. -/
theorem State.slotItem_publish {q : ℕ} (x : Item) (hmerge : (s.desc q).merge = false) (hcls : (s.desc q).cls ≠ 4) :
    (s.publish q 0 x).slotItem q (s.desc q).tail = x ||| (1#512 <<< 159) := by
  obtain ⟨-, -, -, haddr, hram⟩ := s.slotPut_facts q 0 x
  have hput : s.publish q 0 x = s.slotPut q 0 x := by rw [State.publish_eq, hmerge, if_neg (by decide)]
  have hstored : (s.desc q).stored 0 x = x ||| (1#512 <<< 159) := by rw [Desc.stored, if_neg hcls]
  have hsame := State.ramNat_ramPut_same s ((s.desc q).slotAddr (s.desc q).tail) (bytesOf 64 ((s.desc q).stored 0 x))
  rw [length_bytesOf] at hsame
  rw [hput, State.slotItem, haddr, hram, hsame, ofNat_natOfBytes_bytesOf, hstored]

theorem State.fifoPublish_pointersKept (n p : ℕ) (x : Item) (s : State) :
    PointersKept (s.publish (fifoSource n * 8 + p) 0 x) (s.fifoPublish n p x) := by
  unfold State.fifoPublish
  dsimp only
  generalize s.publish _ 0 x = u
  generalize hv : (if (u.spn.link && !u.solo) = true then { u with out := _ } else u) = v
  have hout : PointersKept u v := by
    rw [← hv]
    exact PointersKept.ite (PointersKept.refl u).spindle (PointersKept.refl u)
  generalize hw : v.setDesc _ _ = w
  have hdesc : PointersKept u w := hw ▸ hout.setDesc rfl
  exact PointersKept.ite (PointersKept.ite hout hdesc.spindle) (PointersKept.refl u)

theorem State.fifoPublish_hosted {n : ℕ} (p : ℕ) (x : Item) (s : State) (hn : 10 ≤ n) :
    s.fifoPublish n p x = s.publish (fifoSource n * 8 + p) 0 x := by
  unfold State.fifoPublish
  exact if_neg (Nat.not_lt.mpr hn)

theorem HoldsOnly.desc {n : ℕ} (h : HoldsOnly n s t) (q : ℕ) : t.desc q = s.desc q := by
  rw [h.frame]
  rfl

theorem HoldsOnly.slotItem {n : ℕ} (h : HoldsOnly n s t) (q p : ℕ) : t.slotItem q p = s.slotItem q p := by
  rw [State.slotItem, State.slotItem, h.desc]
  refine congrArg (fun bs => BitVec.ofNat 512 (natOfBytes bs)) (State.ramBytes_congr _ _ _ _ fun k _ => ?_)
  rw [h.frame]
  rfl

theorem State.pairNewest_none (h : s.spn.own = []) : s.pairNewest = s := by
  rw [State.pairNewest, h]
  rfl

theorem State.fifoDrain_publishes {n p : ℕ} {x : Item} {rest : List (ℕ × Item)} (hitems : (s.fifo n).items = (p, x) :: rest)
    (hsound : s.qmAccess (fifoSource n * 8 + p) = (true, s)) (hput : s.canPut (fifoSource n * 8 + p) = true)
    (hstate : (s.desc (fifoSource n * 8 + p)).state = 0) :
    s.fifoDrain n = ((s.setFifo n { s.fifo n with items := rest }).fifoPublish n p x).fifoHold n := by
  unfold State.fifoDrain
  simp only [hitems, hsound, hput, hstate, decide_true, Bool.and_self, if_true]

theorem drain_facts {n p q : ℕ} {x : Item} {rest : List (ℕ × Item)} (hq : fifoSource n * 8 + p = q) (hitems : (s.fifo n).items = (p, x) :: rest)
    (hsound : s.qmAccess q = (true, s)) (hput : s.canPut q = true) (hstate : (s.desc q).state = 0) :
    ((s.fifoDrain n).pairNewest.fifo n).items = rest ∧
      ((s.fifoDrain n).pairNewest.desc q).tail = ((s.desc q).tail + 1) % (s.desc q).modulus ∧
      (12 ≤ n → s.spn.own = [] → (s.desc q).merge = false → (s.desc q).cls ≠ 4 →
        (s.fifoDrain n).pairNewest.slotItem q (s.desc q).tail = x ||| (1#512 <<< 159)) := by
  subst hq
  have hdrain := State.fifoDrain_publishes hitems hsound hput hstate
  generalize hv : s.setFifo n { s.fifo n with items := rest } = v at hdrain
  have hvitems : (v.fifo n).items = rest := by rw [← hv, State.fifo_setFifo_same]
  have hvdesc (q : ℕ) : v.desc q = s.desc q := by rw [← hv]; rfl
  have hvspn : v.spn = s.spn := by rw [← hv]; rfl
  obtain ⟨hfifos, htail, hspn⟩ := v.publish_facts (fifoSource n * 8 + p) 0 x
  have hpub := v.fifoPublish_pointersKept n p x
  have hold := State.fifoHold_holdsOnly n (v.fifoPublish n p x)
  rw [← hdrain] at hold
  have hnewest := (s.fifoDrain n).pairNewest_pointersKept
  refine ⟨?_, ?_, fun hn hown hmerge hcls => ?_⟩
  · have hkept : ((s.fifoDrain n).pairNewest.fifo n) = (s.fifoDrain n).fifo n := by rw [State.fifo, hnewest.fifos, State.fifo]
    have hsame : (v.fifoPublish n p x).fifo n = v.fifo n := by rw [State.fifo, hpub.fifos, hfifos, State.fifo]
    rw [hkept, hold.items, hsame, hvitems]
  · rw [hnewest.tails, hold.desc, hpub.tails, htail, hvdesc]
  · have heq := v.fifoPublish_hosted p x (Nat.le_trans (by decide) hn)
    rw [heq] at hold
    have hnone : (s.fifoDrain n).spn.own = [] := by
      rw [hold.frame]
      exact (congrArg Spn.own (hspn.trans hvspn)).trans hown
    rw [← hvdesc] at hmerge hcls
    rw [State.pairNewest_none hnone, hold.slotItem, ← hvdesc]
    exact State.slotItem_publish x hmerge hcls

theorem fifoDrain_gives {f : Fin 18} {p q : ℕ} {x : Item} {rest : List (ℕ × Item)} (h10 : f.val ≠ 10) (h11 : f.val ≠ 11)
    (hmain : s.pwr.mainOn = true) (hp : s.pwr.state < 3) (hq : fifoSource f.val * 8 + p = q) (hitems : (s.fifo f.val).items = (p, x) :: rest)
    (hsound : s.qmAccess q = (true, s)) (hput : s.canPut q = true) (hstate : (s.desc q).state = 0) :
    Gives (.fifoDrain f) s (fun t => (t.fifo f.val).items = rest ∧ (t.desc q).tail = ((s.desc q).tail + 1) % (s.desc q).modulus ∧
      (12 ≤ f.val → s.spn.own = [] → (s.desc q).merge = false → (s.desc q).cls ≠ 4 →
        t.slotItem q (s.desc q).tail = x ||| (1#512 <<< 159))) := by
  have hc : exec (.fifoDrain f) s = execFifoDrain f s := rfl
  refine ⟨(s.fifoDrain f.val).pairNewest, hc.trans ?_, drain_facts hq hitems hsound hput hstate⟩
  have hnot : ¬ 3 ≤ s.pwr.state := Nat.not_le.mpr hp
  have hother : ¬ (f.val = 10 ∨ f.val = 11) := fun h => h.elim h10 h11
  unfold execFifoDrain
  simp only [hmain, hnot, hother, Bool.not_true, decide_false, Bool.or_self, Bool.false_eq_true, if_false, false_and]

end Sys2Proof.Machine
end

section
open Sys2Proof Sys2Proof.Machine

/-- Settles O22: dispatch through the thread it starts, the watchdog through the fault row, arrivals and the drain through what a
FIFO's HOLD, a merge context and Spindle's pairing leave of the FIFOs and the queues' pointers. -/
theorem dispatchAndIngress : Obligations.DispatchAndIngress := by
  unfold Obligations.DispatchAndIngress
  refine ⟨?_, ?_, ?_, ?_, ?_, ?_⟩
  · intro t q r s hcan u rsv hreplay hpick hsound hitem
    obtain ⟨v, hexec, rfl⟩ := dispatch_gives hcan hreplay hpick hsound hitem
    obtain ⟨⟨hrun, hregs, hpreds, hpc, hscr, hstage, hq, hcount, hepoch, hwd⟩, hinfl, hreserve⟩ :=
      dispatchFrom_outcome t.val q r (s.refill t.val)
    have hdesc : (s.refill t.val).desc q = s.desc q := by rw [State.refill_frame]; rfl
    have htb : (s.refill t.val).tb = s.tb := by rw [State.refill_frame]
    rw [hdesc] at hpc hinfl
    rw [htb] at hwd
    exact ⟨_, hexec, hrun, hregs, hpreds, hpc, hscr, hstage, hq, hcount, hepoch, hwd, hinfl, hreserve⟩
  · intro t s h hmain hfree hack hpast
    exact watchdog_gives hmain ⟨hfree, hack⟩ hpast
  · intro q w s d hmain hring hdepth hwait hpast
    exact starve_gives hmain hring hdepth hwait hpast
  · intro f p body sub s hrun hpresent hhold src m x old
    have hexec := arrival_runs (p := p) (body := body) (sub := sub) hrun hpresent hhold
    by_cases h16 : f.val = 16
    · rw [if_pos h16] at hexec
      refine ⟨_, hexec, fun h => absurd h16 h, ?_⟩
      have hx : x = body := if_pos h16
      have hout := fifoPush_outcome f.val p.val body s
      rw [hx, ← h16]
      exact hout
    · rw [if_neg h16] at hexec
      obtain ⟨hseq, hout⟩ := ingress_outcome f.val p.val m body s
      have hx : x = s.stamped src m body := if_neg h16
      refine ⟨_, hexec, fun _ => hseq, ?_⟩
      rw [hx]
      exact hout
  · intro f p body sub s h16 hhold
    exact arrival_waits h16 hhold
  · intro f p x rest s h10 h11 hmain hp hitems q d hsound hput hstate
    exact fifoDrain_gives h10 h11 hmain hp rfl hitems hsound hput hstate

end

section
/-! ## The pointer check of a queue (R71, R84 to R86) -/

namespace Sys2Proof.Machine
open Sys2Proof

variable {s : State} {q : ℕ} {d : Desc}

theorem Desc.depth_lt_modulus (d : Desc) : d.depth < d.modulus := Nat.mod_lt _ (Nat.two_pow_pos _)

theorem Desc.sound_bounds (h : d.sound = true) : d.depth ≤ d.size ∧ d.depth + d.rsv ≤ d.size := by
  simp only [Desc.sound, Bool.and_eq_true, decide_eq_true_eq] at h
  obtain ⟨⟨⟨⟨-, hdepth⟩, -⟩, hroom⟩, -⟩ := h
  exact ⟨hdepth, hroom⟩

theorem Desc.freeSlots_add (h : d.sound = true) : d.freeSlots + d.depth + d.rsv = d.size := by
  rw [Nat.add_assoc]
  exact Nat.sub_add_cancel (Desc.sound_bounds h).2

/-- The descriptor a queue reset leaves (R85, R86). -/
def Desc.cleared (d : Desc) : Desc :=
  { d with
    head := 0, tail := 0, disp := 0, rsv := 0, infl := 0, headn := 0x1FFFFF, tailn := 0x1FFFFF, state := 1
    rets := [], counts := [], done := [], rel := [], unsettled := [], gen := d.gen + 1, waitFrom := none, starved := false, lost := d.depth }

theorem Desc.sound_of_empty (hhead : d.head = 0) (htail : d.tail = 0) (hdisp : d.disp = 0) (hrsv : d.rsv = 0) (hinfl : d.infl = 0)
    (hheadn : d.headn = 0x1FFFFF) (htailn : d.tailn = 0x1FFFFF) : d.sound = true := by
  have hdepth : d.depth = 0 := by
    rw [Desc.depth, hhead, htail, Nat.zero_mod, Nat.zero_add, Nat.sub_zero, Nat.mod_self]
  simp [Desc.sound, hdepth, hhead, htail, hdisp, hrsv, hinfl, hheadn, htailn]

/-- A queue reset clears its descriptor, notes the queue and raises the QM's interrupt; the other queues and the memory stay. -/
theorem State.queueReset_outcome (q : ℕ) (s : State) :
    (s.queueReset q).desc q = (s.desc q).cleared ∧ (∀ p, p ≠ q → (s.queueReset q).desc p = s.desc p) ∧
      (s.queueReset q).qm.rstQ = q ∧ (s.queueReset q).qm.pend = true ∧ (s.queueReset q).sup.sipend.getLsbD 1 = true ∧
      (s.queueReset q).mem = s.mem := by
  have hsame : (s.setDesc q (s.desc q).cleared).desc q = (s.desc q).cleared := State.desc_setDesc_same ..
  have hother (p : ℕ) (hp : p ≠ q) : (s.setDesc q (s.desc q).cleared).desc p = s.desc p := State.desc_setDesc_other _ _ hp
  have hirq : (s.sup.sipend ||| BitVec.ofNat 64 (2 ^ 1)).getLsbD 1 = true := by simp
  unfold State.queueReset
  rw [State.event_frame]
  generalize (State.event _ _ _).evr = e
  dsimp only
  generalize hu : s.setDesc q _ = u
  have hdesc : u.desc q = (s.desc q).cleared := hu ▸ hsame
  have hrest (p : ℕ) (hp : p ≠ q) : u.desc p = s.desc p := hu ▸ hother p hp
  have hsup : u.sup = s.sup := hu ▸ rfl
  have hmem : u.mem = s.mem := hu ▸ rfl
  rw [← hsup] at hirq
  split
  · exact ⟨hdesc, hrest, rfl, rfl, hirq, hmem⟩
  · exact ⟨hdesc, hrest, rfl, rfl, hirq, hmem⟩

theorem State.qmAccess_unsound (hring : (s.desc q).hasRing = true) (hsound : (s.desc q).sound = false) :
    s.qmAccess q = (false, s.queueReset q) := by
  rw [State.qmAccess, hring, hsound]
  rfl

theorem State.qmAccess_passes (h : (s.desc q).hasRing = false ∨ (s.desc q).sound = true) : s.qmAccess q = (true, s) := by
  rw [State.qmAccess]
  rcases h with h | h
  · rw [h, Bool.false_and]
    rfl
  · rw [h, Bool.not_true, Bool.and_false]
    rfl

end Sys2Proof.Machine
end

section
open Sys2Proof Sys2Proof.Machine

/-- Settles O23: the check either finds a ring whose pointers fail, and resets it, or changes nothing. -/
theorem pointerChecks : Obligations.PointerChecks := by
  unfold Obligations.PointerChecks
  refine fun q s => ⟨fun hring hsound => ?_, fun hsound => ?_, fun hring => State.qmAccess_passes (.inl hring), Desc.depth_lt_modulus _⟩
  · obtain ⟨hdesc, hother, hrst, hpend, hirq, hmem⟩ := s.queueReset_outcome q
    refine ⟨s.queueReset q, State.qmAccess_unsound hring hsound, ?_⟩
    rw [hdesc]
    exact ⟨rfl, rfl, rfl, rfl, rfl, rfl, rfl, rfl, rfl, Desc.sound_of_empty rfl rfl rfl rfl rfl rfl rfl, hrst, hpend, hirq, hother, hmem⟩
  · exact ⟨State.qmAccess_passes (.inr hsound), (Desc.sound_bounds hsound).1, Desc.freeSlots_add hsound⟩

end

section
/-! ## A table with the keys of a range dropped -/

namespace Sys2Proof

theorem Tab.get_filter_key {α : Type} (d : α) (f : ℕ → Bool) (t : Tab α) (k : ℕ) :
    Tab.get d (t.filter (fun p => f p.1)) k = if f k then Tab.get d t k else d := by
  induction t with
  | nil => simp
  | cons p t ih =>
    obtain ⟨j, w⟩ := p
    by_cases hj : j = k
    · subst hj
      cases hf : f j <;> simp [Tab.get, hf, ih]
    · cases hf : f j <;> simp [Tab.get, hf, ih, hj]

/-- Outside a range the table keeps its values, inside it holds none. -/
theorem Tab.get_filter_outside {α : Type} (d : α) (t : Tab α) (a b k : ℕ) :
    Tab.get d (t.filter (fun p => !(decide (a ≤ p.1) && decide (p.1 < b)))) k = if a ≤ k ∧ k < b then d else Tab.get d t k := by
  rw [Tab.get_filter_key d (fun j => !(decide (a ≤ j) && decide (j < b)))]
  by_cases h : a ≤ k ∧ k < b
  · simp [h]
  · rw [if_neg h, if_pos (by simp only [← Bool.decide_and, h, decide_false, Bool.not_false])]

end Sys2Proof
end

section
/-! ## Descriptor commands (R72 to R74, R450) -/

namespace Sys2Proof.Machine
open Sys2Proof

variable {i : Init} {v : W32} {s : State} {q : ℕ}

/-! ### A write of QM_DCMD -/

theorem State.regWrite_dcmd (h : Reaches i 0x080004 s) : s.regWrite i 0x080004 v = s.ddCmd i (vf v.toNat 0 2) := by
  have hg := State.regGate_of_reaches (r := .one 0x04 .wo 0 3#32) h (by decide) (by decide) (by decide)
  simp [State.regWrite, hg, RegRow.one, windowWrite, writeQm]

/-- The queue QM_DDSEL names. -/
def State.ddSel (s : State) : ℕ := s.regF 0x080000 0 16

theorem State.ddCmd_read (hi : i = .sup) (hbusy : s.qm.busyQ = none) : s.ddCmd i 0 = s.ddCmdRead s.ddSel := by
  simp [State.ddCmd, State.ddSel, hi, hbusy]

theorem State.ddCmd_create (hi : if (s.ddCreate (s.desc s.ddSel)).cls = 2 then i.heartwood = true else i = .sup)
    (hbusy : s.qm.busyQ = none) : s.ddCmd i 1 = s.ddCmdCreate s.ddSel := by
  have hcls : (s.ddCreate (s.desc s.ddSel)).cls = (s.ddCreate {}).cls := rfl
  rw [hcls] at hi
  split_ifs at hi with h2 <;> simp [State.ddCmd, State.ddSel, hi, hbusy, h2]

theorem State.ddCmd_write (hi : if (s.desc s.ddSel).cls = 2 then i.heartwood = true else i = .sup) (hbusy : s.qm.busyQ = none) :
    s.ddCmd i 2 = s.ddCmdWrite s.ddSel := by
  unfold State.ddSel at hi ⊢
  split_ifs at hi with h2 <;> simp [State.ddCmd, hi, hbusy, h2]

theorem State.ddCmd_delete (hi : if (s.desc s.ddSel).cls = 2 then i.heartwood = true else i = .sup) (hbusy : s.qm.busyQ = none) :
    s.ddCmd i 3 = s.ddCmdDelete s.ddSel := by
  unfold State.ddSel at hi ⊢
  split_ifs at hi with h2 <;> simp [State.ddCmd, hi, hbusy, h2]

/-- A descriptor command answers what its operation answers. -/
theorem responds_of_ddCmd {c : Instr} {u : State} {st : Status} {P : State → Prop} (hc : exec c s = s.regCmd i 0x080004 v)
    (hr : Reaches i 0x080004 s) (hd : s.ddCmd i (vf v.toNat 0 2) = u.ddOut st)
    (hP : ∀ h r, P { (u.ddOut st).2 with hst := h, resp := r }) : Responds c i st s P :=
  responds_of_regWrite hc hr ((State.regWrite_dcmd hr).trans hd) hP

/-! ### What each command does -/

/-- Words stored in QM_DDATA0 to 7. -/
def State.ddStore (s : State) (ws : List W32) : State :=
  ((List.range 8).zip ws).foldl (fun s p => s.setReg (0x080020 + 4 * p.1) p.2) s

/-- The words QM_DDATA0 to 7 hold. -/
def State.ddWords (s : State) : List W32 := (List.range 8).map s.ddata

theorem State.ddWords_congr {t : State} (h : t.regs = s.regs) : t.ddWords = s.ddWords :=
  List.map_congr_left fun k _ => congrArg (fun regs => Tab.get (regReset (0x080020 + 4 * k)) regs (0x080020 + 4 * k)) h

theorem State.ddStore_qm (ws : List W32) (s : State) : (s.ddStore ws).qm = s.qm := by
  unfold State.ddStore
  generalize (List.range 8).zip ws = l
  induction l generalizing s with
  | nil => rfl
  | cons p l ih => exact ih _

theorem State.ddWords_ddStore {ws : List W32} (h : ws.length = 8) (s : State) : (s.ddStore ws).ddWords = ws := by
  obtain ⟨a, b, c, d, e, f, g, k, rfl⟩ : ∃ a b c d e f g k, ws = [a, b, c, d, e, f, g, k] := by
    match ws, h with
    | [a, b, c, d, e, f, g, k], _ => exact ⟨a, b, c, d, e, f, g, k, rfl⟩
  have hr : List.range 8 = [0, 1, 2, 3, 4, 5, 6, 7] := by decide
  simp [State.ddWords, State.ddata, State.ddStore, hr, State.reg_setReg_other]

theorem State.ddCmdRead_sound (h : (s.desc q).hasRing = false ∨ (s.desc q).sound = true) :
    s.ddCmdRead q = (s.ddStore (s.desc q).words).ddOut .ok := by
  rw [State.ddCmdRead, State.qmAccess_passes h]
  rfl

theorem descriptorRead_answers {u : State} {ws : List W32} (hr : Reaches i 0x080004 s) (hread : s.ddCmd i 0 = u.ddOut .ok)
    (hwords : u.ddWords = ws) (hdescs : u.qm.descs = s.qm.descs) :
    Responds (.descriptorRead i) i .ok s (fun t => t.ddWords = ws ∧ t.qm.descs = s.qm.descs) :=
  responds_of_ddCmd rfl hr hread fun _ _ => ⟨(State.ddWords_congr rfl).trans hwords, hdescs⟩

theorem descriptorRead_responds (hi : i = .sup) (hr : Reaches i 0x080004 s) (hbusy : s.qm.busyQ = none)
    (hok : (s.desc s.ddSel).hasRing = false ∨ (s.desc s.ddSel).sound = true) :
    Responds (.descriptorRead i) i .ok s (fun t => t.ddWords = (s.desc s.ddSel).words ∧ t.qm.descs = s.qm.descs) :=
  descriptorRead_answers hr ((State.ddCmd_read hi hbusy).trans (State.ddCmdRead_sound hok)) (State.ddWords_ddStore rfl s)
    (congrArg Qm.descs (s.ddStore_qm _))

/-- The created descriptor in its place, the QM busy while its ring is filled. -/
def State.ddInstall (q : ℕ) (n : Desc) (s : State) : State :=
  { s.setDesc q n with qm := { (s.setDesc q n).qm with busyQ := if n.filling then some q else none } }

theorem State.ddCmdCreate_ok (hring : (s.desc q).hasRing = false) (hden : createDenied q (s.ddCreate (s.desc q)) = false)
    (hlim : (s.ddCreate (s.desc q)).rdlim ≠ 0) : s.ddCmdCreate q = (s.ddInstall q (s.ddCreate (s.desc q))).ddOut .ok := by
  simp [State.ddCmdCreate, State.ddInstall, hring, hden, hlim]

theorem State.ddCmdCreate_taken (hring : (s.desc q).hasRing = true) : s.ddCmdCreate q = s.ddOut .retry := by
  simp [State.ddCmdCreate, hring]

theorem State.setAside_none (h : (s.desc q).rets = []) : s.setAside q = s := by
  rw [State.setAside, h]
  rfl

/-- On a queue that is not halted and has nothing returned, with MERGE left as it is, a WRITE sets its fields alone. -/
theorem State.ddCmdWrite_ok (hlim : (s.ddWrite (s.desc q)).rdlim ≠ 0) (hstate : (s.desc q).state ≠ 2)
    (hmerge : (s.ddWrite (s.desc q)).merge = (s.desc q).merge) (hrets : (s.desc q).rets = []) :
    s.ddCmdWrite q = (s.setDesc q (s.ddWrite (s.desc q))).ddOut .ok := by
  have hset := State.desc_setDesc_same s q (s.ddWrite (s.desc q))
  have haside : (s.setDesc q (s.ddWrite (s.desc q))).setAside q = s.setDesc q (s.ddWrite (s.desc q)) :=
    State.setAside_none (by rw [hset]; exact hrets)
  have hchange (u : State) : u.mergeChange q (s.desc q).merge (s.ddWrite (s.desc q)).merge = u := if_pos hmerge.symm
  rw [State.ddCmdWrite]
  simp only [hlim, hstate, false_and, if_false, hchange]
  exact congrArg (State.ddOut .ok) haside

theorem State.ddCmdDelete_ok (hdepth : (s.desc q).depth = 0) (hrsv : (s.desc q).rsv = 0) (hinfl : (s.desc q).infl = 0) :
    s.ddCmdDelete q = (s.setDesc q { s.desc q with log2n := 0 }).ddOut .ok := by
  simp [State.ddCmdDelete, hdepth, hrsv, hinfl]

theorem State.ddCmdDelete_busy (h : (s.desc q).depth ≠ 0 ∨ (s.desc q).rsv ≠ 0 ∨ (s.desc q).infl ≠ 0) :
    s.ddCmdDelete q = s.ddOut .retry :=
  if_pos h

/-! ### The end of the ring's zero-fill -/

theorem zeroFill_gives {k : ℕ} (hbusy : s.qm.busyQ = some k) (hdram : s.dramOn = true) :
    Gives .createZeroFillDone s (fun t => t.qm.busyQ = none ∧ t.desc k = { s.desc k with filling := false } ∧
      (∀ b, t.ramByte b = if (s.desc k).ring ≤ b ∧ b < (s.desc k).ring + 64 * (s.desc k).size then 0#8 else s.ramByte b) ∧
      (∀ l, t.poisoned l = if (s.desc k).ring / 64 ≤ l ∧ l < ((s.desc k).ring + 64 * (s.desc k).size) / 64 then false else s.poisoned l)) := by
  have hc : exec .createZeroFillDone s = execCreateZeroFillDone s := rfl
  unfold execCreateZeroFillDone at hc
  simp only [hbusy, hdram, Bool.not_true, Bool.false_eq_true, if_false] at hc
  exact ⟨_, hc, rfl, State.desc_setDesc_same .., fun b => Tab.get_filter_outside _ s.mem.dram _ _ b,
    fun l => Tab.get_filter_outside _ s.mem.poison _ _ l⟩

end Sys2Proof.Machine
end

section
/-! ## Queue replay and the fault report FIFO (R87, R92) -/

namespace Sys2Proof.Machine
open Sys2Proof

variable {i : Init} {v : W32} {s t u : State} {q : ℕ}

theorem vf_bit_zero (h : v.getLsbD 0 = true) : vf v.toNat 0 1 = 1 := by
  simpa [vf, BitVec.getLsbD, Nat.testBit_zero] using h

theorem State.regWrite_rplGo (h : Reaches i 0x080068 s) (hv : v.getLsbD 0 = true) : s.regWrite i 0x080068 v = s.rplGo i := by
  have hg := State.regGate_of_reaches (r := .one 0x68 .wo 0 1#32) h (by decide) (by decide) (by decide)
  have hvf := vf_bit_zero hv
  simp [State.regWrite, hg, RegRow.one, windowWrite, writeQm, hvf]

theorem State.regWrite_fltPop (h : Reaches i 0x090030 s) (hv : v.getLsbD 0 = true) :
    s.regWrite i 0x090030 v = (.ok, { s with ge := { s.ge with flt := s.ge.flt.drop 1 } }) := by
  have hg := State.regGate_of_reaches (r := .one 0x30 .wo 0 1#32) h (by decide) (by decide) (by decide)
  have hvf := vf_bit_zero hv
  simp [State.regWrite, hg, RegRow.one, windowWrite, writeGe, hvf]

theorem State.rplGo_begins (hidle : s.qm.replay = none) (hfit : (s.reg 0x080060).toNat ≤ (s.desc (s.regF 0x080064 0 16)).size)
    (hreset : (s.desc (s.regF 0x080064 0 16)).state = 1) :
    s.rplGo .sup =
      (.ok, { s with qm := { s.qm with replay := some ⟨s.regF 0x080064 0 16, s.reg2 0x080058, (s.reg 0x080060).toNat⟩ } }) := by
  simp [State.rplGo, hidle, Nat.not_lt.mpr hfit, hreset]

/-! ### What a publication leaves of the descriptors -/

/-- From `s` to `t` the queues keep their states and the sizes of their rings. -/
def SameRings (s t : State) : Prop := ∀ q, (t.desc q).state = (s.desc q).state ∧ (t.desc q).modulus = (s.desc q).modulus

theorem SameRings.refl (s : State) : SameRings s s := fun _ => ⟨rfl, rfl⟩

theorem SameRings.trans (h : SameRings s t) (g : SameRings t u) : SameRings s u := fun q =>
  ⟨(g q).1.trans (h q).1, (g q).2.trans (h q).2⟩

/-- A change of the units that hold no descriptors. -/
theorem SameRings.units {mem : Mem} {pmc : Pmc} {evr : Evr} {ord : Ord} (h : SameRings s t) :
    SameRings s { t with mem := mem, pmc := pmc, evr := evr, ord := ord } := h

theorem SameRings.ite {c : Prop} [Decidable c] (h : SameRings s t) (g : SameRings s u) : SameRings s (if c then t else u) := by
  split
  · exact h
  · exact g

theorem SameRings.setDesc (h : SameRings s t) {q : ℕ} {d : Desc} (hstate : d.state = (t.desc q).state) (hlog : d.log2n = (t.desc q).log2n) :
    SameRings s (t.setDesc q d) := by
  refine h.trans fun p => ?_
  by_cases hp : p = q
  · rw [hp, State.desc_setDesc_same, hstate, Desc.modulus, hlog]
    exact ⟨rfl, rfl⟩
  · rw [State.desc_setDesc_other _ _ hp]
    exact ⟨rfl, rfl⟩

theorem SameRings.setMerge (h : SameRings s t) (c : ℕ) (m : Merge) : SameRings s (t.setMerge c m) := h.units

theorem SameRings.ramPut (h : SameRings s t) (a : ℕ) (bs : List Byte) : SameRings s (t.ramPut a bs) := h.units

theorem SameRings.event (h : SameRings s t) (c : ℕ) (p : W32) : SameRings s (t.event c p) := by
  rw [State.event_frame]
  exact h.units

theorem SameRings.count (h : SameRings s t) (ev amt : ℕ) (f : PmcTag) : SameRings s (t.count ev amt f) := by
  rw [State.count_frame]
  exact h.units

theorem SameRings.releaseOne (h : SameRings s t) (c q : ℕ) (x : Held) : SameRings s (t.releaseOne c q x) :=
  ((SameRings.ite ((h.ramPut _ _).count _ _ _) h).setMerge _ _).setDesc rfl rfl

theorem SameRings.releaseList (h : SameRings s t) (c q : ℕ) (l : List Held) : SameRings s (t.releaseList c q l) := by
  induction l generalizing t with
  | nil => exact h
  | cons x xs ih => exact ih (h.releaseOne c q x)

theorem SameRings.releaseUpTo (h : SameRings s t) (c p : ℕ) : SameRings s (t.releaseUpTo c p) := (h.setMerge _ _).releaseList _ _ _

theorem SameRings.mergeDue (h : SameRings s t) (n c : ℕ) : SameRings s (State.mergeDue n c t) := by
  induction n generalizing t with
  | zero => exact h
  | succ n ih =>
    unfold State.mergeDue
    split
    · exact ih (h.releaseUpTo _ _)
    · exact h

theorem SameRings.mergeExpire (h : SameRings s t) (q : ℕ) : SameRings s (t.mergeExpire q) := by
  unfold State.mergeExpire
  split
  · exact h.mergeDue _ _
  · exact h

theorem SameRings.mergeHold (h : SameRings s t) (c q : ℕ) (x : Held) : SameRings s (t.mergeHold c q x) := by
  unfold State.mergeHold
  refine SameRings.ite ?_ (SameRings.ite ((h.setMerge _ _).releaseUpTo _ _) (h.setMerge _ _))
  dsimp only
  split
  · exact (h.setMerge _ _).releaseOne _ _ _
  · refine SameRings.ite ((h.setMerge _ _).releaseOne _ _ _) (SameRings.ite (SameRings.releaseUpTo ?_ _ _) ?_)
    all_goals exact (((h.setMerge _ _).setMerge _ _).releaseOne _ _ _).setMerge _ _

theorem SameRings.mergePublish (h : SameRings s t) (q p k : ℕ) : SameRings s (t.mergePublish q p k) := by
  unfold State.mergePublish
  have expired := h.mergeExpire q
  dsimp only
  split
  · have noted : SameRings s _ := expired.setDesc (q := q) (d := { (t.mergeExpire q).desc q with
      rel := ((t.mergeExpire q).desc q).rel ++ [p], noCtxEv := true }) rfl rfl
    exact SameRings.ite noted (noted.event _ _)
  · exact SameRings.mergeHold (SameRings.ite expired.units expired) _ _ _

theorem SameRings.slotPut (h : SameRings s t) (q k : ℕ) (x : Item) : SameRings s (t.slotPut q k x) := by
  unfold State.slotPut
  dsimp only
  generalize hu : t.ramPut _ _ = u
  have stored : SameRings s u := hu ▸ h.ramPut _ _
  generalize hd : ({ u.desc q with tail := _, tailn := _, waitFrom := _ } : Desc) = d
  exact (stored.setDesc (by rw [← hd]) (by rw [← hd])).count _ _ _

theorem SameRings.publish (h : SameRings s t) (q k : ℕ) (x : Item) : SameRings s (t.publish q k x) := by
  rw [State.publish_eq]
  exact SameRings.ite ((h.slotPut _ _ _).mergePublish _ _ _) (h.slotPut _ _ _)

/-! ### The end of a replay -/

/-- The first `n` items of a replay buffer published. -/
def State.republish (q a n : ℕ) (s : State) : State :=
  (List.range n).foldl (fun s k => s.publish q 0 (BitVec.ofNat 512 (s.ramNat (a + 64 * k) 64))) s

theorem State.republish_succ (q a n : ℕ) (s : State) :
    s.republish q a (n + 1) = (s.republish q a n).publish q 0 (BitVec.ofNat 512 ((s.republish q a n).ramNat (a + 64 * n) 64)) := by
  rw [State.republish, List.range_succ, List.foldl_append]
  rfl

theorem State.tail_publish (q k : ℕ) (x : Item) (s : State) :
    ((s.publish q k x).desc q).tail = ((s.desc q).tail + 1) % (s.desc q).modulus := (s.publish_facts q k x).2.1

theorem State.sameRings_republish (q a n : ℕ) (s : State) : SameRings s (s.republish q a n) := by
  induction n with
  | zero => exact SameRings.refl s
  | succ n ih =>
    rw [State.republish_succ]
    exact ih.publish _ _ _

theorem State.tail_republish_modEq (q a n : ℕ) (s : State) :
    ((s.republish q a n).desc q).tail ≡ (s.desc q).tail + n [MOD (s.desc q).modulus] := by
  induction n with
  | zero => rfl
  | succ n ih =>
    rw [State.republish_succ, State.tail_publish, (s.sameRings_republish q a n q).2]
    exact (Nat.mod_modEq _ _).trans (ih.add_right 1)

theorem State.tail_republish {n : ℕ} (q a : ℕ) (s : State) (hn : 0 < n) :
    ((s.republish q a n).desc q).tail = ((s.desc q).tail + n) % (s.desc q).modulus := by
  obtain ⟨m, rfl⟩ : ∃ m, n = m + 1 := ⟨n - 1, by omega⟩
  rw [State.republish_succ, State.tail_publish, (s.sameRings_republish q a m q).2]
  exact (s.tail_republish_modEq q a m).add_right 1

theorem queueReplayDone_gives {r : Replay} (hr : s.qm.replay = some r) (hdram : s.dramOn = true) (hcnt : 0 < r.cnt)
    (hsound : s.qmAccess r.q = (true, s)) :
    Gives .queueReplayDone s (fun t => t.qm.replay = none ∧ t.qm.pend = false ∧ (t.desc r.q).state = 0 ∧
      (t.desc r.q).tail = ((s.desc r.q).tail + r.cnt) % (s.desc r.q).modulus) := by
  have hc : exec .queueReplayDone s = execQueueReplayDone s := rfl
  unfold execQueueReplayDone at hc
  simp only [hr, hdram, hsound, Bool.not_true, Bool.false_eq_true, if_false] at hc
  rw [State.event_frame] at hc
  generalize (State.event _ _ _).evr = e at hc
  have hnormal := State.desc_setDesc_same s r.q { s.desc r.q with state := 0 }
  generalize hu : s.setDesc r.q { s.desc r.q with state := 0 } = u at hc hnormal
  have htail := u.tail_republish r.q r.addr hcnt
  have hstate := (u.sameRings_republish r.q r.addr r.cnt r.q).1
  rw [hnormal] at htail hstate
  exact ⟨_, hc, rfl, rfl, hstate, htail⟩

end Sys2Proof.Machine
end

section
open Sys2Proof Sys2Proof.Machine

/-- Settles O21: each descriptor command is its own operation on the descriptor QM_DDSEL names, the zero-fill filters the ring out of the
tables of memory, and a replay is a run of publications. -/
theorem descriptorCommands : Obligations.DescriptorCommands := by
  unfold Obligations.DescriptorCommands
  refine fun i v s => ⟨fun hr hbusy => ⟨fun hi hok => ?_, fun hi => ⟨fun hring hden hlim => ?_, fun hring => ?_⟩,
      fun hi => ⟨fun hlim hstate hmerge hrets => ?_, fun hdepth hrsv hinfl => ?_, fun hheld => ?_⟩⟩,
    fun k => zeroFill_gives, fun hr hv hidle hfit hreset => ?_, fun r => queueReplayDone_gives, fun hr hv => ?_⟩
  · exact descriptorRead_responds hi hr hbusy hok
  · exact responds_of_ddCmd rfl hr ((State.ddCmd_create hi hbusy).trans (State.ddCmdCreate_ok hring hden hlim)) fun _ _ =>
      ⟨State.desc_setDesc_same .., rfl, rfl⟩
  · exact responds_of_ddCmd rfl hr ((State.ddCmd_create hi hbusy).trans (State.ddCmdCreate_taken hring)) fun _ _ => rfl
  · exact responds_of_ddCmd rfl hr ((State.ddCmd_write hi hbusy).trans (State.ddCmdWrite_ok hlim hstate hmerge hrets)) fun _ _ =>
      ⟨State.desc_setDesc_same .., rfl⟩
  · exact responds_of_ddCmd rfl hr ((State.ddCmd_delete hi hbusy).trans (State.ddCmdDelete_ok hdepth hrsv hinfl)) fun _ _ =>
      State.desc_setDesc_same ..
  · exact responds_of_ddCmd rfl hr ((State.ddCmd_delete hi hbusy).trans (State.ddCmdDelete_busy hheld)) fun _ _ => rfl
  · exact responds_of_regWrite rfl hr ((State.regWrite_rplGo hr hv).trans (State.rplGo_begins hidle hfit hreset)) fun _ _ => rfl
  · exact responds_of_regWrite rfl hr (State.regWrite_fltPop hr hv) fun _ _ => rfl

end

section
/-! ## Fields of an item and numbers of octets -/

namespace Sys2Proof

variable {w n : ℕ}

theorem extractLsb'_setFld_same (v : BitVec w) (lo : ℕ) (y : BitVec n) (h : lo + n ≤ w) : (setFld v lo y).extractLsb' lo n = y := by
  refine BitVec.eq_of_getLsbD_eq fun j hj => ?_
  simp only [BitVec.getLsbD_extractLsb', Machine.getLsbD_setFld, hj, decide_true, Bool.true_and,
    show lo ≤ lo + j ∧ lo + j < lo + n ∧ lo + j < w by omega, and_self, if_true, Nat.add_sub_cancel_left]

theorem extractLsb'_setFld_apart (v : BitVec w) (lo k m : ℕ) (y : BitVec n) (h : k + m ≤ lo ∨ lo + n ≤ k) :
    (setFld v lo y).extractLsb' k m = v.extractLsb' k m := by
  refine BitVec.eq_of_getLsbD_eq fun j hj => ?_
  simp only [BitVec.getLsbD_extractLsb', Machine.getLsbD_setFld, show ¬ (lo ≤ k + j ∧ k + j < lo + n ∧ k + j < w) by omega, if_false]

theorem natOfBytes_append (as bs : List Byte) : natOfBytes (as ++ bs) = natOfBytes as + 256 ^ as.length * natOfBytes bs := by
  induction as with
  | nil => simp [natOfBytes]
  | cons a as ih => simp [natOfBytes, ih, pow_succ']; ring

theorem natOfBytes_lt (bs : List Byte) : natOfBytes bs < 256 ^ bs.length := by
  induction bs with
  | nil => simp [natOfBytes]
  | cons b bs ih =>
    have hb := b.isLt
    simp only [natOfBytes, List.length_cons, pow_succ']
    omega

/-- Bytes `i` to `i + n - 1` of a longer run of bytes. -/
theorem takeBytes_zero_div (bs : List Byte) (i n m : ℕ) (h : i + n ≤ m) (hm : m ≤ bs.length) :
    takeBytes bs 0 m / 256 ^ i % 256 ^ n = takeBytes bs i n := by
  have hsplit : bs.take m = bs.take i ++ ((bs.drop i).take n ++ (bs.drop (i + n)).take (m - (i + n))) := by
    rw [← List.drop_drop, ← List.take_add, ← List.take_add]
    congr 1
    omega
  have hi : (bs.take i).length = i := List.length_take_of_le (by omega)
  have hn : ((bs.drop i).take n).length = n := List.length_take_of_le (by rw [List.length_drop]; omega)
  have hlow := natOfBytes_lt (bs.take i)
  have hmid := natOfBytes_lt ((bs.drop i).take n)
  rw [hi] at hlow
  rw [hn] at hmid
  rw [takeBytes, takeBytes, List.drop_zero, hsplit, natOfBytes_append, natOfBytes_append, hi, hn, Nat.add_mul_div_left _ _ (by positivity),
    Nat.div_eq_of_lt hlow, Nat.zero_add, Nat.add_mul_mod_self_left, Nat.mod_eq_of_lt hmid]

end Sys2Proof
end

section
/-! ## Frames an Ethernet port receives (R81, R282, R285) -/

namespace Sys2Proof.Machine
open Sys2Proof

variable {s t u : State} {n : ℕ}

/-! ### What HOLD and a stamp leave -/

theorem State.sendPause_bufs (m : ℕ) (v : BitVec 16) (n : ℕ) (s : State) : ((s.sendPause m v).ethAt n).bufs = (s.ethAt n).bufs := by
  unfold State.sendPause
  split
  · by_cases hn : n = m - 12
    · have hsame := congrArg Eth.bufs (s.ethAt_setEth_same (m - 12) { s.ethAt (m - 12) with pauseAt := some s.tb.elapsed })
      rw [hn]
      exact hsame
    · have hother := congrArg Eth.bufs (s.ethAt_setEth_other { s.ethAt (m - 12) with pauseAt := some s.tb.elapsed } hn)
      exact hother
  · rfl

theorem State.fifoHold_bufs (m n : ℕ) (s : State) : ((s.fifoHold m).ethAt n).bufs = (s.ethAt n).bufs := by
  unfold State.fifoHold
  dsimp only
  split_ifs
  · exact State.sendPause_bufs m _ n _
  · exact State.sendPause_bufs m _ n _
  · rfl

theorem State.fifoPush_bufs (m p : ℕ) (x : Item) (n : ℕ) (s : State) : ((s.fifoPush m p x).2.ethAt n).bufs = (s.ethAt n).bufs := by
  unfold State.fifoPush
  dsimp only
  split_ifs
  · exact State.fifoHold_bufs m n _
  · rfl

theorem State.fifoPush_fst (m p : ℕ) (x : Item) (s : State) : (s.fifoPush m p x).1 = decide ((s.fifo m).items.length < 32) := by
  unfold State.fifoPush
  dsimp only
  split_ifs with h
  · rw [decide_eq_true h]
  · rw [decide_eq_false h]

theorem itemSrc_stampItem (body : Item) (st : Stamp) (off : ℤ) (src fl : BitVec 16) (seq ep : W32) :
    itemSrc (stampItem body st off src fl seq ep) = src := by
  rw [itemSrc, fld_eq_extractLsb', stampItem]
  rw [extractLsb'_setFld_apart _ 256 128 16 _ (by decide), extractLsb'_setFld_apart _ 160 128 16 _ (by decide),
    extractLsb'_setFld_apart _ 144 128 16 _ (by decide), extractLsb'_setFld_same _ 128 _ (by decide)]

/-- A stamp leaves the bytes of an item from 36 on. -/
theorem extractLsb'_stampItem (body : Item) (st : Stamp) (off : ℤ) (src fl : BitVec 16) (seq ep : W32) {k m : ℕ} (hk : 288 ≤ k) :
    (stampItem body st off src fl seq ep).extractLsb' k m = body.extractLsb' k m := by
  rw [stampItem]
  iterate 6 rw [extractLsb'_setFld_apart _ _ k m _ (by omega)]

/-! ### Delivery -/

theorem State.poolTake_frame (port : ℕ) (used : List ℕ) (s : State) :
    (s.poolTake port used).2 = { s with freeCtr := (s.poolTake port used).2.freeCtr } := by
  unfold State.poolTake
  dsimp only
  split <;> rfl

/-- No buffer is given only where every buffer of the pool is in use. -/
theorem State.poolTake_none {port : ℕ} {used : List ℕ} (h : (s.poolTake port used).1 = none) : ∀ b, b < Config.poolSize port → b ∈ used := by
  unfold State.poolTake at h
  dsimp only at h
  split at h
  · next hfree =>
    intro b hb
    simpa using List.filter_eq_nil_iff.mp hfree b (List.mem_range.mpr hb)
  · next hne =>
    have hpos := List.length_pos_iff.mpr hne
    exact absurd (List.getElem?_eq_none_iff.mp h) (Nat.not_le.mpr (Nat.mod_lt _ hpos))

/-- The item of R285 for `len` octets at `addr`, before its stamp. -/
def ethItem (addr dev k len : ℕ) : Item :=
  setFld (setFld (setFld (setFld (0#512 : Item) 320 (BitVec.ofNat 64 addr)) 384 (BitVec.ofNat 16 len)) 400 (BitVec.ofNat 16 dev))
    416 (BitVec.ofNat 8 k)

theorem ethItem_fields (addr dev k len : ℕ) :
    (ethItem addr dev k len).extractLsb' 384 16 = BitVec.ofNat 16 len ∧ (ethItem addr dev k len).extractLsb' 400 16 = BitVec.ofNat 16 dev ∧
      (ethItem addr dev k len).extractLsb' 416 8 = BitVec.ofNat 8 k := by
  refine ⟨?_, ?_, extractLsb'_setFld_same _ _ _ (by decide)⟩ <;> rw [ethItem]
  · rw [extractLsb'_setFld_apart _ 416 _ _ _ (by decide), extractLsb'_setFld_apart _ 400 _ _ _ (by decide),
      extractLsb'_setFld_same _ _ _ (by decide)]
  · rw [extractLsb'_setFld_apart _ 416 _ _ _ (by decide), extractLsb'_setFld_same _ _ _ (by decide)]

/-- What becomes of `len` octets from device `dev` with `k` items on port `n`: no buffer is free, or the port's FIFO is full, or they are
the FIFO's last item and hold a buffer. -/
def Arrived (n dev k len : ℕ) (s t : State) : Prop :=
  ((∀ b, b < Config.poolSize (0x150 + n) → b ∈ (s.ethAt n).bufs) ∧ t.qm = s.qm) ∨
  (32 ≤ (s.fifo (12 + n)).items.length ∧ (t.fifo (12 + n)).ovf = true) ∨
  ∃ x, (t.fifo (12 + n)).items = (s.fifo (12 + n)).items ++ [(((s.reg 0x180000).extractLsb' 8 3).toNat, x)] ∧
    itemSrc x = s.sourceId (12 + n) ∧ x.extractLsb' 384 16 = BitVec.ofNat 16 len ∧ x.extractLsb' 400 16 = BitVec.ofNat 16 dev ∧
    x.extractLsb' 416 8 = BitVec.ofNat 8 k ∧ (t.ethAt n).bufs.length = (s.ethAt n).bufs.length + 1

/-- The octets stored at `addr`, their item given to the port's FIFO. -/
def State.ethPut (n dev k len sub addr : ℕ) (buf : List Byte) (s : State) : Bool × State :=
  let v := (s.ramWrite addr buf).2
  v.ingress (12 + n) (v.regF Reg.treCtl 8 3) (v.momentSub sub 32) (ethItem addr dev k len)

/-- Buffer `b` of the port in use. -/
def State.holdBuf (n b : ℕ) (s : State) : State := s.setEth n { s.ethAt n with bufs := (s.ethAt n).bufs ++ [b] }

theorem State.ethDeliver_none {dev k len sub : ℕ} {buf : List Byte} (h : s.poolTake (0x150 + n) (s.ethAt n).bufs = (none, u)) :
    s.ethDeliver n dev k len sub buf = u := by
  rw [State.ethDeliver, h]

theorem State.ethDeliver_some {dev k len sub b : ℕ} {buf : List Byte} (h : s.poolTake (0x150 + n) (s.ethAt n).bufs = (some b, u)) :
    s.ethDeliver n dev k len sub buf =
      if (u.ethPut n dev k len sub (u.reg2 (ethReg n 0x10) + 2048 * b) buf).1 then
        (u.ethPut n dev k len sub (u.reg2 (ethReg n 0x10) + 2048 * b) buf).2.holdBuf n b
      else (u.ethPut n dev k len sub (u.reg2 (ethReg n 0x10) + 2048 * b) buf).2 := by
  rw [State.ethDeliver, h]
  rfl

theorem ethPut_outcome (hn : n < 4) (dev k len sub addr : ℕ) (buf : List Byte) (s : State) :
    ((s.ethPut n dev k len sub addr buf).1 = true →
      (∃ x, ((s.ethPut n dev k len sub addr buf).2.fifo (12 + n)).items =
          (s.fifo (12 + n)).items ++ [(((s.reg 0x180000).extractLsb' 8 3).toNat, x)] ∧
        itemSrc x = s.sourceId (12 + n) ∧ x.extractLsb' 384 16 = BitVec.ofNat 16 len ∧ x.extractLsb' 400 16 = BitVec.ofNat 16 dev ∧
        x.extractLsb' 416 8 = BitVec.ofNat 8 k) ∧
      ((s.ethPut n dev k len sub addr buf).2.ethAt n).bufs = (s.ethAt n).bufs) ∧
    ((s.ethPut n dev k len sub addr buf).1 = false →
      32 ≤ (s.fifo (12 + n)).items.length ∧ ((s.ethPut n dev k len sub addr buf).2.fifo (12 + n)).ovf = true) := by
  have hsrc : fifoSource (12 + n) = 12 + n := if_neg (by omega)
  have hv := s.ramWrite_frame addr buf
  unfold State.ethPut
  dsimp only
  generalize (s.ramWrite addr buf).2 = v at hv ⊢
  have hfifo : v.fifo (12 + n) = s.fifo (12 + n) := by rw [hv]; rfl
  have heth : v.ethAt n = s.ethAt n := by rw [hv]; rfl
  have hprio : v.regF Reg.treCtl 8 3 = ((s.reg 0x180000).extractLsb' 8 3).toNat := by rw [hv]; rfl
  have hid : v.sourceId (12 + n) = s.sourceId (12 + n) := by rw [hv]; rfl
  rw [hprio, ← hfifo]
  generalize ((s.reg 0x180000).extractLsb' 8 3).toNat = p
  generalize v.momentSub sub 32 = m
  obtain ⟨-, hout⟩ := ingress_outcome (12 + n) p m (ethItem addr dev k len) v
  have hbufs : ((v.ingress (12 + n) p m (ethItem addr dev k len)).2.ethAt n).bufs = (v.ethAt n).bufs := State.fifoPush_bufs ..
  have hok : (v.ingress (12 + n) p m (ethItem addr dev k len)).1 = decide ((v.fifo (12 + n)).items.length < 32) :=
    State.fifoPush_fst ..
  obtain ⟨hlen, hdev, hk⟩ := ethItem_fields addr dev k len
  by_cases hroom : (v.fifo (12 + n)).items.length < 32
  · rw [if_pos hroom] at hout
    rw [decide_eq_true hroom] at hok
    refine ⟨fun _ => ⟨⟨_, hout.1, ?_, ?_, ?_, ?_⟩, hbufs.trans (congrArg Eth.bufs heth)⟩, fun h => absurd (hok.symm.trans h) (by decide)⟩
    · rw [State.stamped, itemSrc_stampItem, hsrc, hid]
    · rw [State.stamped, extractLsb'_stampItem _ _ _ _ _ _ _ (by decide), hlen]
    · rw [State.stamped, extractLsb'_stampItem _ _ _ _ _ _ _ (by decide), hdev]
    · rw [State.stamped, extractLsb'_stampItem _ _ _ _ _ _ _ (by decide), hk]
  · rw [if_neg hroom] at hout
    rw [decide_eq_false hroom] at hok
    exact ⟨fun h => absurd (hok.symm.trans h) (by decide), fun _ => ⟨Nat.not_lt.mp hroom, hout.2.1⟩⟩

theorem ethDeliver_arrived (hn : n < 4) (dev k len sub : ℕ) (buf : List Byte) (s : State) :
    Arrived n dev k len s (s.ethDeliver n dev k len sub buf) := by
  have hframe := s.poolTake_frame (0x150 + n) (s.ethAt n).bufs
  rcases htake : s.poolTake (0x150 + n) (s.ethAt n).bufs with ⟨_ | b, u⟩
  · have hqm := congrArg State.qm hframe
    rw [htake] at hqm
    rw [State.ethDeliver_none htake]
    exact .inl ⟨State.poolTake_none (congrArg Prod.fst htake), hqm⟩
  · rw [htake] at hframe
    have hu : u = { s with freeCtr := u.freeCtr } := hframe
    have hout := ethPut_outcome hn dev k len sub (u.reg2 (ethReg n 0x10) + 2048 * b) buf u
    have hfifo : u.fifo (12 + n) = s.fifo (12 + n) := by rw [hu]; rfl
    have hreg : u.reg 0x180000 = s.reg 0x180000 := by rw [hu]; rfl
    have hid : u.sourceId (12 + n) = s.sourceId (12 + n) := by rw [hu]; rfl
    have heth : u.ethAt n = s.ethAt n := by rw [hu]; rfl
    rw [hfifo, hreg, hid, heth] at hout
    rw [State.ethDeliver_some htake]
    generalize u.ethPut n dev k len sub (u.reg2 (ethReg n 0x10) + 2048 * b) buf = r at hout ⊢
    rcases hok : r.1
    · rw [if_neg (by decide)]
      exact .inr (.inl (hout.2 hok))
    · obtain ⟨⟨x, hitems, hsrc, hlen, hdev, hk⟩, hbufs⟩ := hout.1 hok
      rw [if_pos rfl]
      refine .inr (.inr ⟨x, hitems, hsrc, hlen, hdev, hk, ?_⟩)
      rw [State.holdBuf, State.ethAt_setEth_same]
      simp [hbufs]

/-! ### The two paths -/

theorem execEthFrameReceive_raw {m : Fin 4} {f : EthRx} (hup : s.ethUp m.val = true) (hfcs : f.fcsOk = true)
    (hty : beAt f.octets (etypeAt f.octets) 2 ≠ ((s.reg 0x180008).extractLsb' 0 16).toNat) :
    ∃ buf, exec (.ethFrameReceive m f) s = .next (s.ethDeliver m.val 0 0 f.octets.length f.sub.val buf) := by
  have hc : exec (.ethFrameReceive m f) s = execEthFrameReceive m f s := rfl
  have hty' : ¬ beAt f.octets (etypeAt f.octets) 2 = s.regF 0x180008 0 16 := hty
  simp only [execEthFrameReceive, hup, hfcs, Bool.and_self, if_true, hty', if_false] at hc
  exact ⟨_, hc⟩

theorem execEthFrameReceive_tree {m : Fin 4} {f : EthRx} (hup : s.ethUp m.val = true) (hfcs : f.fcsOk = true)
    (hty : beAt f.octets (etypeAt f.octets) 2 = ((s.reg 0x180008).extractLsb' 0 16).toNat) :
    exec (.ethFrameReceive m f) s = .next (if s.treEn then s.treeIn m.val f else s) := by
  have hc : exec (.ethFrameReceive m f) s = execEthFrameReceive m f s := rfl
  have hty' : beAt f.octets (etypeAt f.octets) 2 = s.regF 0x180008 0 16 := hty
  simp only [execEthFrameReceive, hup, hfcs, Bool.and_self, if_true, hty'] at hc
  exact hc

theorem execEthFrameReceive_lost {m : Fin 4} {f : EthRx} (h : s.ethUp m.val = false ∨ f.fcsOk = false) :
    exec (.ethFrameReceive m f) s = .next s := by
  have hc : exec (.ethFrameReceive m f) s = execEthFrameReceive m f s := rfl
  rw [hc, execEthFrameReceive, if_neg]
  rcases h with h | h <;> simp [h]

/-- The kind of a frame's first item lies in bytes 36 to 39 of its body. -/
theorem itemKind_takeBytes {body : List Byte} (h : 64 ≤ body.length) :
    itemKind (BitVec.ofNat 512 (takeBytes body 0 64)) = takeBytes body 36 4 / 2 ^ 21 := by
  have hlt : takeBytes body 0 64 < 2 ^ 512 := by
    have hlt := natOfBytes_lt ((body.drop 0).take 64)
    have hpow : 256 ^ 64 = 2 ^ 512 := (pow_mul 2 8 64).symm
    rw [List.length_take_of_le (by simpa using h), hpow] at hlt
    exact hlt
  have hpoint : (fld (BitVec.ofNat 512 (takeBytes body 0 64)) 288 32).toNat = takeBytes body 36 4 := by
    have h36 : 2 ^ 288 = 256 ^ 36 := pow_mul 2 8 36
    have h4 : 2 ^ 32 = 256 ^ 4 := pow_mul 2 8 4
    rw [fld, BitVec.toNat_ofNat, BitVec.toNat_ofNat, Nat.mod_eq_of_lt hlt, Nat.shiftRight_eq_div_pow, h36, h4]
    exact takeBytes_zero_div body 36 4 64 (by decide) h
  rw [itemKind, itemPoint, hpoint]

/-- A frame of data items from a peer to this device is delivered. -/
theorem State.treeIn_data {f : EthRx} {src : ℕ} {body : List Byte} (hbody : f.octets.drop (etypeAt f.octets + 2) = body)
    (hsrc : beAt f.octets 6 6 = src) (hdst : beAt f.octets 0 6 = s.deviceMac s.device ∨ beAt f.octets 0 6 = s.groupMac s.pair)
    (hknown : src = s.deviceMac (src % 512)) (hrel : s.relOf (src % 512 / 2) (src % 512 % 2) ≠ .foreign_)
    (hwhole : body.length % 64 = 0) (hone : 1 ≤ body.length / 64) (hmany : body.length / 64 ≤ 23)
    (hdata : body.length ≠ 128 ∨ takeBytes body 36 4 / 2 ^ 21 ≠ 0x7F0) :
    s.treeIn n f = s.ethDeliver n (src % 512) (body.length / 64) body.length f.sub.val body := by
  have hlen : 64 * (body.length / 64) = body.length := by omega
  have hmine : (decide (beAt f.octets 0 6 = s.deviceMac s.device) || decide (beAt f.octets 0 6 = s.groupMac s.pair)) = true := by
    rcases hdst with h | h <;> simp [h]
  have hheart : ¬ (body.length / 64 = 2 ∧ itemKind (BitVec.ofNat 512 (takeBytes body 0 64)) = 0x7F0 ∧
      itemKind (BitVec.ofNat 512 (takeBytes body 64 64)) = 0x7F1) := by
    rintro ⟨htwo, hkind, -⟩
    rw [itemKind_takeBytes (by omega)] at hkind
    rcases hdata with h | h
    · omega
    · exact h hkind
  unfold State.treeIn
  simp only [hbody, hsrc, hmine, ← hknown, hrel, hone, hmany, hwhole, hlen, hheart, ne_eq, not_false_eq_true, decide_true, Bool.and_self,
    Bool.not_true, Bool.false_eq_true, if_false]

end Sys2Proof.Machine
end

section
/-! ## Tree frames an Ethernet port sends (R282 to R284, R310) -/

namespace Sys2Proof.Machine
open Sys2Proof

variable {s u : State} {n : ℕ} {k : Pack} {full force : Bool} {d : Option ℕ} {items : List Item}

/-! ### Packing -/

/-- From `u` to `t` one tree frame of `items` has left port `n`, kept among its last four. -/
def FrameLeft (n : ℕ) (d : Option ℕ) (items : List Item) (u t : State) : Prop :=
  t.out = u.out ++ [.ethTree n (BitVec.ofNat 48 (d.getD 0)) (BitVec.ofNat 48 (u.deviceMac u.device))
    ((u.reg 0x180008).extractLsb' 0 16) (items.map outItem)] ∧
  t.qm = u.qm ∧ (t.ethAt n).pack = none ∧ (t.ethAt n).last4.getLast? = some (items.map outItem) ∧ (t.ethAt n).last4.length ≤ 4

theorem State.treeSend_left (n q : ℕ) (d : Option ℕ) (items : List Item) (u : State) : FrameLeft n d items u (u.treeSend n q d items) := by
  generalize hkeep : (u.ethAt n).last4 ++ [items.map outItem] = keep
  have hlast : keep.getLast? = some (items.map outItem) := by rw [← hkeep, List.getLast?_concat]
  have hpos : ¬ keep.length ≤ keep.length - 4 := by
    rw [← hkeep, List.length_append, List.length_singleton]
    omega
  have hset := u.ethAt_setEth_same n
    { u.ethAt n with pack := none, last4 := keep.drop (keep.length - 4), turn := decide (q = 0xE000) }
  have hlast4 := congrArg Eth.last4 hset
  have hpack := congrArg Eth.pack hset
  rw [← hkeep] at hlast4 hpack
  refine ⟨rfl, rfl, hpack, (congrArg List.getLast? hlast4).trans ?_, (congrArg List.length hlast4).trans_le ?_⟩
  · rw [hkeep, List.getLast?_drop, if_neg hpos, hlast]
  · rw [hkeep, List.length_drop]
    omega

section
variable (hg : s.gather k.q n ((s.desc k.q).size + 1) k.max none [] = (full, d, items, u))
include hg

theorem State.packFrom_none (h : items = []) : s.packFrom n k force = (false, u) := by
  rw [State.packFrom, hg, h]
  rfl

theorem State.packFrom_sends (hne : items ≠ []) (h : full = true ∨ force = true ∨ k.wait = 0) :
    s.packFrom n k force = (true, u.treeSend n k.q d items) := by
  have hgo : (full || force || decide (k.wait = 0)) = true := by
    rcases h with h | h | h <;> simp [h]
  simp only [State.packFrom, hg, List.isEmpty_eq_false_iff.mpr hne, Bool.false_eq_true, if_false, hgo, if_true]

theorem State.packFrom_waits (hne : items ≠ []) (hfull : full = false) (hwait : k.wait ≠ 0) :
    s.packFrom n k false = (true, s.setEth n { s.ethAt n with pack := some k }) := by
  simp only [State.packFrom, hg, List.isEmpty_eq_false_iff.mpr hne, hfull, hwait, decide_false, Bool.or_self, Bool.false_eq_true, if_false]

end

/-- A frame is started from the first queue that gives an item, under the PACK and PACKWAIT of now. -/
theorem State.treePack_starts {qs : List ℕ} (hpack : (s.ethAt n).pack = none) (hqs : s.treeQueues n = k.q :: qs) (hat : k.at_ = s.tb.elapsed)
    (hmax : k.max = s.regF Reg.treCtl 24 5) (hwait : k.wait = s.regF Reg.treCtl 0 8) :
    s.treePack n force = if (s.packFrom n k false).1 then (s.packFrom n k false).2 else State.packFirst n qs (s.packFrom n k false).2 := by
  have hk : k = ⟨k.q, s.tb.elapsed, s.regF Reg.treCtl 24 5, s.regF Reg.treCtl 0 8⟩ := by rw [← hat, ← hmax, ← hwait]
  rw [State.treePack, hpack, hqs, hk]
  rfl

theorem State.treePack_resumes (hpack : (s.ethAt n).pack = some k) :
    s.treePack n force =
      if (s.packFrom n k force).1 then (s.packFrom n k force).2
      else (s.packFrom n k force).2.setEth n { (s.packFrom n k force).2.ethAt n with pack := none } := by
  rw [State.treePack, hpack]

theorem treeFrameSend_runs {m : Fin 4} (h : s.treePort m.val = true) : exec (.treeFrameSend m) s = .next (s.treePack m.val false) := by
  have hc : exec (.treeFrameSend m) s = execTreeFrameSend m s := rfl
  rw [hc, execTreeFrameSend, if_pos h]

theorem treeFrameSend_idle {m : Fin 4} (h : s.treePort m.val = false) : exec (.treeFrameSend m) s = .next s := by
  have hc : exec (.treeFrameSend m) s = execTreeFrameSend m s := rfl
  rw [hc, execTreeFrameSend, h]
  rfl

theorem packwaitExpiry_runs {m : Fin 4} (h : s.treePort m.val = true) (hpack : (s.ethAt m.val).pack = some k)
    (hpast : k.at_ + k.wait * 125 ≤ s.tb.elapsed) : exec (.packwaitExpiry m) s = .next (s.treePack m.val true) := by
  have hc : exec (.packwaitExpiry m) s = execPackwaitExpiry m s := rfl
  have hdue : s.past k.at_ (k.wait * usCounts) = true := decide_eq_true hpast
  simp only [hc, execPackwaitExpiry, hpack, h, hdue, Bool.and_self, if_true]

theorem packwaitExpiry_idle {m : Fin 4}
    (h : s.treePort m.val = false ∨ ∀ k, (s.ethAt m.val).pack = some k → s.tb.elapsed < k.at_ + k.wait * 125) :
    exec (.packwaitExpiry m) s = .next s := by
  have hc : exec (.packwaitExpiry m) s = execPackwaitExpiry m s := rfl
  rw [hc, execPackwaitExpiry]
  rcases hpack : (s.ethAt m.val).pack with _ | k
  · rfl
  · refine if_neg fun hdue => ?_
    obtain ⟨hport, hpast⟩ := Bool.and_eq_true_iff.mp hdue
    rcases h with h | h
    · exact absurd (h.symm.trans hport) (by decide)
    · exact absurd (of_decide_eq_true hpast) (Nat.not_le.mpr (h k hpack))

end Sys2Proof.Machine
end

section
/-! ## Links and PAUSE of the Ethernet ports (R81, R284) -/

namespace Sys2Proof.Machine
open Sys2Proof

variable {s : State} {n : ℕ}

theorem State.ethUp_eq (s : State) (n : ℕ) : s.ethUp n = (s.ethOn n && (s.ethAt n).link) := rfl

theorem State.ethUp_setEth_same (s : State) (n : ℕ) (x : Eth) : (s.setEth n x).ethUp n = (s.ethOn n && x.link) := by
  rw [State.ethUp_eq, State.ethAt_setEth_same]
  rfl

theorem State.ethUp_setEth_other (s : State) {m n : ℕ} (x : Eth) (h : m ≠ n) : (s.setEth n x).ethUp m = s.ethUp m := by
  rw [State.ethUp_eq, State.ethAt_setEth_other _ _ h]
  rfl

/-- A write of a port's other words leaves its part of the service. -/
theorem State.ethUp_setEth_link (s : State) (m n : ℕ) (x : Eth) (h : x.link = (s.ethAt n).link) : (s.setEth n x).ethUp m = s.ethUp m := by
  by_cases hm : m = n
  · rw [hm, State.ethUp_setEth_same, h]
    rfl
  · exact s.ethUp_setEth_other x hm

/-- The frames port 2 sent last, as port 3 sends them again. -/
def State.resentFrames (s : State) : List Out := (s.ethAt 2).last4.map (s.treeFrame 3 (s.managerPair.map s.groupMac))

/-- What a port taking over keeps of a port: its link, and that it packs nothing. -/
structure KeepsLinks (s t : State) : Prop where
  link : ∀ n, (t.ethAt n).link = (s.ethAt n).link
  idle : ∀ n, (s.ethAt n).pack = none → (t.ethAt n).pack = none

theorem KeepsLinks.refl (s : State) : KeepsLinks s s := ⟨fun _ => rfl, fun _ h => h⟩

theorem KeepsLinks.trans {t u : State} (h : KeepsLinks s t) (g : KeepsLinks t u) : KeepsLinks s u :=
  ⟨fun n => (g.link n).trans (h.link n), fun n hn => g.idle n (h.idle n hn)⟩

theorem KeepsLinks.setEth (s : State) (m : ℕ) {x : Eth} (hlink : x.link = (s.ethAt m).link)
    (hpack : x.pack = none ∨ x.pack = (s.ethAt m).pack) : KeepsLinks s (s.setEth m x) := by
  refine ⟨fun n => ?_, fun n hn => ?_⟩ <;> by_cases h : n = m
  · rw [h, State.ethAt_setEth_same, hlink]
  · rw [State.ethAt_setEth_other _ _ h]
  · rw [h, State.ethAt_setEth_same]
    rw [h] at hn
    exact hpack.elim id fun e => e.trans hn
  · rwa [State.ethAt_setEth_other _ _ h]

theorem State.resend_outcome (s : State) :
    KeepsLinks s s.resend ∧ s.resend.out = s.out ++ (if s.ethUp 2 = false ∧ s.ethUp 3 = true then s.resentFrames else []) := by
  unfold State.resend
  by_cases h : s.ethUp 2 = false ∧ s.ethUp 3 = true
  · rw [if_pos h, if_pos (by simp [h])]
    have hkept : KeepsLinks s (s.setEth 2 { s.ethAt 2 with last4 := [] }) := KeepsLinks.setEth s 2 rfl (.inr rfl)
    exact ⟨⟨hkept.link, hkept.idle⟩, rfl⟩
  · rw [if_neg h, if_neg (by simpa [and_comm] using h), List.append_nil]
    exact ⟨KeepsLinks.refl s, rfl⟩

theorem State.upMoved_outcome (old s : State) :
    KeepsLinks s (old.upMoved s) ∧
      (old.upMoved s).out = s.out ++ (if old.upPort ≠ s.upPort ∧ s.ethUp 2 = false ∧ s.ethUp 3 = true then s.resentFrames else []) := by
  unfold State.upMoved
  by_cases hport : old.upPort = s.upPort
  · rw [if_pos hport, if_neg (fun h => h.1 hport), List.append_nil]
    exact ⟨KeepsLinks.refl s, rfl⟩
  · have h3 : (s.setEth 2 { s.ethAt 2 with pack := none }).ethAt 3 = s.ethAt 3 := s.ethAt_setEth_other _ (by decide)
    rw [if_neg hport, ← h3]
    generalize hu : s.setEth 2 { s.ethAt 2 with pack := none } = u
    generalize hv : u.setEth 3 { u.ethAt 3 with pack := none } = v
    have hsu : KeepsLinks s u := hu ▸ KeepsLinks.setEth s 2 rfl (.inl rfl)
    have huv : KeepsLinks u v := hv ▸ KeepsLinks.setEth u 3 rfl (.inl rfl)
    have hup (m : ℕ) : v.ethUp m = s.ethUp m := by
      have hvu : v.ethUp m = u.ethUp m := hv ▸ u.ethUp_setEth_link m 3 { u.ethAt 3 with pack := none } rfl
      exact hvu.trans (hu ▸ s.ethUp_setEth_link m 2 { s.ethAt 2 with pack := none } rfl)
    have hlast : v.resentFrames = s.resentFrames := by
      have h2 : (v.ethAt 2).last4 = (s.ethAt 2).last4 := by
        rw [← hv, State.ethAt_setEth_other _ _ (by decide), ← hu, State.ethAt_setEth_same]
      rw [State.resentFrames, h2, ← hv, ← hu]
      rfl
    have hout : v.out = s.out := by rw [← hv, ← hu]; rfl
    obtain ⟨hkept, hsent⟩ := v.resend_outcome
    rw [hup, hup, hlast, hout] at hsent
    refine ⟨(hsu.trans huv).trans hkept, hsent.trans ?_⟩
    simp only [hport, ne_eq, not_false_eq_true, true_and]

/-- A write of a port's words that keeps its last frames: nothing is sent, and port 3 would send the same frames again. -/
theorem State.setEth_resentFrames {m : ℕ} {x : Eth} (hlast : x.last4 = (s.ethAt m).last4) :
    (s.setEth m x).out = s.out ∧ (s.setEth m x).resentFrames = s.resentFrames := by
  have h2 : ((s.setEth m x).ethAt 2).last4 = (s.ethAt 2).last4 := by
    by_cases hm : 2 = m
    · rw [← hm, State.ethAt_setEth_same, hm, hlast]
    · rw [State.ethAt_setEth_other _ _ hm]
  refine ⟨rfl, ?_⟩
  rw [State.resentFrames, h2]
  rfl

/-- Port 3 takes over as port 2 goes down. -/
theorem State.upPort_down {x : Eth} {m : Fin 4} (hx : x.link = false) :
    (s.upPort ≠ (s.setEth m.val x).upPort ∧ (s.setEth m.val x).ethUp 2 = false ∧ (s.setEth m.val x).ethUp 3 = true) ↔
      m.val = 2 ∧ s.ethUp 2 = true ∧ s.ethUp 3 = true := by
  unfold State.upPort
  by_cases h2 : m.val = 2
  · rw [h2, s.ethUp_setEth_same, s.ethUp_setEth_other x (by decide : 3 ≠ 2), hx, Bool.and_false]
    cases s.ethUp 2 <;> cases s.ethUp 3 <;> simp
  · rw [s.ethUp_setEth_other x (Ne.symm h2)]
    by_cases h3 : m.val = 3
    · rw [h3, s.ethUp_setEth_same, hx, Bool.and_false]
      simp
    · rw [s.ethUp_setEth_other x (Ne.symm h3)]
      simp [h2]

/-- Port 3 takes over as it comes up for a port 2 that is down. -/
theorem State.upPort_up {x : Eth} {m : Fin 4} (hx : x.link = true) (hon : s.ethOn m.val = true) :
    (s.upPort ≠ (s.setEth m.val x).upPort ∧ (s.setEth m.val x).ethUp 2 = false ∧ (s.setEth m.val x).ethUp 3 = true) ↔
      m.val = 3 ∧ s.ethUp 2 = false ∧ s.ethUp 3 = false := by
  unfold State.upPort
  by_cases h3 : m.val = 3
  · rw [h3] at hon ⊢
    rw [s.ethUp_setEth_same, s.ethUp_setEth_other x (by decide : 2 ≠ 3), hx, hon]
    cases s.ethUp 2 <;> cases s.ethUp 3 <;> simp
  · rw [s.ethUp_setEth_other x (Ne.symm h3)]
    by_cases h2 : m.val = 2
    · rw [h2] at hon ⊢
      rw [s.ethUp_setEth_same, hx, hon]
      simp
    · rw [s.ethUp_setEth_other x (Ne.symm h2)]
      simp [h3]

theorem ethLinkDown_gives {m : Fin 4} (h : s.ethOn m.val = true) :
    Gives (.ethLinkDown m) s (fun t => (t.ethAt m.val).link = false ∧ (t.ethAt m.val).pack = none ∧
      t.out = s.out ++ (if m.val = 2 ∧ s.ethUp 2 = true ∧ s.ethUp 3 = true then s.resentFrames else [])) := by
  have hc : exec (.ethLinkDown m) s = execEthLinkDown m s := rfl
  rw [execEthLinkDown, if_pos h] at hc
  generalize hx : ({ s.ethAt m.val with link := false, pack := none } : Eth) = x at hc
  have hset := s.ethAt_setEth_same m.val x
  obtain ⟨hkept, hout⟩ := s.upMoved_outcome (s.setEth m.val x)
  obtain ⟨hsent, hframes⟩ := State.setEth_resentFrames (s := s) (m := m.val) (x := x) (by rw [← hx])
  rw [hsent, hframes, if_congr (State.upPort_down (by rw [← hx])) rfl rfl] at hout
  refine ⟨_, hc, ?_, hkept.idle _ ?_, hout⟩
  · rw [hkept.link, hset, ← hx]
  · rw [hset, ← hx]

theorem ethLinkUp_gives {m : Fin 4} (h : s.ethOn m.val = true) :
    Gives (.ethLinkUp m) s (fun t => (t.ethAt m.val).link = true ∧
      t.out = s.out ++ (if m.val = 3 ∧ s.ethUp 2 = false ∧ s.ethUp 3 = false then s.resentFrames else [])) := by
  have hc : exec (.ethLinkUp m) s = execEthLinkUp m s := rfl
  rw [execEthLinkUp, if_pos h] at hc
  generalize hx : ({ s.ethAt m.val with link := true } : Eth) = x at hc
  obtain ⟨hkept, hout⟩ := s.upMoved_outcome (s.setEth m.val x)
  obtain ⟨hsent, hframes⟩ := State.setEth_resentFrames (s := s) (m := m.val) (x := x) (by rw [← hx])
  rw [hsent, hframes, if_congr (State.upPort_up (by rw [← hx]) h) rfl rfl] at hout
  refine ⟨_, hc, ?_, hout⟩
  rw [hkept.link, State.ethAt_setEth_same, ← hx]

theorem ethLink_idle {m : Fin 4} (h : s.ethOn m.val = false) : exec (.ethLinkDown m) s = .next s ∧ exec (.ethLinkUp m) s = .next s := by
  have hdown : exec (.ethLinkDown m) s = execEthLinkDown m s := rfl
  have hup : exec (.ethLinkUp m) s = execEthLinkUp m s := rfl
  rw [hdown, hup, execEthLinkDown, execEthLinkUp, h]
  exact ⟨rfl, rfl⟩

theorem ethPauseRepeat_gives {m : Fin 4} (hup : s.ethUp m.val = true) (hhold : (s.fifo (12 + m.val)).hold = true) :
    Gives (.ethPauseRepeat m) s (fun t => t.out = s.out ++ [.ethPause m.val 0xFFFF#16] ∧ (t.ethAt m.val).pauseAt = some s.tb.elapsed) := by
  have hc : exec (.ethPauseRepeat m) s = execEthPauseRepeat m s := rfl
  have hport : 12 + m.val - 12 = m.val := Nat.add_sub_cancel_left ..
  have hset := congrArg Eth.pauseAt (s.ethAt_setEth_same m.val { s.ethAt m.val with pauseAt := some s.tb.elapsed })
  rw [execEthPauseRepeat, hup, hhold, Bool.and_self, if_pos rfl, State.sendPause, if_pos (by omega), hport] at hc
  exact ⟨_, hc, rfl, hset⟩

theorem ethPauseRepeat_idle {m : Fin 4} (h : ¬ (s.ethUp m.val = true ∧ (s.fifo (12 + m.val)).hold = true)) :
    exec (.ethPauseRepeat m) s = .next s := by
  have hc : exec (.ethPauseRepeat m) s = execEthPauseRepeat m s := rfl
  rw [hc, execEthPauseRepeat, if_neg (by simpa using h)]

end Sys2Proof.Machine
end

section
/-! ## Raw frames an Ethernet port sends (R278, R279, R283) -/

namespace Sys2Proof.Machine
open Sys2Proof

variable {s u : State} {n : ℕ} {m : Fin 4} {x : Item}

theorem State.rawQueue_eq (n : ℕ) (s : State) : s.regF (ethReg n 0x1C) 0 16 = ((s.reg (0x15001C + 0x40 * n)).extractLsb' 0 16).toNat := by
  have hreg : ethReg n 0x1C = 0x15001C + 0x40 * n := by rw [ethReg]; omega
  rw [hreg, State.regF, fld_eq_extractLsb']

theorem State.rawDoneQueue_eq (n : ℕ) (s : State) : s.regF (ethReg n 0x20) 0 16 = ((s.reg (0x150020 + 0x40 * n)).extractLsb' 0 16).toNat := by
  have hreg : ethReg n 0x20 = 0x150020 + 0x40 * n := by rw [ethReg]; omega
  rw [hreg, State.regF, fld_eq_extractLsb']

/-- From `v` to `t` the raw item of request `id` is completed: its completion is put to the port's queue, or kept until there is room. -/
def RawCompleted (n cq : ℕ) (id : Word) (st : Status) (tm : Option (Stamp × ℤ × Stamp)) (v t : State) : Prop :=
  ∃ ok w, v.hwPut cq (rawCompletion id st tm) = (ok, w) ∧ t.qm = w.qm ∧
    (t.ethAt n).raw = none ∧ (t.ethAt n).rawDone = (if ok then none else some (id, st, tm))

theorem State.rawComplete_completed (n : ℕ) (id : Word) (st : Status) (tm : Option (Stamp × ℤ × Stamp)) (v : State) :
    RawCompleted n (v.regF (ethReg n 0x20) 0 16) id st tm v (v.rawComplete n id st tm) := by
  unfold State.rawComplete
  rcases hput : v.hwPut (v.regF (ethReg n 0x20) 0 16) (rawCompletion id st tm) with ⟨ok, w⟩
  have hset := w.ethAt_setEth_same n { w.ethAt n with raw := none, rawDone := if ok then none else some (id, st, tm) }
  exact ⟨ok, w, hput, rfl, congrArg Eth.raw hset, congrArg Eth.rawDone hset⟩

/-- A completion that found room is not kept, and has moved the queue's tail. -/
theorem State.rawComplete_room {q : ℕ} (id : Word) (st : Status) (tm : Option (Stamp × ℤ × Stamp)) (hq : s.regF (ethReg n 0x20) 0 16 = q)
    (hsound : s.qmAccess q = (true, s)) (hput : s.canPut q = true) :
    ((s.rawComplete n id st tm).ethAt n).rawDone = none ∧
      ((s.rawComplete n id st tm).desc q).tail = ((s.desc q).tail + 1) % (s.desc q).modulus := by
  have hpub : s.hwPut q (rawCompletion id st tm) = (true, s.publish q 0 (rawCompletion id st tm)) := by
    simp only [State.hwPut, hsound, hput, Bool.and_self, if_true]
  have htail := s.tail_publish q 0 (rawCompletion id st tm)
  rw [State.rawComplete, hq, hpub]
  generalize s.publish q 0 (rawCompletion id st tm) = w at htail
  have hset := w.ethAt_setEth_same n { w.ethAt n with raw := none, rawDone := none }
  exact ⟨congrArg Eth.rawDone hset, htail⟩

/-! ### Taking a raw item -/

/-- A one-step time message over IPv6, which has no way to leave (R279). -/
def rawV6 (x : Item) (bs : List Byte) : Bool := bit x 401 && (match ptpOf bs with | some p => p.v6 | none => false)

/-- A raw frame leaves, its stamps kept for its completion. -/
def State.rawSend (n : ℕ) (x : Item) (bs : List Byte) (s : State) : State :=
  let (sub, s) := s.draw 5
  let bs := if bit x 401 then s.oneStep bs sub.toNat else bs
  let own := s.domStamp s.sel sub.toNat
  let other := s.domStamp (!s.sel) sub.toNat
  let s := s.setEth n { s.ethAt n with raw := some (itemReq x, bit x 400, own, s.offsetNs, other) }
  { s with out := s.out ++ [.ethRaw n bs] }

/-- What becomes of a raw item that was taken. -/
def State.rawTaken (n : ℕ) (link : Bool) (x : Item) (s : State) : Answer :=
  if (fld x 384 16).toNat < 60 ∨ 1514 < (fld x 384 16).toNat then .next (s.rawComplete n (itemReq x) .outOfRange none)
  else match s.unitRead (fld x 320 64).toNat (fld x 384 16).toNat with
    | (.ok, bs) =>
      if rawV6 x bs then .next (s.rawComplete n (itemReq x) .denied none)
      else if !link then .next (s.rawComplete n (itemReq x) .retry none)
      else .next (s.rawSend n x bs)
    | (st, _) => .next (s.rawComplete n (itemReq x) st none)

/-- The port may take a raw item: it is on, sends none, and keeps no completion. -/
def RawFree (n : ℕ) (s : State) : Prop := s.ethOn n = true ∧ (s.ethAt n).raw = none ∧ (s.ethAt n).rawDone = none

theorem RawFree.gate (h : RawFree n s) : (s.ethOn n && (s.ethAt n).raw.isNone && (s.ethAt n).rawDone.isNone) = true := by
  obtain ⟨hon, hraw, hdone⟩ := h
  rw [hon, hraw, hdone]
  rfl

theorem ethRawTx_takes (h : RawFree m.val s) (htake : s.hwTake (s.regF (ethReg m.val 0x1C) 0 16) = (some x, u)) :
    exec (.ethRawTx m) s = u.rawTaken m.val (s.ethAt m.val).link x := by
  have hc : exec (.ethRawTx m) s = execEthRawTx m s := rfl
  rw [hc, execEthRawTx]
  refine (if_pos h.gate).trans ?_
  rw [htake, State.rawTaken]
  by_cases hlen : (fld x 384 16).toNat < 60 ∨ 1514 < (fld x 384 16).toNat
  · exact (if_pos hlen).trans (if_pos hlen).symm
  · refine (if_neg hlen).trans (Eq.trans ?_ (if_neg hlen).symm)
    rcases u.unitRead (fld x 320 64).toNat (fld x 384 16).toNat with ⟨st, bs⟩
    cases st
    case ok =>
      dsimp only [rawV6]
      rfl
    all_goals rfl

theorem ethRawTx_empty (h : RawFree m.val s) (htake : s.hwTake (s.regF (ethReg m.val 0x1C) 0 16) = (none, u)) :
    exec (.ethRawTx m) s = .next u := by
  have hc : exec (.ethRawTx m) s = execEthRawTx m s := rfl
  rw [hc, execEthRawTx]
  refine (if_pos h.gate).trans ?_
  rw [htake]

theorem ethRawTx_idle (h : ¬ RawFree m.val s) : exec (.ethRawTx m) s = .next s := by
  have hc : exec (.ethRawTx m) s = execEthRawTx m s := rfl
  have hgate : ¬ (s.ethOn m.val && (s.ethAt m.val).raw.isNone && (s.ethAt m.val).rawDone.isNone) = true := by
    simpa [RawFree, and_assoc] using h
  rw [hc, execEthRawTx]
  exact if_neg hgate

variable {link : Bool} {st : Status} {bs : List Byte}

theorem State.rawTaken_badLength (h : (fld x 384 16).toNat < 60 ∨ 1514 < (fld x 384 16).toNat) :
    u.rawTaken n link x = .next (u.rawComplete n (itemReq x) .outOfRange none) :=
  if_pos h

section
variable (hlow : 60 ≤ (fld x 384 16).toNat) (hhigh : (fld x 384 16).toNat ≤ 1514)
include hlow hhigh

theorem State.rawTaken_unread (hread : u.unitRead (fld x 320 64).toNat (fld x 384 16).toNat = (st, bs)) (hst : st ≠ .ok) :
    u.rawTaken n link x = .next (u.rawComplete n (itemReq x) st none) := by
  rw [State.rawTaken, if_neg (by omega), hread]
  cases st
  case ok => exact absurd rfl hst
  all_goals rfl

theorem State.rawTaken_read (hread : u.unitRead (fld x 320 64).toNat (fld x 384 16).toNat = (.ok, bs)) :
    u.rawTaken n link x = .next (
      if rawV6 x bs then u.rawComplete n (itemReq x) .denied none
      else if link then u.rawSend n x bs
      else u.rawComplete n (itemReq x) .retry none) := by
  rw [State.rawTaken, if_neg (by omega), hread]
  dsimp only
  cases rawV6 x bs <;> cases link <;> rfl

end

/-- A raw frame leaves as it lies in DRAM, or with its time written where one-step time was asked for. -/
theorem State.rawSend_sent (n : ℕ) (x : Item) (bs : List Byte) (u : State) :
    (u.rawSend n x bs).qm = u.qm ∧
      (∃ sub, sub < 32 ∧ (u.rawSend n x bs).out = u.out ++ [.ethRaw n (if x.getLsbD 401 then u.oneStep bs sub else bs)]) ∧
      ∃ own off other, ((u.rawSend n x bs).ethAt n).raw = some (itemReq x, x.getLsbD 400, own, off, other) := by
  have hset (v : State) (r : Option (Word × Bool × Stamp × ℤ × Stamp)) : ((v.setEth n { v.ethAt n with raw := r }).ethAt n).raw = r :=
    congrArg Eth.raw (v.ethAt_setEth_same n _)
  exact ⟨rfl, ⟨(u.draw 5).1.toNat, (u.draw 5).1.isLt, rfl⟩, _, _, _, hset (u.draw 5).2 _⟩

/-! ### The end of a raw frame -/

theorem ethRawTxDone_kept {id : Word} {tm : Option (Stamp × ℤ × Stamp)} (hrun : s.fieldRuns = true)
    (hdone : (s.ethAt m.val).rawDone = some (id, st, tm)) :
    exec (.ethRawTxDone m) s = .next (s.rawComplete m.val id st tm) := by
  have hc : exec (.ethRawTxDone m) s = execEthRawTxDone m s := rfl
  rw [hc, execEthRawTxDone]
  simp only [hrun, hdone, if_true]

theorem ethRawTxDone_sent {r : Word × Bool × Stamp × ℤ × Stamp} (hrun : s.fieldRuns = true) (hdone : (s.ethAt m.val).rawDone = none)
    (hraw : (s.ethAt m.val).raw = some r) :
    exec (.ethRawTxDone m) s = .next (
      if (s.ethAt m.val).link then s.rawComplete m.val r.1 .ok (if r.2.1 then some r.2.2 else none)
      else s.rawComplete m.val r.1 .retry none) := by
  have hc : exec (.ethRawTxDone m) s = execEthRawTxDone m s := rfl
  rw [hc, execEthRawTxDone]
  simp only [hrun, hdone, hraw, if_true]
  split_ifs <;> rfl

theorem ethRawTxDone_idle (h : s.fieldRuns = false ∨ ((s.ethAt m.val).rawDone = none ∧ (s.ethAt m.val).raw = none)) :
    exec (.ethRawTxDone m) s = .next s := by
  have hc : exec (.ethRawTxDone m) s = execEthRawTxDone m s := rfl
  rw [hc, execEthRawTxDone]
  rcases h with hrun | ⟨hdone, hraw⟩
  · simp only [hrun, Bool.false_eq_true, if_false]
  · simp only [hdone, hraw, ite_self]

end Sys2Proof.Machine
end

section
open Sys2Proof Sys2Proof.Machine

/-- Settles O37: a received frame is delivered or nothing happens, a tree frame is what `gather` gave, a link change is `upMoved`, and a raw
item ends as its length, its octets and the link allow. -/
theorem ethernetPorts : Obligations.EthernetPorts := by
  unfold Obligations.EthernetPorts
  refine ⟨?receive, ?lost, ?pack, ?idle, ?links, ?raw⟩
  case receive =>
    intro n f s e body src arrives hup hfcs
    refine ⟨fun hty => ?_, fun hty hen hdst hknown hrel hwhole hone hmany hdata => ?_⟩
    · obtain ⟨buf, hexec⟩ := execEthFrameReceive_raw hup hfcs hty
      exact ⟨_, hexec, ethDeliver_arrived n.isLt 0 0 f.octets.length f.sub.val buf s⟩
    · have hexec := execEthFrameReceive_tree hup hfcs hty
      rw [if_pos hen, State.treeIn_data rfl rfl hdst hknown hrel hwhole hone hmany hdata] at hexec
      exact ⟨_, hexec, ethDeliver_arrived n.isLt _ _ _ _ _ s⟩
  case lost =>
    rintro n f s (hdown | hbad | ⟨hty, hoff⟩)
    · exact execEthFrameReceive_lost (.inl hdown)
    · exact execEthFrameReceive_lost (.inr hbad)
    · cases hup : s.ethUp n.val
      · exact execEthFrameReceive_lost (.inl hup)
      · cases hfcs : f.fcsOk
        · exact execEthFrameReceive_lost (.inr hfcs)
        · rw [execEthFrameReceive_tree hup hfcs hty, hoff]
          rfl
  case pack =>
    intro n k full d items s u leaves waits hport hg
    have hsend := treeFrameSend_runs hport
    have hwaits : waits (s.setEth n.val { s.ethAt n.val with pack := some k }) :=
      ⟨rfl, rfl, congrArg Eth.pack (s.ethAt_setEth_same n.val _)⟩
    refine ⟨fun qs hnone hqs hat hmax hwait => ?_, fun hpack => ?_⟩
    · have hstart := State.treePack_starts (force := false) hnone hqs hat hmax hwait
      rw [hstart] at hsend
      refine ⟨fun hne hgo => ⟨_, hsend, ?_⟩, fun hne hfull hw => ⟨_, hsend, ?_⟩, fun hnil hlast => ?_⟩
      · rw [State.packFrom_sends hg hne (hgo.imp_right .inr)]
        exact State.treeSend_left n.val k.q d items u
      · rw [State.packFrom_waits hg hne hfull hw]
        exact hwaits
      · rw [hsend, State.packFrom_none hg hnil, hlast]
        rfl
    · rw [State.treePack_resumes hpack] at hsend
      refine ⟨fun hne hgo => ⟨_, hsend, ?_⟩, fun hne hfull hw => ⟨_, hsend, ?_⟩, fun hne hpast => ?_, fun hnil => ⟨_, hsend, ?_⟩⟩
      · rw [State.packFrom_sends hg hne (hgo.imp_right .inr)]
        exact State.treeSend_left n.val k.q d items u
      · rw [State.packFrom_waits hg hne hfull hw]
        exact hwaits
      · have hexpire := packwaitExpiry_runs hport hpack hpast
        rw [State.treePack_resumes hpack, State.packFrom_sends hg hne (.inr (.inl rfl))] at hexpire
        exact ⟨_, hexpire, State.treeSend_left n.val k.q d items u⟩
      · rw [State.packFrom_none hg hnil]
        exact ⟨rfl, rfl, congrArg Eth.pack (u.ethAt_setEth_same n.val _)⟩
  case idle => exact fun n s => ⟨treeFrameSend_idle, packwaitExpiry_idle⟩
  case links =>
    exact fun n s => ⟨fun hon => ⟨ethLinkDown_gives hon, ethLinkUp_gives hon⟩, ethLink_idle,
      fun h => ethPauseRepeat_gives h.1 h.2, ethPauseRepeat_idle⟩
  case raw =>
    intro n s completes free
    refine ⟨?takes, fun hfree u htake => ?_, ethRawTx_idle, fun r hrun hdone hraw => ?_, fun id st tm hrun hdone => ?_,
      ethRawTxDone_idle⟩
    case takes =>
      intro x u m id hfree htake hcq
      rw [← State.rawQueue_eq] at htake
      have hexec := ethRawTx_takes hfree htake
      have hends (st : Status) : completes id st none u (u.rawComplete n.val id st none) := by
        have hdone := u.rawComplete_completed n.val id st none
        rwa [State.rawDoneQueue_eq, hcq] at hdone
      refine ⟨fun hlen => ?_, fun hlow hhigh st bs hread => ⟨fun hst => ?_, fun hst v6 hv6 => ?_⟩⟩
      · rw [State.rawTaken_badLength hlen] at hexec
        exact ⟨_, hexec, hends .outOfRange⟩
      · rw [State.rawTaken_unread hlow hhigh hread hst] at hexec
        exact ⟨_, hexec, hends st⟩
      · have hv : rawV6 x bs = v6 := hv6.symm
        rw [State.rawTaken_read hlow hhigh (hst ▸ hread), hv] at hexec
        refine ⟨fun h6 => ?_, fun h6 hdown => ?_, fun h6 hup => ?_⟩
        · rw [h6, if_pos rfl] at hexec
          exact ⟨_, hexec, hends .denied⟩
        · rw [h6, hdown] at hexec
          exact ⟨_, hexec, hends .retry⟩
        · rw [h6, hup] at hexec
          exact ⟨_, hexec, u.rawSend_sent n.val x bs⟩
    · rw [← State.rawQueue_eq] at htake
      exact ethRawTx_empty hfree htake
    · have hexec := ethRawTxDone_sent hrun hdone hraw
      have hq := s.rawDoneQueue_eq n.val
      have hends (st : Status) (tm : Option (Stamp × ℤ × Stamp)) : completes r.1 st tm s (s.rawComplete n.val r.1 st tm) := by
        have hdone := s.rawComplete_completed n.val r.1 st tm
        rwa [hq] at hdone
      have hroom (st : Status) (tm : Option (Stamp × ℤ × Stamp)) := State.rawComplete_room r.1 st tm hq
      cases hlink : (s.ethAt n.val).link
      · rw [hlink] at hexec
        exact ⟨_, hexec, hends .retry none, hroom .retry none⟩
      · rw [hlink] at hexec
        exact ⟨_, hexec, hends .ok _, hroom .ok _⟩
    · have hdone' := s.rawComplete_completed n.val id st tm
      rw [State.rawDoneQueue_eq] at hdone'
      exact ⟨_, ethRawTxDone_kept hrun hdone, hdone'⟩

end

section
/-! ## What a write of a one-word register is (R10, R445) -/

namespace Sys2Proof.Machine
open Sys2Proof

variable {i : Init} {off : ℕ} {v : W32} {s : State}

theorem vf_eq_extractLsb' (v : W32) (lo n : ℕ) : vf v.toNat lo n = (v.extractLsb' lo n).toNat := by
  simp [vf, Nat.shiftRight_eq_div_pow]

theorem vf_bit (v : W32) (k : ℕ) : vf v.toNat k 1 = (v.getLsbD k).toNat := (Nat.toNat_testBit v.toNat k).symm

/-- A write of a one-word register that software may write goes to its unit's window. -/
theorem State.regWrite_window {r : RegRow} (h : Reaches i off s) (ha : off % 4 = 0) (hr : regRow off = some r)
    (hacc : r.acc ≠ .h ∧ r.acc ≠ .ro ∧ r.acc ≠ .seq) (hwords : r.words ≠ 2) (hopen : off ≠ 0x0B0040) (hclose : off ≠ 0x0B0044) :
    s.regWrite i off v = windowWrite (off / 0x10000) i r off v.toNat s := by
  obtain ⟨hh, hro, hseq⟩ := hacc
  have hg := State.regGate_of_reaches h ha hr hh
  simp only [State.regWrite, hg, hro, hseq, hwords, hopen, hclose, if_false]

theorem State.resp_respond (s : State) (i : Init) (st : Status) : Tab.get .ok (s.respond i st).resp i.key = st := Tab.get_set_same ..

/-- A register command answered OK leaves the host's error log as its write left it. -/
theorem responds_ok_of_regWrite {c : Instr} {u : State} {P : State → Prop} (hc : exec c s = s.regCmd i off v) (hr : Reaches i off s)
    (hw : s.regWrite i off v = (.ok, u)) (hP : ∀ r, P { u with resp := r }) : Responds c i .ok s P := by
  obtain ⟨hmain, hfrozen, -, -⟩ := hr
  have hx : exec c s = .next (u.respond i .ok) := by
    rw [hc]
    simp [State.regCmd, hmain, hfrozen, hw]
  exact ⟨_, hx, u.resp_respond i .ok, hP _⟩

end Sys2Proof.Machine
end

section
/-! ## Merge contexts: the order of the held items and their release (R95 to R101) -/

namespace Sys2Proof.Machine
open Sys2Proof

variable {s t : State} {c q : ℕ}

/-! ### The held list stays in key order -/

theorem insHeld_perm (h : Held) (l : List Held) : (insHeld h l).Perm (h :: l) := by
  induction l with
  | nil => exact List.Perm.refl _
  | cons x xs ih =>
    rw [insHeld]
    split
    · exact List.Perm.refl _
    · exact (ih.cons x).trans (List.Perm.swap h x xs)

theorem insHeld_pairwise (h : Held) {l : List Held} (hl : l.Pairwise (fun a b => a.key ≤ b.key)) :
    (insHeld h l).Pairwise (fun a b => a.key ≤ b.key) := by
  induction l with
  | nil => exact List.pairwise_singleton _ _
  | cons x xs ih =>
    obtain ⟨hx, hxs⟩ := List.pairwise_cons.mp hl
    rw [insHeld]
    split
    · next hlt =>
      refine List.pairwise_cons.mpr ⟨fun g hg => ?_, hl⟩
      rcases List.mem_cons.mp hg with rfl | hg
      · exact hlt.le
      · exact hlt.le.trans (hx g hg)
    · next hge =>
      refine List.pairwise_cons.mpr ⟨fun g hg => ?_, ih hxs⟩
      rcases List.mem_cons.mp ((insHeld_perm h xs).mem_iff.mp hg) with rfl | hg
      · exact Nat.not_lt.mp hge
      · exact hx g hg

/-! ### The item whose window ran out first (R97) -/

theorem firstDue_eq_none {now : ℕ} {l : List Held} (h : ∀ g ∈ l, now ≤ g.due) : firstDue now l = none := by
  have hnone : l.filter (fun h => decide (h.due < now)) = [] :=
    List.filter_eq_nil_iff.mpr fun g hg => by simpa using h g hg
  rw [firstDue, hnone, List.foldl_nil]

theorem firstDue_snoc_waits {now : ℕ} {l : List Held} {x : Held} (hx : ¬ x.due < now) : firstDue now (l ++ [x]) = firstDue now l := by
  simp [firstDue, hx]

theorem firstDue_snoc_first {now : ℕ} {l : List Held} {x : Held} (hx : x.due < now) (hl : firstDue now l = none) :
    firstDue now (l ++ [x]) = some x := by
  unfold firstDue at hl ⊢
  simp only [List.filter_append, List.foldl_append, hl, List.filter_cons, hx, decide_true, if_true, List.filter_nil, List.foldl_cons, List.foldl_nil]

theorem firstDue_snoc_next {now : ℕ} {l : List Held} {x b : Held} (hx : x.due < now) (hl : firstDue now l = some b) :
    firstDue now (l ++ [x]) = if x.due < b.due then some x else some b := by
  unfold firstDue at hl ⊢
  simp only [List.filter_append, List.foldl_append, hl, List.filter_cons, hx, decide_true, if_true, List.filter_nil, List.foldl_cons, List.foldl_nil]

theorem firstDue_mem {now : ℕ} {l : List Held} {b : Held} (h : firstDue now l = some b) : b ∈ l := by
  induction l using List.reverseRecOn generalizing b with
  | nil => exact absurd h (by simp [firstDue])
  | append_singleton l x ih =>
    refine List.mem_append.mpr ?_
    by_cases hx : x.due < now
    · cases hl : firstDue now l with
      | none =>
        rw [firstDue_snoc_first hx hl] at h
        exact .inr (by simpa using h.symm)
      | some g =>
        rw [firstDue_snoc_next hx hl] at h
        split at h
        · exact .inr (by simpa using h.symm)
        · exact .inl (Option.some.inj h ▸ ih hl)
    · rw [firstDue_snoc_waits hx] at h
      exact .inl (ih h)

theorem firstDue_of_least {now : ℕ} {l r : List Held} {h : Held} (hdue : h.due < now) (hleast : ∀ g ∈ l ++ r, h.due < g.due) :
    firstDue now (l ++ h :: r) = some h := by
  induction r using List.reverseRecOn with
  | nil =>
    cases hl : firstDue now l with
    | none => exact firstDue_snoc_first hdue hl
    | some b => rw [firstDue_snoc_next hdue hl, if_pos (hleast b (by simpa using firstDue_mem hl))]
  | append_singleton r x ih =>
    have hr : firstDue now (l ++ h :: r) = some h := ih fun g hg => hleast g (by
      rw [← List.append_assoc]
      exact List.mem_append_left _ hg)
    have hx : h.due < x.due := hleast x (by simp)
    rw [show l ++ h :: (r ++ [x]) = (l ++ h :: r) ++ [x] by simp]
    by_cases hnow : x.due < now
    · rw [firstDue_snoc_next hnow hr, if_neg hx.le.not_gt]
    · rw [firstDue_snoc_waits hnow, hr]

/-! ### What a release does -/

/-- From `s` to `t` context `c` has released the items `hs` to queue `q`, in this order. -/
structure Released (c q : ℕ) (hs : List Held) (s t : State) : Prop where
  rel : (t.desc q).rel = (s.desc q).rel ++ hs.map (·.ptr)
  own : t.merge c = { s.merge c with last := (t.merge c).last }
  others : ∀ e, e ≠ c → t.merge e = s.merge e

/-- LATE is set in the slot's ring bytes, and counted. -/
theorem State.lateCounted_frame (late : Bool) (q p : ℕ) (s : State) :
    ∃ mem pmc, (if late then (s.markLate q p).count 0x0304 1 {} else s) = { s with mem := mem, pmc := pmc } := by
  split
  · rw [State.count_frame]
    exact ⟨_, _, rfl⟩
  · exact ⟨_, _, rfl⟩

/-- A release notes the key and lists the slot; besides, it touches the slot's bytes and the counters alone. -/
theorem State.releaseOne_eq (c q : ℕ) (h : Held) (s : State) :
    ∃ mem pmc, s.releaseOne c q h = (({ s with mem := mem, pmc := pmc }).setMerge c
      { s.merge c with last := some h.key }).setDesc q { s.desc q with rel := (s.desc q).rel ++ [h.ptr] } := by
  unfold State.releaseOne
  dsimp only
  obtain ⟨mem, pmc, hlate⟩ := s.lateCounted_frame _ q h.ptr
  rw [hlate]
  exact ⟨mem, pmc, rfl⟩

theorem State.merge_releaseOne_same (c q : ℕ) (h : Held) (s : State) :
    (s.releaseOne c q h).merge c = { s.merge c with last := some h.key } := by
  obtain ⟨mem, pmc, heq⟩ := s.releaseOne_eq c q h
  rw [heq]
  exact Tab.get_set_same ..

theorem State.releaseOne_released (c q : ℕ) (h : Held) (s : State) : Released c q [h] s (s.releaseOne c q h) := by
  obtain ⟨mem, pmc, heq⟩ := s.releaseOne_eq c q h
  refine ⟨?_, by rw [State.merge_releaseOne_same], fun e he => ?_⟩
  · rw [heq, State.desc_setDesc_same]
    rfl
  · rw [heq]
    exact Tab.get_set_other _ _ _ he

theorem State.releaseList_released (c q : ℕ) (hs : List Held) (s : State) : Released c q hs s (s.releaseList c q hs) := by
  induction hs generalizing s with
  | nil => exact ⟨(List.append_nil _).symm, rfl, fun _ _ => rfl⟩
  | cons x xs ih =>
    have hx := s.releaseOne_released c q x
    have hxs := ih (s.releaseOne c q x)
    exact
      { rel := by
          rw [State.releaseList, List.foldl_cons, ← State.releaseList, hxs.rel, hx.rel, List.append_assoc]
          rfl
        own := hxs.own.trans (by rw [hx.own]; rfl)
        others := fun e he => (hxs.others e he).trans (hx.others e he) }

/-- The last key of a context is that of the item it released last. -/
theorem State.last_releaseList (c q : ℕ) (l : List Held) (h : Held) (s : State) :
    ((s.releaseList c q (l ++ [h])).merge c).last = some h.key := by
  rw [State.releaseList, List.foldl_append]
  exact congrArg Merge.last (State.merge_releaseOne_same ..)

/-- The release of an item takes every item held before it along. -/
theorem State.releaseUpTo_eq {l r : List Held} {h : Held} (hheld : (s.merge c).held = l ++ h :: r) (hl : ∀ g ∈ l, g.ptr ≠ h.ptr) :
    s.releaseUpTo c h.ptr = (s.setMerge c { s.merge c with held := r }).releaseList c (s.merge c).mq (l ++ [h]) := by
  have hspan : (l ++ h :: r).span (fun g => decide (g.ptr ≠ h.ptr)) = (l, h :: r) := by
    rw [List.span_eq_takeWhile_dropWhile, List.takeWhile_append_of_pos (by simpa using hl), List.dropWhile_append_of_pos (by simpa using hl)]
    simp
  rw [State.releaseUpTo, hheld, hspan]
  rfl

theorem State.releaseUpTo_releases {l r : List Held} {h : Held} (hheld : (s.merge c).held = l ++ h :: r) (hl : ∀ g ∈ l, g.ptr ≠ h.ptr) :
    (s.releaseUpTo c h.ptr).merge c = { s.merge c with held := r, last := some h.key } ∧
    ((s.releaseUpTo c h.ptr).desc (s.merge c).mq).rel = (s.desc (s.merge c).mq).rel ++ (l ++ [h]).map (·.ptr) ∧
    ∀ e, e ≠ c → (s.releaseUpTo c h.ptr).merge e = s.merge e := by
  have hrel := (s.setMerge c { s.merge c with held := r }).releaseList_released c (s.merge c).mq (l ++ [h])
  rw [State.releaseUpTo_eq hheld hl]
  refine ⟨?_, hrel.rel, fun e he => (hrel.others e he).trans (s.merge_setMerge_other _ he)⟩
  rw [hrel.own, State.last_releaseList, State.merge_setMerge_same]

/-- MERGE_WINDOW_EXPIRY releases the item due first with every item held before it. -/
theorem mergeWindowExpiry_releases {c : Fin 1024} {l r : List Held} {h : Held} (hmain : s.pwr.mainOn = true)
    (hheld : (s.merge c.val).held = l ++ h :: r) (hdue : h.due < s.tb.elapsed) (hleast : ∀ g ∈ l ++ r, h.due < g.due) :
    exec (.mergeWindowExpiry c) s = .next (s.releaseUpTo c.val h.ptr) := by
  have hc : exec (.mergeWindowExpiry c) s = execMergeWindowExpiry c s := rfl
  rw [hc, execMergeWindowExpiry, hheld, firstDue_of_least hdue hleast]
  exact if_pos hmain

theorem mergeWindowExpiry_waits {c : Fin 1024} (h : ∀ g ∈ (s.merge c.val).held, s.tb.elapsed ≤ g.due) :
    exec (.mergeWindowExpiry c) s = .next s := by
  have hc : exec (.mergeWindowExpiry c) s = execMergeWindowExpiry c s := rfl
  rw [hc, execMergeWindowExpiry, firstDue_eq_none h]

/-! ### A context cleared and bound (R98, R100, R101) -/

theorem State.ctxClear_clears (c : ℕ) (s : State) :
    (s.ctxClear c).merge c = { s.merge c with held := [], last := none } ∧
    ((s.ctxClear c).desc (s.merge c).mq).rel = (s.desc (s.merge c).mq).rel ++ (s.merge c).held.map (·.ptr) := by
  have hrel := (s.setMerge c { s.merge c with held := [] }).releaseList_released c (s.merge c).mq (s.merge c).held
  refine ⟨?_, hrel.rel⟩
  have hown : (s.releaseAll c).merge c = { s.merge c with held := [], last := ((s.releaseAll c).merge c).last } := by
    have hkept := hrel.own
    rw [State.merge_setMerge_same] at hkept
    exact hkept
  rw [State.ctxClear, State.merge_setMerge_same, hown]

theorem State.rel_ctxBound (c q : ℕ) (s : State) : ((s.ctxBound c).desc q).rel = (s.desc q).rel := by
  unfold State.ctxBound
  dsimp only
  split
  · by_cases hq : q = (s.merge c).mq
    · rw [hq, State.desc_setDesc_same]
    · rw [State.desc_setDesc_other _ _ hq]
  · rfl

theorem State.merge_ctxBound (c e : ℕ) (s : State) : (s.ctxBound c).merge e = s.merge e := by
  unfold State.ctxBound
  dsimp only
  split <;> rfl

theorem State.mem_ctxBound (c : ℕ) (s : State) : (s.ctxBound c).mem = s.mem := by
  unfold State.ctxBound
  dsimp only
  split <;> rfl

end Sys2Proof.Machine
end

section
/-! ## Writes of ORD_MQ and ORD_MCFG (R100 to R102) -/

namespace Sys2Proof.Machine
open Sys2Proof

variable {i : Init} {v : W32} {s : State} {c q : ℕ}

theorem State.regWrite_ordMq (h : Reaches i 0x0B0004 s) :
    s.regWrite i 0x0B0004 v = writeOrd i (.one 0x04 .rw 0 0xFFFF#32) 0x0B0004 v.toNat s :=
  State.regWrite_window (r := .one 0x04 .rw 0 0xFFFF#32) h (by decide) (by decide) (by decide) (by decide) (by decide) (by decide)

theorem State.regWrite_ordMcfg (h : Reaches i 0x0B0008 s) :
    s.regWrite i 0x0B0008 v = writeOrd i (.one 0x08 .rw 5000 allBits) 0x0B0008 v.toNat s :=
  State.regWrite_window (r := .one 0x08 .rw 5000 allBits) h (by decide) (by decide) (by decide) (by decide) (by decide) (by decide)

/-! ### The queue a context binds -/

theorem State.ordMq_denied (h : Reaches i 0x0B0004 s) (hc : s.regF 0x0B0000 0 10 = c) (hq : (v.extractLsb' 0 16).toNat = q)
    (hbound : s.boundElsewhere c q = true) : s.regWrite i 0x0B0004 v = (.denied, s) := by
  rw [State.regWrite_ordMq h]
  simp [writeOrd, vf_eq_extractLsb', hc, hq, hbound, refuse]

theorem State.ordMq_same (h : Reaches i 0x0B0004 s) (hc : s.regF 0x0B0000 0 10 = c) (hq : (v.extractLsb' 0 16).toNat = q)
    (hfree : s.boundElsewhere c q = false) (hsame : (s.merge c).mq = q) :
    s.regWrite i 0x0B0004 v = (.ok, ((s.setMerge c { s.merge c with last := none }).setMerge c { s.merge c with last := none }).ctxBound c) := by
  rw [State.regWrite_ordMq h]
  simp [writeOrd, vf_eq_extractLsb', hc, hq, hfree, hsame]

theorem State.ordMq_other (h : Reaches i 0x0B0004 s) (hc : s.regF 0x0B0000 0 10 = c) (hq : (v.extractLsb' 0 16).toNat = q)
    (hfree : s.boundElsewhere c q = false) (hother : (s.merge c).mq ≠ q) :
    s.regWrite i 0x0B0004 v = (.ok, ((s.ctxClear c).setMerge c { (s.ctxClear c).merge c with mq := q }).ctxBound c) := by
  rw [State.regWrite_ordMq h]
  simp [writeOrd, vf_eq_extractLsb', hc, hq, hfree, hother]

theorem ordMqWrite_same (h : Reaches i 0x0B0004 s) (hc : s.regF 0x0B0000 0 10 = c) (hq : (v.extractLsb' 0 16).toNat = q)
    (hfree : s.boundElsewhere c q = false) (hsame : (s.merge c).mq = q) :
    Responds (.ordMqWrite i v) i .ok s (fun t => t.merge c = { s.merge c with last := none }) := by
  refine responds_ok_of_regWrite rfl h (State.ordMq_same h hc hq hfree hsame) fun _ => ?_
  exact (State.merge_ctxBound c c _).trans (State.merge_setMerge_same _ _ _)

theorem ordMqWrite_other (h : Reaches i 0x0B0004 s) (hc : s.regF 0x0B0000 0 10 = c) (hq : (v.extractLsb' 0 16).toNat = q)
    (hfree : s.boundElsewhere c q = false) (hother : (s.merge c).mq ≠ q) :
    Responds (.ordMqWrite i v) i .ok s (fun t => t.merge c = { s.merge c with mq := q, held := [], last := none } ∧
      (t.desc (s.merge c).mq).rel = (s.desc (s.merge c).mq).rel ++ (s.merge c).held.map (·.ptr)) := by
  obtain ⟨hmerge, hrel⟩ := s.ctxClear_clears c
  refine responds_ok_of_regWrite rfl h (State.ordMq_other h hc hq hfree hother) fun _ => ⟨?_, ?_⟩
  · refine (State.merge_ctxBound c c _).trans ((State.merge_setMerge_same _ _ _).trans ?_)
    rw [hmerge]
  · exact (State.rel_ctxBound c _ _).trans hrel

/-! ### The window, the limit and the enable of a context -/

theorem State.ordMcfg_long (h : Reaches i 0x0B0008 s) (hlong : 500000 < (v.extractLsb' 0 20).toNat) :
    s.regWrite i 0x0B0008 v = (.outOfRange, s) := by
  have hlong' : 500000 < vf v.toNat 0 20 := by rwa [vf_eq_extractLsb']
  rw [State.regWrite_ordMcfg h]
  simp [writeOrd, hlong', refuse]

theorem ordMcfg_window (hwindow : (v.extractLsb' 0 20).toNat ≤ 500000) : ¬ 500000 < vf v.toNat 0 20 := by
  rw [vf_eq_extractLsb']
  exact Nat.not_lt.mpr hwindow

variable (hwindow : (v.extractLsb' 0 20).toNat ≤ 500000)
include hwindow

theorem State.ordMcfg_denied (h : Reaches i 0x0B0008 s) (hc : s.regF 0x0B0000 0 10 = c) (hen : v.getLsbD 31 = true)
    (hbound : s.boundElsewhere c (s.merge c).mq = true) : s.regWrite i 0x0B0008 v = (.denied, s) := by
  have hen' : vf v.toNat 31 1 = 1 := by rw [vf_bit, hen, Bool.toNat_true]
  rw [State.regWrite_ordMcfg h]
  simp [writeOrd, ordMcfg_window hwindow, hc, hen', hbound, refuse]

theorem State.ordMcfg_enables (h : Reaches i 0x0B0008 s) (hc : s.regF 0x0B0000 0 10 = c) (hen : v.getLsbD 31 = true)
    (hfree : s.boundElsewhere c (s.merge c).mq = false) :
    s.regWrite i 0x0B0008 v = (.ok, (s.setMerge c { s.merge c with mcfg := v }).ctxBound c) := by
  have hen' : vf v.toNat 31 1 = 1 := by rw [vf_bit, hen, Bool.toNat_true]
  rw [State.regWrite_ordMcfg h]
  simp [writeOrd, ordMcfg_window hwindow, hc, hen', hfree]

theorem State.ordMcfg_disables (h : Reaches i 0x0B0008 s) (hc : s.regF 0x0B0000 0 10 = c) (hen : v.getLsbD 31 = false) :
    s.regWrite i 0x0B0008 v = (.ok, ((s.ctxClear c).setMerge c { (s.ctxClear c).merge c with mcfg := v }).ctxBound c) := by
  have hen' : vf v.toNat 31 1 = 0 := by rw [vf_bit, hen, Bool.toNat_false]
  rw [State.regWrite_ordMcfg h]
  simp [writeOrd, ordMcfg_window hwindow, hc, hen']

theorem ordMcfgWrite_enables (h : Reaches i 0x0B0008 s) (hc : s.regF 0x0B0000 0 10 = c) (hen : v.getLsbD 31 = true)
    (hfree : s.boundElsewhere c (s.merge c).mq = false) :
    Responds (.ordMcfgWrite i v) i .ok s (fun t => t.merge c = { s.merge c with mcfg := v } ∧ t.mem = s.mem) := by
  refine responds_ok_of_regWrite rfl h (State.ordMcfg_enables hwindow h hc hen hfree) fun _ => ⟨?_, ?_⟩
  · exact (State.merge_ctxBound c c _).trans (State.merge_setMerge_same _ _ _)
  · exact State.mem_ctxBound c _

theorem ordMcfgWrite_disables (h : Reaches i 0x0B0008 s) (hc : s.regF 0x0B0000 0 10 = c) (hen : v.getLsbD 31 = false) :
    Responds (.ordMcfgWrite i v) i .ok s (fun t => t.merge c = { s.merge c with mcfg := v, held := [], last := none } ∧
      (t.desc (s.merge c).mq).rel = (s.desc (s.merge c).mq).rel ++ (s.merge c).held.map (·.ptr)) := by
  obtain ⟨hmerge, hrel⟩ := s.ctxClear_clears c
  refine responds_ok_of_regWrite rfl h (State.ordMcfg_disables hwindow h hc hen) fun _ => ⟨?_, ?_⟩
  · refine (State.merge_ctxBound c c _).trans ((State.merge_setMerge_same _ _ _).trans ?_)
    rw [hmerge]
  · exact (State.rel_ctxBound c _ _).trans hrel

end Sys2Proof.Machine
end

section
/-! ## Stores that stay within a set of places (R103) -/

namespace Sys2Proof.Machine
open Sys2Proof

/-- From `s` to `t` only bytes of DRAM at the places `A` have changed. -/
structure StoresIn (A : Set ℕ) (s t : State) : Prop where
  frame : t = { s with mem := { s.mem with dram := t.mem.dram } }
  apart : ∀ k, k ∉ A → t.ramByte k = s.ramByte k

variable {A : Set ℕ} {s t u : State}

theorem StoresIn.refl (A : Set ℕ) (s : State) : StoresIn A s s := ⟨rfl, fun _ _ => rfl⟩

theorem StoresIn.trans (h : StoresIn A s t) (g : StoresIn A t u) : StoresIn A s u :=
  ⟨by rw [g.frame, h.frame], fun k hk => (g.apart k hk).trans (h.apart k hk)⟩

theorem StoresIn.mono {B : Set ℕ} (h : StoresIn A s t) (hAB : A ⊆ B) : StoresIn B s t := ⟨h.frame, fun k hk => h.apart k fun ha => hk (hAB ha)⟩

theorem State.ramPut_storesIn {a : ℕ} {bs : List Byte} (h : ∀ k, a ≤ k → k < a + bs.length → k ∈ A) (s : State) : StoresIn A s (s.ramPut a bs) := by
  refine ⟨rfl, fun k hk => ?_⟩
  rw [State.ramByte_ramPut, dif_neg fun hin => hk (h k hin.1 hin.2)]

theorem StoresIn.ite {c : Prop} [Decidable c] (h : StoresIn A s t) (g : StoresIn A s u) : StoresIn A s (if c then t else u) := by
  split
  · exact h
  · exact g

theorem StoresIn.foldl {f : State → ℕ → State} {l : List ℕ} (hf : ∀ u, StoresIn A s u → ∀ a ∈ l, StoresIn A u (f u a)) (h : StoresIn A s t) :
    StoresIn A s (l.foldl f t) := by
  induction l generalizing t with
  | nil => exact h
  | cons a l ih => exact ih (fun u hu b hb => hf u hu b (List.mem_cons_of_mem a hb)) (h.trans (hf t h a List.mem_cons_self))

/-- A run of bytes outside the places reads as before. -/
theorem StoresIn.ramNat (h : StoresIn A s t) {a n : ℕ} (ha : ∀ k, k < n → a + k ∉ A) : t.ramNat a n = s.ramNat a n := by
  rw [State.ramNat, State.ramBytes_congr t s a n fun k hk => h.apart _ (ha k hk), State.ramNat]

end Sys2Proof.Machine
end

section
/-! ## The sweep of the completion cache (R103, R105, R106) -/

namespace Sys2Proof.Machine
open Sys2Proof

variable {s t : State} {a b base : ℕ}

/-! ### Where the tables lie -/

/-- The places of a completion entry. -/
def ccSlot (a : ℕ) : Set ℕ := {k | a ≤ k ∧ k < a + 32}

/-- The places of the stream table behind the completion cache at `base`. -/
def streamTable (base : ℕ) : Set ℕ := {k | base + 2 ^ 27 ≤ k ∧ k < base + 2 ^ 27 + 2 ^ 26}

theorem mem_streamTable {k : ℕ} : k ∈ streamTable base ↔ base + 2 ^ 27 ≤ k ∧ k < base + 2 ^ 27 + 2 ^ 26 := Iff.rfl

/-- An address is that of an entry of the cache at `base`. -/
def IsSlot (base a : ℕ) : Prop := base ≤ a ∧ (a - base) % 32 = 0 ∧ a + 32 ≤ base + 2 ^ 27

theorem StoresIn.ccBase {A : Set ℕ} (h : StoresIn A s t) : t.ccBase = s.ccBase := by rw [h.frame]; rfl

theorem StoresIn.retention {A : Set ℕ} (h : StoresIn A s t) (id : Word) : t.retention id = s.retention id := by rw [h.frame]; rfl

theorem StoresIn.age {A : Set ℕ} (h : StoresIn A s t) (x : W32) : t.age x = s.age x := by rw [h.frame]; rfl

theorem StoresIn.ccAt {A : Set ℕ} (h : StoresIn A s t) (ha : ∀ k ∈ ccSlot a, k ∉ A) : t.ccAt a = s.ccAt a := by
  have hread : t.ramNat a 32 = s.ramNat a 32 := h.ramNat fun k hk => ha (a + k) ⟨Nat.le_add_right a k, by omega⟩
  rw [State.ccAt, hread, State.ccAt]

theorem IsSlot.notMem_streamTable (h : IsSlot base a) : ∀ k ∈ ccSlot a, k ∉ streamTable base := by
  obtain ⟨-, -, htop⟩ := h
  rintro k ⟨-, hk⟩ ⟨hlow, -⟩
  omega

theorem IsSlot.notMem_ccSlot (ha : IsSlot base a) (hb : IsSlot base b) (hne : a ≠ b) : ∀ k ∈ ccSlot a, k ∉ ccSlot b := by
  obtain ⟨hlowa, hmoda, -⟩ := ha
  obtain ⟨hlowb, hmodb, -⟩ := hb
  rintro k ⟨ha1, ha2⟩ ⟨hb1, hb2⟩
  omega

theorem State.isSlot_of_mem_ccLive (h : a ∈ s.ccLive) : IsSlot s.ccBase a := by
  obtain ⟨p, hp, rfl⟩ := List.mem_map.mp h
  obtain ⟨-, hin⟩ := List.mem_filter.mp hp
  simp only [inRegion, Bool.and_eq_true, decide_eq_true_eq] at hin
  obtain ⟨⟨⟨hlow, htop⟩, hmod⟩, -⟩ := hin
  exact ⟨by omega, by omega, by omega⟩

theorem State.mem_streamTable_of_mem_stLiveAddrs (h : a ∈ s.stLiveAddrs) : ∀ k, a ≤ k → k < a + 16 → k ∈ streamTable s.ccBase := by
  obtain ⟨p, hp, rfl⟩ := List.mem_map.mp h
  obtain ⟨-, hin⟩ := List.mem_filter.mp hp
  simp only [inRegion, Bool.and_eq_true, decide_eq_true_eq] at hin
  obtain ⟨⟨⟨hlow, htop⟩, hmod⟩, -⟩ := hin
  have hbase : s.ccBase % 16 = 0 := by
    rw [State.ccBase]
    omega
  exact fun k hk1 hk2 => ⟨by omega, by omega⟩

theorem State.stFind_mem {o st : BitVec 16} {x : ℕ} (h : s.stFind o st = some x) : ∀ k, x ≤ k → k < x + 16 → k ∈ streamTable s.ccBase := by
  obtain ⟨w, hw, rfl⟩ := List.mem_map.mp (List.mem_of_find?_eq_some h)
  have hw8 := List.mem_range.mp hw
  have hhash := Nat.mod_lt (Config.streamHash s.ord.key o st) (show 0 < 524288 by decide)
  intro k hk1 hk2
  simp only [State.stAddr] at hk1 hk2
  exact ⟨by omega, by omega⟩

/-! ### A store of an entry -/

theorem State.stPut_storesIn {x : ℕ} (h : ∀ k, x ≤ k → k < x + 16 → k ∈ streamTable base) (e : StreamEnt) (s : State) :
    StoresIn (streamTable base) s (s.stPut x e) :=
  State.ramPut_storesIn (by rwa [length_bytesOf]) s

theorem State.ccPut_storesIn (a : ℕ) (e : CcEnt) (s : State) : StoresIn (ccSlot a) s (s.ccPut a e) :=
  State.ramPut_storesIn (fun k hlow hhigh => show a ≤ k ∧ k < a + 32 from ⟨hlow, by rwa [length_bytesOf] at hhigh⟩) s

theorem State.ccAt_ccPut_same (a : ℕ) (e : CcEnt) (s : State) : (s.ccPut a e).ccAt a = e := by
  have hsame := s.ramNat_ramPut_same a (bytesOf 32 e)
  have hpow : 256 ^ 32 = 2 ^ 256 := by decide
  rw [length_bytesOf] at hsame
  rw [State.ccAt, State.ccPut, hsame, bytesOf, natOfBytes_bytesOfNat, hpow, Nat.mod_eq_of_lt e.isLt, BitVec.ofNat_toNat, BitVec.setWidth_eq]

/-! ### Retiring an entry -/

/-- A completion entry that is no longer valid. -/
def retired (e : CcEnt) : CcEnt := setFld e 200 (0#1)

theorem ccValid_retired (e : CcEnt) : ccValid (retired e) = false := by
  rw [ccValid, bit, retired, getLsbD_setFld, if_pos (by decide)]
  rfl

theorem ccReq_retired (e : CcEnt) : ccReq (retired e) = ccReq e := extractLsb'_setFld_apart e 200 0 64 _ (by decide)

theorem ccTime_retired (e : CcEnt) : ccTime (retired e) = ccTime e := extractLsb'_setFld_apart e 200 224 32 _ (by decide)

theorem retired_retired (e : CcEnt) : retired (retired e) = retired e := by
  refine BitVec.eq_of_getLsbD_eq fun j _ => ?_
  simp only [retired, getLsbD_setFld]
  split <;> rfl

/-- The entry is older than the retention of its origin. -/
def State.tooOld (s : State) (e : CcEnt) : Bool := decide (s.retention (ccReq e) < s.age (ccTime e))

theorem State.tooOld_retired (s : State) (e : CcEnt) : s.tooOld (retired e) = s.tooOld e := by
  rw [State.tooOld, ccReq_retired, ccTime_retired, State.tooOld]

theorem StoresIn.tooOld {A : Set ℕ} (h : StoresIn A s t) (e : CcEnt) : t.tooOld e = s.tooOld e := by
  rw [State.tooOld, h.retention, h.age, State.tooOld]

/-- Retiring clears the entry's valid bit and books it out of its stream. -/
theorem State.ccRetire_eq (a : ℕ) (s : State) :
    s.ccRetire a = s.ccPut a (retired (s.ccAt a)) ∨
    ∃ x e, (s.ccPut a (retired (s.ccAt a))).stFind (reqOrigin (ccReq (s.ccAt a))) (reqStream (ccReq (s.ccAt a))) = some x ∧
      s.ccRetire a = (s.ccPut a (retired (s.ccAt a))).stPut x e := by
  unfold State.ccRetire
  dsimp only
  split
  · exact .inl rfl
  · next x hx => exact .inr ⟨x, _, hx, rfl⟩

theorem State.ccRetire_storesIn (a : ℕ) (s : State) :
    StoresIn (streamTable s.ccBase) (s.ccPut a (retired (s.ccAt a))) (s.ccRetire a) := by
  rcases s.ccRetire_eq a with heq | ⟨x, e, hx, heq⟩
  · rw [heq]
    exact StoresIn.refl _ _
  · rw [heq]
    exact State.stPut_storesIn (State.stFind_mem hx) e _

theorem State.ccAt_ccRetire (ha : IsSlot s.ccBase a) (hb : IsSlot s.ccBase b) :
    (s.ccRetire a).ccAt b = if b = a then retired (s.ccAt a) else s.ccAt b := by
  rw [(s.ccRetire_storesIn a).ccAt hb.notMem_streamTable]
  split
  · next hba => rw [hba, State.ccAt_ccPut_same]
  · next hba => exact (s.ccPut_storesIn a _).ccAt (hb.notMem_ccSlot ha hba)

/-- The places the sweep may write: the completion cache and the stream table behind it. -/
def ccTables (base : ℕ) : Set ℕ := {k | base ≤ k ∧ k < base + 192 * 2 ^ 20}

theorem mem_ccTables {k : ℕ} : k ∈ ccTables base ↔ base ≤ k ∧ k < base + 192 * 2 ^ 20 := Iff.rfl

theorem streamTable_subset (base : ℕ) : streamTable base ⊆ ccTables base := by
  intro k hk
  rw [mem_streamTable] at hk
  rw [mem_ccTables]
  omega

theorem IsSlot.subset (h : IsSlot base a) : ccSlot a ⊆ ccTables base := by
  obtain ⟨hlow, -, htop⟩ := h
  rintro k ⟨hk1, hk2⟩
  exact ⟨by omega, by omega⟩

/-! ### The pass over the completion entries -/

/-- What the sweep does with the entry at `a`. -/
def State.sweepEntry (s : State) (a : ℕ) : State := if s.retention (ccReq (s.ccAt a)) < s.age (ccTime (s.ccAt a)) then s.ccRetire a else s

theorem State.sweepEntry_storesIn (hs : s.ccBase = base) (ha : IsSlot base a) : StoresIn (ccTables base) s (s.sweepEntry a) := by
  subst hs
  exact StoresIn.ite (((s.ccPut_storesIn a _).mono ha.subset).trans ((s.ccRetire_storesIn a).mono (streamTable_subset _))) (StoresIn.refl _ s)

theorem State.ccAt_sweepEntry (hs : s.ccBase = base) (ha : IsSlot base a) (hb : IsSlot base b) :
    (s.sweepEntry a).ccAt b = if b = a ∧ s.tooOld (s.ccAt b) = true then retired (s.ccAt b) else s.ccAt b := by
  subst hs
  have hold : s.tooOld (s.ccAt a) = true ↔ s.retention (ccReq (s.ccAt a)) < s.age (ccTime (s.ccAt a)) := decide_eq_true_iff
  unfold State.sweepEntry
  by_cases hba : b = a
  · subst hba
    simp only [true_and, hold]
    split
    · rw [State.ccAt_ccRetire ha hb, if_pos rfl]
    · rfl
  · simp only [hba, false_and, if_false]
    split
    · rw [State.ccAt_ccRetire ha hb, if_neg hba]
    · rfl

theorem State.sweepEntries_storesIn {l : List ℕ} (hs : s.ccBase = base) (hl : ∀ a ∈ l, IsSlot base a) :
    StoresIn (ccTables base) s (l.foldl State.sweepEntry s) :=
  StoresIn.foldl (fun _ hu a ha => State.sweepEntry_storesIn (hu.ccBase.trans hs) (hl a ha)) (StoresIn.refl _ s)

/-- Of the entries a pass visits, those too old are retired; every other entry stays. -/
theorem State.ccAt_sweepEntries {l : List ℕ} (hs : s.ccBase = base) (hl : ∀ a ∈ l, IsSlot base a) (hb : IsSlot base b) :
    (l.foldl State.sweepEntry s).ccAt b = if b ∈ l ∧ s.tooOld (s.ccAt b) = true then retired (s.ccAt b) else s.ccAt b := by
  induction l generalizing s with
  | nil => simp
  | cons a l ih =>
    have ha := hl a List.mem_cons_self
    have hstep := State.sweepEntry_storesIn hs ha
    rw [List.foldl_cons, ih (hstep.ccBase.trans hs) fun x hx => hl x (List.mem_cons_of_mem a hx), hstep.tooOld, State.ccAt_sweepEntry hs ha hb]
    by_cases hold : s.tooOld (s.ccAt b) = true
    · by_cases hba : b = a
      · subst hba
        simp [hold, State.tooOld_retired, retired_retired]
      · simp [hold, hba]
    · simp [hold]

/-! ### The pass over the stream entries -/

/-- What the sweep does with the stream entry at `a`, `live` being the IDs of the valid completion entries. -/
def State.sweepStream (live : List Word) (s : State) (a : ℕ) : State :=
  let e := s.stAt a
  let n := (live.filter (fun id => decide (reqOrigin id = stOrigin e ∧ reqStream id = stStream e))).length
  let e := if stTent e then e else setFld e 104 (BitVec.ofNat 24 n)
  if s.stIdle e || (stTent e && !s.stPending (stOrigin e) (stStream e)) then s.stPut a 0#128 else s.stPut a e

theorem State.ccSweep_eq (s : State) :
    s.ccSweep = (s.ccLive.foldl State.sweepEntry s).stLiveAddrs.foldl
      (State.sweepStream ((s.ccLive.foldl State.sweepEntry s).ccLive.map fun a => ccReq ((s.ccLive.foldl State.sweepEntry s).ccAt a)))
      (s.ccLive.foldl State.sweepEntry s) := rfl

theorem State.sweepStreams_storesIn (hs : s.ccBase = base) (live : List Word) :
    StoresIn (streamTable base) s (s.stLiveAddrs.foldl (State.sweepStream live) s) := by
  subst hs
  refine StoresIn.foldl (fun u _ a ha => ?_) (StoresIn.refl _ s)
  have hin := State.mem_streamTable_of_mem_stLiveAddrs ha
  exact StoresIn.ite (State.stPut_storesIn hin _ u) (State.stPut_storesIn hin _ u)

/-! ### The whole sweep -/

theorem State.ccSweep_storesIn (s : State) : StoresIn (ccTables s.ccBase) s s.ccSweep := by
  have hentries := State.sweepEntries_storesIn (s := s) rfl fun _ => State.isSlot_of_mem_ccLive
  rw [State.ccSweep_eq]
  exact hentries.trans ((State.sweepStreams_storesIn hentries.ccBase _).mono (streamTable_subset _))

theorem State.ccAt_ccSweep (h : a ∈ s.ccLive) : s.ccSweep.ccAt a = if s.tooOld (s.ccAt a) = true then retired (s.ccAt a) else s.ccAt a := by
  have hslots : ∀ b ∈ s.ccLive, IsSlot s.ccBase b := fun _ => State.isSlot_of_mem_ccLive
  have hbase := (State.sweepEntries_storesIn rfl hslots).ccBase
  rw [State.ccSweep_eq, (State.sweepStreams_storesIn hbase _).ccAt (hslots a h).notMem_streamTable,
    State.ccAt_sweepEntries rfl hslots (hslots a h)]
  simp only [h, true_and]

theorem ccSweep_runs (hmain : s.pwr.mainOn = true) : exec .ccSweep s = .next s.ccSweep := if_pos hmain

end Sys2Proof.Machine
end

section
/-! ## Full lines written (R364) -/

namespace Sys2Proof.Machine
open Sys2Proof

variable {s : State} {a n : ℕ} {bs : List Byte}

theorem ramPutTab_append (t : Tab Byte) (a : ℕ) (xs ys : List Byte) :
    ramPutTab t a (xs ++ ys) = ramPutTab (ramPutTab t a xs) (a + xs.length) ys := by
  induction xs generalizing t a with
  | nil => rfl
  | cons x xs ih => rw [List.cons_append, ramPutTab, ih, ramPutTab, List.length_cons, Nat.add_right_comm, Nat.add_assoc]

/-- Line `l` stored whole, with a fresh tag. -/
def State.lineStored (l : ℕ) (bs : List Byte) (s : State) : State := State.ramPut { s with mem := s.mem.clean l } (64 * l) bs

theorem State.poisoned_lineStored (l k : ℕ) (bs : List Byte) (s : State) :
    (s.lineStored l bs).poisoned k = if k = l then false else s.poisoned k :=
  Tab.get_set false false s.mem.poison l k

/-- A write from the start of a line stores its first line whole and goes on behind it. -/
theorem State.memWrite_line (m : ℕ) (ha : a % 64 = 0) (hlen : 64 ≤ bs.length) (s : State) :
    (State.memWrite (m + 1) a bs s).2 = (State.memWrite m (a + 64) (bs.drop 64) (s.lineStored (a / 64) (bs.take 64))).2 := by
  have hline : s.lineWrite (a / 64) 0 (bs.take 64) = (.ok, s.lineStored (a / 64) (bs.take 64)) :=
    if_pos ⟨rfl, List.length_take_of_le hlen⟩
  cases bs with
  | nil => simp at hlen
  | cons b bs => simp only [State.memWrite, ha, Nat.sub_zero, hline]

/-- A write of full lines stores its bytes and clears POISON of the lines, and of no other. -/
theorem State.memWrite_lines {fuel : ℕ} (hfuel : n < fuel) (ha : a % 64 = 0) (hlen : bs.length = 64 * n) (s : State) :
    (State.memWrite fuel a bs s).2.mem.dram = ramPutTab s.mem.dram a bs ∧
    ∀ l, (State.memWrite fuel a bs s).2.poisoned l = if a / 64 ≤ l ∧ l < a / 64 + n then false else s.poisoned l := by
  induction n generalizing fuel a bs s with
  | zero =>
    obtain ⟨m, rfl⟩ : ∃ m, fuel = m + 1 := ⟨fuel - 1, by omega⟩
    rw [List.length_eq_zero_iff.mp hlen]
    exact ⟨rfl, fun l => (if_neg (by omega)).symm⟩
  | succ n ih =>
    obtain ⟨m, rfl⟩ : ∃ m, fuel = m + 1 := ⟨fuel - 1, by omega⟩
    have hfirst : (bs.take 64).length = 64 := List.length_take_of_le (by omega)
    have hrest : (bs.drop 64).length = 64 * n := by
      rw [List.length_drop]
      omega
    obtain ⟨hdram, hpoison⟩ := ih (fuel := m) (by omega) (by omega : (a + 64) % 64 = 0) hrest (s.lineStored (a / 64) (bs.take 64))
    rw [State.memWrite_line m ha (by omega)]
    refine ⟨?_, fun l => ?_⟩
    · have hline : (s.lineStored (a / 64) (bs.take 64)).mem.dram = ramPutTab s.mem.dram a (bs.take 64) := by
        rw [State.lineStored, State.ramPut, Nat.mul_div_cancel' (Nat.dvd_of_mod_eq_zero ha)]
        rfl
      rw [hdram, hline]
      conv_rhs => rw [← List.take_append_drop 64 bs, ramPutTab_append, hfirst]
    · rw [hpoison l, State.poisoned_lineStored]
      by_cases hl : l = a / 64
      · rw [if_pos hl, if_pos (by omega : a / 64 ≤ l ∧ l < a / 64 + (n + 1)), ite_self]
      · rw [if_neg hl]
        exact if_congr (by omega) rfl rfl

end Sys2Proof.Machine
end

section
/-! ## Repair and quarantine of a bucket (R110), the warning of a long hold (R119) -/

namespace Sys2Proof.Machine
open Sys2Proof

variable {i : Init} {v : W32} {s : State}

theorem State.regWrite_ccRepair (h : Reaches i 0x0B0018 s) :
    s.regWrite i 0x0B0018 v = writeOrd i (.one 0x18 .wo 0 allBits) 0x0B0018 v.toNat s :=
  State.regWrite_window (r := .one 0x18 .wo 0 allBits) h (by decide) (by decide) (by decide) (by decide) (by decide) (by decide)

theorem State.ccRepair_denied (h : Reaches i 0x0B0018 s) (hi : i ≠ .sup) : s.regWrite i 0x0B0018 v = (.denied, s) := by
  rw [State.regWrite_ccRepair h]
  simp [writeOrd, hi, refuse]

theorem State.ccRepair_noBucket (h : Reaches i 0x0B0018 s) (hi : i = .sup) (hv : 524288 ≤ v.toNat) :
    s.regWrite i 0x0B0018 v = (.outOfRange, s) := by
  rw [State.regWrite_ccRepair h]
  simp [writeOrd, hi, hv, refuse]

theorem State.ccRepair_full (h : Reaches i 0x0B0018 s) (hi : i = .sup) (hv : v.toNat < 524288) (hfull : 256 ≤ s.ord.quar.length) :
    s.regWrite i 0x0B0018 v = (.retry, s) := by
  rw [State.regWrite_ccRepair h]
  simp [writeOrd, hi, Nat.not_le.mpr hv, hfull, refuse]

/-- Bucket `b` put in quarantine now. -/
def State.quarantine (b : ℕ) (s : State) : State :=
  { s with ord := { s.ord with quar := s.ord.quar.filter (fun p => decide (p.1 ≠ b)) ++ [(b, s.tb.elapsed)] } }

theorem State.quarantined_quarantine (b : ℕ) (s : State) : (s.quarantine b).quarantined b = true := by
  simp [State.quarantined, State.quarantine]

/-- Bucket `b` with the given bytes in its eight entries. -/
def State.bucketStored (b : ℕ) (bs : List Byte) (s : State) : State := (s.ramWrite (s.ccAddr b 0) bs).2

theorem State.ccRepair_repairs {zeros : List Byte} (hzeros : zeros = List.replicate 256 0#8) (h : Reaches i 0x0B0018 s) (hi : i = .sup)
    (hv : v.toNat < 524288) (hroom : s.ord.quar.length < 256) :
    s.regWrite i 0x0B0018 v = (.ok, (s.bucketStored v.toNat zeros).quarantine v.toNat) := by
  rw [State.regWrite_ccRepair h]
  simp [writeOrd, hi, Nat.not_le.mpr hv, Nat.not_le.mpr hroom, State.quarantine, State.bucketStored, hzeros, -List.reduceReplicate]

theorem State.ccAddr_aligned (b : ℕ) (s : State) : s.ccAddr b 0 % 64 = 0 := by
  rw [State.ccAddr, State.ccBase]
  omega

theorem mem_linesOf_bucket {a l : ℕ} (h : l ∈ linesOf a 256) : a / 64 ≤ l ∧ l < a / 64 + ((a + 255) / 64 - a / 64 + 1) := by
  rw [linesOf, if_neg (by decide)] at h
  obtain ⟨k, hk, rfl⟩ := List.mem_map.mp h
  have hk' := List.mem_range.mp hk
  omega

/-- Zeros written to a bucket's lines leave what lies around them as it was, and no line of the bucket poisoned. -/
theorem State.bucketStored_facts {zeros : List Byte} (hlen : zeros.length = 256) (hzeros : ∀ x ∈ zeros, x = 0#8) (b : ℕ) (s : State) :
    (∀ k, k < 256 → (s.bucketStored b zeros).ramByte (s.ccAddr b 0 + k) = 0#8) ∧
    (∀ k, k < s.ccAddr b 0 ∨ s.ccAddr b 0 + 256 ≤ k → (s.bucketStored b zeros).ramByte k = s.ramByte k) ∧
    (∀ l ∈ linesOf (s.ccAddr b 0) 256, (s.bucketStored b zeros).poisoned l = false) := by
  have ha := s.ccAddr_aligned b
  obtain ⟨hdram, hpoison⟩ := State.memWrite_lines (n := 4) (fuel := zeros.length + 1) (by omega) ha hlen s
  rw [← State.ramWrite, ← State.bucketStored] at hdram hpoison
  have hbyte (k : ℕ) : (s.bucketStored b zeros).ramByte k = Tab.get 0#8 (ramPutTab s.mem.dram (s.ccAddr b 0) zeros) k := by
    rw [State.ramByte, hdram]
  refine ⟨fun k hk => ?_, fun k hk => ?_, fun l hl => ?_⟩
  · rw [hbyte, get_ramPutTab, dif_pos ⟨Nat.le_add_right _ k, by omega⟩]
    exact hzeros _ (List.getElem_mem _)
  · rw [hbyte, get_ramPutTab, dif_neg (by omega), State.ramByte]
  · have hin := mem_linesOf_bucket hl
    rw [hpoison l, if_pos (by omega)]

theorem ordCcRepair_repairs (h : Reaches i 0x0B0018 s) (hi : i = .sup) (hv : v.toNat < 524288) (hroom : s.ord.quar.length < 256) :
    Responds (.ordCcRepair i v) i .ok s (fun t => t.quarantined v.toNat = true ∧
      (∀ k, k < 256 → t.ramByte (s.ccAddr v.toNat 0 + k) = 0#8) ∧
      (∀ b, b < s.ccAddr v.toNat 0 ∨ s.ccAddr v.toNat 0 + 256 ≤ b → t.ramByte b = s.ramByte b) ∧
      (∀ l ∈ linesOf (s.ccAddr v.toNat 0) 256, t.poisoned l = false)) := by
  obtain ⟨zeros, hzeros⟩ : ∃ bs, bs = List.replicate 256 0#8 := ⟨_, rfl⟩
  have hlen : zeros.length = 256 := by rw [hzeros, List.length_replicate]
  have hfacts := State.bucketStored_facts hlen (fun x hx => List.eq_of_mem_replicate (hzeros ▸ hx)) v.toNat s
  exact responds_ok_of_regWrite rfl h (State.ccRepair_repairs hzeros h hi hv hroom) fun _ => ⟨State.quarantined_quarantine _ _, hfacts⟩

theorem quarantineExpiry_runs (hmain : s.pwr.mainOn = true) :
    exec .quarantineExpiry s = .next { s with ord := { s.ord with
      quar := s.ord.quar.filter fun p => !s.past p.2 (max (s.regF 0x0B0010 1 10) (s.regF 0x0B0010 11 10) * 3600 * sCounts) } } :=
  if_pos hmain

theorem lockHoldWarning_warns {l : Fin 4096} {a : ℕ} {e : W32} (hmain : s.pwr.mainOn = true) (howner : (s.lock l.val).owner = some (a, e))
    (hfirst : (s.lock l.val).warned = false) (hlong : (s.lock l.val).since + (s.lock l.val).warnMs * msCounts < s.tb.elapsed) :
    exec (.lockHoldWarning l) s =
      .next ((s.setLock l.val { s.lock l.val with warned := true }).event 0x0B03 (BitVec.ofNat 32 (l.val + a * 4096))) := by
  have hc : exec (.lockHoldWarning l) s = execLockHoldWarning l s := rfl
  rw [hc, execLockHoldWarning]
  simp only [howner, hmain, hfirst, hlong, Bool.not_false, decide_true, Bool.and_self, if_true]

theorem State.lock_event (s : State) (l c : ℕ) (p : W32) : (s.event c p).lock l = s.lock l := by
  rw [State.lock, State.event_ord, State.lock]

end Sys2Proof.Machine
end

section
open Sys2Proof Sys2Proof.Machine

/-- Settles O24: an expiry is `releaseUpTo` the item due first, a write of a context is `ctxClear` or a change of its words, the sweep
stores in its tables alone and retires entry by entry, and a repair is a write of four full lines. -/
theorem orderingUnit : Obligations.OrderingUnit := by
  unfold Obligations.OrderingUnit
  refine ⟨⟨?expiry, fun _ _ => mergeWindowExpiry_waits, fun h l hl => ⟨insHeld_pairwise h hl, insHeld_perm h l⟩, ?context⟩,
    ?sweep, ?repair, fun _ hmain => ⟨_, quarantineExpiry_runs hmain, rfl⟩, ?warning⟩
  case expiry =>
    intro c l r h s m hmain hheld hsorted hdue hothers
    have hbefore : ∀ g ∈ l, g.ptr ≠ h.ptr := fun g hg => (hothers g (List.mem_append_left r hg)).1
    obtain ⟨hctx, hrel, hrest⟩ := State.releaseUpTo_releases hheld hbefore
    rw [hheld] at hsorted
    refine ⟨_, mergeWindowExpiry_releases hmain hheld hdue fun g hg => (hothers g hg).2, ?_, ?_, ?_, hrel,
      fun e he => hrest e.val fun hval => he (Fin.ext hval)⟩
    · rw [hctx]
    · exact (List.pairwise_cons.mp (List.pairwise_append.mp hsorted).2.1).1
    · rw [hctx]
  case context =>
    intro i v s c q m released
    refine ⟨fun h hwindow => ⟨fun hen hfree => ordMcfgWrite_enables hwindow h rfl hen hfree,
        fun hdis => ordMcfgWrite_disables hwindow h rfl hdis, fun hen hbound => ?_⟩,
      fun h hlong => ?_,
      fun h hfree => ⟨fun hsame => ordMqWrite_same h rfl rfl hfree hsame, fun hother => ordMqWrite_other h rfl rfl hfree hother⟩,
      fun h hbound => ?_⟩
    · exact responds_of_regWrite rfl h (State.ordMcfg_denied hwindow h rfl hen hbound) fun _ _ => ⟨rfl, rfl⟩
    · exact responds_of_regWrite rfl h (State.ordMcfg_long h hlong) fun _ _ => ⟨rfl, rfl⟩
    · exact responds_of_regWrite rfl h (State.ordMq_denied h rfl rfl hbound) fun _ _ => ⟨rfl, rfl⟩
  case sweep =>
    intro s hmain
    have hstores := s.ccSweep_storesIn
    refine ⟨_, ccSweep_runs hmain, fun a ha hold => ?_, fun a ha hyoung => ?_, fun b hb => hstores.apart b ?_, ?_, ?_, ?_⟩
    · rw [State.ccAt_ccSweep ha, if_pos (show s.tooOld (s.ccAt a) = true from decide_eq_true hold), ccValid_retired]
    · rw [State.ccAt_ccSweep ha, if_neg (by simpa [State.tooOld] using hyoung)]
    · rw [mem_ccTables]
      omega
    all_goals rw [hstores.frame]
  case repair =>
    intro i v s h
    refine ⟨ordCcRepair_repairs h, fun hi hv hfull => ?_, fun hi hv => ?_, fun hi => ?_⟩
    · exact responds_of_regWrite rfl h (State.ccRepair_full h hi hv hfull) fun _ _ => ⟨rfl, rfl⟩
    · exact responds_of_regWrite rfl h (State.ccRepair_noBucket h hi hv) fun _ _ => ⟨rfl, rfl⟩
    · exact responds_of_regWrite rfl h (State.ccRepair_denied h hi) fun _ _ => ⟨rfl, rfl⟩
  case warning =>
    intro l a e s k hmain howner hfirst hlong
    refine ⟨_, lockHoldWarning_warns hmain howner hfirst hlong, ?_, rfl⟩
    rw [State.lock_event, State.lock_setLock_same]
end

section
/-! ## The item port (R406, R410) -/

namespace Sys2Proof.Machine
open Sys2Proof

variable {s : State} {i : Init} {v : W32}

/-! ### An item that enters FIFO 17 -/

/-- Bytes 24 to 31 of an item, its request ID, stay as they are at a stamping. -/
theorem extractLsb'_stampItem_request (body : Item) (st : Stamp) (off : ℤ) (src fl : BitVec 16) (seq ep : W32) :
    (stampItem body st off src fl seq ep).extractLsb' 192 64 = body.extractLsb' 192 64 := by
  rw [stampItem]
  iterate 6 rw [extractLsb'_setFld_apart _ _ 192 64 _ (by decide)]

theorem State.fifoPush_hst (n p : ℕ) (x : Item) (s : State) : (s.fifoPush n p x).2.hst = s.hst := by
  unfold State.fifoPush
  dsimp only
  split_ifs
  · rw [(State.fifoHold_holdsOnly n _).frame]
    rfl
  · rfl

theorem State.itemIn_hst (p : ℕ) (body : Item) (s : State) : (s.itemIn p body).hst = s.hst := State.fifoPush_hst ..

theorem State.itemIn_room {p : ℕ} {body : Item} (h : (s.fifo 17).items.length < 32) :
    ((s.itemIn p body).fifo 17).items = (s.fifo 17).items ++ [(p, s.stamped 52 s.momentNow body)] := by
  have hout := (ingress_outcome 17 p s.momentNow body s).2
  rw [if_pos h] at hout
  exact hout.1

/-- ITEM_PORT_PCIE_WRITE enters its item at once while FIFO 17 does not hold. -/
theorem itemPortPcieWrite_enters {p : Fin 8} {body : Item} (hmain : s.pwr.mainOn = true) (hrun : s.frozenTgt 2 = false)
    (hlink : s.hst.link = true) (hd0 : s.hst.d3hot = false) (hhold : (s.fifo 17).hold = false) (hfence : s.fencedAg 0x081 = false) :
    exec (.itemPortPcieWrite p body) s = .next ((s.itemIn p.val body).respond .host .ok) := by
  have hc : exec (.itemPortPcieWrite p body) s = execItemPortPcieWrite p body s := rfl
  have hfence' : s.fencedInit .host = false := hfence
  rw [hc, execItemPortPcieWrite, hmain, hrun, hlink, hd0, hhold, hfence']
  rfl

/-! ### The words of an open item -/

/-- The initiator of a management port. -/
abbrev managementPort (viaI2c : Bool) : Init := if viaI2c then .i2c else .spi

theorem managementPort_or (viaI2c : Bool) : managementPort viaI2c = .spi ∨ managementPort viaI2c = .i2c := by
  cases viaI2c
  · exact .inl rfl
  · exact .inr rfl

theorem State.setItem_frame (i : Init) (b : Option ItemBuf) (s : State) : s.setItem i b = { s with hst := (s.setItem i b).hst } := by
  unfold State.setItem
  split <;> rfl

theorem State.itembad_setItem (i : Init) (b : Option ItemBuf) (s : State) : (s.setItem i b).hst.itembad = s.hst.itembad := by
  unfold State.setItem
  split <;> rfl

theorem State.qm_setItem (i : Init) (b : Option ItemBuf) (s : State) : (s.setItem i b).qm = s.qm := by rw [State.setItem_frame]

theorem State.itemOpen_setItem (hi : i = .spi ∨ i = .i2c) (b : Option ItemBuf) (s : State) : (s.setItem i b).itemOpen i = b := by
  rcases hi with rfl | rfl <;> rfl

theorem State.itemOpen_itemBad (hi : i = .spi ∨ i = .i2c) (s : State) : (s.itemBad i).itemOpen i = none := by
  rcases hi with rfl | rfl <;> rfl

theorem State.itemOpen_of_hst {t : State} (h : t.hst = s.hst) (i : Init) : t.itemOpen i = s.itemOpen i := by
  rw [State.itemOpen, h, State.itemOpen]

theorem State.itemOpen_portStatus (i j : Init) (st : Status) (s : State) : (s.portStatus i st).itemOpen j = s.itemOpen j := by
  unfold State.portStatus
  split <;> rfl

theorem State.itembad_portStatus (i : Init) (st : Status) (s : State) : (s.portStatus i st).hst.itembad = s.hst.itembad := by
  unfold State.portStatus
  split <;> rfl

section
variable {d : ℕ} (hi : i = .spi ∨ i = .i2c)
include hi

theorem State.itemWord_opens (hnone : s.itemOpen i = none) (hk : d % 64 / 4 = 0) :
    s.itemWord i d v = (.ok, s.setItem i (some ⟨d / 64, [v]⟩)) := by
  simp [State.itemWord, hi, hnone, hk]

/-- A word that neither opens an item nor is the next of the open one closes it. -/
theorem State.itemWord_closes (hother : ∀ b, s.itemOpen i = some b → b.prio ≠ d / 64 ∨ b.words.length ≠ d % 64 / 4)
    (hlater : s.itemOpen i = none → d % 64 / 4 ≠ 0) : s.itemWord i d v = (.ok, s.itemBad i) := by
  cases hopen : s.itemOpen i with
  | none => simp only [State.itemWord, hi, hopen, hlater hopen, not_true_eq_false, if_false]
  | some b => simp only [State.itemWord, hi, hopen, hother b hopen, not_true_eq_false, if_false, if_true]

variable {ws : List W32} (hopen : s.itemOpen i = some ⟨d / 64, ws⟩) (hnext : ws.length = d % 64 / 4)
include hopen hnext

theorem State.itemWord_joins (hk : d % 64 / 4 < 15) : s.itemWord i d v = (.ok, s.setItem i (some ⟨d / 64, ws ++ [v]⟩)) := by
  simp [State.itemWord, hi, hopen, hnext, hk]

theorem State.itemWord_held (hk : d % 64 / 4 = 15) (hhold : (s.fifo 17).hold = true) :
    s.itemWord i d v = (.retry, s.setItem i none) := by
  simp [State.itemWord, hi, hopen, hnext, hk, hhold]

theorem State.itemWord_enters (hk : d % 64 / 4 = 15) (hhold : (s.fifo 17).hold = false) :
    s.itemWord i d v =
      (.ok, (s.setItem i none).itemIn (d / 64) (BitVec.ofNat 512 (natOfBytes ((ws ++ [v]).flatMap (bytesOf 4))))) := by
  simp only [State.itemWord, hi, hopen, hnext, hk, hhold, ne_eq, not_true_eq_false, or_self, Nat.lt_irrefl, Bool.false_eq_true, if_false]

end

theorem State.atEdge_withHst (h : Hst) (s : State) : State.atEdge { s with hst := h } = { s.atEdge with hst := h } := by
  unfold State.atEdge
  dsimp only
  cases s.tb.selNext <;> rfl

/-- What TB writes does not depend on the host's unit. -/
theorem State.momentNow_withHst (h : Hst) (s : State) : State.momentNow { s with hst := h } = s.momentNow := by
  have hdomain (u : State) : State.dom { u with hst := h } (State.sel { u with hst := h }) = u.dom u.sel := rfl
  have hoffset (u : State) : State.offsetNs { u with hst := h } = u.offsetNs := rfl
  have hflags (u : State) : State.timeFlags { u with hst := h } = u.timeFlags := rfl
  unfold State.momentNow
  simp only [State.atEdge_withHst, hdomain, hoffset, hflags]

/-- The item of a management port's words is stamped as any other. -/
theorem State.stamped_setItem (i : Init) (b : Option ItemBuf) (body : Item) (s : State) :
    (s.setItem i b).stamped 52 (s.setItem i b).momentNow body = s.stamped 52 s.momentNow body := by
  rw [State.setItem_frame, State.momentNow_withHst]
  rfl

theorem State.fifo_setItem (i : Init) (b : Option ItemBuf) (n : ℕ) (s : State) : (s.setItem i b).fifo n = s.fifo n := by
  rw [State.setItem_frame]
  rfl

/-! ### The command -/

/-- A row covers no place past its registers. -/
theorem RegRow.covers_past {r : RegRow} {o : ℕ} (hstride : 0 < r.stride) (h : r.off + r.n * r.stride ≤ o) : r.covers o = false := by
  have hpast : ¬ (o - r.off) / r.stride < r.n := Nat.not_lt.mpr ((Nat.le_div_iff_mul_le hstride).mpr (by omega))
  simp [RegRow.covers, hpast]

/-- The item port's 128 words are the last row of the HST window. -/
theorem regRow_itemPort {d : ℕ} (hd : d < 512) (ha : d % 4 = 0) : regRow (0x1E1000 + d) = some (.many 0x1000 128 4 .wo 0 allBits) := by
  have hunit : (0x1E1000 + d) / 0x10000 = 0x1E := by omega
  have hplace : (0x1E1000 + d) % 0x10000 = 0x1000 + d := by omega
  have hrows : rowsHst = rowsHst.dropLast ++ [.many 0x1000 128 4 .wo 0 allBits] := rfl
  have hbefore : ∀ r ∈ rowsHst.dropLast, 0 < r.stride ∧ r.off + r.n * r.stride ≤ 0x1000 := by decide
  have hnone : rowsHst.dropLast.find? (·.covers (0x1000 + d)) = none :=
    List.find?_eq_none.mpr fun r hr =>
      ne_true_of_eq_false (RegRow.covers_past (hbefore r hr).1 ((hbefore r hr).2.trans (Nat.le_add_right _ d)))
  have hlast : (RegRow.many 0x1000 128 4 .wo 0 allBits).covers (0x1000 + d) = true := by
    simp [RegRow.covers, RegRow.many]
    omega
  rw [regRow, hunit, hplace, unitRows, hrows, List.find?_append, hnone, Option.none_or]
  exact List.find?_cons_of_pos (p := fun r : RegRow => r.covers (0x1000 + d)) hlast

theorem State.regWrite_itemPort {off : BitVec 9} (h : Reaches i 0x1E1000 s) (ha : off.toNat % 4 = 0) :
    s.regWrite i (0x1E1000 + off.toNat) v = s.itemWord i off.toNat v := by
  have hlt := off.isLt
  have hunit : (0x1E1000 + off.toNat) / 0x10000 = 0x1E := by omega
  have hreach : Reaches i (0x1E1000 + off.toNat) s := by
    rw [Reaches, hunit]
    exact h
  rw [State.regWrite_window hreach (by omega) (regRow_itemPort hlt ha) (by decide) (by decide) (by omega) (by omega), hunit]
  simp [windowWrite, writeHst]

/-- ITEM_PORT_WORD_WRITE answers what the port makes of the word, and keeps it as the port's status. -/
theorem itemPortWordWrite_runs {viaI2c : Bool} {off : BitVec 9} {st : Status} {u : State} (h : Reaches (managementPort viaI2c) 0x1E1000 s)
    (hen : viaI2c = true → (s.reg 0x1E0080).getLsbD 31 = true) (ha : off.toNat % 4 = 0)
    (hw : s.itemWord (managementPort viaI2c) off.toNat v = (st, u)) :
    exec (.itemPortWordWrite viaI2c off v) s = .next (u.portStatus (managementPort viaI2c) st) := by
  have hc : exec (.itemPortWordWrite viaI2c off v) s = execItemPortWordWrite viaI2c off v s := rfl
  have hreg := State.regWrite_itemPort (v := v) h ha
  rw [hw] at hreg
  obtain ⟨hmain, hrun, -, -⟩ := h
  have hon : (viaI2c && !s.i2cOn) = false := by
    cases viaI2c with
    | false => rfl
    | true => simp [State.i2cOn, bit, hmain, hrun, hen rfl]
  simp only [hc, execItemPortWordWrite, hmain, hrun, hon, Bool.not_true, Bool.or_false, Bool.false_eq_true, if_false, hreg]

/-- What holds of the port's own operation holds of the command's next state, where the port's status does not touch it. -/
theorem responds_of_itemWord {viaI2c : Bool} {off : BitVec 9} {st : Status} {u : State} {P : State → Prop}
    (h : Reaches (managementPort viaI2c) 0x1E1000 s) (hen : viaI2c = true → (s.reg 0x1E0080).getLsbD 31 = true) (ha : off.toNat % 4 = 0)
    (hw : s.itemWord (managementPort viaI2c) off.toNat v = (st, u)) (hP : P (u.portStatus (managementPort viaI2c) st)) :
    Responds (.itemPortWordWrite viaI2c off v) (managementPort viaI2c) st s P :=
  ⟨_, itemPortWordWrite_runs h hen ha hw, State.resp_respond _ _ _, hP⟩

end Sys2Proof.Machine
end

section
/-! ## What lapses with an agent's epoch (R51, R116, R121, R396) -/

namespace Sys2Proof.Machine
open Sys2Proof

variable {s t u : State}

/-- From `s` to `t` only memory, the ordering unit and the recorder have changed. -/
def LapsesOnly (s t : State) : Prop := t = { s with mem := t.mem, ord := t.ord, evr := t.evr }

theorem LapsesOnly.refl (s : State) : LapsesOnly s s := rfl

theorem LapsesOnly.trans (h : LapsesOnly s t) (g : LapsesOnly t u) : LapsesOnly s u := by
  unfold LapsesOnly at *
  rw [g, h]

theorem LapsesOnly.units {mem : Mem} {ord : Ord} {evr : Evr} (h : LapsesOnly s t) : LapsesOnly s { t with mem := mem, ord := ord, evr := evr } :=
  h.trans rfl

theorem LapsesOnly.ite {c : Prop} [Decidable c] (h : LapsesOnly s t) (g : LapsesOnly s u) : LapsesOnly s (if c then t else u) := by
  split
  · exact h
  · exact g

theorem LapsesOnly.foldl {β : Type} {f : State → β → State} (hf : ∀ u b, LapsesOnly u (f u b)) (l : List β) (h : LapsesOnly s t) :
    LapsesOnly s (l.foldl f t) := by
  induction l generalizing t with
  | nil => exact h
  | cons b l ih => exact ih (h.trans (hf t b))

theorem LapsesOnly.evrOnly (h : LapsesOnly s t) (g : EvrOnly t u) : LapsesOnly s u := by
  rw [g]
  exact h.units

theorem State.dropPend_lapsesOnly (a : ℕ) (s : State) : LapsesOnly s (s.dropPend a) := by
  unfold State.dropPend
  refine LapsesOnly.foldl (fun u p => ?_) _ (LapsesOnly.refl s).units
  split
  · exact LapsesOnly.ite (LapsesOnly.refl u).units (LapsesOnly.refl u)
  · exact LapsesOnly.refl u

theorem State.seqExpire_lapsesOnly (n cause : ℕ) (s : State) : LapsesOnly s (s.seqExpire n cause) := by
  unfold State.seqExpire
  dsimp only
  split
  · exact LapsesOnly.refl s
  · split
    · exact LapsesOnly.refl s
    · exact (LapsesOnly.refl s).units.evrOnly (State.event_frame _ _ _)

theorem State.raiseEpoch_lapsesOnly (a : ℕ) (s : State) : LapsesOnly s (s.raiseEpoch a) := by
  have marks : LapsesOnly s ((s.bumpEpoch a).dropPend a) := (LapsesOnly.refl s).units.trans (State.dropPend_lapsesOnly a _)
  have seqs := LapsesOnly.foldl (f := fun (s : State) (p : ℕ × Seqn) => s.seqExpire p.1 2) (fun u p => u.seqExpire_lapsesOnly p.1 2)
    (((s.bumpEpoch a).dropPend a).ord.seqs.filter (fun p => decide (p.2.owner.isSome ∧ p.2.ownerAgent = a))) marks
  unfold State.raiseEpoch
  dsimp only
  split
  · exact LapsesOnly.ite (seqs.evrOnly (State.freezeEnd_evrOnly _ 2)) seqs
  · exact seqs

theorem State.hst_raiseEpoch (a : ℕ) (s : State) : (s.raiseEpoch a).hst = s.hst := by rw [s.raiseEpoch_lapsesOnly a]

theorem State.regs_raiseEpoch (a : ℕ) (s : State) : (s.raiseEpoch a).regs = s.regs := by rw [s.raiseEpoch_lapsesOnly a]

theorem State.qm_raiseEpoch (a : ℕ) (s : State) : (s.raiseEpoch a).qm = s.qm := by rw [s.raiseEpoch_lapsesOnly a]

end Sys2Proof.Machine
end

section
/-! ## The PCIe link and function, the error log (R404, R405, R407) -/

namespace Sys2Proof.Machine
open Sys2Proof

variable {s : State} {i : Init} {v : W32}

theorem itemPortTimeout_runs {b : ItemBuf} (hmain : s.pwr.mainOn = true) (hopen : s.hst.itemSpi = some b) :
    exec .itemPortTimeout s = .next ((s.itemBad .spi).raiseEpoch agSpi) := by
  have hc : exec .itemPortTimeout s = execItemPortTimeout s := rfl
  rw [hc, execItemPortTimeout, hopen]
  exact if_pos hmain

theorem pcieLinkDown_runs (hmain : s.pwr.mainOn = true) (hlink : s.hst.link = true) :
    exec .pcieLinkDown s = .next (State.raiseEpoch agHost { s with hst := { s.hst with link := false } }) := by
  have hc : exec .pcieLinkDown s = execPcieLinkDown s := rfl
  rw [hc, execPcieLinkDown, if_pos hmain, State.pcieDown, if_pos hlink]

theorem pcieLinkDown_idle (hlink : s.hst.link = false) : exec .pcieLinkDown s = .next s := by
  have hc : exec .pcieLinkDown s = execPcieLinkDown s := rfl
  rw [hc, execPcieLinkDown, State.pcieDown, hlink, if_neg Bool.false_ne_true, ite_self]

theorem pcieLinkUp_runs (hmain : s.pwr.mainOn = true) (hstate : s.pwr.state < 3) :
    exec .pcieLinkUp s = .next { s with hst := { s.hst with link := true, d3hot := false } } :=
  if_pos (by simp [hmain, hstate])

theorem functionLevelReset_runs (hmain : s.pwr.mainOn = true) : exec .functionLevelReset s = .next (s.raiseEpoch agHost) := if_pos hmain

theorem pciePowerStateChange_runs (d : Bool) (hmain : s.pwr.mainOn = true) (hlink : s.hst.link = true) :
    exec (.pciePowerStateChange d) s = .next { s with hst := { s.hst with d3hot := d } } :=
  if_pos (by simp [hmain, hlink])

theorem outboundTimeout_runs (i : Init) (a : BitVec 34) (hmain : s.pwr.mainOn = true) :
    exec (.outboundTimeout i a) s = .next ((s.event 0x1E01 ((a.extractLsb' 6 28).setWidth 32)).respond i .poweredDown) :=
  if_pos hmain

/-- A pop removes the head of the host's error log and clears OVF; without POP a write does nothing. -/
theorem State.regWrite_hstErrpop (h : Reaches i 0x1E007C s) :
    s.regWrite i 0x1E007C v =
      (.ok, if v.getLsbD 0 = true then { s with hst := { s.hst with errlog := s.hst.errlog.drop 1, errOvf := false } } else s) := by
  have hpop : vf v.toNat 0 1 = 1 ↔ v.getLsbD 0 = true := by rw [vf_bit, Bool.toNat_eq_one]
  rw [State.regWrite_window (r := .one 0x7C .wo 0 1#32) h (by decide) (by decide) (by decide) (by decide) (by decide) (by decide)]
  simp [windowWrite, writeHst, hpop]

end Sys2Proof.Machine
end

section
open Sys2Proof Sys2Proof.Machine

/-- Settles O49: a word of the item port is one case of `itemWord`, an epoch raised touches neither the host's unit nor the queues, and a
pop of the error log is a write of its register. -/
theorem hostPort : Obligations.HostPort := by
  unfold Obligations.HostPort
  refine ⟨⟨?pcie, ?words, ?timeout⟩, ?function, ?errors⟩
  case pcie =>
    intro p body s hmain hrun hlink hd0 hhold hfence hroom m x
    exact ⟨_, itemPortPcieWrite_enters hmain hrun hlink hd0 hhold hfence, State.resp_respond _ _ _, State.itemIn_room hroom,
      extractLsb'_stampItem_request .., extractLsb'_stampItem _ _ _ _ _ _ _ (le_refl 288)⟩
  case words =>
    intro viaI2c off v s i c p k h hen ha
    have hi := managementPort_or viaI2c
    refine ⟨fun hnone hk => ?opens, fun ws hopen hnext => ⟨fun hk => ?joins, fun hk hhold => ?held, fun hk hhold hroom => ?enters⟩,
      fun hother hlater => ?closes⟩
    case opens =>
      refine responds_of_itemWord h hen ha (State.itemWord_opens hi hnone hk) ⟨?_, ?_, ?_⟩
      · rw [State.itemOpen_portStatus, State.itemOpen_setItem hi]
      · rw [State.itembad_portStatus, State.itembad_setItem]
      · exact s.qm_setItem _ _
    case joins =>
      refine responds_of_itemWord h hen ha (State.itemWord_joins hi hopen hnext hk) ⟨?_, ?_, ?_⟩
      · rw [State.itemOpen_portStatus, State.itemOpen_setItem hi]
      · rw [State.itembad_portStatus, State.itembad_setItem]
      · exact s.qm_setItem _ _
    case held =>
      refine responds_of_itemWord h hen ha (State.itemWord_held hi hopen hnext hk hhold) ⟨?_, ?_⟩
      · rw [State.itemOpen_portStatus, State.itemOpen_setItem hi]
      · exact s.qm_setItem _ _
    case enters =>
      refine responds_of_itemWord h hen ha (State.itemWord_enters hi hopen hnext hk hhold) ⟨?_, ?_⟩
      · rw [State.itemOpen_portStatus, State.itemOpen_of_hst (State.itemIn_hst _ _ _), State.itemOpen_setItem hi]
      · have hentered := State.itemIn_room (p := p) (body := BitVec.ofNat 512 (natOfBytes ((ws ++ [v]).flatMap (bytesOf 4))))
          (s := s.setItem i none) (by rwa [State.fifo_setItem])
        rw [State.fifo_setItem, State.stamped_setItem] at hentered
        exact hentered
    case closes =>
      refine responds_of_itemWord h hen ha (State.itemWord_closes hi hother hlater) ⟨?_, rfl, ?_⟩
      · rw [State.itemOpen_portStatus, State.itemOpen_itemBad hi]
      · exact State.itembad_portStatus _ _ _
  case timeout =>
    intro b s hmain hopen
    refine ⟨_, itemPortTimeout_runs hmain hopen, ?_, ?_, State.epochOf_raiseEpoch_same _ _, State.qm_raiseEpoch _ _⟩
    · exact congrArg Hst.itemSpi (State.hst_raiseEpoch _ _)
    · exact congrArg Hst.itembad (State.hst_raiseEpoch _ _)
  case function =>
    intro s hmain
    refine ⟨fun hlink => ⟨_, pcieLinkDown_runs hmain hlink, congrArg Hst.link (State.hst_raiseEpoch _ _), State.epochOf_raiseEpoch_same _ _,
        fun a ha => State.epochOf_raiseEpoch_other ha _⟩,
      pcieLinkDown_idle, fun hstate => ⟨_, pcieLinkUp_runs hmain hstate, rfl⟩,
      ⟨_, functionLevelReset_runs hmain, State.epochOf_raiseEpoch_same _ _, State.regs_raiseEpoch _ _, State.hst_raiseEpoch _ _,
        fun a ha => State.epochOf_raiseEpoch_other ha _⟩,
      fun d hlink => ⟨_, pciePowerStateChange_runs d hmain hlink, rfl⟩,
      fun i a => ⟨_, outboundTimeout_runs i a hmain, State.resp_respond _ _ _, rfl⟩⟩
  case errors =>
    intro i v s h
    refine ⟨fun hpop => ?_, fun hkeep => ?_⟩
    · refine responds_ok_of_regWrite rfl h (State.regWrite_hstErrpop h) fun _ => ?_
      rw [if_pos hpop]
    · refine responds_ok_of_regWrite rfl h (State.regWrite_hstErrpop h) fun _ => ?_
      rw [if_neg (by rw [hkeep]; decide)]
end

section
/-! ## An odd pulse input in mode 4 (R141, R144) -/

namespace Sys2Proof.Machine
open Sys2Proof

/-- Line 5 stands in mode 4, which Table 5.6 gives to even inputs alone, beside a line 4 that is off; its rising edge has lasted
GLITCH. No write of AFE_PICFG leads here, as it is DENIED. -/
def oddQuadrature : State := { State.reset with
  tb := { State.reset.tb with elapsed := 125 }
  afe := { State.reset.afe with pulses := [(5, { cfg := 0xC080007D#32, pendE := some ⟨0, true, 0, {}⟩ })] } }

/-- The edge counts up by the level of line 6, as an even line's would by its partner's. -/
theorem oddQuadrature_counts : ∃ t, exec (.pulseEdge 5 true) oddQuadrature = .next t ∧ (t.pulse 5).count = 1#32 :=
  ⟨_, rfl, by decide +kernel⟩

end Sys2Proof.Machine
end

section
/-! ## Obligation O27 (R141 to R144) -/

open Sys2Proof Sys2Proof.Machine

/-- Refutes O27: beside an even line that is not in mode 4, the first clause lets an odd line be in mode 4. Its accepted edges count
by `quadDir`, where the clause counts edges in modes 1 to 3 only. -/
theorem not_pulseInputs : ¬ Obligations.PulseInputs := by
  unfold Obligations.PulseInputs
  rintro ⟨hplain, -, -⟩
  obtain ⟨-, -, hlasts⟩ := hplain 5 true oddQuadrature (by decide) (by decide) (by decide) (by decide)
  obtain ⟨t, hstep, -, -, -, hcount, -⟩ := hlasts ⟨0, true, 0, {}⟩ (by decide) (by decide)
  obtain ⟨u, hstep', hcounted⟩ := oddQuadrature_counts
  obtain rfl : t = u := Host.Outcome.next.inj (hstep.symm.trans hstep')
  have hkept : (t.pulse 5).count = 0#32 := hcount.trans (by decide)
  exact absurd (hkept.symm.trans hcounted) (by decide)
end

section
/-! ## The tables of the custody front end, and what leaves them alone -/

namespace Sys2Proof.Machine
open Sys2Proof

variable {s t u : State}

@[simp] theorem State.chan_setChan_same (s : State) (c : ℕ) (x : Chan) : (s.setChan c x).chan c = x := Tab.get_set_same ..

theorem State.chan_setChan_other (s : State) {c d : ℕ} (x : Chan) (h : d ≠ c) : (s.setChan c x).chan d = s.chan d :=
  Tab.get_set_other _ _ _ h

@[simp] theorem State.pt_setPt_same (s : State) (p : ℕ) (x : Point) : (s.setPt p x).pt p = x := Tab.get_set_same ..

@[simp] theorem State.chan_setPt (s : State) (p : ℕ) (x : Point) (c : ℕ) : (s.setPt p x).chan c = s.chan c := rfl

@[simp] theorem State.pt_setChan (s : State) (c : ℕ) (x : Chan) (p : ℕ) : (s.setChan c x).pt p = s.pt p := rfl

@[simp] theorem State.pulse_setPulse_same (s : State) (i : ℕ) (x : Pulse) : (s.setPulse i x).pulse i = x := Tab.get_set_same ..

/-- A point changed by `f`. -/
def State.adjPt (p : ℕ) (f : Point → Point) (s : State) : State := s.setPt p (f (s.pt p))

@[simp] theorem State.pt_adjPt (p : ℕ) (f : Point → Point) (s : State) : (s.adjPt p f).pt p = f (s.pt p) := State.pt_setPt_same ..

theorem State.pt_of_afe (h : t.afe = s.afe) (p : ℕ) : t.pt p = s.pt p := by unfold State.pt; rw [h]
theorem State.chan_of_afe (h : t.afe = s.afe) (c : ℕ) : t.chan c = s.chan c := by unfold State.chan; rw [h]

/-! ### States that differ in the recorder alone -/

theorem EvrOnly.chan (h : EvrOnly s t) (c : ℕ) : t.chan c = s.chan c := by rw [h]; rfl
theorem EvrOnly.pt (h : EvrOnly s t) (p : ℕ) : t.pt p = s.pt p := by rw [h]; rfl
theorem EvrOnly.afe (h : EvrOnly s t) : t.afe = s.afe := by rw [h]

theorem State.event_evrOnly (c : ℕ) (v : W32) (s : State) : EvrOnly s (s.event c v) := s.event_frame c v

theorem State.faultEdge_evrOnly (ch idx : ℕ) (was now : Bool) (s : State) : EvrOnly s (s.faultEdge ch idx was now) := by
  unfold State.faultEdge
  split
  · exact EvrOnly.refl s
  · exact State.event_evrOnly _ _ s

theorem State.bridgeEvent_evrOnly (s : State) : EvrOnly (s.draw 8).2 s.bridgeEvent := State.event_evrOnly _ _ _

/-! ### Work on the channels of a point -/

/-- From `s` to `t` the front end and the recorder alone have changed. -/
def AfeOnly (s t : State) : Prop := t = { s with evr := t.evr, afe := t.afe }

theorem AfeOnly.refl (s : State) : AfeOnly s s := rfl

theorem AfeOnly.trans (h : AfeOnly s t) (g : AfeOnly t u) : AfeOnly s u := by
  unfold AfeOnly at *
  rw [g, h]

theorem AfeOnly.front (s : State) (a : Afe) : AfeOnly s { s with afe := a } := rfl

theorem AfeOnly.evrOnly (h : AfeOnly s t) (g : EvrOnly t u) : AfeOnly s u := by
  unfold AfeOnly EvrOnly at *
  rw [g, h]

/-- Work on channel `ch` of a point: `R` says what became of the channel; the other channels stay, and of the point all but CGEN. -/
structure ChanStep (R : Chan → Chan → Prop) (ch p : ℕ) (s t : State) : Prop where
  frame : AfeOnly s t
  point : t.pt p = { s.pt p with cgen := (t.pt p).cgen }
  here : R (s.chan ch) (t.chan ch)
  others : ∀ d, d ≠ ch → t.chan d = s.chan d

/-- The same work on each of the three channels of point `p`. -/
structure PointStep (R : Chan → Chan → Prop) (p : ℕ) (s t : State) : Prop where
  frame : AfeOnly s t
  point : t.pt p = { s.pt p with cgen := (t.pt p).cgen }
  chans : ∀ k, k < 3 → R (s.chan (3 * p + k)) (t.chan (3 * p + k))

variable {R : Chan → Chan → Prop} {ch p : ℕ}

theorem ChanStep.evrOnly (h : ChanStep R ch p s t) (g : EvrOnly t u) : ChanStep R ch p s u where
  frame := h.frame.evrOnly g
  point := by rw [g.pt, ← h.point]
  here := by rw [g.chan]; exact h.here
  others d hd := by rw [g.chan]; exact h.others d hd

theorem ChanStep.mono {Q : Chan → Chan → Prop} (h : ChanStep R ch p s t) (hRQ : ∀ c d, R c d → Q c d) : ChanStep Q ch p s t :=
  ⟨h.frame, h.point, hRQ _ _ h.here, h.others⟩

theorem ChanStep.trans {Q : Chan → Chan → Prop} (h : ChanStep Q ch p s t) (g : ChanStep R ch p t u) :
    ChanStep (Relation.Comp Q R) ch p s u where
  frame := h.frame.trans g.frame
  point := by rw [g.point, h.point]
  here := ⟨_, h.here, g.here⟩
  others d hd := (g.others d hd).trans (h.others d hd)

theorem State.chanStep_setChan (s : State) (ch p : ℕ) {x : Chan} (h : R (s.chan ch) x) : ChanStep R ch p s (s.setChan ch x) where
  frame := AfeOnly.front s _
  point := rfl
  here := by rwa [State.chan_setChan_same]
  others _ hd := State.chan_setChan_other s x hd

/-- Work done on one channel after the other is done on all three. -/
theorem PointStep.of_foldl {f : State → ℕ → State} (hf : ∀ u k, k < 3 → ChanStep R (3 * p + k) p u (f u k)) (s : State) :
    PointStep R p s ((List.range 3).foldl f s) := by
  have h0 := hf s 0 (by decide)
  have h1 := hf (f s 0) 1 (by decide)
  have h2 := hf (f (f s 0) 1) 2 (by decide)
  have hfold : (List.range 3).foldl f s = f (f (f s 0) 1) 2 := rfl
  rw [hfold]
  refine ⟨(h0.frame.trans h1.frame).trans h2.frame, ?_, fun k hk => ?_⟩
  · rw [h2.point, h1.point, h0.point]
  · obtain rfl | rfl | rfl : k = 0 ∨ k = 1 ∨ k = 2 := by omega
    · rw [h2.others _ (by omega), h1.others _ (by omega)]
      exact h0.here
    · rw [h2.others _ (by omega)]
      have hhere := h1.here
      rwa [h0.others _ (by omega)] at hhere
    · have hhere := h2.here
      rwa [h1.others _ (by omega), h0.others _ (by omega)] at hhere

theorem PointStep.mono {Q : Chan → Chan → Prop} (h : PointStep R p s t) (hRQ : ∀ c d, R c d → Q c d) : PointStep Q p s t :=
  ⟨h.frame, h.point, fun k hk => hRQ _ _ (h.chans k hk)⟩

/-- Each channel of a point becomes what `g` makes of it. -/
theorem State.pointStep_map (g : Chan → Chan) (p : ℕ) (s : State) :
    PointStep (fun c d => d = g c) p s ((List.range 3).foldl (fun s k => s.setChan (3 * p + k) (g (s.chan (3 * p + k)))) s) :=
  PointStep.of_foldl (fun u k _ => State.chanStep_setChan (R := fun c d => d = g c) u (3 * p + k) p rfl) s

/-! ### Samples marked bad and calibrations ended (R13, R146, R148 to R150) -/

theorem State.calOpen_iff (s : State) (p : ℕ) : s.calOpen p = true ↔ ∃ c, (s.pt p).cal = some c ∧ c.started = true ∧ c.blocks < 10 := by
  unfold State.calOpen
  cases (s.pt p).cal with
  | none => simp
  | some c => simp

theorem State.markBad_open (h : s.calOpen p = true) : PointStep (fun c d => d = { c with calBad := true }) p s (s.markBad p) := by
  unfold State.markBad
  rw [if_pos h]
  exact s.pointStep_map (fun c => { c with calBad := true }) p

/-- The mark touches a channel's `calBad` alone. -/
theorem State.markBad_pointStep (p : ℕ) (s : State) : PointStep (fun c d => d = { c with calBad := d.calBad }) p s (s.markBad p) := by
  by_cases h : s.calOpen p = true
  · refine (State.markBad_open h).mono fun c d hcd => ?_
    rw [hcd]
  · unfold State.markBad
    rw [if_neg h]
    exact ⟨AfeOnly.refl s, rfl, fun _ _ => rfl⟩

/-- The front end once a calibration of the point was ended. -/
def State.calEnded (p reason chn : ℕ) (s : State) : State :=
  let s := s.setPt p { s.pt p with cal := none }
  { s with afe := { s.afe with calStatus := .calRejected, calReason := reason, calChan := chn } }

theorem State.calReject_ends {reason : ℕ} {c : Calib} (h : (s.pt p).cal = some c) :
    EvrOnly (s.calEnded p reason c.chan) (s.calReject p reason) := by
  unfold State.calReject
  rw [h]
  exact State.event_evrOnly _ _ _

@[simp] theorem State.chan_calEnded (p reason chn d : ℕ) (s : State) : (s.calEnded p reason chn).chan d = s.chan d := rfl

@[simp] theorem State.pt_calEnded (p reason chn : ℕ) (s : State) : (s.calEnded p reason chn).pt p = { s.pt p with cal := none } :=
  State.pt_setPt_same ..

end Sys2Proof.Machine
end

section
/-! ## Sample instants and dropped transfers (R13, R130, R131) -/

namespace Sys2Proof.Machine
open Sys2Proof

variable {s u : State} {p c : ℕ}

/-! ### The centre a sample belongs to -/

theorem State.sampleState_lost (h : s.tb.clkLost = true) (p : ℕ) : s.sampleState p = none := by
  have hc : s.centre = none := by
    unfold State.centre
    rw [h, Bool.true_or, if_pos rfl]
  unfold State.sampleState
  rw [hc]

theorem State.sampleState_centre (h : s.centre = some c) (hus : 125 ≤ s.usNow % 1000000) (hdue : s.boundaryDue p = false) :
    s.sampleState p = some (c, s) := by
  simp only [State.sampleState, h, hdue, Nat.not_lt.mpr hus, Bool.false_eq_true, if_false]

theorem State.sampleState_boundary (h : s.centre = some c) (hus : 125 ≤ s.usNow % 1000000) (hdue : s.boundaryDue p = true) :
    s.sampleState p = some (c, s.boundary p) := by
  simp only [State.sampleState, h, hdue, Nat.not_lt.mpr hus, if_false, if_true]

theorem State.centre_bounds (h : s.centre = some c) : c % 250 = 125 ∧ c ≤ s.usNow ∧ s.usNow < c + 250 := by
  unfold State.centre at h
  split at h
  · cases h
  · next hopen =>
    have hus : 125 ≤ s.usNow := by
      rw [Bool.or_eq_true, decide_eq_true_iff, not_or] at hopen
      omega
    cases h
    omega

/-! ### The instant a transfer opens -/

/-- The point with a new instant at centre `c`, the first stamp as `m` says. -/
def Point.opened (q : Point) (c : ℕ) (m : TimeRec) : Point :=
  { q with n := q.n + 1, first := if q.n = 0 then m else q.first, dp := 0x80000000#32 :: q.dp, got := 0#3, ctr := some c }

@[simp] theorem State.pt_openInstant (p c : ℕ) (s : State) : (s.openInstant p c).pt p = (s.pt p).opened c (s.centreMoment c) :=
  State.pt_setPt_same ..

/-- The point with an instant at centre `c` that is invalid on all three channels. -/
def Point.spoiled (q : Point) (c : ℕ) (m : TimeRec) : Point := { q.opened c m with inval := q.inval + 1, got := 7#3 }

/-- The instant opened at `c` made invalid, the samples of the point marked bad. -/
def State.instantSpoiled (p c : ℕ) (s : State) : State :=
  ((s.openInstant p c).setPt p ((s.pt p).spoiled c (s.centreMoment c))).markBad p

theorem State.pt_instantSpoiled (p c : ℕ) (s : State) :
    ∃ g, (s.instantSpoiled p c).pt p = { (s.pt p).spoiled c (s.centreMoment c) with cgen := g } := by
  have hmark := (State.markBad_pointStep p ((s.openInstant p c).setPt p ((s.pt p).spoiled c (s.centreMoment c)))).point
  rw [State.pt_setPt_same] at hmark
  exact ⟨_, hmark⟩

theorem State.calBad_instantSpoiled {k : Calib} (hcal : (s.pt p).cal = some k) (hstart : k.started = true) (hopen : k.blocks < 10) {j : ℕ}
    (hj : j < 3) : ((s.instantSpoiled p c).chan (3 * p + j)).calBad = true := by
  have hcalOpen : State.calOpen ((s.openInstant p c).setPt p ((s.pt p).spoiled c (s.centreMoment c))) p = true := by
    refine (State.calOpen_iff _ _).mpr ⟨k, ?_, hstart, hopen⟩
    rw [State.pt_setPt_same]
    exact hcal
  exact congrArg Chan.calBad ((State.markBad_open hcalOpen).chans j hj)

/-- A calibration past its half ends with the dropped transfer (R149). -/
def State.instantDropped (p c : ℕ) (s : State) : State :=
  match (s.pt p).cal with
  | some k => if k.started && decide (5 ≤ k.blocks) && decide (k.blocks < 10) then (s.instantSpoiled p c).calReject p 9 else s.instantSpoiled p c
  | none => s.instantSpoiled p c

theorem State.instantDropped_keeps (p c : ℕ) (s : State) :
    (∃ g k, (s.instantDropped p c).pt p = { (s.pt p).spoiled c (s.centreMoment c) with cgen := g, cal := k }) ∧
    ∀ d, (s.instantDropped p c).chan d = (s.instantSpoiled p c).chan d := by
  obtain ⟨g, hpt⟩ := s.pt_instantSpoiled p c
  unfold State.instantDropped
  cases hcal : (s.pt p).cal with
  | none => exact ⟨⟨g, _, hpt⟩, fun _ => rfl⟩
  | some k =>
    dsimp only
    split
    · have hcal' : ((s.instantSpoiled p c).pt p).cal = some k := by rw [hpt]; exact hcal
      have hends := State.calReject_ends (reason := 9) hcal'
      refine ⟨⟨g, none, ?_⟩, fun d => by rw [hends.chan, State.chan_calEnded]⟩
      rw [hends.pt, State.pt_calEnded, hpt]
    · exact ⟨⟨g, _, hpt⟩, fun _ => rfl⟩

theorem State.instantDropped_late {k : Calib} (hcal : (s.pt p).cal = some k) (hstart : k.started = true) (hlate : 5 ≤ k.blocks)
    (hopen : k.blocks < 10) :
    ((s.instantDropped p c).pt p).cal = none ∧ (s.instantDropped p c).afe.calStatus = .calRejected ∧
      (s.instantDropped p c).afe.calReason = 9 := by
  obtain ⟨g, hpt⟩ := s.pt_instantSpoiled p c
  have hcal' : ((s.instantSpoiled p c).pt p).cal = some k := by rw [hpt]; exact hcal
  have hends := State.calReject_ends (reason := 9) hcal'
  have heq : s.instantDropped p c = (s.instantSpoiled p c).calReject p 9 := by
    unfold State.instantDropped
    rw [hcal]
    simp only [hstart, hlate, hopen, decide_true, Bool.and_self, if_true]
  rw [heq, hends.pt, State.pt_calEnded, hends.afe]
  exact ⟨rfl, rfl, rfl⟩

theorem State.instantDropped_early {k : Calib} (hcal : (s.pt p).cal = some k) (hearly : k.blocks < 5) :
    ((s.instantDropped p c).pt p).cal = some k := by
  obtain ⟨g, hpt⟩ := s.pt_instantSpoiled p c
  have heq : s.instantDropped p c = s.instantSpoiled p c := by
    unfold State.instantDropped
    rw [hcal]
    simp [Nat.not_le.mpr hearly]
  rw [heq, hpt]
  exact hcal

/-! ### The transfers -/

theorem transfer_idle {p : Fin 32} (ok : Bool) (hrun : s.fieldRuns = true) (hp : s.custPresent p.val = true) (h : s.sampleState p.val = none) :
    exec (.dieBridgeTransfer (.point p) ok) s = .next s := by
  have hc : exec (.dieBridgeTransfer (.point p) ok) s = execDieBridgeTransfer (.point p) ok s := rfl
  rw [hc]
  simp only [execDieBridgeTransfer, hrun, hp, h, Bool.and_self, if_true]

theorem transfer_opens {p : Fin 32} (hrun : s.fieldRuns = true) (hp : s.custPresent p.val = true) (h : s.sampleState p.val = some (c, u))
    (hact : u.ptActive p.val = true) (hfree : u.instantFree p.val c = true) :
    Gives (.dieBridgeTransfer (.point p) true) s (fun t => t = u.openInstant p.val c) := by
  have hc : exec (.dieBridgeTransfer (.point p) true) s = execDieBridgeTransfer (.point p) true s := rfl
  refine ⟨_, ?_, rfl⟩
  rw [hc]
  simp only [execDieBridgeTransfer, hrun, hp, h, hact, hfree, Bool.and_self, if_true]

/-- Of a dropped transfer the unit keeps the spoiled instant; the event is the recorder's. -/
theorem transfer_drops {p : Fin 32} (hrun : s.fieldRuns = true) (hp : s.custPresent p.val = true) (h : s.sampleState p.val = some (c, u))
    (hact : u.ptActive p.val = true) (hfree : u.instantFree p.val c = true) :
    Gives (.dieBridgeTransfer (.point p) false) s (fun t => t.afe = (u.instantDropped p.val c).afe) := by
  have hc : exec (.dieBridgeTransfer (.point p) false) s = execDieBridgeTransfer (.point p) false s := rfl
  refine ⟨(u.instantDropped p.val c).bridgeEvent, ?_, (State.bridgeEvent_evrOnly _).afe⟩
  rw [hc]
  simp only [execDieBridgeTransfer, hrun, hp, h, hact, hfree, Bool.and_self, if_true, Bool.false_eq_true, if_false, State.pt_openInstant]
  rfl

theorem edges_dropped {i : Fin 64} (hrun : s.fieldRuns = true) (hp : s.custPresent (i.val / 2) = true) :
    Gives (.dieBridgeTransfer (.edges i) false) s (fun t =>
      t.pulse i.val = { s.pulse i.val with badE := (s.pulse i.val).badE + 1 } ∧ t.qm.fifos = s.qm.fifos ∧ t.mem = s.mem) := by
  have hc : exec (.dieBridgeTransfer (.edges i) false) s = execDieBridgeTransfer (.edges i) false s := rfl
  have hevent := (s.setPulse i.val { s.pulse i.val with badE := (s.pulse i.val).badE + 1 }).bridgeEvent_evrOnly
  refine ⟨(s.setPulse i.val { s.pulse i.val with badE := (s.pulse i.val).badE + 1 }).bridgeEvent, ?_, ?_⟩
  · rw [hc]
    simp only [execDieBridgeTransfer, hrun, hp, Bool.not_false, Bool.and_self, if_true]
  · generalize State.bridgeEvent _ = t at hevent ⊢
    refine ⟨?_, by rw [hevent]; rfl, by rw [hevent]; rfl⟩
    unfold State.pulse
    rw [hevent.afe]
    exact State.pulse_setPulse_same s i.val _

theorem converter_dropped {n : Fin 2} (hrun : s.fieldRuns = true) (hp : s.present (0x10 + n.val) = true) :
    Gives (.dieBridgeTransfer (.converter n) false) s (fun t =>
      (t.plcAt n.val).badSamp = (s.plcAt n.val).badSamp + 1 ∧ t.qm.fifos = s.qm.fifos ∧ t.mem = s.mem) := by
  have hc : exec (.dieBridgeTransfer (.converter n) false) s = execDieBridgeTransfer (.converter n) false s := rfl
  have hevent := (s.setPlc n.val { s.plcAt n.val with badSamp := (s.plcAt n.val).badSamp + 1 }).bridgeEvent_evrOnly
  refine ⟨(s.setPlc n.val { s.plcAt n.val with badSamp := (s.plcAt n.val).badSamp + 1 }).bridgeEvent, ?_, ?_⟩
  · rw [hc]
    simp only [execDieBridgeTransfer, hrun, hp, Bool.not_false, Bool.and_self, if_true]
    rfl
  · generalize State.bridgeEvent _ = t at hevent ⊢
    refine ⟨?_, by rw [hevent]; rfl, by rw [hevent]; rfl⟩
    have hplc : t.plcAt n.val = { s.plcAt n.val with badSamp := (s.plcAt n.val).badSamp + 1 } := by
      rw [hevent]
      exact State.plcAt_setPlc_same s n.val _
    rw [hplc]

end Sys2Proof.Machine
end

section
/-! ## A decimated sample (R129 to R137) -/

namespace Sys2Proof.Machine
open Sys2Proof

variable {s t u : State} {ch m : ℕ} {x th : ℤ} {o : Bool}

/-! ### The value of a sample -/

/-- The sample saturates at the lowest gain (R132). -/
def clipsLow (c : Chan) (x : ℤ) : Bool := decide (c.gain = 0 ∨ c.gain = chGmin c.cfg) && !underF c.cfg x c.gain 100

/-- The sample as it is taken: clipped to 1.25 x 2^30 with the sign of the input. -/
def sampleTaken (c : Chan) (x : ℤ) : ℤ := if clipsLow c x then (if chVolts c.cfg x < 0 then -1342177280 else 1342177280) else x

/-- The sample compensated and calibrated (R129). -/
def sampleValue (c : Chan) (x th : ℤ) : ℤ := calibrate c (compensate c th (sampleTaken c x))

theorem clampInt_bounds {lo hi : ℤ} (h : lo ≤ hi) (x : ℤ) : lo ≤ clampInt lo hi x ∧ clampInt lo hi x ≤ hi := by
  unfold clampInt
  split_ifs <;> omega

theorem sampleValue_bounds (c : Chan) (x th : ℤ) : -0x7FFFFFFF ≤ sampleValue c x th ∧ sampleValue c x th ≤ 0x7FFFFFFF :=
  clampInt_bounds (by decide) _

/-! ### The channel after a sample -/

/-- The gain's step moves the gain, its dwell count and its settle samples. -/
theorem gainStep_keeps (w g : W32) (c : Chan) (x : ℤ) :
    ∃ gain dwell settle, (gainStep w g c x).1 = { c with gain := gain, dwell := dwell, settle := settle } := by
  unfold gainStep
  split_ifs <;> exact ⟨_, _, _, rfl⟩

/-- A sample past DN halves the gain where it is not the lowest (R132). -/
theorem gainStep_halves {w g : W32} {c : Chan} (hauto : bit w 20 = true) (hover : overF w x c.gain (fld g 24 8).toNat = true)
    (hlow : chGmin w < c.gain) : (gainStep w g c x).1.gain = c.gain - 1 ∧ (gainStep w g c x).1.settle = 2 := by
  unfold gainStep
  simp only [hauto, hover, hlow, Bool.not_true, Bool.false_eq_true, if_false, if_true, and_self]

/-- What a sample makes of its channel's sums, and of the DP gain by AFE_GAIN `g` where the channel is the point's first. -/
structure ChanSampled (c : Chan) (x th : ℤ) (dp : Bool) (g : W32) (d : Chan) : Prop where
  sum : d.sum = c.sum + sampleValue c x th
  raw : d.raw = c.raw + sampleTaken c x
  valid : d.valid = c.valid + 1
  clipped : clipsLow c x = true → d.clipped = c.clipped + 1
  halved : dp = true → bit c.cfg 20 = true → overF c.cfg x c.gain (fld g 24 8).toNat = true → chGmin c.cfg < c.gain →
    d.gain = c.gain - 1 ∧ d.settle = 2

theorem ChanSampled.rtdStep {c d : Chan} {dp : Bool} {g : W32} (h : ChanSampled c x th dp g d) (o : Bool) :
    ChanSampled c x th dp g (rtdStep d o) := ⟨h.sum, h.raw, h.valid, h.clipped, h.halved⟩

theorem chanSampled_gainStep {c d : Chan} (g : W32) (h : ChanSampled c x th false g d) (hgain : d.gain = c.gain) :
    ChanSampled c x th true g (gainStep c.cfg g d x).1 := by
  obtain ⟨gain, dwell, settle, heq⟩ := gainStep_keeps c.cfg g d x
  refine ⟨by rw [heq]; exact h.sum, by rw [heq]; exact h.raw, by rw [heq]; exact h.valid, by rw [heq]; exact h.clipped, ?_⟩
  intro _ hauto hover hlow
  rw [← hgain] at hover hlow ⊢
  exact gainStep_halves hauto hover hlow

/-- What a sample makes of its point. -/
structure PointSampled (q : Point) (k : ℕ) (y th : ℤ) (r : Point) : Prop where
  got : r.got = q.got ||| BitVec.ofNat 3 (2 ^ k)
  ctr : r.ctr = q.ctr
  n : r.n = q.n
  dp : r.dp = if k = 0 then listSet q.dp 0 (BitVec.ofInt 32 y) else q.dp
  thetaN : r.thetaN = q.thetaN + 1
  theta : r.theta = q.theta + th

/-- A channel, its point and the die temperature as a sample leaves them. -/
def State.sampleStored (ch : ℕ) (c : Chan) (q : Point) (th : ℤ) (s : State) : State :=
  let u := (s.setChan ch c).setPt (ch / 3) q
  { u with afe := { u.afe with theta := th } }

theorem State.chan_sampleStored (ch : ℕ) (c : Chan) (q : Point) (th : ℤ) (s : State) (d : ℕ) :
    (s.sampleStored ch c q th).chan d = (s.setChan ch c).chan d := by
  have hchans : (s.sampleStored ch c q th).afe.chans = (s.setChan ch c).afe.chans := rfl
  unfold State.chan
  rw [hchans]

theorem State.pt_sampleStored (ch : ℕ) (c : Chan) (q : Point) (th : ℤ) (s : State) : (s.sampleStored ch c q th).pt (ch / 3) = q :=
  State.pt_setPt_same (s.setChan ch c) (ch / 3) q

theorem State.takeSample_stores (ch : ℕ) (x th : ℤ) (o : Bool) (s : State) :
    ∃ d r, ChanSampled (s.chan ch) x th (decide (ch % 3 = 0)) (s.reg 0x0F0008) d ∧
      PointSampled (s.pt (ch / 3)) (ch % 3) (sampleValue (s.chan ch) x th) th r ∧
      EvrOnly (s.sampleStored ch d r th) (s.takeSample ch x th o) := by
  unfold State.takeSample
  extract_lets p k c w low sat x' xt y clip inSettle c0 c1
  have h0 : ChanSampled c x th false (s.reg 0x0F0008) c0 := by
    refine ⟨rfl, rfl, rfl, fun hclip => ?_, fun hno => absurd hno (by decide)⟩
    have hsat : clip = true := Bool.or_eq_true_iff.mpr (.inl hclip)
    exact if_pos hsat
  have h1 : ChanSampled c x th false (s.reg 0x0F0008) c1 ∧ c1.gain = c.gain := by
    simp only [c1]
    split
    · exact ⟨⟨h0.sum, h0.raw, h0.valid, h0.clipped, h0.halved⟩, rfl⟩
    · exact ⟨h0, rfl⟩
  have h2 : ChanSampled c x th (decide (k = 0)) (s.reg 0x0F0008) (if k = 0 then gainStep w (s.reg 0x0F0008) c1 x else (c1, false)).1 := by
    split
    · next hk =>
      rw [decide_eq_true hk]
      exact chanSampled_gainStep _ h1.1 h1.2
    · next hk =>
      rw [decide_eq_false hk]
      exact h1.1
  generalize (if k = 0 then gainStep w (s.reg 0x0F0008) c1 x else (c1, false)) = g at h2
  obtain ⟨c2, changed⟩ := g
  refine ⟨rtdStep c2 (chRtd w && o), _, h2.rtdStep _, ?point,
    (State.faultEdge_evrOnly _ _ _ _ _).trans (State.faultEdge_evrOnly _ _ _ _ _)⟩
  case point => exact ⟨rfl, rfl, rfl, rfl, rfl, rfl⟩

/-- A sample changes its own channel and its point, as `ChanSampled` and `PointSampled` say. -/
theorem takeSample_outcome (ch : ℕ) (x th : ℤ) (o : Bool) (s : State) :
    ChanSampled (s.chan ch) x th (decide (ch % 3 = 0)) (s.reg 0x0F0008) ((s.takeSample ch x th o).chan ch) ∧
    PointSampled (s.pt (ch / 3)) (ch % 3) (sampleValue (s.chan ch) x th) th ((s.takeSample ch x th o).pt (ch / 3)) ∧
    ∀ d, d ≠ ch → (s.takeSample ch x th o).chan d = s.chan d := by
  obtain ⟨d, r, hchan, hpt, hstored⟩ := s.takeSample_stores ch x th o
  refine ⟨?_, ?_, fun e he => ?_⟩
  · rwa [hstored.chan, State.chan_sampleStored, State.chan_setChan_same]
  · rwa [hstored.pt, State.pt_sampleStored]
  · rw [hstored.chan, State.chan_sampleStored, State.chan_setChan_other s d he]

/-! ### The command -/

variable {c : Fin 96} {theta : BitVec 16}

theorem decimatedSample_joins (hrun : s.fieldRuns = true) (hp : s.custPresent (c.val / 3) = true)
    (h : s.sampleState (c.val / 3) = some (m, u)) (hact : chActive (u.chan c.val).cfg = true)
    (hctr : (u.pt (c.val / 3)).ctr = some m) (hgot : bit (u.pt (c.val / 3)).got (c.val % 3) = false) :
    exec (.decimatedSample c x theta o) s = .next (u.takeSample c.val x theta.toInt o) := by
  have hc : exec (.decimatedSample c x theta o) s = execDecimatedSample c x theta o s := rfl
  rw [hc]
  simp only [execDecimatedSample, hrun, hp, h, hact, hctr, hgot, Bool.and_self, Bool.not_true, Bool.not_false, Bool.false_eq_true,
    decide_true, if_true, if_false]

theorem decimatedSample_opens (hrun : s.fieldRuns = true) (hp : s.custPresent (c.val / 3) = true)
    (h : s.sampleState (c.val / 3) = some (m, u)) (hact : chActive (u.chan c.val).cfg = true)
    (hctr : (u.pt (c.val / 3)).ctr ≠ some m) (hfree : u.instantFree (c.val / 3) m = true) :
    exec (.decimatedSample c x theta o) s = .next ((u.openInstant (c.val / 3) m).takeSample c.val x theta.toInt o) := by
  have hc : exec (.decimatedSample c x theta o) s = execDecimatedSample c x theta o s := rfl
  rw [hc]
  simp only [execDecimatedSample, hrun, hp, h, hact, hctr, hfree, Bool.and_self, Bool.not_true, Bool.false_eq_true, decide_false,
    Bool.false_and, if_true, if_false]

/-- A sample is taken in the instant of its centre, which stands or is opened for it. -/
theorem decimatedSample_takes (hrun : s.fieldRuns = true) (hp : s.custPresent (c.val / 3) = true)
    (h : s.sampleState (c.val / 3) = some (m, u)) (hact : chActive (u.chan c.val).cfg = true)
    (hopen : ((u.pt (c.val / 3)).ctr = some m ∧ bit (u.pt (c.val / 3)).got (c.val % 3) = false) ∨
      ((u.pt (c.val / 3)).ctr ≠ some m ∧ u.instantFree (c.val / 3) m = true)) :
    ∃ w : State, exec (.decimatedSample c x theta o) s = .next (w.takeSample c.val x theta.toInt o) ∧ (∀ d, w.chan d = u.chan d) ∧
      w.reg 0x0F0008 = u.reg 0x0F0008 ∧
      w.pt (c.val / 3) = if (u.pt (c.val / 3)).ctr = some m then u.pt (c.val / 3) else (u.pt (c.val / 3)).opened m (u.centreMoment m) := by
  rcases hopen with ⟨hctr, hgot⟩ | ⟨hctr, hfree⟩
  · exact ⟨u, decimatedSample_joins hrun hp h hact hctr hgot, fun _ => rfl, rfl, (if_pos hctr).symm⟩
  · refine ⟨u.openInstant (c.val / 3) m, decimatedSample_opens hrun hp h hact hctr hfree, fun _ => rfl, rfl, ?_⟩
    rw [if_neg hctr, State.pt_openInstant]

/-- The point as a sample finds it: in an instant at `m`, with what the instant opened for it, or the sample before it, left. -/
theorem Point.joined_fields (q : Point) (m : ℕ) (st : TimeRec) {r : Point} (h : r = if q.ctr = some m then q else q.opened m st) :
    r.ctr = some m ∧ r.n = (if decide (q.ctr = some m) then q.n else q.n + 1) ∧
      r.dp = (if decide (q.ctr = some m) then q.dp else 0x80000000#32 :: q.dp) ∧ r.thetaN = q.thetaN ∧ r.theta = q.theta := by
  by_cases hctr : q.ctr = some m
  · rw [if_pos hctr] at h
    simp only [h, hctr, decide_true, if_true, and_self]
  · rw [if_neg hctr] at h
    simp only [h, hctr, decide_false, Bool.false_eq_true, if_false]
    exact ⟨rfl, rfl, rfl, rfl, rfl⟩

/-- The bit of a channel is set among those whose sample came. -/
theorem getLsbD_got (g : BitVec 3) {k : ℕ} (hk : k < 3) : (g ||| BitVec.ofNat 3 (2 ^ k)).getLsbD k = true := by
  obtain rfl | rfl | rfl : k = 0 ∨ k = 1 ∨ k = 2 := by omega
  all_goals simp

end Sys2Proof.Machine
end

section
/-! ## What a boundary does to the channels of its point (R128, R134, R137, R146 to R148) -/

namespace Sys2Proof.Machine
open Sys2Proof

variable {s t u : State} {ch p : ℕ}

/-! ### The sensors judged at a block's end -/

/-- The judgement of a block moves a channel's fault conditions alone. -/
theorem State.chanFaults_chanStep (ch p : ℕ) (s : State) :
    ChanStep (fun c d => d = { c with curlo := d.curlo, curhi := d.curhi, ovr := d.ovr }) ch p s (s.chanFaults ch) := by
  unfold State.chanFaults
  refine ((State.chanStep_setChan s ch p ?_).evrOnly (State.faultEdge_evrOnly _ _ _ _ _)).evrOnly
    ((State.faultEdge_evrOnly _ _ _ _ _).trans (State.faultEdge_evrOnly _ _ _ _ _))
  rfl

/-- The channels of a point judged at the end of its block. -/
def State.judged (p : ℕ) (s : State) : State := (List.range 3).foldl (fun s k => s.chanFaults (3 * p + k)) s

theorem State.judged_pointStep (p : ℕ) (s : State) :
    PointStep (fun c d => d = { c with curlo := d.curlo, curhi := d.curhi, ovr := d.ovr }) p s (s.judged p) :=
  PointStep.of_foldl (fun u k _ => u.chanFaults_chanStep (3 * p + k) p) s

/-! ### What waits for the boundary -/

/-- A channel begins a new block: its sums at zero, a waiting configuration in force. -/
structure BlockBegun (c d : Chan) : Prop where
  sum : d.sum = 0
  valid : d.valid = 0
  cfgNew : d.cfgNew = none
  cfg : d.cfg = c.cfgNew.getD c.cfg
  calBad : d.calBad = c.calBad

/-- The channel with its waiting configuration in force. -/
def Chan.configured (c : Chan) : Chan :=
  match c.cfgNew with
  | some w =>
    let g := if bit w 20 then max (chGmin w) (min (chGmax w) c.gain) else chGmin w
    { c with cfg := w, cfgNew := none, dwell := 0, gain := g, settle := if g = c.gain then c.settle else 2 }
  | none => c

theorem Chan.blockBegun_configured (c : Chan) : BlockBegun c (blockClear c).configured := by
  unfold Chan.configured
  cases hcfg : c.cfgNew with
  | none =>
    have hclear : (blockClear c).cfgNew = none := hcfg
    rw [hclear]
    exact ⟨rfl, rfl, hclear, by rw [hcfg]; rfl, rfl⟩
  | some w =>
    have hclear : (blockClear c).cfgNew = some w := hcfg
    rw [hclear]
    exact ⟨rfl, rfl, rfl, by rw [hcfg]; rfl, rfl⟩

/-- New coefficients leave the rest of a channel as it was. -/
def Recoefficiented (c d : Chan) : Prop :=
  d = { c with table := d.table, cz := d.cz, cs := d.cs, blobNew := d.blobNew, calNew := d.calNew }

/-- New coefficients in force on a channel of point `p`, and CGEN and an event that say so. -/
def State.coefSet (ch p : ℕ) (x : Chan) (g : W32) (code : ℕ) (w : W32) (s : State) : State :=
  let s := s.setChan ch x
  State.event code w (s.setPt p { s.pt p with cgen := g })

theorem State.coefSet_chanStep {x : Chan} (g : W32) (code : ℕ) (w : W32) (h : Recoefficiented (s.chan ch) x) :
    ChanStep Recoefficiented ch p s (s.coefSet ch p x g code w) := by
  have hset : ChanStep Recoefficiented ch p s ((s.setChan ch x).setPt p { s.pt p with cgen := g }) := by
    refine ⟨AfeOnly.front s _, ?_, ?_, fun d hd => ?_⟩
    · rw [State.pt_setPt_same]
    · rwa [State.chan_setPt, State.chan_setChan_same]
    · rw [State.chan_setPt, State.chan_setChan_other s x hd]
  exact hset.evrOnly (State.event_evrOnly _ _ _)

theorem ChanStep.refl_recoefficiented (ch p : ℕ) (s : State) : ChanStep Recoefficiented ch p s s := ⟨AfeOnly.refl s, rfl, rfl, fun _ _ => rfl⟩

/-- A blob that waits for channel `ch` in force (R136). -/
def State.blobApplied (ch : ℕ) (waits : Option (List Byte)) (s : State) : State :=
  match waits with
  | some bs =>
    let g := (s.pt (ch / 3)).cgen + 1#32
    s.coefSet ch (ch / 3) { s.chan ch with
      table := bs.take 136, cz := BitVec.ofNat 32 (takeBytes bs 136 4), cs := BitVec.ofNat 32 (takeBytes bs 140 4), blobNew := none }
      g 0x0F06 (BitVec.ofNat 32 (g.toNat % 65536 * 65536 + ch))
  | none => s

/-- A calibration's result that waits for channel `ch` in force (R148). -/
def State.calApplied (ch : ℕ) (waits : Option (ℕ × BitVec 32 × BitVec 32)) (s : State) : State :=
  match waits with
  | some (k, cz, cs) =>
    let g := (s.pt (ch / 3)).cgen + 1#32
    let x := s.chan ch
    s.coefSet ch (ch / 3) { x with cz := (if k = 3 then x.cz else cz), cs := (if k = 3 then x.cs else cs), calNew := none }
      g 0x0F01 (BitVec.ofNat 32 (g.toNat % 65536 * 65536 + k * 256 + ch))
  | none => s

theorem State.blobApplied_chanStep (waits : Option (List Byte)) (s : State) :
    ChanStep Recoefficiented ch (ch / 3) s (s.blobApplied ch waits) := by
  cases waits with
  | none => exact ChanStep.refl_recoefficiented ch _ s
  | some bs => exact State.coefSet_chanStep _ _ _ rfl

theorem State.calApplied_chanStep (waits : Option (ℕ × BitVec 32 × BitVec 32)) (s : State) :
    ChanStep Recoefficiented ch (ch / 3) s (s.calApplied ch waits) := by
  cases waits with
  | none => exact ChanStep.refl_recoefficiented ch _ s
  | some w => exact State.coefSet_chanStep _ _ _ rfl

theorem State.chanBoundary_eq (ch : ℕ) (s : State) :
    s.chanBoundary ch =
      ((s.setChan ch (s.chan ch).configured).blobApplied ch (s.chan ch).configured.blobNew).calApplied ch (s.chan ch).configured.calNew := by
  unfold State.chanBoundary
  extract_lets p c c' s' g x s''
  have hc : (s.chan ch).configured = c' := rfl
  rw [hc]
  clear_value c'
  have hs : s'.blobApplied ch c'.blobNew = s'' := by
    unfold State.blobApplied
    cases hb : c'.blobNew with
    | none => simp only [s'', hb]
    | some bs => simp only [s'', hb]; rfl
  rw [hs]
  clear_value s''
  unfold State.calApplied
  cases c'.calNew <;> rfl

theorem BlockBegun.recoefficiented {c d e : Chan} (h : BlockBegun c d) (g : Recoefficiented d e) : BlockBegun c e := by
  unfold Recoefficiented at g
  exact ⟨by rw [g]; exact h.sum, by rw [g]; exact h.valid, by rw [g]; exact h.cfgNew, by rw [g]; exact h.cfg, by rw [g]; exact h.calBad⟩

/-- At a boundary a channel begins its block. -/
theorem State.chanBoundary_chanStep (ch : ℕ) (s : State) :
    ChanStep BlockBegun ch (ch / 3) s ((s.setChan ch (blockClear (s.chan ch))).chanBoundary ch) := by
  rw [State.chanBoundary_eq, State.chan_setChan_same]
  generalize hc : s.chan ch = c
  have hset : ChanStep BlockBegun ch (ch / 3) s ((s.setChan ch (blockClear c)).setChan ch (blockClear c).configured) := by
    refine ⟨AfeOnly.front s _, rfl, ?_, fun d hd => ?_⟩
    · rw [State.chan_setChan_same, hc]
      exact c.blockBegun_configured
    · rw [State.chan_setChan_other _ _ hd, State.chan_setChan_other _ _ hd]
  refine ((hset.trans (State.blobApplied_chanStep _ _)).trans (State.calApplied_chanStep _ _)).mono ?_
  rintro c e ⟨d, ⟨b, hbegun, hblob⟩, hcal⟩
  exact (hbegun.recoefficiented hblob).recoefficiented hcal

/-- The channels of a point at the beginning of its block. -/
def State.chansBegun (p : ℕ) (s : State) : State :=
  (List.range 3).foldl (fun s k => (s.setChan (3 * p + k) (blockClear (s.chan (3 * p + k)))).chanBoundary (3 * p + k)) s

theorem State.chansBegun_pointStep (p : ℕ) (s : State) : PointStep BlockBegun p s (s.chansBegun p) := by
  refine PointStep.of_foldl (fun u k hk => ?_) s
  have hstep := u.chanBoundary_chanStep (3 * p + k)
  rwa [show (3 * p + k) / 3 = p by omega] at hstep

/-! ### The calibration window (R146 to R148) -/

/-- A boundary's work on the calibration window moves the channels' statistics, and of the point `cal` and `calBlk`; an open window
keeps the marks of bad samples. -/
theorem State.calBoundary_outcome (p : ℕ) (s : State) :
    AfeOnly s (s.calBoundary p) ∧
    (s.calBoundary p).pt p = { s.pt p with
      cgen := ((s.calBoundary p).pt p).cgen, cal := ((s.calBoundary p).pt p).cal, calBlk := ((s.calBoundary p).pt p).calBlk } ∧
    ∀ k, k < 3 → ∃ secs sum cnt sq bad, (s.calBoundary p).chan (3 * p + k) =
        { s.chan (3 * p + k) with calSecs := secs, calSum := sum, calCnt := cnt, calSq := sq, calBad := bad } ∧
      (s.calOpen p = true → bad = (s.chan (3 * p + k)).calBad) := by
  unfold State.calBoundary
  cases hcal : (s.pt p).cal with
  | none => exact ⟨AfeOnly.refl s, rfl, fun k _ => ⟨_, _, _, _, _, rfl, fun _ => rfl⟩⟩
  | some c =>
    dsimp only
    split_ifs with hstart hblocks
    · have hsecond := s.pointStep_map calSecond p
      generalize List.foldl _ s (List.range 3) = v at hsecond ⊢
      refine ⟨hsecond.frame.trans (AfeOnly.front _ _), ?_, fun k hk => ⟨_, _, _, _, _, hsecond.chans k hk, fun _ => rfl⟩⟩
      rw [State.pt_setPt_same, hsecond.point]
    · refine ⟨AfeOnly.front _ _, ?_, fun k _ => ⟨_, _, _, _, _, rfl, fun _ => rfl⟩⟩
      rw [State.pt_setPt_same]
    · have hclear := s.pointStep_map calClear p
      generalize List.foldl _ s (List.range 3) = v at hclear ⊢
      refine ⟨hclear.frame.trans (AfeOnly.front _ _), ?_, fun k hk => ⟨_, _, _, _, _, hclear.chans k hk, fun hopen => ?_⟩⟩
      · rw [State.pt_setPt_same, hclear.point]
      · obtain ⟨d, hd, hstart', -⟩ := (State.calOpen_iff s p).mp hopen
        rw [hcal] at hd
        cases hd
        exact absurd hstart' hstart

end Sys2Proof.Machine
end

section
/-! ## The close of a block (R139, R140, R306) -/

namespace Sys2Proof.Machine
open Sys2Proof

variable {s t u : State} {p : ℕ}

/-! ### The record of a block in its slot -/

/-- From `s` to `t` free values were drawn and memory written, and nothing else. -/
def StoresOnly (s t : State) : Prop := t = { s with freeCtr := t.freeCtr, mem := t.mem }

theorem StoresOnly.trans (h : StoresOnly s t) (g : StoresOnly t u) : StoresOnly s u := by
  unfold StoresOnly at *
  rw [g, h]

theorem StoresOnly.pt (h : StoresOnly s t) (p : ℕ) : t.pt p = s.pt p := by rw [h]; rfl
theorem StoresOnly.fifo (h : StoresOnly s t) (n : ℕ) : t.fifo n = s.fifo n := by rw [h]; rfl
theorem StoresOnly.custWord (h : StoresOnly s t) (p : ℕ) : t.custWord p = s.custWord p := by rw [h]; rfl

theorem State.storesOnly_openRound (n : ℤ) (d : ℕ) (s : State) : StoresOnly s (s.openRound n d).2 := by
  unfold State.openRound
  split <;> rfl

/-- Memory with `bs` written at `a`. -/
def State.wrote (a : ℕ) (bs : List Byte) (s : State) : State := (s.ramWrite a bs).2

theorem State.storesOnly_wrote (a : ℕ) (bs : List Byte) (s : State) : StoresOnly s (s.wrote a bs) := by
  unfold State.wrote
  have hframe := s.ramWrite_frame a bs
  generalize (s.ramWrite a bs).2 = t at hframe ⊢
  rw [hframe]
  rfl

/-- A record draws the rounding of the mean temperature and nothing else. -/
theorem State.storesOnly_blockRecord (p : ℕ) (s : State) : StoresOnly s (s.blockRecord p).2 := by
  unfold State.blockRecord
  extract_lets x c w samples
  have hmean : StoresOnly s (if x.thetaN = 0 then ((0 : ℤ), s) else s.openRound x.theta x.thetaN).2 := by
    split
    · rfl
    · exact State.storesOnly_openRound _ _ s
  generalize (if x.thetaN = 0 then ((0 : ℤ), s) else s.openRound x.theta x.thetaN) = r at hmean ⊢
  obtain ⟨mean, u⟩ := r
  exact hmean

/-- The record of the block in progress written to its slot. -/
def State.blockStored (p : ℕ) (s : State) : State :=
  (s.blockRecord p).2.wrote (blockSlot (s.reg2 Reg.afeBlkbase) p (s.pt p).bseq) (s.blockRecord p).1

theorem State.storesOnly_blockStored (p : ℕ) (s : State) : StoresOnly s (s.blockStored p) :=
  (s.storesOnly_blockRecord p).trans (State.storesOnly_wrote _ _ _)

/-! ### The custody item of a block (R140) -/

/-- The item body of the block in progress. -/
def State.blockBody (p : ℕ) (s : State) : Item :=
  (s.blockStored p).custodyBody p (blockSlot (s.reg2 Reg.afeBlkbase) p (s.pt p).bseq)

theorem State.custodyBody_fields (p a : ℕ) (s : State) :
    (s.custodyBody p a).extractLsb' 288 32 = s.custWord p ∧ (s.custodyBody p a).extractLsb' 384 16 = BitVec.ofNat 16 (s.pt p).n ∧
      (s.custodyBody p a).extractLsb' 416 32 = (s.pt p).bseq := by
  unfold State.custodyBody
  refine ⟨?_, ?_, extractLsb'_setFld_same _ 416 _ (by decide)⟩
  · rw [extractLsb'_setFld_apart _ 416 288 32 _ (by decide), extractLsb'_setFld_apart _ 400 288 32 _ (by decide),
      extractLsb'_setFld_apart _ 384 288 32 _ (by decide), extractLsb'_setFld_apart _ 320 288 32 _ (by decide),
      extractLsb'_setFld_same _ 288 _ (by decide)]
  · rw [extractLsb'_setFld_apart _ 416 384 16 _ (by decide), extractLsb'_setFld_apart _ 400 384 16 _ (by decide),
      extractLsb'_setFld_same _ 384 _ (by decide)]

theorem State.blockBody_fields (p : ℕ) (s : State) :
    (s.blockBody p).extractLsb' 288 32 = s.custWord p ∧ (s.blockBody p).extractLsb' 384 16 = BitVec.ofNat 16 (s.pt p).n ∧
      (s.blockBody p).extractLsb' 416 32 = (s.pt p).bseq := by
  have hstored := s.storesOnly_blockStored p
  rw [← hstored.custWord p, ← hstored.pt p]
  exact (s.blockStored p).custodyBody_fields p _

/-- The stamp of an item stands in its first bytes. -/
theorem extractLsb'_stampItem_stamp (body : Item) (st : Stamp) (off : ℤ) (src fl : BitVec 16) (seq ep : W32) :
    (stampItem body st off src fl seq ep).extractLsb' 0 96 = st := by
  rw [stampItem]
  rw [extractLsb'_setFld_apart _ 256 0 96 _ (by decide), extractLsb'_setFld_apart _ 160 0 96 _ (by decide),
    extractLsb'_setFld_apart _ 144 0 96 _ (by decide), extractLsb'_setFld_apart _ 128 0 96 _ (by decide),
    extractLsb'_setFld_apart _ 96 0 96 _ (by decide), extractLsb'_setFld_same _ 0 _ (by decide)]

/-! ### The ends of a close -/

/-- BSEQ moved on from `b`. -/
def State.bseqPast (p : ℕ) (b : W32) (s : State) : State := s.adjPt p fun q => { q with bseq := b + 1#32 }

/-- The block written, the next one without GAP. -/
def State.blockWritten (p : ℕ) (s : State) : State := (s.blockStored p).adjPt p fun q => { q with gap := false }

/-- The block written, its slot busy. -/
def State.blockHeld (p : ℕ) (s : State) : State :=
  (s.blockWritten p).adjPt p fun q => { q with busy := (s.pt p).busy ||| BitVec.ofNat 8 (2 ^ ((s.pt p).bseq.toNat % 8)) }

/-- The item of a block stamped, in FIFO 10, and sent to the twin. -/
def State.blockSent (x : Point) (p : ℕ) (rec_ : List Byte) (body : Item) (u : State) : State :=
  let it := u.stamped 10 x.first body
  State.spnBlock (.block (Fin.ofNat 32 p) x.bseq rec_ it) ((u.seqUp 10).fifoPush 10 (u.seqUp 10).afePrio it).2

/-- The block written and its item issued. -/
def State.blockIssued (p : ℕ) (s : State) : State := (s.blockHeld p).blockSent (s.pt p) p (s.blockRecord p).1 (s.blockBody p)

/-- The block written and its item kept. -/
def State.blockKept (p : ℕ) (s : State) : State :=
  (s.blockWritten p).adjPt p fun q =>
    { q with kept := ((s.pt p).kept.drop ((s.pt p).kept.length - 7)) ++ [((s.pt p).first, s.blockBody p)] }

theorem State.closeBlock_eq (p : ℕ) (s : State) :
    s.closeBlock p = State.bseqPast p (s.pt p).bseq
      (if s.ownsPoint p && bit (s.pt p).busy ((s.pt p).bseq.toNat % 8) then s.blockLost p
      else if s.ownsPoint p && decide (32 ≤ (s.fifo 10).items.length) then (s.blockLost p).markBad p
      else if s.ownsPoint p then s.blockIssued p else s.blockKept p) := by
  unfold State.closeBlock
  extract_lets x slot addr own s1
  refine congrArg (State.bseqPast p x.bseq) (if_congr Iff.rfl rfl (if_congr Iff.rfl rfl ?_))
  unfold State.blockIssued State.blockSent State.blockKept State.blockHeld State.blockWritten State.blockBody State.blockStored
  generalize State.blockRecord p s = r
  obtain ⟨rec_, u⟩ := r
  exact if_congr Iff.rfl rfl rfl

/-! ### What every end of a close leaves as it was -/

/-- The registers, the timebase, the calibration of the point and its channels but for `calBad` are as they were. -/
structure KeepsBlock (p : ℕ) (s t : State) : Prop where
  regs : t.regs = s.regs
  tb : t.tb = s.tb
  cal : (t.pt p).cal = (s.pt p).cal
  chans : ∀ k, k < 3 → t.chan (3 * p + k) = { s.chan (3 * p + k) with calBad := (t.chan (3 * p + k)).calBad }

theorem KeepsBlock.trans (h : KeepsBlock p s t) (g : KeepsBlock p t u) : KeepsBlock p s u where
  regs := g.regs.trans h.regs
  tb := g.tb.trans h.tb
  cal := g.cal.trans h.cal
  chans k hk := by rw [g.chans k hk, h.chans k hk]

theorem KeepsBlock.of_units (hregs : t.regs = s.regs) (htb : t.tb = s.tb) (hafe : t.afe = s.afe) : KeepsBlock p s t where
  regs := hregs
  tb := htb
  cal := by unfold State.pt; rw [hafe]
  chans k _ := by unfold State.chan; rw [hafe]

theorem KeepsBlock.evrOnly (h : KeepsBlock p s t) (g : EvrOnly t u) : KeepsBlock p s u :=
  h.trans (KeepsBlock.of_units (by rw [g]) (by rw [g]) (by rw [g]))

theorem KeepsBlock.adjPt (h : KeepsBlock p s t) {f : Point → Point} (hf : ∀ q, (f q).cal = q.cal) : KeepsBlock p s (t.adjPt p f) :=
  h.trans ⟨rfl, rfl, by rw [State.pt_adjPt, hf], fun _ _ => rfl⟩

theorem KeepsBlock.markBad (h : KeepsBlock p s t) : KeepsBlock p s (t.markBad p) := by
  have hmark := t.markBad_pointStep p
  generalize t.markBad p = u at hmark ⊢
  obtain ⟨hframe, hpoint, hchans⟩ := hmark
  exact h.trans ⟨by rw [hframe], by rw [hframe], by rw [hpoint], hchans⟩

theorem StoresOnly.keepsBlock (h : StoresOnly s t) : KeepsBlock p s t := KeepsBlock.of_units (by rw [h]) (by rw [h]) (by rw [h])

/-! ### Lost blocks (R139) -/

theorem State.blockLost_evrOnly (p : ℕ) (s : State) :
    EvrOnly (s.adjPt p fun q => { q with lost := q.lost + 1#32, gap := true }) (s.blockLost p) := State.event_evrOnly _ _ _

theorem State.pt_blockLost (p : ℕ) (s : State) : (s.blockLost p).pt p = { s.pt p with lost := (s.pt p).lost + 1#32, gap := true } := by
  rw [(s.blockLost_evrOnly p).pt, State.pt_adjPt]

theorem State.keepsBlock_blockLost (p : ℕ) (s : State) : KeepsBlock p s (s.blockLost p) := by
  refine KeepsBlock.evrOnly ?_ (s.blockLost_evrOnly p)
  refine (KeepsBlock.of_units (p := p) (s := s) rfl rfl rfl).adjPt ?_
  exact fun _ => rfl

theorem State.afeOnly_blockLost (p : ℕ) (s : State) : AfeOnly s (s.blockLost p) := (AfeOnly.front s _).evrOnly (s.blockLost_evrOnly p)

/-! ### Written blocks -/

theorem State.pt_blockWritten (p : ℕ) (s : State) : (s.blockWritten p).pt p = { s.pt p with gap := false } := by
  unfold State.blockWritten
  rw [State.pt_adjPt, (s.storesOnly_blockStored p).pt]

theorem State.keepsBlock_blockWritten (p : ℕ) (s : State) : KeepsBlock p s (s.blockWritten p) := by
  refine (s.storesOnly_blockStored p).keepsBlock.adjPt ?_
  exact fun _ => rfl

theorem State.fifo_adjPt (p n : ℕ) (f : Point → Point) (s : State) : (s.adjPt p f).fifo n = s.fifo n := rfl

theorem State.fifo_blockWritten (p n : ℕ) (s : State) : (s.blockWritten p).fifo n = s.fifo n := by
  unfold State.blockWritten
  rw [State.fifo_adjPt, (s.storesOnly_blockStored p).fifo]

theorem State.pt_blockHeld (p : ℕ) (s : State) :
    (s.blockHeld p).pt p = { s.pt p with gap := false, busy := (s.pt p).busy ||| BitVec.ofNat 8 (2 ^ ((s.pt p).bseq.toNat % 8)) } := by
  unfold State.blockHeld
  rw [State.pt_adjPt, State.pt_blockWritten]

theorem State.keepsBlock_blockHeld (p : ℕ) (s : State) : KeepsBlock p s (s.blockHeld p) := by
  refine (s.keepsBlock_blockWritten p).adjPt ?_
  exact fun _ => rfl

theorem State.fifo_blockHeld (p n : ℕ) (s : State) : (s.blockHeld p).fifo n = s.fifo n := by
  unfold State.blockHeld
  rw [State.fifo_adjPt, State.fifo_blockWritten]

theorem State.pt_blockKept (p : ℕ) (s : State) : ∃ kept, (s.blockKept p).pt p = { s.pt p with gap := false, kept := kept } := by
  unfold State.blockKept
  rw [State.pt_adjPt, State.pt_blockWritten]
  exact ⟨_, rfl⟩

theorem State.keepsBlock_blockKept (p : ℕ) (s : State) : KeepsBlock p s (s.blockKept p) := by
  refine (s.keepsBlock_blockWritten p).adjPt ?_
  exact fun _ => rfl

theorem State.fifo_blockKept (p n : ℕ) (s : State) : (s.blockKept p).fifo n = s.fifo n := by
  unfold State.blockKept
  rw [State.fifo_adjPt, State.fifo_blockWritten]

/-! ### Issued items -/

/-- From `s` to `t` an item went into a FIFO and to the twin. -/
def IssuesOnly (s t : State) : Prop := t = { s with out := t.out, qm := t.qm, eth := t.eth }

theorem IssuesOnly.trans (h : IssuesOnly s t) (g : IssuesOnly t u) : IssuesOnly s u := by
  unfold IssuesOnly at *
  rw [g, h]

theorem IssuesOnly.pt (h : IssuesOnly s t) (p : ℕ) : t.pt p = s.pt p := by rw [h]; rfl

theorem IssuesOnly.keepsBlock (h : IssuesOnly s t) : KeepsBlock p s t := KeepsBlock.of_units (by rw [h]) (by rw [h]) (by rw [h])

theorem State.issuesOnly_fifoPush (n prio : ℕ) (x : Item) (s : State) : IssuesOnly s (s.fifoPush n prio x).2 := by
  unfold State.fifoPush
  dsimp only
  split_ifs
  · have hhold := (State.fifoHold_holdsOnly n (s.setFifo n { s.fifo n with items := (s.fifo n).items ++ [(prio, x)] })).frame
    generalize State.fifoHold n _ = t at hhold ⊢
    rw [hhold]
    rfl
  · rfl

theorem State.issuesOnly_spnBlock (m : BlockMsg) (s : State) : IssuesOnly s (s.spnBlock m) := by
  unfold State.spnBlock
  split <;> rfl

theorem State.fifo_spnBlock (m : BlockMsg) (n : ℕ) (s : State) : (s.spnBlock m).fifo n = s.fifo n := by
  unfold State.spnBlock
  split <;> rfl

theorem State.issuesOnly_blockSent (x : Point) (rec_ : List Byte) (body : Item) (u : State) : IssuesOnly u (u.blockSent x p rec_ body) :=
  (IssuesOnly.trans (t := u.seqUp 10) rfl (State.issuesOnly_fifoPush _ _ _ _)).trans (State.issuesOnly_spnBlock _ _)

theorem State.fifo_blockSent (x : Point) (rec_ : List Byte) (body : Item) {u : State} (hroom : (u.fifo 10).items.length < 32) :
    ((u.blockSent x p rec_ body).fifo 10).items = (u.fifo 10).items ++ [(u.afePrio, u.stamped 10 x.first body)] := by
  unfold State.blockSent
  rw [State.fifo_spnBlock]
  exact (State.fifoPush_room (s := u.seqUp 10) hroom).1

theorem State.issuesOnly_blockIssued (p : ℕ) (s : State) : IssuesOnly (s.blockHeld p) (s.blockIssued p) :=
  State.issuesOnly_blockSent _ _ _ _

/-- With room in FIFO 10 the block's item enters it, with the stamp of the block's first instant. -/
theorem State.fifo_blockIssued (hroom : (s.fifo 10).items.length < 32) :
    ∃ it, ((s.blockIssued p).fifo 10).items = (s.fifo 10).items ++ [(s.afePrio, it)] ∧ it.extractLsb' 0 96 = (s.pt p).first.st ∧
      it.extractLsb' 288 32 = s.custWord p ∧ it.extractLsb' 384 16 = BitVec.ofNat 16 (s.pt p).n ∧
      it.extractLsb' 416 32 = (s.pt p).bseq := by
  have hfifo := s.fifo_blockHeld p 10
  have hprio : (s.blockHeld p).afePrio = s.afePrio := by
    unfold State.afePrio State.regF State.reg
    rw [(s.keepsBlock_blockHeld p).regs]
  obtain ⟨hword, hn, hbseq⟩ := s.blockBody_fields p
  have hsent := State.fifo_blockSent (p := p) (s.pt p) (s.blockRecord p).1 (s.blockBody p) (u := s.blockHeld p) (by rwa [hfifo])
  rw [hfifo, hprio] at hsent
  refine ⟨_, hsent, extractLsb'_stampItem_stamp .., ?_, ?_, ?_⟩
  · exact (extractLsb'_stampItem _ _ _ _ _ _ _ (by decide)).trans hword
  · exact (extractLsb'_stampItem _ _ _ _ _ _ _ (by decide)).trans hn
  · exact (extractLsb'_stampItem _ _ _ _ _ _ _ (by decide)).trans hbseq

end Sys2Proof.Machine
end

section
/-! ## A boundary of a point (R128, R131, R139) -/

namespace Sys2Proof.Machine
open Sys2Proof

variable {s t u : State} {p : ℕ}

/-! ### The block that ends -/

theorem State.closeBlock_keeps (p : ℕ) (s : State) :
    KeepsBlock p s (s.closeBlock p) ∧ ((s.closeBlock p).pt p).bseq = (s.pt p).bseq + 1#32 := by
  rw [State.closeBlock_eq]
  refine ⟨KeepsBlock.adjPt ?_ fun _ => rfl, by unfold State.bseqPast; rw [State.pt_adjPt]⟩
  split_ifs
  · exact s.keepsBlock_blockLost p
  · exact (s.keepsBlock_blockLost p).markBad
  · exact (s.keepsBlock_blockHeld p).trans (s.issuesOnly_blockIssued p).keepsBlock
  · exact s.keepsBlock_blockKept p

/-- A block of a point of another device issues nothing. -/
theorem State.closeBlock_foreign (hown : s.ownsPoint p = false) :
    (s.closeBlock p).fifo 10 = s.fifo 10 ∧ ((s.closeBlock p).pt p).busy = (s.pt p).busy ∧ ((s.closeBlock p).pt p).lost = (s.pt p).lost := by
  obtain ⟨kept, hpt⟩ := s.pt_blockKept p
  rw [State.closeBlock_eq, hown]
  simp only [Bool.false_and, Bool.false_eq_true, if_false]
  unfold State.bseqPast
  rw [State.fifo_adjPt, State.fifo_blockKept, State.pt_adjPt, hpt]
  exact ⟨rfl, rfl, rfl⟩

/-- An own block with a free slot and room in FIFO 10 is issued. -/
theorem State.closeBlock_issues (hown : s.ownsPoint p = true) (hslot : (s.pt p).busy.getLsbD ((s.pt p).bseq.toNat % 8) = false)
    (hroom : (s.fifo 10).items.length < 32) :
    ((s.closeBlock p).pt p).busy = (s.pt p).busy ||| BitVec.ofNat 8 (2 ^ ((s.pt p).bseq.toNat % 8)) ∧
      ((s.closeBlock p).pt p).gap = false ∧ ((s.closeBlock p).pt p).lost = (s.pt p).lost ∧
      (s.closeBlock p).fifo 10 = (s.blockIssued p).fifo 10 := by
  have hfull : decide (32 ≤ (s.fifo 10).items.length) = false := decide_eq_false (Nat.not_le.mpr hroom)
  have hbit : bit (s.pt p).busy ((s.pt p).bseq.toNat % 8) = false := hslot
  rw [State.closeBlock_eq, hown, hbit, hfull]
  simp only [Bool.and_false, Bool.false_eq_true, if_false, if_true]
  unfold State.bseqPast
  rw [State.fifo_adjPt, State.pt_adjPt, (s.issuesOnly_blockIssued p).pt, State.pt_blockHeld]
  exact ⟨rfl, rfl, rfl, rfl⟩

/-- An own block without a free slot, or without room in FIFO 10, is lost; in the second case its samples are bad. -/
theorem State.closeBlock_loses (hown : s.ownsPoint p = true)
    (hno : (s.pt p).busy.getLsbD ((s.pt p).bseq.toNat % 8) = true ∨ 32 ≤ (s.fifo 10).items.length) :
    ((s.closeBlock p).pt p).lost = (s.pt p).lost + 1#32 ∧ ((s.closeBlock p).pt p).gap = true ∧
      ((s.closeBlock p).pt p).busy = (s.pt p).busy ∧ AfeOnly s (s.closeBlock p) ∧
      ((s.pt p).busy.getLsbD ((s.pt p).bseq.toNat % 8) = false → s.calOpen p = true →
        ∀ k, k < 3 → ((s.closeBlock p).chan (3 * p + k)).calBad = true) := by
  have hlost := s.afeOnly_blockLost p
  have hpt := s.pt_blockLost p
  rw [State.closeBlock_eq, hown]
  unfold State.bseqPast
  rw [State.pt_adjPt]
  by_cases hbusy : (s.pt p).busy.getLsbD ((s.pt p).bseq.toNat % 8) = true
  · have hbit : bit (s.pt p).busy ((s.pt p).bseq.toNat % 8) = true := hbusy
    rw [hbit]
    simp only [Bool.and_self, if_true]
    refine ⟨?_, ?_, ?_, hlost.trans (AfeOnly.front _ _), fun hfree => ?_⟩
    · rw [hpt]
    · rw [hpt]
    · rw [hpt]
    · rw [hfree] at hbusy
      exact absurd hbusy (by decide)
  · have hbit : bit (s.pt p).busy ((s.pt p).bseq.toNat % 8) = false := Bool.eq_false_iff.mpr hbusy
    have hfull : decide (32 ≤ (s.fifo 10).items.length) = true := decide_eq_true (hno.resolve_left hbusy)
    rw [hbit, hfull]
    simp only [Bool.and_false, Bool.and_self, Bool.false_eq_true, if_false, if_true]
    have hmark := State.markBad_pointStep p (s.blockLost p)
    refine ⟨?_, ?_, ?_, (hlost.trans hmark.frame).trans (AfeOnly.front _ _), fun _ hopen k hk => ?_⟩
    · rw [hmark.point, hpt]
    · rw [hmark.point, hpt]
    · rw [hmark.point, hpt]
    · have hopen' : (s.blockLost p).calOpen p = true := by
        rw [State.calOpen_iff] at hopen ⊢
        rwa [hpt]
      exact congrArg Chan.calBad ((State.markBad_open hopen').chans k hk)

/-- The state with the block of the point in progress at its end. -/
def State.blockEnded (p : ℕ) (s : State) : State := if (s.pt p).n = 0 then s else (s.judged p).closeBlock p

/-! ### The block that begins -/

/-- The point at the beginning of a block in the period `per`. -/
def Point.begun (q : Point) (per : Bool × ℕ) : Point :=
  { q with
    n := 0, first := {}, dp := [], inval := 0, settle := 0, changes := 0, tempExt := false, theta := 0, thetaN := 0, got := 7#3,
    calBlk := false, skip := false, per := some per, cut := false, ctr := if q.cut then none else q.ctr }

/-- The next block of a point, in the second the stamping domain is in. -/
def State.nextBlock (p : ℕ) (s : State) : State :=
  ((s.adjPt p fun q => q.begun (s.sel, (s.dom s.sel).sec.toNat)).chansBegun p).calBoundary p

theorem State.boundary_eq (p : ℕ) (s : State) : s.boundary p = (s.blockEnded p).nextBlock p := rfl

/-- What the beginning of a block makes of the point and its channels. -/
theorem State.nextBlock_begins (p : ℕ) (s : State) :
    AfeOnly s (s.nextBlock p) ∧
    (∃ g cal blk, (s.nextBlock p).pt p =
      { (s.pt p).begun (s.sel, (s.dom s.sel).sec.toNat) with cgen := g, cal := cal, calBlk := blk }) ∧
    ∀ k, k < 3 → ((s.nextBlock p).chan (3 * p + k)).sum = 0 ∧ ((s.nextBlock p).chan (3 * p + k)).valid = 0 ∧
      ((s.nextBlock p).chan (3 * p + k)).cfgNew = none ∧
      ((s.nextBlock p).chan (3 * p + k)).cfg = (s.chan (3 * p + k)).cfgNew.getD (s.chan (3 * p + k)).cfg ∧
      (s.calOpen p = true → ((s.nextBlock p).chan (3 * p + k)).calBad = (s.chan (3 * p + k)).calBad) := by
  have hbegun := State.chansBegun_pointStep p (s.adjPt p fun q => q.begun (s.sel, (s.dom s.sel).sec.toNat))
  unfold State.nextBlock
  generalize State.chansBegun p (s.adjPt p fun q => q.begun (s.sel, (s.dom s.sel).sec.toNat)) = v at hbegun ⊢
  obtain ⟨hframe, hpoint, hchans⟩ := hbegun
  rw [State.pt_adjPt] at hpoint
  obtain ⟨hcalframe, hcalpoint, hcalchans⟩ := v.calBoundary_outcome p
  have hopen : s.calOpen p = true → v.calOpen p = true := fun h => by
    rw [State.calOpen_iff] at h ⊢
    rwa [hpoint]
  generalize v.calBoundary p = w at hcalframe hcalpoint hcalchans ⊢
  refine ⟨((AfeOnly.front s _).trans hframe).trans hcalframe, ⟨(w.pt p).cgen, (w.pt p).cal, (w.pt p).calBlk, ?_⟩, fun k hk => ?_⟩
  · rw [hcalpoint, hpoint]
  · obtain ⟨secs, sum, cnt, sq, bad, hchan, hbad⟩ := hcalchans k hk
    have hchank := hchans k hk
    rw [hchan]
    exact ⟨hchank.sum, hchank.valid, hchank.cfgNew, hchank.cfg, fun h => (hbad (hopen h)).trans hchank.calBad⟩

/-! ### A boundary as a whole -/

theorem AfeOnly.regs (h : AfeOnly s t) : t.regs = s.regs := by rw [h]
theorem AfeOnly.tb (h : AfeOnly s t) : t.tb = s.tb := by rw [h]
theorem AfeOnly.mem (h : AfeOnly s t) : t.mem = s.mem := by rw [h]
theorem AfeOnly.fifo (h : AfeOnly s t) (n : ℕ) : t.fifo n = s.fifo n := by rw [h]; rfl
theorem AfeOnly.ownsPoint (h : AfeOnly s t) (c : ℕ) : t.ownsPoint c = s.ownsPoint c := by rw [h]; rfl
theorem AfeOnly.custWord (h : AfeOnly s t) (c : ℕ) : t.custWord c = s.custWord c := by rw [h]; rfl
theorem AfeOnly.afePrio (h : AfeOnly s t) : t.afePrio = s.afePrio := by rw [h]; rfl

theorem State.pt_judged (p : ℕ) (s : State) : ∃ g, (s.judged p).pt p = { s.pt p with cgen := g } := ⟨_, (s.judged_pointStep p).point⟩

theorem State.blockEnded_empty (hn : (s.pt p).n = 0) : s.blockEnded p = s := if_pos hn

theorem State.blockEnded_closes (hn : (s.pt p).n ≠ 0) : s.blockEnded p = (s.judged p).closeBlock p := if_neg hn

theorem State.blockEnded_keeps (p : ℕ) (s : State) :
    (s.blockEnded p).regs = s.regs ∧ (s.blockEnded p).tb = s.tb ∧
      ((s.blockEnded p).pt p).bseq = (if (s.pt p).n = 0 then (s.pt p).bseq else (s.pt p).bseq + 1#32) ∧
      ((s.blockEnded p).pt p).cal = (s.pt p).cal ∧
      ∀ k, k < 3 → ((s.blockEnded p).chan (3 * p + k)).cfg = (s.chan (3 * p + k)).cfg ∧
        ((s.blockEnded p).chan (3 * p + k)).cfgNew = (s.chan (3 * p + k)).cfgNew := by
  by_cases hn : (s.pt p).n = 0
  · rw [State.blockEnded_empty hn, if_pos hn]
    exact ⟨rfl, rfl, rfl, rfl, fun _ _ => ⟨rfl, rfl⟩⟩
  · rw [State.blockEnded_closes hn, if_neg hn]
    obtain ⟨g, hpt⟩ := s.pt_judged p
    obtain ⟨hframe, -, hchans⟩ := s.judged_pointStep p
    obtain ⟨⟨hregs, htb, hcal, hclosed⟩, hbseq⟩ := (s.judged p).closeBlock_keeps p
    rw [hpt] at hcal hbseq
    refine ⟨hregs.trans hframe.regs, htb.trans hframe.tb, hbseq, hcal, fun k hk => ?_⟩
    rw [hclosed k hk, hchans k hk]
    exact ⟨rfl, rfl⟩

theorem State.blockEnded_foreign (hn : (s.pt p).n ≠ 0) (hown : s.ownsPoint p = false) :
    (s.blockEnded p).fifo 10 = s.fifo 10 ∧ ((s.blockEnded p).pt p).busy = (s.pt p).busy ∧ ((s.blockEnded p).pt p).lost = (s.pt p).lost := by
  obtain ⟨g, hpt⟩ := s.pt_judged p
  have hframe := (s.judged_pointStep p).frame
  have hforeign := State.closeBlock_foreign ((hframe.ownsPoint p).trans hown)
  rwa [hpt, hframe.fifo, ← State.blockEnded_closes hn] at hforeign

theorem State.blockEnded_issues (hn : (s.pt p).n ≠ 0) (hown : s.ownsPoint p = true)
    (hslot : (s.pt p).busy.getLsbD ((s.pt p).bseq.toNat % 8) = false) (hroom : (s.fifo 10).items.length < 32) :
    ((s.blockEnded p).pt p).busy = (s.pt p).busy ||| BitVec.ofNat 8 (2 ^ ((s.pt p).bseq.toNat % 8)) ∧
      ((s.blockEnded p).pt p).gap = false ∧ ((s.blockEnded p).pt p).lost = (s.pt p).lost ∧
      ∃ it, ((s.blockEnded p).fifo 10).items = (s.fifo 10).items ++ [(s.afePrio, it)] ∧ it.extractLsb' 0 96 = (s.pt p).first.st ∧
        it.extractLsb' 288 32 = s.custWord p ∧ it.extractLsb' 384 16 = BitVec.ofNat 16 (s.pt p).n ∧
        it.extractLsb' 416 32 = (s.pt p).bseq := by
  obtain ⟨g, hpt⟩ := s.pt_judged p
  have hframe := (s.judged_pointStep p).frame
  have hroom' : ((s.judged p).fifo 10).items.length < 32 := by rwa [hframe.fifo]
  have hslot' : ((s.judged p).pt p).busy.getLsbD (((s.judged p).pt p).bseq.toNat % 8) = false := by rwa [hpt]
  obtain ⟨hbusy, hgap, hlost, hfifo⟩ := State.closeBlock_issues ((hframe.ownsPoint p).trans hown) hslot' hroom'
  have hitem := State.fifo_blockIssued (p := p) hroom'
  rw [← hfifo, hframe.fifo, hframe.afePrio, hframe.custWord, hpt] at hitem
  rw [hpt] at hbusy hlost
  rw [State.blockEnded_closes hn]
  exact ⟨hbusy, hgap, hlost, hitem⟩

theorem State.blockEnded_loses (hn : (s.pt p).n ≠ 0) (hown : s.ownsPoint p = true)
    (hno : (s.pt p).busy.getLsbD ((s.pt p).bseq.toNat % 8) = true ∨ 32 ≤ (s.fifo 10).items.length) :
    ((s.blockEnded p).pt p).lost = (s.pt p).lost + 1#32 ∧ ((s.blockEnded p).pt p).gap = true ∧
      ((s.blockEnded p).pt p).busy = (s.pt p).busy ∧ AfeOnly s (s.blockEnded p) ∧
      ((s.pt p).busy.getLsbD ((s.pt p).bseq.toNat % 8) = false → s.calOpen p = true →
        ∀ k, k < 3 → ((s.blockEnded p).chan (3 * p + k)).calBad = true) := by
  obtain ⟨g, hpt⟩ := s.pt_judged p
  have hframe := (s.judged_pointStep p).frame
  have hopen : s.calOpen p = true → (s.judged p).calOpen p = true := fun h => by
    rw [State.calOpen_iff] at h ⊢
    rwa [hpt]
  have hno' : ((s.judged p).pt p).busy.getLsbD (((s.judged p).pt p).bseq.toNat % 8) = true ∨ 32 ≤ ((s.judged p).fifo 10).items.length := by
    rwa [hpt, hframe.fifo]
  obtain ⟨hlost, hgap, hbusy, honly, hbad⟩ := State.closeBlock_loses ((hframe.ownsPoint p).trans hown) hno'
  rw [hpt] at hlost hbusy hbad
  rw [State.blockEnded_closes hn]
  exact ⟨hlost, hgap, hbusy, hframe.trans honly, fun hfree h => hbad hfree (hopen h)⟩

/-- What the beginning of the next block leaves of the end of the one before. -/
theorem State.boundary_leaves (p : ℕ) (s : State) :
    ((s.boundary p).pt p).busy = ((s.blockEnded p).pt p).busy ∧ ((s.boundary p).pt p).lost = ((s.blockEnded p).pt p).lost ∧
      ((s.boundary p).pt p).gap = ((s.blockEnded p).pt p).gap ∧ (s.boundary p).fifo 10 = (s.blockEnded p).fifo 10 ∧
      (s.boundary p).mem = (s.blockEnded p).mem ∧
      (s.calOpen p = true → ∀ k, k < 3 → ((s.boundary p).chan (3 * p + k)).calBad = ((s.blockEnded p).chan (3 * p + k)).calBad) := by
  obtain ⟨-, -, -, hcal, -⟩ := s.blockEnded_keeps p
  have hopen : s.calOpen p = true → (s.blockEnded p).calOpen p = true := fun h => by
    rw [State.calOpen_iff] at h ⊢
    rwa [hcal]
  obtain ⟨hframe, ⟨g, cal, blk, hpt⟩, hchans⟩ := (s.blockEnded p).nextBlock_begins p
  rw [State.boundary_eq, hpt]
  refine ⟨rfl, rfl, rfl, hframe.fifo 10, hframe.mem, fun h k hk => ?_⟩
  obtain ⟨-, -, -, -, hbad⟩ := hchans k hk
  exact hbad (hopen h)

/-- At a boundary the point and its channels begin anew, in the second the stamping domain is in. -/
theorem State.boundary_begins (p : ℕ) (s : State) :
    (∃ q : Point, ∃ g cal blk, (s.boundary p).pt p = { q.begun (s.sel, (s.dom s.sel).sec.toNat) with cgen := g, cal := cal, calBlk := blk } ∧
      q.bseq = if (s.pt p).n = 0 then (s.pt p).bseq else (s.pt p).bseq + 1#32) ∧
    ∀ k, k < 3 → ((s.boundary p).chan (3 * p + k)).sum = 0 ∧ ((s.boundary p).chan (3 * p + k)).valid = 0 ∧
      ((s.boundary p).chan (3 * p + k)).cfgNew = none ∧
      ((s.boundary p).chan (3 * p + k)).cfg = (s.chan (3 * p + k)).cfgNew.getD (s.chan (3 * p + k)).cfg := by
  obtain ⟨hregs, htb, hbseq, -, hcfg⟩ := s.blockEnded_keeps p
  obtain ⟨-, ⟨g, cal, blk, hpt⟩, hchans⟩ := (s.blockEnded p).nextBlock_begins p
  have hsel : (s.blockEnded p).sel = s.sel := by
    unfold State.sel State.reg
    rw [hregs]
  have hdom (b : Bool) : (s.blockEnded p).dom b = s.dom b := by
    unfold State.dom
    rw [htb]
  rw [hsel, hdom] at hpt
  refine ⟨⟨_, g, cal, blk, hpt, hbseq⟩, fun k hk => ?_⟩
  obtain ⟨hsum, hvalid, hnew, hnow, -⟩ := hchans k hk
  obtain ⟨hkept, hwaits⟩ := hcfg k hk
  rw [hkept, hwaits] at hnow
  exact ⟨hsum, hvalid, hnew, hnow⟩

theorem blockClose_idle {p : Fin 32} (hdue : s.boundaryDue p.val = false) : exec (.blockClose p) s = .next s := by
  have hc : exec (.blockClose p) s = execBlockClose p s := rfl
  rw [hc, execBlockClose, hdue, Bool.and_false]
  rfl

theorem blockClose_runs {p : Fin 32} (hrun : s.fieldRuns = true) (hp : s.custPresent p.val = true) (hdue : s.boundaryDue p.val = true) :
    exec (.blockClose p) s = .next (s.boundary p.val) := by
  have hc : exec (.blockClose p) s = execBlockClose p s := rfl
  rw [hc, execBlockClose, hrun, hp, hdue]
  rfl

end Sys2Proof.Machine
end

section
/-! ## Calibration verdicts, the RTD low point and AFE_CHCFG (R128, R146, R148, R149) -/

namespace Sys2Proof.Machine
open Sys2Proof

variable {s t u : State} {i : Init} {v : W32}

/-! ### The verdict of a calibration -/

theorem State.storesOnly_openDiv (n d : ℤ) (s : State) : StoresOnly s (s.openDiv n d).2 := by
  unfold State.openDiv
  split
  · exact State.storesOnly_openRound _ _ s
  · exact State.storesOnly_openRound _ _ s

/-- Coefficients draw their roundings and nothing else. -/
theorem State.storesOnly_calCoef (c : Calib) (s : State) : StoresOnly s (s.calCoef c).2 := by
  unfold State.calCoef
  dsimp only
  split_ifs
  · exact State.storesOnly_openDiv _ _ s
  · exact State.storesOnly_openDiv _ _ s
  · split
    · rfl
    · exact (State.storesOnly_openDiv _ _ s).trans (State.storesOnly_openDiv _ _ _)

theorem StoresOnly.afe (h : StoresOnly s t) : t.afe = s.afe := by rw [h]

/-- The front end once a calibration of the point passed. -/
def State.calPassed (p chn : ℕ) (s : State) : State :=
  let s := s.setPt p { s.pt p with cal := none }
  { s with afe := { s.afe with calStatus := .ok, calReason := 0, calChan := chn } }

theorem State.pt_calPassed (p chn : ℕ) (s : State) : (s.calPassed p chn).pt p = { s.pt p with cal := none } := State.pt_setPt_same ..

/-- The channel of a passed calibration with what it holds for the next boundary (R148). -/
def State.calResult (p : ℕ) (c : Calib) (s : State) : State :=
  let x := s.chan c.chan
  let u := s.calPassed p c.chan
  if c.kind = 3 then
    u.setChan c.chan { x with low := some ((calTotal x).1, (calTotal x).2, c.ref, s.tb.elapsed), calNew := some (3, x.cz, x.cs) }
  else (u.calCoef c).2.setChan c.chan { x with calNew := some (c.kind, (u.calCoef c).1.1, (u.calCoef c).1.2) }

theorem StoresOnly.chan_setChan (h : StoresOnly s t) (c : ℕ) (x : Chan) : (t.setChan c x).afe = (s.setChan c x).afe := by
  unfold State.setChan
  rw [h.afe]

/-- The result: the calibration is over and the channel has its result waiting, the coefficients in force as they were. -/
theorem State.calResult_holds (p : ℕ) (c : Calib) (s : State) :
    ∃ d : Chan, (s.calResult p c).afe = ((s.calPassed p c.chan).setChan c.chan d).afe ∧ (∃ z q, d.calNew = some (c.kind, z, q)) ∧
      d.cz = (s.chan c.chan).cz ∧ d.cs = (s.chan c.chan).cs := by
  have hcoef := State.storesOnly_calCoef c (s.calPassed p c.chan)
  unfold State.calResult
  dsimp only
  generalize (s.calPassed p c.chan).calCoef c = r at hcoef ⊢
  split
  · next hkind => exact ⟨_, rfl, ⟨_, _, by rw [hkind]⟩, rfl, rfl⟩
  · exact ⟨_, hcoef.chan_setChan _ _, ⟨_, _, rfl⟩, rfl, rfl⟩

variable {p : Fin 32} {c : Calib}

theorem verdict_idle (hcal : (s.pt p.val).cal = some c) (h : c.started = false ∨ c.blocks < 10) : exec (.calibrationVerdict p) s = .next s := by
  have hc : exec (.calibrationVerdict p) s = execCalibrationVerdict p s := rfl
  have hno : ¬ (s.fieldRuns && c.started && decide (10 ≤ c.blocks)) = true := by
    rintro hyes
    rw [Bool.and_eq_true, Bool.and_eq_true, decide_eq_true_iff] at hyes
    obtain ⟨⟨-, hstart⟩, hten⟩ := hyes
    rcases h with hnot | hfew
    · rw [hstart] at hnot
      exact absurd hnot (by decide)
    · omega
  rw [hc]
  simp only [execCalibrationVerdict, hcal, if_neg hno]

section
variable (hrun : s.fieldRuns = true) (hcal : (s.pt p.val).cal = some c) (hstart : c.started = true) (hten : 10 ≤ c.blocks)
include hrun hcal hstart hten

theorem verdict_passes (hpass : s.calReasons p.val c = []) : exec (.calibrationVerdict p) s = .next (s.calResult p.val c) := by
  have hc : exec (.calibrationVerdict p) s = execCalibrationVerdict p s := rfl
  have hover : (s.fieldRuns && c.started && decide (10 ≤ c.blocks)) = true := by rw [hrun, hstart, decide_eq_true hten]; rfl
  rw [hc]
  unfold execCalibrationVerdict State.calResult
  extract_lets q x u
  have hcal' : (s.pt q).cal = some c := hcal
  have hpass' : s.calReasons q c = [] := hpass
  rw [hcal']
  refine (if_pos hover).trans ?_
  rw [hpass']
  by_cases hkind : c.kind = 3
  · rw [if_pos hkind, if_pos hkind]
    rfl
  · rw [if_neg hkind, if_neg hkind]
    rfl

theorem verdict_fails (hfail : s.calReasons p.val c ≠ []) :
    ∃ t u r, exec (.calibrationVerdict p) s = .next t ∧ r ∈ s.calReasons p.val c ∧ StoresOnly s u ∧ EvrOnly (u.calEnded p.val r c.chan) t := by
  have hc : exec (.calibrationVerdict p) s = execCalibrationVerdict p s := rfl
  rw [hc]
  cases hreasons : s.calReasons p.val c with
  | nil => exact absurd hreasons hfail
  | cons r rs =>
    cases rs with
    | nil =>
      simp only [execCalibrationVerdict, hcal, hrun, hstart, hten, hreasons, decide_true, Bool.and_self, if_true]
      exact ⟨_, s, r, rfl, List.mem_singleton.mpr rfl, rfl, State.calReject_ends hcal⟩
    | cons r' rs =>
      simp only [execCalibrationVerdict, hcal, hrun, hstart, hten, hreasons, decide_true, Bool.and_self, if_true]
      refine ⟨_, (s.draw 8).2, _, rfl, ?_, rfl, State.calReject_ends hcal⟩
      have hlt : (s.draw 8).1.toNat % (r :: r' :: rs).length < (r :: r' :: rs).length := Nat.mod_lt _ (by simp)
      rw [List.getD_eq_getElem _ _ hlt]
      exact List.getElem_mem hlt

end

/-! ### The RTD low point -/

theorem lowPoint_expires {ch : Fin 96} {a r : ℤ} {b at_ : ℕ} (hmain : s.pwr.mainOn = true) (hlow : (s.chan ch.val).low = some (a, b, r, at_))
    (hpast : at_ + 600 * 125000000 ≤ s.tb.elapsed) :
    exec (.rtdLowPointExpiry ch) s = .next (s.setChan ch.val { s.chan ch.val with low := none }) := by
  have hc : exec (.rtdLowPointExpiry ch) s = execRtdLowPointExpiry ch s := rfl
  have hpast' : s.past at_ (600 * sCounts) = true := decide_eq_true hpast
  rw [hc]
  simp only [execRtdLowPointExpiry, hlow, hmain, hpast', Bool.and_self, if_true]

theorem lowPoint_held {ch : Fin 96} {a r : ℤ} {b at_ : ℕ} (hlow : (s.chan ch.val).low = some (a, b, r, at_))
    (hearly : s.tb.elapsed < at_ + 600 * 125000000) : exec (.rtdLowPointExpiry ch) s = .next s := by
  have hc : exec (.rtdLowPointExpiry ch) s = execRtdLowPointExpiry ch s := rfl
  have hpast' : s.past at_ (600 * sCounts) = false := decide_eq_false (Nat.not_le.mpr hearly)
  rw [hc]
  simp only [execRtdLowPointExpiry, hlow, hpast', Bool.and_false, Bool.false_eq_true, if_false]

/-! ### Writes of AFE_CHCFG -/

theorem State.regWrite_chcfg (h : Reaches i 0x0F0004 s) (hi : i.heartwood = true) :
    s.regWrite i 0x0F0004 v = writeAfe i (.one 0x04 .h 2500 0xFFF73FFF#32) 0x0F0004 v.toNat s := by
  have hr : regRow 0x0F0004 = some (.one 0x04 .h 2500 0xFFF73FFF#32) := by decide
  obtain ⟨-, -, hfence, hpresent⟩ := h
  have hg : s.regGate i 0x0F0004 = .ok (.one 0x04 .h 2500 0xFFF73FFF#32) := by simp [State.regGate, hfence, hr, hpresent, hi]
  unfold State.regWrite
  rw [hg]
  rfl

theorem State.regWrite_chcfg_denied (h : Reaches i 0x0F0004 s) (hi : i.heartwood = false) : s.regWrite i 0x0F0004 v = (.denied, s) := by
  have hr : regRow 0x0F0004 = some (.one 0x04 .h 2500 0xFFF73FFF#32) := by decide
  obtain ⟨-, -, hfence, hpresent⟩ := h
  have hg : s.regGate i 0x0F0004 = .error .denied := by simp [State.regGate, hfence, hr, hpresent, hi, RegRow.one]
  unfold State.regWrite
  rw [hg]

/-- The channel of AFE_SEL. -/
abbrev State.chSel (s : State) : ℕ := ((s.reg 0x0F0000).extractLsb' 0 7).toNat

theorem State.afeAbsent_chcfg (s : State) : s.afeAbsent 0x0F0004 = s.chAbsent s.chSel := rfl

theorem State.chcfg_absent (h : Reaches i 0x0F0004 s) (hi : i.heartwood = true) (ha : s.chAbsent s.chSel = true) :
    s.regWrite i 0x0F0004 v = (.absent, s) := by
  rw [State.regWrite_chcfg h hi]
  unfold writeAfe
  rw [State.afeAbsent_chcfg, ha]
  rfl

/-- A configuration taken for channel `ch` waits for the next boundary, and ends a calibration of the channel. -/
def State.chcfgTaken (ch : ℕ) (w : W32) (s : State) : State :=
  let u := s.setChan ch { s.chan ch with cfgNew := some w }
  match (u.pt (ch / 3)).cal with
  | some c => if c.chan = ch then u.calReject (ch / 3) 9 else u
  | none => u

theorem State.chcfgTaken_other {ch : ℕ} {w : W32} (h : ∀ c, (s.pt (ch / 3)).cal = some c → c.chan ≠ ch) :
    s.chcfgTaken ch w = s.setChan ch { s.chan ch with cfgNew := some w } := by
  unfold State.chcfgTaken
  dsimp only
  rw [State.pt_setChan]
  cases hcal : (s.pt (ch / 3)).cal with
  | none => rfl
  | some c => exact if_neg (h c hcal)

theorem State.chcfgTaken_own {ch : ℕ} {w : W32} {c : Calib} (hcal : (s.pt (ch / 3)).cal = some c) (hch : c.chan = ch) :
    EvrOnly ((s.setChan ch { s.chan ch with cfgNew := some w }).calEnded (ch / 3) 9 c.chan) (s.chcfgTaken ch w) := by
  have heq : s.chcfgTaken ch w = (s.setChan ch { s.chan ch with cfgNew := some w }).calReject (ch / 3) 9 := by
    unfold State.chcfgTaken
    dsimp only
    rw [State.pt_setChan, hcal]
    exact if_pos hch
  rw [heq]
  exact State.calReject_ends (by rwa [State.pt_setChan])

theorem State.chan_chcfgTaken (ch : ℕ) (w : W32) (s : State) : (s.chcfgTaken ch w).chan ch = { s.chan ch with cfgNew := some w } := by
  by_cases h : ∃ c, (s.pt (ch / 3)).cal = some c ∧ c.chan = ch
  · obtain ⟨c, hcal, hch⟩ := h
    rw [(State.chcfgTaken_own hcal hch).chan, State.chan_calEnded, State.chan_setChan_same]
  · rw [State.chcfgTaken_other fun c hcal hch => h ⟨c, hcal, hch⟩, State.chan_setChan_same]

theorem State.chcfg_taken (h : Reaches i 0x0F0004 s) (hi : i.heartwood = true) (ha : s.chAbsent s.chSel = false)
    (hok : chcfgCheck s.chSel v.toNat = .ok) :
    s.regWrite i 0x0F0004 v = (.ok, s.chcfgTaken s.chSel (v &&& 0xFFF73FFF#32)) := by
  have hsel : s.regF 0x0F0000 0 7 = s.chSel := rfl
  rw [State.regWrite_chcfg h hi]
  unfold writeAfe
  rw [State.afeAbsent_chcfg, ha, hsel, if_neg (by decide), if_neg (by decide), if_neg (by decide), if_pos rfl, hok, BitVec.ofNat_toNat,
    BitVec.setWidth_eq]
  rfl

theorem State.chcfg_refused {st : Status} (h : Reaches i 0x0F0004 s) (hi : i.heartwood = true) (ha : s.chAbsent s.chSel = false)
    (hbad : chcfgCheck s.chSel v.toNat = st) (hst : st ≠ .ok) : s.regWrite i 0x0F0004 v = (st, s) := by
  have hsel : s.regF 0x0F0000 0 7 = s.chSel := rfl
  rw [State.regWrite_chcfg h hi]
  unfold writeAfe
  rw [State.afeAbsent_chcfg, ha, hsel, if_neg (by decide), if_neg (by decide), if_neg (by decide), if_pos rfl, hbad]
  cases st with
  | ok => exact absurd rfl hst
  | _ => rfl

/-- A configuration that passes its check is taken. -/
theorem afeChcfgWrite_takes (h : Reaches i 0x0F0004 s) (hi : i.heartwood = true) (ha : s.chAbsent s.chSel = false)
    (hok : chcfgCheck s.chSel v.toNat = .ok) :
    Responds (.afeChcfgWrite i v) i .ok s (fun t => t.afe = (s.chcfgTaken s.chSel (v &&& 0xFFF73FFF#32)).afe) :=
  responds_of_regWrite rfl h (State.chcfg_taken h hi ha hok) fun _ _ => rfl

/-- A write that is refused leaves the front end as it was. -/
theorem afeChcfgWrite_refused {st : Status} (h : Reaches i 0x0F0004 s) (hw : s.regWrite i 0x0F0004 v = (st, s)) :
    Responds (.afeChcfgWrite i v) i st s (fun t => t.afe = s.afe) :=
  responds_of_regWrite rfl h hw fun _ _ => rfl

theorem chcfgCheck_mode {ch : ℕ} (h : 5 ≤ (v.extractLsb' 28 3).toNat) : chcfgCheck ch v.toNat = .denied := by
  rw [← vf_eq_extractLsb'] at h
  exact if_pos h

theorem chcfgCheck_bounds {ch : ℕ} (hmode : (v.extractLsb' 28 3).toNat < 5)
    (h : (v.extractLsb' 0 14).toNat < 1000 ∨ 10000 < (v.extractLsb' 0 14).toNat) : chcfgCheck ch v.toNat = .outOfRange := by
  rw [← vf_eq_extractLsb'] at hmode
  rw [← vf_eq_extractLsb'] at h
  unfold chcfgCheck
  rw [if_neg (Nat.not_le.mpr hmode), if_pos (.inr (.inr (.inr h)))]

end Sys2Proof.Machine
end

section
/-! ## Obligation O26 (R13, R128 to R140, R146, R148) -/

open Sys2Proof Sys2Proof.Machine

/-- Settles O26: a transfer opens an instant or spoils it, a sample is `takeSample` in the instant of its centre, a boundary is the end
of one block and the beginning of the next, and a verdict is the result of a calibration or its end. -/
theorem sampleChain : Obligations.SampleChain := by
  unfold Obligations.SampleChain
  refine ⟨⟨?centre, ?transfers, ?dropped, ?samples, ?config, ?refused, ?lowPoint⟩, ?blocks, ?verdict, ?running⟩
  case centre =>
    intro p c s
    exact ⟨fun h => State.sampleState_lost h p, State.sampleState_centre, State.sampleState_boundary, State.centre_bounds⟩
  case transfers =>
    intro p ok s hrun hp
    refine ⟨transfer_idle ok hrun hp, fun c u hstate hact hfree => ⟨?opens, ?drops⟩⟩
    case opens =>
      obtain ⟨t, hstep, rfl⟩ := transfer_opens hrun hp hstate hact hfree
      refine ⟨_, hstep, ?_⟩
      beta_reduce
      rw [State.pt_openInstant]
      exact ⟨rfl, rfl, rfl, rfl, rfl, rfl⟩
    case drops =>
      obtain ⟨t, hstep, hafe⟩ := transfer_drops hrun hp hstate hact hfree
      obtain ⟨⟨g, k', hpt⟩, hchan⟩ := u.instantDropped_keeps p.val c
      have hbad {k : Calib} (hcal : (u.pt p.val).cal = some k) (hstart : k.started = true) (hopen : k.blocks < 10) {j : ℕ} (hj : j < 3) :
          (t.chan (3 * p.val + j)).calBad = true := by
        rw [State.chan_of_afe hafe, hchan]
        exact State.calBad_instantSpoiled hcal hstart hopen hj
      have hpt' := (State.pt_of_afe hafe p.val).trans hpt
      refine ⟨t, hstep, congrArg Point.n hpt', congrArg Point.dp hpt', congrArg Point.got hpt', congrArg Point.inval hpt',
        fun k hcal hstart hopen => ⟨hbad hcal hstart hopen (j := 0) (by decide),
        hbad hcal hstart hopen (j := 1) (by decide), hbad hcal hstart hopen (j := 2) (by decide), fun hlate => ?_, fun hearly => ?_⟩⟩
      · rw [State.pt_of_afe hafe, hafe]
        exact State.instantDropped_late hcal hstart hlate hopen
      · rw [State.pt_of_afe hafe]
        exact State.instantDropped_early hcal hearly
  case dropped =>
    intro i n s hrun
    exact ⟨edges_dropped hrun, converter_dropped hrun⟩
  case samples =>
    intro ch x theta o m s u p k c q hrun hp hstate hact hopen joins dp0 low sat x' y
    obtain ⟨w, hstep, hchan, hreg, hpt⟩ := decimatedSample_takes (x := x) (theta := theta) (o := o) hrun hp hstate hact hopen
    obtain ⟨hsampled, hpoint, hothers⟩ := takeSample_outcome ch.val x theta.toInt o w
    obtain ⟨hctr, hn, hdp, hthetaN, htheta⟩ := Point.joined_fields q m _ hpt
    obtain ⟨hlo, hhi⟩ := sampleValue_bounds c x theta.toInt
    rw [hchan, hreg] at hsampled
    rw [hchan] at hpoint
    refine ⟨_, hstep, ?_⟩
    beta_reduce
    generalize w.takeSample ch.val x theta.toInt o = t at hsampled hpoint hothers ⊢
    refine ⟨hsampled.sum, hsampled.raw, hsampled.valid, hsampled.clipped, ?got, hpoint.ctr.trans hctr, hpoint.n.trans hn, ?dp,
      hpoint.thetaN.trans (congrArg (· + 1) hthetaN), hpoint.theta.trans (congrArg (· + theta.toInt) htheta), hlo, hhi,
      fun hk => hsampled.halved (decide_eq_true hk), fun d hd => (hothers d hd).trans (hchan d)⟩
    case got =>
      rw [hpoint.got]
      exact getLsbD_got _ (Nat.mod_lt _ (by decide))
    case dp =>
      have hstored := hpoint.dp
      rwa [hdp] at hstored
  case config =>
    intro i v s ch h hi
    refine ⟨fun ha => afeChcfgWrite_refused h (State.chcfg_absent h hi ha), fun ha => ⟨fun hok => ?taken, fun hmode => ?mode,
      fun hmode hbounds => ?bounds⟩⟩
    case taken =>
      refine (afeChcfgWrite_takes h hi ha hok).mono fun t hafe => ?_
      have hchan := (State.chan_of_afe hafe ch).trans (s.chan_chcfgTaken ch _)
      refine ⟨by rw [hchan], by rw [hchan], fun c hcal hch => ?_⟩
      have hends := State.chcfgTaken_own (w := v &&& 0xFFF73FFF#32) hcal hch
      rw [State.pt_of_afe (hafe.trans hends.afe), hafe, hends.afe, State.pt_calEnded]
      exact ⟨rfl, rfl, rfl⟩
    case mode => exact afeChcfgWrite_refused h (State.chcfg_refused h hi ha (chcfgCheck_mode hmode) (by decide))
    case bounds => exact afeChcfgWrite_refused h (State.chcfg_refused h hi ha (chcfgCheck_bounds hmode hbounds) (by decide))
  case refused =>
    intro i v s h hi
    exact afeChcfgWrite_refused h (State.regWrite_chcfg_denied h hi)
  case lowPoint =>
    intro ch a b r at_ s hmain hlow
    exact ⟨lowPoint_expires hmain hlow, lowPoint_held hlow⟩
  case blocks =>
    intro p s hrun hp
    refine ⟨blockClose_idle, fun hdue => ?_⟩
    intro q
    refine ⟨s.boundary p.val, blockClose_runs hrun hp hdue, ?_⟩
    obtain ⟨⟨q', g, cal, blk, hpt, hbseq⟩, hchans⟩ := s.boundary_begins p.val
    obtain ⟨hbusy, hlost, hgap, hfifo, hmem, hbad⟩ := s.boundary_leaves p.val
    generalize s.boundary p.val = t at hpt hchans hbusy hlost hgap hfifo hmem hbad ⊢
    refine ⟨congrArg Point.n hpt, congrArg Point.dp hpt, congrArg Point.inval hpt, congrArg Point.thetaN hpt, congrArg Point.cut hpt,
      congrArg Point.per hpt, (congrArg Point.bseq hpt).trans hbseq, hchans, fun hn => ?empty, fun hn hown => ?foreign,
      fun hn hown => ⟨fun hslot hroom => ?issued, fun hno => ?lost⟩⟩
    case empty =>
      rw [State.blockEnded_empty hn] at hbusy hlost hfifo hmem
      exact ⟨hfifo, hmem, hbusy, hlost⟩
    case foreign =>
      obtain ⟨hfifo', hbusy', hlost'⟩ := State.blockEnded_foreign hn hown
      exact ⟨hfifo.trans hfifo', hbusy.trans hbusy', hlost.trans hlost'⟩
    case issued =>
      obtain ⟨hbusy', hgap', hlost', hitem⟩ := State.blockEnded_issues hn hown hslot hroom
      rw [← hfifo] at hitem
      exact ⟨hbusy.trans hbusy', hgap.trans hgap', hlost.trans hlost', hitem⟩
    case lost =>
      obtain ⟨hlost', hgap', hbusy', hframe, hbad'⟩ := State.blockEnded_loses hn hown hno
      exact ⟨hlost.trans hlost', hgap.trans hgap', hbusy.trans hbusy', hfifo.trans (hframe.fifo 10), hmem.trans hframe.mem,
        fun hslot hopen k hk => (hbad hopen k hk).trans (hbad' hslot hopen k hk)⟩
  case verdict =>
    intro p c s hrun hcal hstart hten
    refine ⟨fun hpass => ⟨_, verdict_passes hrun hcal hstart hten hpass, ?_⟩, fun hfail => ?_⟩
    · obtain ⟨d, hafe, hnew, hcz, hcs⟩ := s.calResult_holds p.val c
      generalize s.calResult p.val c = t at hafe ⊢
      have hchan := (State.chan_of_afe hafe c.chan).trans (State.chan_setChan_same ..)
      have hpt := ((State.pt_of_afe hafe p.val).trans (State.pt_setChan ..)).trans (State.pt_calPassed ..)
      rw [hchan, hpt, hafe]
      exact ⟨rfl, rfl, rfl, rfl, hnew, hcz, hcs⟩
    · obtain ⟨t, u, r, hstep, hmem, hdraw, hends⟩ := verdict_fails hrun hcal hstart hten hfail
      refine ⟨t, hstep, ?_⟩
      beta_reduce
      rw [hends.pt, hends.afe, State.pt_calEnded]
      have hchans : (u.calEnded p.val r c.chan).afe.chans = u.afe.chans := rfl
      exact ⟨rfl, rfl, hmem, rfl, hchans.trans (congrArg Afe.chans hdraw.afe)⟩
  case running =>
    intro p c s hcal h
    exact verdict_idle hcal h
end
